-- ==== Sys2Proof/Word.lean ====
section
/-! DEFINITION. The word types of the Synurn Z64 and their plainest arithmetic (R3). -/

namespace Sys2Proof

/-- One byte of memory. -/
abbrev Byte := BitVec 8

/-- A 32-bit syllable of a stream image, or a 32-bit register field (R112). -/
abbrev W32 := BitVec 32

/-- A 64-bit scalar register, address or record word (R18). -/
abbrev W64 := BitVec 64

/-- A cause code: two hexadecimal digits (R4). -/
abbrev Cause := BitVec 8

end Sys2Proof
end

