-- ==== Sys2Proof/Syntax.lean ====
section
/-! DEFINITION. The instructions of the Synurn Z64: one constructor of `Instr` for each row of
spec/opcode_table.json (items of programs first, then most events), with the operand forms its encodings give.
Stream operations carry the fields of R116 to R127; copy-engine commands carry their record (R298),
circuit words their fields (R344 to R351), packets their words (R386), and the remaining steps name the
part of the machine they concern. -/

namespace Sys2Proof

/-- The three instruction streams of a core (R18). -/
inductive StreamId where
  | l | c | s
deriving DecidableEq, Repr, Inhabited

/-- The guard of an operation: PG and PN (R116). -/
structure Guard where
  p : BitVec 4
  neg : Bool
deriving DecidableEq, Repr, Inhabited

/-- The second source of an SA-format operation: g[B] or IMM7 (R121). -/
inductive SrcB where
  | reg (b : BitVec 5)
  | imm (i : BitVec 7)
deriving DecidableEq, Repr, Inhabited

/-- The second source of CMP: g[B] or IMM5 (R121). -/
inductive SrcC where
  | reg (b : BitVec 5)
  | imm (i : BitVec 5)
deriving DecidableEq, Repr, Inhabited

/-- A wide immediate or offset: IMM32 with LEN = 0b01, IMM64 with LEN = 0b10 (R122, R158). -/
inductive Wide where
  | i32 (v : W32)
  | i64 (v : W64)
deriving DecidableEq, Repr, Inhabited

/-- The condition of CMP (R121). -/
inductive Cond where
  | eq | ne | lt | le | gt | ge | ltn | len
deriving DecidableEq, Repr, Inhabited

/-- The scopes, from narrowest to widest (R6, R127). -/
inductive Scope where
  | quad | layer | tile | panel | system
deriving DecidableEq, Repr, Inhabited

/-- A barrier operand scope.bN (R127). -/
structure BarOp where
  scope : Scope
  n : BitVec 5
deriving DecidableEq, Repr, Inhabited

/-- Element types of integer vector operations (R125). -/
inductive IntTy where
  | i8 | i16 | i32 | n8 | n16 | n32
deriving DecidableEq, Repr, Inhabited

/-- Element types of floating-point vector operations (R125). -/
inductive FpTy where
  | f32 | bf16 | f16
deriving DecidableEq, Repr, Inhabited

/-- The amount of a funnel shift: K8[6:0], or the register C (R196). -/
inductive FunnelAmt where
  | imm (k : BitVec 7)
  | reg (c : BitVec 5)
deriving DecidableEq, Repr, Inhabited

/-- The operation of a reduction (R201). -/
inductive RedOp where
  | add | min | max | and | or | xor
deriving DecidableEq, Repr, Inhabited

/-- The two forms of LDL (R158). -/
inductive LdlForm where
  | reg (d : BitVec 5) (sz : BitVec 2) (sx : Bool)
  | queue (q : BitVec 3) (e : BitVec 5)
deriving DecidableEq, Repr, Inhabited

/-- The two forms of ST and STL (R212). -/
inductive StForm where
  | reg (b : BitVec 5) (sz : BitVec 2)
  | queue (q : BitVec 3) (e : BitVec 5)
deriving DecidableEq, Repr, Inhabited

/-- A section header (R113); its reserved field is zero in every decoded header. -/
structure Header where
  sp : Bool
  pp : Bool
  ma : Bool
  mb : Bool
  len : BitVec 16
  na : BitVec 16
  nb : BitVec 16
deriving DecidableEq, Repr, Inhabited

/-- A 64-byte command record, as eight words (R298). -/
structure CmdRecord where
  w0 : W64
  w1 : W64
  w2 : W64
  w3 : W64
  w4 : W64
  w5 : W64
  w6 : W64
  w7 : W64
deriving DecidableEq, Repr, Inhabited

/-- A queue packet, as its 64-bit words (R386). -/
structure Packet where
  words : List W64
deriving DecidableEq, Repr, Inhabited

/-- An end of a fabric port: physical tile, port 0 to 13, transmit or receive end (R333, R368). -/
structure PortEnd where
  tile : Nat
  port : Nat
  tx : Bool
deriving DecidableEq, Repr, Inhabited

/-- A flit at a receive end (R336): its 256 bytes after correction, the symbols in error of its two
codewords, and the symbols corrected per wavelength. The errors are the physical layer's input. -/
structure Flit where
  bytes : List Byte
  errs0 : Nat
  errs1 : Nat
  corr : List Nat
  /-- Marked poisoned by the sender (R338), and for a skip control flit the LSEQ it names (R339): the manual does not say
  which bits of a flit carry these. -/
  poisoned : Bool := false
  skip : Option (BitVec 16) := none
deriving DecidableEq, Repr, Inhabited

/-- What a transmit end is given to send (R336): the fields of a flit but for those that the end itself makes, LSEQ, CHECK
and FEC. -/
structure FlitOut where
  type : BitVec 4
  pen : Bool
  nb : BitVec 2
  sseq : W32
  src : BitVec 12
  addr : BitVec 56
  opx : Byte
  xid : BitVec 48
  payload : List Byte
deriving DecidableEq, Repr, Inhabited

/-- The view an end exchanges in training: its lane map, and whether it runs at 112 Gb/s (R359). -/
structure LaneView where
  lanes : BitVec 8
  half : Bool
deriving DecidableEq, Repr, Inhabited

/-- Where an uncorrectable error strikes (R78). -/
inductive MemLoc where
  | panel (tile off : Nat)
  | lm (core off : Nat)
  | host (addr : Nat)
deriving DecidableEq, Repr, Inhabited

/-- A host access through the HDM range (R372). -/
inductive HdmOp where
  | read (n : Nat)
  | write (bs : List Byte)
deriving DecidableEq, Repr, Inhabited

/-- The readings of a layer's four temperature sensors, in units of 0.25 °C (R417, R433). -/
structure SensorReadings where
  t0 : Int
  t1 : Int
  t2 : Int
  t3 : Int
deriving DecidableEq, Repr, Inhabited

/-- A signed configuration record in module flash (R431): its header and payload bytes, and the vendor's signature of them. -/
structure ConfigRecord where
  bytes : List Byte
  /-- The signature, r ‖ s. -/
  sig : List Byte
deriving DecidableEq, Repr, Inhabited

/-- What a boot finds: the vendor's public key in the boot ROM, the SRAM power-up secret after correction, the images of
layers 1 and 2 with their vendor signatures, and the configuration records (R410, R431). Log 48, DESIGN CHOICE. -/
structure BootInput where
  vendor : Nat × Nat
  uds : List Byte
  img1 : List Byte
  sig1 : List Byte
  img2 : List Byte
  sig2 : List Byte
  records : List ConfigRecord
deriving DecidableEq, Repr, Inhabited

/-- An SPDM request as it arrives over the DOE mailbox (R411): its two parameter bytes, an offset and
length (GET_CERTIFICATE), a nonce (CHALLENGE, GET_MEASUREMENTS), and whether it offers ECDSA P-256 and SHA-256
(NEGOTIATE_ALGORITHMS). -/
structure SpdmRequest where
  p1 : Byte
  p2 : Byte
  offset : Nat
  length : Nat
  nonce : List Byte
  p256 : Bool := true
  sha : Bool := true
  /-- The slot whose key signs the measurements (GET_MEASUREMENTS). -/
  slot : Byte := 0
deriving DecidableEq, Repr, Inhabited

/-- An answer of the SPDM responder (R411), without its signature. -/
inductive SpdmAnswer where
  | version (v : Byte)
  | capabilities (flags : List Byte)
  | algorithms (ecdsaP256 sha256 : Bool)
  | digests (d : List Byte)
  | certificate (portion : List Byte) (remainder : Nat)
  /-- The nonce, the digest of the chain, and the digest of the measurements where it was asked for. -/
  | challengeAuth (nonce hash : List Byte) (summary : Option (List Byte))
  /-- How many measurements there are, and those that were asked for. -/
  | measurements (count : Nat) (ms : List (Nat × List Byte)) (nonce : List Byte)
  | error
deriving DecidableEq, Repr, Inhabited

/-- The steps of the Synurn Z64, one constructor per row of the table of operations and events. -/
inductive Instr where
  /-- NOP fills a slot or a word (R147). -/
  | nop
  /-- MOVI (R145). -/
  | movi (gd : Guard) (d : BitVec 5) (imm : BitVec 13)
  /-- MOVI, wide form (R122). -/
  | moviWide (gd : Guard) (d : BitVec 5) (imm : Wide)
  /-- MOVHI (R145). -/
  | movhi (gd : Guard) (d : BitVec 5) (imm : BitVec 13)
  /-- MOVHI with IMM32 (R122). -/
  | movhiWide (gd : Guard) (d : BitVec 5) (imm : W32)
  /-- MOV (R145). -/
  | mov (gd : Guard) (d a : BitVec 5)
  /-- ADD (R145). -/
  | add (gd : Guard) (d a : BitVec 5) (b : SrcB)
  /-- ADD, wide form (R122). -/
  | addWide (gd : Guard) (d a : BitVec 5) (imm : Wide)
  /-- ADDI (R145). -/
  | addi (gd : Guard) (d : BitVec 5) (imm : BitVec 13)
  /-- ADDI, wide form (R122). -/
  | addiWide (gd : Guard) (d : BitVec 5) (imm : Wide)
  /-- SUB (R145). -/
  | sub (gd : Guard) (d a : BitVec 5) (b : SrcB)
  /-- SUB, wide form (R122). -/
  | subWide (gd : Guard) (d a : BitVec 5) (imm : Wide)
  /-- MUL (R145). -/
  | mul (gd : Guard) (d a : BitVec 5) (b : SrcB)
  /-- MUL, wide form (R122). -/
  | mulWide (gd : Guard) (d a : BitVec 5) (imm : Wide)
  /-- MULH (R145). -/
  | mulh (gd : Guard) (d a : BitVec 5) (b : SrcB)
  /-- MULH.n (R145). -/
  | mulhN (gd : Guard) (d a : BitVec 5) (b : SrcB)
  /-- AND (R145). -/
  | and (gd : Guard) (d a : BitVec 5) (b : SrcB)
  /-- AND, wide form (R122). -/
  | andWide (gd : Guard) (d a : BitVec 5) (imm : Wide)
  /-- ANDN (R145). -/
  | andn (gd : Guard) (d a : BitVec 5) (b : SrcB)
  /-- ANDN, wide form (R122). -/
  | andnWide (gd : Guard) (d a : BitVec 5) (imm : Wide)
  /-- OR (R145). -/
  | or (gd : Guard) (d a : BitVec 5) (b : SrcB)
  /-- OR, wide form (R122). -/
  | orWide (gd : Guard) (d a : BitVec 5) (imm : Wide)
  /-- XOR (R145). -/
  | xor (gd : Guard) (d a : BitVec 5) (b : SrcB)
  /-- XOR, wide form (R122). -/
  | xorWide (gd : Guard) (d a : BitVec 5) (imm : Wide)
  /-- SHL (R145). -/
  | shl (gd : Guard) (d a : BitVec 5) (b : SrcB)
  /-- SHR (R145). -/
  | shr (gd : Guard) (d a : BitVec 5) (b : SrcB)
  /-- SAR (R145). -/
  | sar (gd : Guard) (d a : BitVec 5) (b : SrcB)
  /-- ROT (R145). -/
  | rot (gd : Guard) (d a : BitVec 5) (b : SrcB)
  /-- CLZ (R145). -/
  | clz (gd : Guard) (d a : BitVec 5)
  /-- POPC (R145). -/
  | popc (gd : Guard) (d a : BitVec 5)
  /-- MIN (R145). -/
  | min (gd : Guard) (d a : BitVec 5) (b : SrcB)
  /-- MIN, wide form (R122). -/
  | minWide (gd : Guard) (d a : BitVec 5) (imm : Wide)
  /-- MIN.n (R145). -/
  | minN (gd : Guard) (d a : BitVec 5) (b : SrcB)
  /-- MIN.n, wide form (R122). -/
  | minNWide (gd : Guard) (d a : BitVec 5) (imm : Wide)
  /-- MAX (R145). -/
  | max (gd : Guard) (d a : BitVec 5) (b : SrcB)
  /-- MAX, wide form (R122). -/
  | maxWide (gd : Guard) (d a : BitVec 5) (imm : Wide)
  /-- MAX.n (R145). -/
  | maxN (gd : Guard) (d a : BitVec 5) (b : SrcB)
  /-- MAX.n, wide form (R122). -/
  | maxNWide (gd : Guard) (d a : BitVec 5) (imm : Wide)
  /-- CMP.cc (R146). -/
  | cmp (gd : Guard) (pd : BitVec 4) (cc : Cond) (a : BitVec 5) (b : SrcC)
  /-- CMP.cc, wide form (R122). -/
  | cmpWide (gd : Guard) (pd : BitVec 4) (cc : Cond) (a : BitVec 5) (imm : Wide)
  /-- SEL (R145). -/
  | sel (gd : Guard) (d a b : BitVec 5) (ps : BitVec 3)
  /-- BR with Q = 0 (R149). -/
  | br (gd : Guard) (off : BitVec 17)
  /-- BR with Q = 1 (R149). -/
  | brBq (off : BitVec 17)
  /-- JMP to an offset (R150). -/
  | jmp (gd : Guard) (off : BitVec 17)
  /-- JMP through a register (R150). -/
  | jmpReg (gd : Guard) (a : BitVec 5)
  /-- CALL to an offset (R150). -/
  | call (gd : Guard) (off : BitVec 17)
  /-- CALL through a register (R150). -/
  | callReg (gd : Guard) (a : BitVec 5)
  /-- RET (R150). -/
  | ret (gd : Guard)
  /-- LOOP (R151, R183). -/
  | loop (gd : Guard) (a : BitVec 5) (body : BitVec 13)
  /-- RDSR (R147). -/
  | rdsr (gd : Guard) (d : BitVec 5) (srn : BitVec 13)
  /-- WRSR (R147). -/
  | wrsr (gd : Guard) (a : BitVec 5) (srn : BitVec 13)
  /-- TRAP (R147). -/
  | trap (gd : Guard) (code : BitVec 8)
  /-- FIN (R147). -/
  | fin (gd : Guard)
  /-- The stream reaches a header (R113, R114). -/
  | sectionHeader (h : Header)
  /-- A section of the stream retires (R114). -/
  | sectionRetire (c : Nat) (st : StreamId)
  /-- LD (R158, R159). -/
  | ld (gd : Guard) (d a : BitVec 5) (sz : BitVec 2) (sx : Bool)
  /-- LD with an offset (R158). -/
  | ldOffset (gd : Guard) (d a : BitVec 5) (sz : BitVec 2) (sx : Bool) (off : Wide)
  /-- LDL into a register (R158). -/
  | ldl (gd : Guard) (d a : BitVec 5) (sz : BitVec 2) (sx : Bool)
  /-- LDL into an lq entry (R158). -/
  | ldlQ (gd : Guard) (q : BitVec 3) (a e : BitVec 5)
  /-- LDL with an offset (R158). -/
  | ldlOffset (gd : Guard) (f : LdlForm) (a : BitVec 5) (off : Wide)
  /-- LDR (R158). -/
  | ldr (gd : Guard) (q : BitVec 3) (a e : BitVec 5)
  /-- LDR with an offset (R158). -/
  | ldrOffset (gd : Guard) (q : BitVec 3) (a e : BitVec 5) (off : Wide)
  /-- LDS (R169). -/
  | lds (gd : Guard) (q : BitVec 3) (st : BitVec 4)
  /-- GATH (R160). -/
  | gath (gd : Guard) (q : BitVec 3) (sp : Bool) (esz : BitVec 2) (a b : BitVec 5)
  /-- GATH with an element count (R160). -/
  | gathN (gd : Guard) (q : BitVec 3) (sp : Bool) (esz : BitVec 2) (a b : BitVec 5) (nm1 : BitVec 8)
  /-- STCFG (R168). -/
  | stcfg (gd : Guard) (st : BitVec 4) (a : BitVec 5)
  /-- STCFG with an offset (R168). -/
  | stcfgOffset (gd : Guard) (st : BitVec 4) (a : BitVec 5) (off : Wide)
  /-- STADV (R171). -/
  | stadv (gd : Guard) (st : BitVec 4) (a b : BitVec 5)
  /-- STADV.skip (R171). -/
  | stadvSkip (gd : Guard) (st : BitVec 4) (a : BitVec 5)
  /-- STADV with IMM32 (R171). -/
  | stadvImm (gd : Guard) (st : BitVec 4) (skip : Bool) (b : BitVec 5) (imm : W32)
  /-- PREF (R164). -/
  | pref (gd : Guard) (lvl : BitVec 2) (a : BitVec 5) (n : BitVec 8)
  /-- PREF with an offset (R164). -/
  | prefOffset (gd : Guard) (lvl : BitVec 2) (a : BitVec 5) (n : BitVec 8) (off : Wide)
  /-- LDLAY (R172). -/
  | ldlay (gd : Guard) (d a : BitVec 5) (k : BitVec 3)
  /-- LDLAY with an offset (R172). -/
  | ldlayOffset (gd : Guard) (d a : BitVec 5) (k : BitVec 3) (off : Wide)
  /-- FENCE.LAYOUT (R173). -/
  | fenceLayout (gd : Guard)
  /-- QPUSH (R161). -/
  | qpush (gd : Guard) (q : BitVec 3) (sz : BitVec 2) (a : BitVec 5)
  /-- BQPUSH (R161). -/
  | bqpush (gd : Guard) (ps : BitVec 4) (inv : Bool)
  /-- RECV (R163). -/
  | recv (gd : Guard) (q : BitVec 3) (h : BitVec 6) (e : BitVec 5)
  /-- RECV.try (R163). -/
  | recvTry (gd : Guard) (q : BitVec 3) (h : BitVec 6) (e : BitVec 5) (pd : BitVec 4)
  /-- The head of the L access queue completes or raises its fault (R153, R155). -/
  | lAccessComplete (c : Nat)
  /-- ST from a register (R212). -/
  | st (gd : Guard) (b a : BitVec 5) (sz : BitVec 2)
  /-- ST from an sq entry (R212). -/
  | stQ (gd : Guard) (q : BitVec 3) (a e : BitVec 5)
  /-- ST with an offset (R212). -/
  | stOffset (gd : Guard) (f : StForm) (a : BitVec 5) (off : Wide)
  /-- STL from a register (R212). -/
  | stl (gd : Guard) (b a : BitVec 5) (sz : BitVec 2)
  /-- STL from an sq entry (R212). -/
  | stlQ (gd : Guard) (q : BitVec 3) (a e : BitVec 5)
  /-- STL with an offset (R212). -/
  | stlOffset (gd : Guard) (f : StForm) (a : BitVec 5) (off : Wide)
  /-- STR (R213). -/
  | str (gd : Guard) (q : BitVec 3) (a f e : BitVec 5)
  /-- STR with an offset and perhaps a scope (R213). -/
  | strOffset (gd : Guard) (q : BitVec 3) (a f e : BitVec 5) (off : W32) (sc : Option Scope)
  /-- The head of the S access queue completes or raises its fault (R208 to R210). -/
  | sAccessComplete (c : Nat)
  /-- PUSH from registers (R214). -/
  | pushReg (gd : Guard) (sc : Scope) (b : BitVec 5)
  /-- PUSH from an sq entry (R214). -/
  | pushSq (gd : Guard) (sc : Scope) (q : BitVec 3)
  /-- POP (R215). -/
  | pop (gd : Guard) (f : BitVec 4) (d : BitVec 5)
  /-- POP.try (R215). -/
  | popTry (gd : Guard) (f : BitVec 4) (d : BitVec 5) (pd : BitVec 4)
  /-- RGX with values in g[B] (R216). -/
  | rgx (gd : Guard) (d a b : BitVec 5)
  /-- RGX with immediate entries (R216). -/
  | rgxImm (gd : Guard) (d a : BitVec 5) (exp new : BitVec 14)
  /-- FENCE (R217). -/
  | fence (gd : Guard) (sc : Scope)
  /-- WAITA (R218). -/
  | waita (gd : Guard) (a b : BitVec 5)
  /-- WAITA.nb (R218). -/
  | waitaNb (gd : Guard) (a b : BitVec 5)
  /-- WAITA with an offset (R218). -/
  | waitaOffset (gd : Guard) (nb : Bool) (a b : BitVec 5) (off : Wide)
  /-- The home checks a WAITA request and arms a monitor (R219). -/
  | monitorArm (c : Nat)
  /-- BAR.ARRIVE (R224, R228). -/
  | barArrive (gd : Guard) (bar : BarOp)
  /-- BAR.WAIT (R224, R228). -/
  | barWait (gd : Guard) (bar : BarOp) (d : BitVec 5)
  /-- BAR.ARWT (R228). -/
  | barArwt (gd : Guard) (bar : BarOp) (d : BitVec 5)
  /-- The oldest issued arrival of a core reaches its barrier object (R224). -/
  | barrierArrival (c : Nat)
  /-- The open phase of a barrier instance completes (R223). -/
  | barrierPhaseComplete (fl key : Nat)
  /-- TRIG (R230). -/
  | trig (gd : Guard)
  /-- SEND (R232). -/
  | send (gd : Guard) (q : BitVec 3) (h : BitVec 6) (e : BitVec 5)
  /-- SEND.try (R232). -/
  | sendTry (gd : Guard) (q : BitVec 3) (h : BitVec 6) (e : BitVec 5) (pd : BitVec 4)
  /-- VADD (R193). -/
  | vadd (gd : Guard) (d a b : BitVec 5) (ty : IntTy)
  /-- VSUB (R193). -/
  | vsub (gd : Guard) (d a b : BitVec 5) (ty : IntTy)
  /-- VMUL (R193). -/
  | vmul (gd : Guard) (d a b : BitVec 5) (ty : IntTy)
  /-- VMULH (R193). -/
  | vmulh (gd : Guard) (d a b : BitVec 5) (ty : IntTy)
  /-- VMAD (R193). -/
  | vmad (gd : Guard) (d a b : BitVec 5) (ty : IntTy)
  /-- VAND (R194). -/
  | vand (gd : Guard) (d a b : BitVec 5)
  /-- VOR (R194). -/
  | vor (gd : Guard) (d a b : BitVec 5)
  /-- VXOR (R194). -/
  | vxor (gd : Guard) (d a b : BitVec 5)
  /-- VLOP3 (R194). -/
  | vlop3 (gd : Guard) (d a b c : BitVec 5) (k8 : BitVec 8)
  /-- VSHL (R195). -/
  | vshl (gd : Guard) (d a b : BitVec 5) (ty : IntTy)
  /-- VSHR (R195). -/
  | vshr (gd : Guard) (d a b : BitVec 5) (ty : IntTy)
  /-- VSAR (R195). -/
  | vsar (gd : Guard) (d a b : BitVec 5) (ty : IntTy)
  /-- VFSHL (R196). -/
  | vfshl (gd : Guard) (d a b : BitVec 5) (amt : FunnelAmt) (ty : IntTy)
  /-- VFSHR (R196). -/
  | vfshr (gd : Guard) (d a b : BitVec 5) (amt : FunnelAmt) (ty : IntTy)
  /-- VPOPC (R193). -/
  | vpopc (gd : Guard) (d a : BitVec 5) (ty : IntTy)
  /-- VCLZ (R193). -/
  | vclz (gd : Guard) (d a : BitVec 5) (ty : IntTy)
  /-- VMIN (R193). -/
  | vmin (gd : Guard) (d a b : BitVec 5) (ty : IntTy)
  /-- VMAX (R193). -/
  | vmax (gd : Guard) (d a b : BitVec 5) (ty : IntTy)
  /-- VABS (R193). -/
  | vabs (gd : Guard) (d a : BitVec 5) (ty : IntTy)
  /-- VCMP.eq (R193). -/
  | vcmpEq (gd : Guard) (d a b : BitVec 5) (ty : IntTy)
  /-- VCMP.ne (R193). -/
  | vcmpNe (gd : Guard) (d a b : BitVec 5) (ty : IntTy)
  /-- VCMP.lt (R193). -/
  | vcmpLt (gd : Guard) (d a b : BitVec 5) (ty : IntTy)
  /-- VCMP.le (R193). -/
  | vcmpLe (gd : Guard) (d a b : BitVec 5) (ty : IntTy)
  /-- VSEL (R197). -/
  | vsel (gd : Guard) (d a b c : BitVec 5) (ty : IntTy)
  /-- FADD (R198). -/
  | fadd (gd : Guard) (d a b : BitVec 5) (ty : FpTy)
  /-- FSUB (R198). -/
  | fsub (gd : Guard) (d a b : BitVec 5) (ty : FpTy)
  /-- FMUL (R198). -/
  | fmul (gd : Guard) (d a b : BitVec 5) (ty : FpTy)
  /-- FFMA (R198). -/
  | ffma (gd : Guard) (d a b : BitVec 5) (ty : FpTy)
  /-- FMIN (R198). -/
  | fmin (gd : Guard) (d a b : BitVec 5) (ty : FpTy)
  /-- FMAX (R198). -/
  | fmax (gd : Guard) (d a b : BitVec 5) (ty : FpTy)
  /-- FABS (R198). -/
  | fabs (gd : Guard) (d a : BitVec 5) (ty : FpTy)
  /-- FNEG (R198). -/
  | fneg (gd : Guard) (d a : BitVec 5) (ty : FpTy)
  /-- FCMP.eq (R198). -/
  | fcmpEq (gd : Guard) (d a b : BitVec 5) (ty : FpTy)
  /-- FCMP.ne (R198). -/
  | fcmpNe (gd : Guard) (d a b : BitVec 5) (ty : FpTy)
  /-- FCMP.lt (R198). -/
  | fcmpLt (gd : Guard) (d a b : BitVec 5) (ty : FpTy)
  /-- FCMP.le (R198). -/
  | fcmpLe (gd : Guard) (d a b : BitVec 5) (ty : FpTy)
  /-- FRCP (R199). -/
  | frcp (gd : Guard) (d a : BitVec 5) (ty : FpTy)
  /-- FRSQ (R199). -/
  | frsq (gd : Guard) (d a : BitVec 5) (ty : FpTy)
  /-- FEXP2 (R199). -/
  | fexp2 (gd : Guard) (d a : BitVec 5) (ty : FpTy)
  /-- FLOG2 (R199). -/
  | flog2 (gd : Guard) (d a : BitVec 5) (ty : FpTy)
  /-- VPERM (R200). -/
  | vperm (gd : Guard) (d a b : BitVec 5) (ty : IntTy)
  /-- VBCAST of a lane (R200). -/
  | vbcast (gd : Guard) (d a : BitVec 5) (lane : BitVec 8) (ty : IntTy)
  /-- VBCAST of g[C] (R200). -/
  | vbcastG (gd : Guard) (d c : BitVec 5) (ty : IntTy)
  /-- VROTL by an immediate (R200). -/
  | vrotl (gd : Guard) (d a : BitVec 5) (k : BitVec 8) (ty : IntTy)
  /-- VROTL by g[C] (R200). -/
  | vrotlG (gd : Guard) (d a c : BitVec 5) (ty : IntTy)
  /-- VCOMP (R200). -/
  | vcomp (gd : Guard) (d a b : BitVec 5) (ty : IntTy)
  /-- VRED (R201). -/
  | vred (gd : Guard) (d a : BitVec 5) (op : RedOp) (ty : IntTy)
  /-- FRED (R201). -/
  | fred (gd : Guard) (d a : BitVec 5) (op : RedOp) (ty : FpTy)
  /-- VREDM (R202). -/
  | vredm (gd : Guard) (d a b : BitVec 5) (ty : IntTy)
  /-- FREDM (R202). -/
  | fredm (gd : Guard) (d a b : BitVec 5) (ty : FpTy)
  /-- QPOP (R203). -/
  | qpop (gd : Guard) (d : BitVec 5) (q : BitVec 3)
  /-- QPUT of 8 × (n8 + 1) bytes (R204). -/
  | qput (gd : Guard) (n8 : BitVec 5) (q : BitVec 3) (b : BitVec 5)
  /-- VIEW (R205). -/
  | view (gd : Guard) (k : BitVec 2) (n : BitVec 3) (w : BitVec 2) (imm : BitVec 11)
  /-- ROTB (R206). -/
  | rotb (gd : Guard)
  /-- LOOPST (R182). -/
  | loopst (gd : Guard) (ns : BitVec 4) (rt : Bool)
  /-- A C-stream result lands (R130). -/
  | resultLanding (c ix : Nat)
  /-- CVT (R242, R244). -/
  | cvt (gd : Guard) (d a : BitVec 5) (cf : BitVec 2) (part : BitVec 3)
  /-- QMX (R245). -/
  | qmx (gd : Guard) (d a : BitVec 5) (cf : BitVec 2) (part : BitVec 3)
  /-- QTRL (R251). -/
  | qtrl (gd : Guard) (d : BitVec 5) (cf : BitVec 2)
  /-- QSTAT (R257). -/
  | qstat (gd : Guard) (tid : BitVec 6)
  /-- QSTAT.clr (R257). -/
  | qstatClr (gd : Guard) (tid : BitVec 6)
  /-- MXSET.hdr (R281). -/
  | mxsetHdr (gd : Guard) (a : BitVec 5)
  /-- MXSET.lvl (R281). -/
  | mxsetLvl (gd : Guard) (a : BitVec 5)
  /-- MXBIND to local memory (R282). -/
  | mxbindG (gd : Guard) (role : BitVec 4) (b : BitVec 5)
  /-- MXBIND to a view (R282). -/
  | mxbindView (gd : Guard) (role : BitVec 4) (kind : BitVec 2) (n : BitVec 3)
  /-- MXGRP (R283). -/
  | mxgrp (gd : Guard) (en : Bool) (gl : BitVec 3) (gx : Bool)
  /-- MXGO (R284). -/
  | mxgo (gd : Guard)
  /-- MXWAIT (R285). -/
  | mxwait (gd : Guard) (d : BitVec 5)
  /-- MXCOMMIT (R286). -/
  | mxcommit (gd : Guard)
  /-- MXCOMMIT.clr (R286). -/
  | mxcommitClr (gd : Guard)
  /-- MXSWAP (R287). -/
  | mxswap (gd : Guard) (n : BitVec 10)
  /-- A handed or pending nest starts (R270). -/
  | nestStart (c : Nat)
  /-- The shadow weight tile becomes active (R266). -/
  | weightSwap (c : Nat)
  /-- The engine runs one pass (R274). -/
  | nestPass (c : Nat)
  /-- The landing tile is drained (R277). -/
  | nestDrain (c : Nat)
  /-- The nest's phase completes (R288). -/
  | nestComplete (c : Nat)
  /-- Copy-engine command COPY (R300). -/
  | copy (r : CmdRecord)
  /-- Copy-engine command COPY2 (R300). -/
  | copy2 (r : CmdRecord)
  /-- Copy-engine command COPY3 (R300). -/
  | copy3 (r : CmdRecord)
  /-- Copy-engine command PUT (R300). -/
  | put (r : CmdRecord)
  /-- Copy-engine command PUTF (R300). -/
  | putf (r : CmdRecord)
  /-- Copy-engine command GET (R300). -/
  | get (r : CmdRecord)
  /-- Copy-engine command ACCW (R300). -/
  | accw (r : CmdRecord)
  /-- Copy-engine command FILL (R300). -/
  | fill (r : CmdRecord)
  /-- Copy-engine command MCAST (R300). -/
  | mcast (r : CmdRecord)
  /-- Copy-engine command PREF.ADAPT (R300). -/
  | prefAdapt (r : CmdRecord)
  /-- Copy-engine command SIGNAL (R300). -/
  | signal (r : CmdRecord)
  /-- Copy-engine command AOW.add (R300). -/
  | aowAdd (r : CmdRecord)
  /-- Copy-engine command AOW.min (R300). -/
  | aowMin (r : CmdRecord)
  /-- Copy-engine command AOW.max (R300). -/
  | aowMax (r : CmdRecord)
  /-- Copy-engine command AOW.and (R300). -/
  | aowAnd (r : CmdRecord)
  /-- Copy-engine command AOW.or (R300). -/
  | aowOr (r : CmdRecord)
  /-- Copy-engine command AOW.xor (R300). -/
  | aowXor (r : CmdRecord)
  /-- Copy-engine command AOW.swap (R300). -/
  | aowSwap (r : CmdRecord)
  /-- Copy-engine command CAS (R300). -/
  | cas (r : CmdRecord)
  /-- Copy-engine command FLAGADD (R300). -/
  | flagadd (r : CmdRecord)
  /-- Copy-engine command reserved (R300). -/
  | reservedCommand (r : CmdRecord)
  /-- A command completes (R308). -/
  | commandComplete (c tk : Nat)
  /-- A request in flight reaches its home (R329). -/
  | homeRequest (ix : Nat)
  /-- A reply returns to its source (R328). -/
  | remoteReply (ix : Nat)
  /-- The front end writes a trap record (R401). -/
  | trapRecordWrite (c : Nat)
  /-- Circuit word CONNECT (R345). -/
  | connect (h : BitVec 6) (src dst : BitVec 12) (sp dp : BitVec 3) (rep : BitVec 6)
  /-- Circuit word HOLD (R346). -/
  | hold (h tile : BitVec 6) (all : Bool) (n : BitVec 10)
  /-- Circuit word TEAR (R346). -/
  | tear (h tile : BitVec 6) (all : Bool)
  /-- Circuit word STEP (R347). -/
  | step (bar : BitVec 8)
  /-- Circuit word SETTLE (R348). -/
  | settle (addr : BitVec 56)
  /-- Circuit word LOOPC (R349). -/
  | loopc (count : BitVec 20) (body : BitVec 16)
  /-- Circuit word JUMPC (R349). -/
  | jumpc (cnd : BitVec 2) (off : BitVec 16)
  /-- Circuit word MARK (R351). -/
  | mark (value : W32)
  /-- Circuit word QUERY (R350). -/
  | query (h tile : BitVec 6) (kind : BitVec 2) (minw : BitVec 4)
  /-- Circuit word ENDC (R351). -/
  | endc
  /-- A schedule step begins (R343). -/
  | droverStep (part : Nat)
  /-- A new circuit becomes live, or is found dead (R343). -/
  | circuitLive (part ix : Nat)
  /-- A host write to DOORBELL_q (R382). -/
  | doorbellWrite (part q : Nat) (x : W32)
  /-- QCTL_q.EN goes to 1 (R380). -/
  | queueEnable (part q : Nat)
  /-- PART_CMD create (R376). -/
  | partCreate (part : Nat)
  /-- LAUNCH packet (R395, R396). -/
  | launch (p : Packet)
  /-- An accepted launch is placed (R31). -/
  | launchPlace (fl : Nat)
  /-- WAITSIG packet (R389). -/
  | waitsig (p : Packet)
  /-- SIGNAL packet (R386, R387). -/
  | signalPacket (p : Packet)
  /-- FETCHFENCE packet (R386, R387). -/
  | fetchfence (p : Packet)
  /-- WRAP packet (R386, R387). -/
  | wrap (p : Packet)
  /-- PAD packet (R386, R387). -/
  | pad (p : Packet)
  /-- WRITE packet (R386, R387). -/
  | writePacket (p : Packet)
  /-- COPY packet (R386, R387). -/
  | copyPacket (p : Packet)
  /-- PREEMPT suspend packet (R386, R387). -/
  | preemptSuspend (p : Packet)
  /-- PREEMPT resume packet (R386, R387). -/
  | preemptResume (p : Packet)
  /-- PREEMPT kill packet (R386, R387). -/
  | preemptKill (p : Packet)
  /-- CADENCE packet (R386, R387). -/
  | cadence (p : Packet)
  /-- QSTATUS packet (R386, R387). -/
  | qstatus (p : Packet)
  /-- reserved packet (R386, R387). -/
  | reservedPacket (p : Packet)
  /-- A pre-emption request takes effect and the context is saved (R39). -/
  | preemptCut (c : Nat)
  /-- A member retires (R32). -/
  | memberRetire (c : Nat)
  /-- The flock retires and its completion record is written (R400). -/
  | flockRetire (fl : Nat)
  /-- The firmware boots (R410). -/
  | firmwareBoot (b : BootInput)
  /-- The home adds 1 to the flag of an STR (R213). -/
  | strFlagAdd (c : Nat)
  /-- A fired monitor writes its wake record (R220). -/
  | monitorWake (tile ix : Nat)
  /-- A trigger reaches the front end (R230). -/
  | triggerArrive (c : Nat)
  /-- A host-bound write leaves the commit buffer (R234). -/
  | commitBufferRelease (c : Nat)
  /-- Timing-error detection replays a bundle (R233, R430). -/
  | bundleReplay (c : Nat)
  /-- After a PUTF's data, 1 is added to its flag (R312). -/
  | putfFlagAdd (c tk : Nat)
  /-- A penumbra transfer settles, the named blocks lost (R325). -/
  | penumbraSettle (c tk : Nat) (lost : List Nat)
  /-- A refused request is sent again after the delay (R367). -/
  | retryAfterResend (ix : Nat)
  /-- An unanswered request is sent again, or given up (R330). -/
  | requestTimeoutResend (ix : Nat)
  /-- An uncorrectable error poisons a sector (R78). -/
  | uncorrectableError (loc : MemLoc)
  /-- A core detects a stream deadlock (R21). -/
  | streamDeadlock (c : Nat)
  /-- The streams continue in another variant (R428). -/
  | variantSwitch (c : Nat)
  /-- A switch attempt is abandoned (R428). -/
  | variantSwitchMiss (c : Nat)
  /-- A receive end takes a flit (R338). -/
  | flitReceive (e : PortEnd) (f : Flit)
  /-- A transmit end takes a NACK (R338, R339). -/
  | nackReceive (e : PortEnd) (lseq : BitVec 16)
  /-- A counting window of a wavelength ends (R357). -/
  | fecWindowEnd (e : PortEnd) (k : BitVec 3)
  /-- A wavelength is handed back (R358). -/
  | handBack (e : PortEnd) (k : BitVec 3)
  /-- Training patterns lock at both ends (R359). -/
  | retrainLock (e : PortEnd) (k : BitVec 3)
  /-- No lock within 64 µs (R359). -/
  | retrainTimeout (e : PortEnd) (k : BitVec 3)
  /-- Views are exchanged (R359). -/
  | viewExchange (e : PortEnd) (k : BitVec 3) (peer : LaneView)
  /-- A ring resonator loses its tuning (R360). -/
  | ringTuningLost (e : PortEnd) (k : BitVec 3)
  /-- A laser line is lost (R361). -/
  | laserLineLost (row k : BitVec 3)
  /-- A laser line is restored (R361). -/
  | laserLineRestored (row k : BitVec 3)
  /-- A routed fault record is delivered (R406). -/
  | faultRoute (part : Nat)
  /-- QCTL_q.EN goes to 0 (R383). -/
  | queueDisable (part q : Nat)
  /-- QCTL_q.RESET (R383). -/
  | queueReset (part q : Nat)
  /-- QCTL_q.RETRY (R383). -/
  | queueRetry (part q : Nat)
  /-- PART_CMD remove (R376). -/
  | partRemove (part : Nat)
  /-- PART_CMD kill (R376). -/
  | partKill (part : Nat)
  /-- MMU_INV with GO (R378). -/
  | mmuInv (part : Nat) (asid : BitVec 16) (tile : BitVec 6) (allt : Bool)
  /-- TRAPCTL resume (R403). -/
  | trapctlResume (part : Nat) (core : BitVec 12)
  /-- TRAPCTL kill (R404). -/
  | trapctlKill (part : Nat) (core : BitVec 12)
  /-- PORT_CFG.RTRY (R365). -/
  | portRetrain (e : PortEnd)
  /-- PORT_CFG.CLR (R365). -/
  | portCounterClear (e : PortEnd)
  /-- CAP_CFG.CLR (R433). -/
  | capClear (tile unit : Nat)
  /-- A host write to DOMID (R379). -/
  | domidWrite (v : BitVec 8)
  /-- A host write to a BAR0 register with no row of its own (R371). -/
  | registerWrite (off : Nat) (v : W64)
  /-- A host access through the HDM range (R372). -/
  | hdmAccess (tile : Nat) (off : Nat) (a : HdmOp)
  /-- A poll of a WAITSIG location (R389). -/
  | waitsigPoll (part q : Nat)
  /-- The head is written back (R385). -/
  | headWriteback (part q : Nat)
  /-- A tick boundary releases a cadence launch (R393). -/
  | cadenceTick (part q : Nat)
  /-- A cadence launch enters the top band (R37). -/
  | cadenceTopBand (fl : Nat)
  /-- A cadence launch misses its tick (R37). -/
  | cadenceMissedTick (fl : Nat)
  /-- A round-robin quantum ends (R36). -/
  | quantumExpiry (fl : Nat)
  /-- A forced cut is taken (R41). -/
  | forcedCut (c : Nat)
  /-- A pre-empted flock resumes (R40). -/
  | flockResume (fl : Nat)
  /-- The shepherd core restarts (R408). -/
  | shepherdRestart
  /-- A level is granted to a lit layer (R424). -/
  | powerGrant (tile layer : Nat) (lvl : BitVec 3)
  /-- A temperature sample (R417). -/
  | temperatureSample (tile layer : Nat) (r : SensorReadings)
  /-- TEMRG held for 1 ms (R418). -/
  | thermalEmergency (tile : Nat)
  /-- A layer fails its self-test (R418). -/
  | selftestFail (tile layer : Nat) (unreadable : List Nat)
  /-- A lit layer is lost (R420). -/
  | layerLoss (tile layer : Nat)
  /-- A role change begins with its drain (R415). -/
  | roleChange (tile : Nat)
  /-- The flush phase of a role change (R415). -/
  | roleChangeFlush (tile : Nat)
  /-- The re-enumeration phase of a role change (R415). -/
  | roleChangeReenumerate (tile : Nat)
  /-- A cool offline layer returns (R421). -/
  | layerReturn (tile layer : Nat)
  /-- The ballast unit limits a power fall (R429). -/
  | ballastRamp (tile layer : Nat) (drop : Nat)
  /-- A capture unit bins a sample (R433). -/
  | captureSample (tile unit : Nat) (sample : W32)
  /-- The lifetime counters are written to flash (R432). -/
  | lifetimeCounterSave
  /-- Module reset (R413). -/
  | moduleReset
  /-- SPDM request (R411). -/
  | getVersion (r : SpdmRequest)
  /-- SPDM request (R411). -/
  | getCapabilities (r : SpdmRequest)
  /-- SPDM request (R411). -/
  | negotiateAlgorithms (r : SpdmRequest)
  /-- SPDM request (R411). -/
  | getDigests (r : SpdmRequest)
  /-- SPDM request (R411). -/
  | getCertificate (r : SpdmRequest)
  /-- SPDM request (R411). -/
  | challenge (r : SpdmRequest)
  /-- SPDM request (R411). -/
  | getMeasurements (r : SpdmRequest)
deriving DecidableEq, Repr, Inhabited

end Sys2Proof
end

