-- ==== Sys2Proof/WellFormed.lean ====
section
/-! DEFINITION. Which terms of `Instr` an encoding can carry, and in which stream and slot each stands. -/

namespace Sys2Proof

/-- PG = 0 with PN = 1 is reserved (R116). -/
def Guard.wf (g : Guard) : Bool := !(g.p == 0 && g.neg)

/-- Elements of an integer type in a 256-byte register (R192). -/
def IntTy.lanes : IntTy → Nat
  | .i8 | .n8 => 256
  | .i16 | .n16 => 128
  | .i32 | .n32 => 64

/-- VIEW's field rules (R205). -/
def viewWf (k : BitVec 2) (n : BitVec 3) (w : BitVec 2) (imm : BitVec 11) : Bool :=
  k != 3 && (k != 0 || n == 0) &&
    (w == 0 || (w == 1 && k != 0) || (w == 2 && k == 0 && imm.toNat < 8) || (w == 3 && k == 0 && imm.toNat < 32))

/-- Whether a role may be bound to a view of this kind (R282). -/
def roleViewWf (role : BitVec 4) (kind : BitVec 2) : Bool :=
  (kind == 0 && (role == 0 || role == 1 || role == 2 || role == 3 || role == 7)) ||
    (kind == 1 && (role == 4 || role == 5 || role == 6))

/-- The opcode byte of a command record (R298). -/
def CmdRecord.opc (r : CmdRecord) : Nat := r.w0.toNat / 2 ^ 56

/-- The opcodes of R300 that are not reserved. -/
def opcKnown (n : Nat) : Bool := (1 ≤ n && n ≤ 0x0B) || (0x10 ≤ n && n ≤ 0x18)

/-- The type byte of a packet (R386). -/
def Packet.type (p : Packet) : Nat := (p.words.headD 0).toNat / 2 ^ 56

/-- ACT of a PREEMPT packet: the low two bits of FLG (R387). -/
def Packet.act (p : Packet) : Nat := (p.words.headD 0).toNat / 2 ^ 32 % 4

/-- How many edge ports a tile has: one on each edge of the grid that it lies on (R368). -/
def edgeCount (tile : Nat) : Nat :=
  (if tile / 8 = 0 ∨ tile / 8 = 7 then 1 else 0) + (if tile % 8 = 0 ∨ tile % 8 = 7 then 1 else 0)

/-- The grid has 64 tiles of 12 fabric ports, and those of its edges one or two edge ports besides (R2, R333, R368). -/
def PortEnd.wf (e : PortEnd) : Bool := decide (e.tile < 64 ∧ e.port < 12 + edgeCount e.tile)

/-- An instruction that an encoding can carry, or an event of parts of the machine that exist: every rule that R115 to
R127 and the instruction descriptions make about the fields alone. Log 65, DEDUCED. -/
def Instr.wf : Instr → Bool
  | .nop => true
  | .movi gd _ _ | .moviWide gd _ _ | .movhi gd _ _ | .movhiWide gd _ _ | .mov gd _ _ | .add gd _ _ _
  | .addWide gd _ _ _ | .addi gd _ _ | .addiWide gd _ _ | .sub gd _ _ _ | .subWide gd _ _ _ | .mul gd _ _ _
  | .mulWide gd _ _ _ | .mulh gd _ _ _ | .mulhN gd _ _ _ | .and gd _ _ _ | .andWide gd _ _ _ | .andn gd _ _ _
  | .andnWide gd _ _ _ | .or gd _ _ _ | .orWide gd _ _ _ | .xor gd _ _ _ | .xorWide gd _ _ _ | .shl gd _ _ _
  | .shr gd _ _ _ | .sar gd _ _ _ | .rot gd _ _ _ | .clz gd _ _ | .popc gd _ _ | .min gd _ _ _
  | .minWide gd _ _ _ | .minN gd _ _ _ | .minNWide gd _ _ _ | .max gd _ _ _ | .maxWide gd _ _ _
  | .maxN gd _ _ _ | .maxNWide gd _ _ _ | .cmp gd _ _ _ _ | .cmpWide gd _ _ _ _ | .sel gd _ _ _ _
  | .br gd _ | .jmp gd _ | .jmpReg gd _ | .call gd _ | .callReg gd _ | .ret gd | .loop gd _ _ | .rdsr gd _ _
  | .wrsr gd _ _ | .trap gd _ | .fin gd => gd.wf
  | .brBq _ => true
  | .sectionHeader _ | .sectionRetire _ _ => true
  | .ld gd _ _ sz sx | .ldOffset gd _ _ sz sx _ | .ldl gd _ _ sz sx => gd.wf && !(sx && sz == 3)
  | .ldlOffset gd (.reg _ sz sx) _ _ => gd.wf && !(sx && sz == 3)
  | .ldlOffset gd (.queue _ _) _ _ => gd.wf
  | .ldlQ gd _ _ _ | .ldr gd _ _ _ | .ldrOffset gd _ _ _ _ | .lds gd _ _ | .gath gd _ _ _ _ _ => gd.wf
  | .gathN gd _ _ esz _ _ nm1 => gd.wf && (nm1.toNat + 1) * 2 ^ esz.toNat ≤ 256
  | .stcfg gd _ _ | .stcfgOffset gd _ _ _ | .stadv gd _ _ _ | .stadvSkip gd _ _ => gd.wf
  | .stadvImm gd _ skip b _ => gd.wf && (!skip || b == 0)
  | .pref gd lvl _ _ | .prefOffset gd lvl _ _ _ => gd.wf && lvl.toNat < 2
  | .ldlay gd _ _ _ | .ldlayOffset gd _ _ _ _ | .fenceLayout gd | .qpush gd _ _ _ | .bqpush gd _ _
  | .recv gd _ _ _ | .recvTry gd _ _ _ _ => gd.wf
  | .lAccessComplete _ => true
  | .st gd _ _ _ | .stQ gd _ _ _ | .stOffset gd _ _ _ | .stl gd _ _ _ | .stlQ gd _ _ _ | .stlOffset gd _ _ _
  | .str gd _ _ _ _ => gd.wf
  | .strOffset gd _ _ f _ _ sc => gd.wf && (sc.isNone || f != 0)
  | .strFlagAdd _ | .sAccessComplete _ => true
  | .pushReg gd _ b => gd.wf && b.toNat % 8 == 0
  | .pushSq gd _ _ => gd.wf
  | .pop gd f d | .popTry gd f d _ =>
    gd.wf && ((f == 1 && d.toNat ≤ 30) || (f == 2 && d.toNat ≤ 30) || (f == 3 && d.toNat ≤ 28))
  | .rgx gd _ _ _ | .rgxImm gd _ _ _ _ | .fence gd _ | .waita gd _ _ | .waitaNb gd _ _ | .waitaOffset gd _ _ _ _ => gd.wf
  | .monitorArm _ | .monitorWake _ _ => true
  | .barArrive gd _ | .barWait gd _ _ | .barArwt gd _ _ => gd.wf
  | .barrierArrival _ | .barrierPhaseComplete _ _ => true
  | .trig gd => gd.wf
  | .triggerArrive _ => true
  | .send gd _ _ _ | .sendTry gd _ _ _ _ => gd.wf
  | .commitBufferRelease _ => true
  | .bundleReplay c => decide (c < 4096)
  | .vadd gd _ _ _ _ | .vsub gd _ _ _ _ | .vmul gd _ _ _ _ | .vmulh gd _ _ _ _ | .vmad gd _ _ _ _
  | .vand gd _ _ _ | .vor gd _ _ _ | .vxor gd _ _ _ | .vlop3 gd _ _ _ _ _ | .vshl gd _ _ _ _
  | .vshr gd _ _ _ _ | .vsar gd _ _ _ _ | .vfshl gd _ _ _ _ _ | .vfshr gd _ _ _ _ _ | .vpopc gd _ _ _
  | .vclz gd _ _ _ | .vmin gd _ _ _ _ | .vmax gd _ _ _ _ => gd.wf
  | .vabs gd _ _ ty => gd.wf && (ty == .i8 || ty == .i16 || ty == .i32)
  | .vcmpEq gd _ _ _ _ | .vcmpNe gd _ _ _ _ | .vcmpLt gd _ _ _ _ | .vcmpLe gd _ _ _ _ | .vsel gd _ _ _ _ _
  | .fadd gd _ _ _ _ | .fsub gd _ _ _ _ | .fmul gd _ _ _ _ | .ffma gd _ _ _ _ | .fmin gd _ _ _ _
  | .fmax gd _ _ _ _ | .fabs gd _ _ _ | .fneg gd _ _ _ | .fcmpEq gd _ _ _ _ | .fcmpNe gd _ _ _ _
  | .fcmpLt gd _ _ _ _ | .fcmpLe gd _ _ _ _ | .frcp gd _ _ _ | .frsq gd _ _ _ | .fexp2 gd _ _ _
  | .flog2 gd _ _ _ | .vperm gd _ _ _ _ => gd.wf
  | .vbcast gd _ _ k ty | .vrotl gd _ _ k ty => gd.wf && k.toNat < ty.lanes
  | .vbcastG gd _ _ _ | .vrotlG gd _ _ _ _ | .vcomp gd _ _ _ _ | .vred gd _ _ _ _ => gd.wf
  | .fred gd _ _ op _ => gd.wf && (op == .add || op == .min || op == .max)
  | .vredm gd _ _ _ _ | .fredm gd _ _ _ _ | .qpop gd _ _ | .qput gd _ _ _ => gd.wf
  | .view gd k n w imm => gd.wf && viewWf k n w imm
  | .rotb gd => gd.wf
  | .loopst gd ns _ => gd.wf && ns.toNat ≤ 8
  | .resultLanding _ _ => true
  | .cvt gd _ _ _ _ => gd.wf
  | .qmx gd d _ _ _ => gd.wf && d.toNat % 2 == 0
  | .qtrl gd _ _ | .qstat gd _ | .qstatClr gd _ | .mxsetHdr gd _ | .mxsetLvl gd _ => gd.wf
  | .mxbindG gd role _ => gd.wf && role.toNat ≤ 8
  | .mxbindView gd role kind _ => gd.wf && roleViewWf role kind
  | .mxgrp gd en gl _ => gd.wf && gl.toNat ≤ 5 && (en || gl == 0)
  | .mxgo gd => gd.wf
  | .mxwait gd d => gd.wf && d.toNat ≤ 30
  | .mxcommit gd | .mxcommitClr gd => gd.wf
  | .mxswap gd n => gd.wf && n != 0
  | .nestStart _ | .weightSwap _ | .nestPass _ | .nestDrain _ | .nestComplete _ => true
  | .copy r => r.opc == 0x01
  | .copy2 r => r.opc == 0x02
  | .copy3 r => r.opc == 0x03
  | .put r => r.opc == 0x04
  | .putf r => r.opc == 0x05
  | .get r => r.opc == 0x06
  | .accw r => r.opc == 0x07
  | .fill r => r.opc == 0x08
  | .mcast r => r.opc == 0x09
  | .prefAdapt r => r.opc == 0x0A
  | .signal r => r.opc == 0x0B
  | .aowAdd r => r.opc == 0x10
  | .aowMin r => r.opc == 0x11
  | .aowMax r => r.opc == 0x12
  | .aowAnd r => r.opc == 0x13
  | .aowOr r => r.opc == 0x14
  | .aowXor r => r.opc == 0x15
  | .aowSwap r => r.opc == 0x16
  | .cas r => r.opc == 0x17
  | .flagadd r => r.opc == 0x18
  | .reservedCommand r => !opcKnown r.opc
  | .putfFlagAdd _ _ | .commandComplete _ _ | .penumbraSettle _ _ _ | .homeRequest _ | .remoteReply _
  | .retryAfterResend _ | .requestTimeoutResend _ | .uncorrectableError _ | .streamDeadlock _
  | .trapRecordWrite _ | .variantSwitch _ | .variantSwitchMiss _ => true
  | .connect _ _ _ _ _ _ => true
  | .hold _ tile all _ | .tear _ tile all => !all || tile == 0
  | .step _ | .settle _ | .loopc _ _ | .mark _ | .endc => true
  | .jumpc cnd _ => cnd != 3
  | .query h _ kind minw => kind != 3 && minw.toNat ≤ 8 && (kind == 0 || h.toNat < 8)
  | .droverStep _ | .circuitLive _ _ | .laserLineLost _ _ | .laserLineRestored _ _ => true
  | .flitReceive e _ | .nackReceive e _ | .fecWindowEnd e _ | .handBack e _ | .retrainLock e _ | .retrainTimeout e _
  | .viewExchange e _ _ | .ringTuningLost e _ | .portRetrain e | .portCounterClear e => e.wf
  | .faultRoute part | .partCreate part | .partRemove part | .partKill part | .mmuInv part _ _ _ | .trapctlResume part _
  | .trapctlKill part _ => decide (part < 16)
  | .doorbellWrite part q _ | .queueEnable part q | .queueDisable part q | .queueReset part q | .queueRetry part q =>
    decide (part < 16 ∧ q < 256)
  | .capClear tile unit => decide (tile < 64 ∧ unit < 4)
  | .domidWrite _ | .registerWrite _ _ | .hdmAccess _ _ _ => true
  | .launch p => p.type == 0x01
  | .waitsig p => p.type == 0x02
  | .signalPacket p => p.type == 0x03
  | .fetchfence p => p.type == 0x04
  | .wrap p => p.type == 0x05
  | .pad p => p.type == 0x06
  | .writePacket p => p.type == 0x07
  | .copyPacket p => p.type == 0x08
  | .preemptSuspend p => p.type == 0x09 && (p.act == 0 || p.act == 3)
  | .preemptResume p => p.type == 0x09 && p.act == 1
  | .preemptKill p => p.type == 0x09 && p.act == 2
  | .cadence p => p.type == 0x0A
  | .qstatus p => p.type == 0x0B
  | .reservedPacket p => p.type == 0 || 0x0C ≤ p.type
  | .launchPlace _ | .waitsigPoll _ _ | .headWriteback _ _ | .cadenceTick _ _ | .cadenceTopBand _
  | .cadenceMissedTick _ | .quantumExpiry _ | .preemptCut _ | .forcedCut _ | .flockResume _ | .memberRetire _
  | .flockRetire _ | .shepherdRestart | .lifetimeCounterSave | .moduleReset | .firmwareBoot _ | .getVersion _
  | .getCapabilities _ | .negotiateAlgorithms _ | .getDigests _ | .getCertificate _ | .challenge _ | .getMeasurements _ =>
    true
  | .powerGrant tile layer _ | .temperatureSample tile layer _ | .selftestFail tile layer _ | .layerLoss tile layer
  | .layerReturn tile layer | .ballastRamp tile layer _ => decide (tile < 64 ∧ layer < 4)
  | .thermalEmergency tile | .roleChange tile | .roleChangeFlush tile | .roleChangeReenumerate tile => decide (tile < 64)
  | .captureSample tile unit _ => decide (tile < 64 ∧ unit < 4)

/-- Where an operation stands: in every stream (the wide forms in L and S only), in one stream, or in given
slots of a C word (R119, R134 to R137). -/
inductive Place where
  /-- The common map: any stream; slot 0 of a C word. -/
  | common
  /-- NOP: any stream, any slot. -/
  | anywhere
  /-- A wide form of the common map: L and S only (R122). -/
  | wide
  | l
  | s
  /-- Slot 0 of a C word. -/
  | c0
  /-- Slot 1 or 2. -/
  | c12
  /-- Joined: slot 1, with slot 2. -/
  | joined
  /-- Slot 2. -/
  | c2
  /-- No word of a stream carries it. -/
  | notStream
deriving DecidableEq, Repr

/-- Where each operation stands; `notStream` for a row that no stream word carries. -/
def Instr.place : Instr → Place
  | .nop => .anywhere
  | .moviWide .. | .movhiWide .. | .addWide .. | .addiWide .. | .subWide .. | .mulWide .. | .andWide .. | .andnWide ..
  | .orWide .. | .xorWide .. | .minWide .. | .minNWide .. | .maxWide .. | .maxNWide .. | .cmpWide .. => .wide
  | .movi .. | .movhi .. | .mov .. | .add .. | .addi .. | .sub .. | .mul .. | .mulh .. | .mulhN .. | .and .. | .andn ..
  | .or .. | .xor .. | .shl .. | .shr .. | .sar .. | .rot .. | .clz .. | .popc .. | .min .. | .minN .. | .max .. | .maxN ..
  | .cmp .. | .sel .. | .br .. | .jmp .. | .jmpReg .. | .call .. | .callReg .. | .ret .. | .loop .. | .rdsr .. | .wrsr ..
  | .trap .. | .fin .. => .common
  | .brBq .. | .view .. | .rotb .. | .loopst .. => .c0
  | .ld .. | .ldOffset .. | .ldl .. | .ldlQ .. | .ldlOffset .. | .ldr .. | .ldrOffset .. | .lds .. | .gath .. | .gathN ..
  | .stcfg .. | .stcfgOffset .. | .stadv .. | .stadvSkip .. | .stadvImm .. | .pref .. | .prefOffset .. | .ldlay ..
  | .ldlayOffset .. | .fenceLayout .. | .qpush .. | .bqpush .. | .recv .. | .recvTry .. => .l
  | .st .. | .stQ .. | .stOffset .. | .stl .. | .stlQ .. | .stlOffset .. | .str .. | .strOffset .. | .pushReg ..
  | .pushSq .. | .pop .. | .popTry .. | .rgx .. | .rgxImm .. | .fence .. | .waita .. | .waitaNb .. | .waitaOffset ..
  | .barArrive .. | .barWait .. | .barArwt .. | .trig .. | .send .. | .sendTry .. => .s
  | .vlop3 .. | .vfshl .. | .vfshr .. | .vsel .. | .vbcast .. | .vbcastG .. | .vrotl .. | .vrotlG .. => .joined
  | .vadd .. | .vsub .. | .vmul .. | .vmulh .. | .vmad .. | .vand .. | .vor .. | .vxor .. | .vshl .. | .vshr .. | .vsar ..
  | .vpopc .. | .vclz .. | .vmin .. | .vmax .. | .vabs .. | .vcmpEq .. | .vcmpNe .. | .vcmpLt .. | .vcmpLe .. | .fadd ..
  | .fsub .. | .fmul .. | .ffma .. | .fmin .. | .fmax .. | .fabs .. | .fneg .. | .fcmpEq .. | .fcmpNe .. | .fcmpLt ..
  | .fcmpLe .. | .frcp .. | .frsq .. | .fexp2 .. | .flog2 .. | .vperm .. | .vcomp .. | .vred .. | .fred .. | .vredm ..
  | .fredm .. | .qpop .. | .qput .. => .c12
  | .cvt .. | .qmx .. | .qtrl .. | .qstat .. | .qstatClr .. | .mxsetHdr .. | .mxsetLvl .. | .mxbindG .. | .mxbindView ..
  | .mxgrp .. | .mxgo .. | .mxwait .. | .mxcommit .. | .mxcommitClr .. | .mxswap .. => .c2
  | .sectionHeader .. | .sectionRetire .. | .lAccessComplete .. | .strFlagAdd .. | .sAccessComplete .. | .monitorArm ..
  | .monitorWake .. | .barrierArrival .. | .barrierPhaseComplete .. | .triggerArrive .. | .commitBufferRelease ..
  | .bundleReplay .. | .resultLanding .. | .nestStart .. | .weightSwap .. | .nestPass .. | .nestDrain ..
  | .nestComplete .. | .copy .. | .copy2 .. | .copy3 .. | .put .. | .putf .. | .putfFlagAdd .. | .get .. | .accw ..
  | .fill .. | .mcast .. | .prefAdapt .. | .signal .. | .aowAdd .. | .aowMin .. | .aowMax .. | .aowAnd .. | .aowOr ..
  | .aowXor .. | .aowSwap .. | .cas .. | .flagadd .. | .reservedCommand .. | .commandComplete .. | .penumbraSettle ..
  | .homeRequest .. | .remoteReply .. | .retryAfterResend .. | .requestTimeoutResend .. | .uncorrectableError ..
  | .streamDeadlock .. | .trapRecordWrite .. | .variantSwitch .. | .variantSwitchMiss .. | .connect .. | .hold ..
  | .tear .. | .step .. | .settle .. | .loopc .. | .jumpc .. | .mark .. | .query .. | .endc .. | .droverStep ..
  | .circuitLive .. | .flitReceive .. | .nackReceive .. | .fecWindowEnd .. | .handBack .. | .retrainLock ..
  | .retrainTimeout .. | .viewExchange .. | .ringTuningLost .. | .laserLineLost .. | .laserLineRestored ..
  | .faultRoute .. | .doorbellWrite .. | .queueEnable .. | .queueDisable .. | .queueReset .. | .queueRetry ..
  | .partCreate .. | .partRemove .. | .partKill .. | .mmuInv .. | .trapctlResume .. | .trapctlKill .. | .portRetrain ..
  | .portCounterClear .. | .capClear .. | .domidWrite .. | .registerWrite .. | .hdmAccess .. | .launch ..
  | .launchPlace .. | .waitsig .. | .waitsigPoll .. | .signalPacket .. | .fetchfence .. | .wrap .. | .pad ..
  | .writePacket .. | .copyPacket .. | .preemptSuspend .. | .preemptResume .. | .preemptKill .. | .cadence ..
  | .qstatus .. | .reservedPacket .. | .headWriteback .. | .cadenceTick .. | .cadenceTopBand .. | .cadenceMissedTick ..
  | .quantumExpiry .. | .preemptCut .. | .forcedCut .. | .flockResume .. | .memberRetire .. | .flockRetire ..
  | .shepherdRestart .. | .powerGrant .. | .temperatureSample .. | .thermalEmergency .. | .selftestFail ..
  | .layerLoss .. | .roleChange .. | .roleChangeFlush .. | .roleChangeReenumerate .. | .layerReturn .. | .ballastRamp ..
  | .captureSample .. | .lifetimeCounterSave .. | .moduleReset .. | .firmwareBoot .. | .getVersion ..
  | .getCapabilities .. | .negotiateAlgorithms .. | .getDigests .. | .getCertificate .. | .challenge ..
  | .getMeasurements .. => .notStream

/-- Whether an operation may stand at this stream and slot (slots are counted in C words only). -/
def Instr.standsIn (i : Instr) (st : StreamId) (slot : Nat) : Bool :=
  match i.place, st with
  | .anywhere, _ => true
  | .common, .c => slot == 0
  | .common, _ => true
  | .wide, .c => false
  | .wide, _ => true
  | .l, .l => true
  | .s, .s => true
  | .c0, .c => slot == 0
  | .c12, .c => slot == 1 || slot == 2
  | .joined, .c => slot == 1
  | .c2, .c => slot == 2
  | _, _ => false

end Sys2Proof
end

