-- ==== Sys2Proof/Decode.lean ====
section
/-! DEFINITION. The decoder, total on any syllables, records, packets and circuit words and rejecting by name,
and the encoder written from the same tables. Syllables are numbers below 2^32. -/

namespace Sys2Proof

/-! ## Bytes and fields -/

/-- Little-endian value of bytes (R3). -/
def leNat : List Byte → Nat
  | [] => 0
  | b :: t => b.toNat + 256 * leNat t

/-- The low `n` bytes of a number, little-endian (R3). -/
def natLE : Nat → Nat → List Byte
  | 0, _ => []
  | n + 1, v => BitVec.ofNat 8 v :: natLE n (v / 256)

/-- Why an item of a stream, or a circuit word, is not an instruction. -/
inductive Reject where
  /-- A major or opcode that the map leaves unassigned (R138, R344). -/
  | major
  /-- A LEN that the map entry does not permit (R118, R119). -/
  | length
  /-- A reserved field that is not zero, or a field that an operation does not use. -/
  | reserved
  /-- A reserved code of a field. -/
  | code
  /-- PG = 0 with PN = 1 (R116). -/
  | guard
  /-- A major in a slot that the C map does not permit (R119). -/
  | slot
  /-- An operation that runs past its word (R118). -/
  | overrun
  /-- Two operations of the stream-specific majors in one word (R118). -/
  | specific
  /-- A joined operation without its extension, or an extension alone (R119). -/
  | extension
  /-- A header where a word must stand, or a word where a header must stand (R115). -/
  | kind
deriving DecidableEq, Repr

/-- The field of `w` bits from bit `lo` of a syllable. -/
def syl (w lo s : Nat) : BitVec w := BitVec.ofNat w (s / 2 ^ lo)

/-- Whether the `len` bits from bit `lo` are zero. -/
def zeros (lo len s : Nat) : Bool := s / 2 ^ lo % 2 ^ len == 0

/-- Bit `lo`. -/
def flag (lo s : Nat) : Bool := s / 2 ^ lo % 2 == 1

/-- A Bool as a bit. -/
def flagBit (b : Bool) : Nat := if b then 1 else 0

/-- PG and PN of a first syllable (R116). -/
def guardOf (s : Nat) : Guard := { p := syl 4 19 s, neg := flag 18 s }

/-- The first syllable of an operation (R116). -/
def headSyl (len op : Nat) (gd : Guard) (body : Nat) : Nat :=
  len * 2 ^ 30 + op * 2 ^ 23 + gd.p.toNat * 2 ^ 19 + flagBit gd.neg * 2 ^ 18 + body

/-- An instruction if its fields pass a check. -/
def need (ok : Bool) (r : Reject) (i : Instr) : Except Reject Instr := if ok then .ok i else .error r

/-- The wide immediate of an operation of LEN 0b01 or 0b10 (R122). -/
def wideOf (len s1 s2 : Nat) : Wide :=
  if len = 1 then .i32 (BitVec.ofNat 32 s1) else .i64 (BitVec.ofNat 64 (s1 % 2 ^ 32 + s2 % 2 ^ 32 * 2 ^ 32))

/-- LEN of a wide immediate. -/
def Wide.len : Wide → Nat
  | .i32 _ => 1
  | .i64 _ => 2

/-- The syllables of a wide immediate, low half first (R122). -/
def Wide.syls : Wide → List Nat
  | .i32 v => [v.toNat]
  | .i64 v => [v.toNat % 2 ^ 32, v.toNat / 2 ^ 32]

/-! ## Codes of fields -/

/-- The scope of a 3-bit code (R127). -/
def scopeOf : Nat → Option Scope
  | 0 => some .quad
  | 1 => some .layer
  | 2 => some .tile
  | 3 => some .panel
  | 4 => some .system
  | _ => none

/-- The code of a scope (R127). -/
def scopeCode : Scope → Nat
  | .quad => 0
  | .layer => 1
  | .tile => 2
  | .panel => 3
  | .system => 4

/-- The element type of an integer operation (R125). -/
def intTyOf : Nat → Option IntTy
  | 0 => some .i8
  | 1 => some .i16
  | 2 => some .i32
  | 4 => some .n8
  | 5 => some .n16
  | 6 => some .n32
  | _ => none

/-- TY of an integer type (R125). -/
def intTyCode : IntTy → Nat
  | .i8 => 0
  | .i16 => 1
  | .i32 => 2
  | .n8 => 4
  | .n16 => 5
  | .n32 => 6

/-- The element type of a floating-point operation (R125). -/
def fpTyOf : Nat → Option FpTy
  | 0 => some .f32
  | 1 => some .bf16
  | 2 => some .f16
  | _ => none

/-- TY of a floating-point type (R125). -/
def fpTyCode : FpTy → Nat
  | .f32 => 0
  | .bf16 => 1
  | .f16 => 2

/-- The operation of a reduction (R201). -/
def redOpOf : Nat → Option RedOp
  | 0 => some .add
  | 1 => some .min
  | 2 => some .max
  | 3 => some .and
  | 4 => some .or
  | 5 => some .xor
  | _ => none

/-- B of a reduction (R201). -/
def redOpCode : RedOp → Nat
  | .add => 0
  | .min => 1
  | .max => 2
  | .and => 3
  | .or => 4
  | .xor => 5

/-- The condition of CMP (R121). -/
def condOf : Nat → Cond
  | 0 => .eq
  | 1 => .ne
  | 2 => .lt
  | 3 => .le
  | 4 => .gt
  | 5 => .ge
  | 6 => .ltn
  | _ => .len

/-- CC of a condition (R121). -/
def condCode : Cond → Nat
  | .eq => 0
  | .ne => 1
  | .lt => 2
  | .le => 3
  | .gt => 4
  | .ge => 5
  | .ltn => 6
  | .len => 7

/-- The second source of format SA (R121); `none` where its reserved bits are not zero. -/
def srcBOf (s : Nat) : Option SrcB :=
  if flag 7 s then some (.imm (syl 7 0 s)) else if zeros 0 2 s then some (.reg (syl 5 2 s)) else none

/-- Bits [7:0] of format SA. -/
def srcBBits : SrcB → Nat
  | .reg b => b.toNat * 4
  | .imm i => 128 + i.toNat

/-- The second source of format SC (R121). -/
def srcCOf (s : Nat) : SrcC := if flag 5 s then .imm (syl 5 0 s) else .reg (syl 5 0 s)

/-- Bits [5:0] of format SC. -/
def srcCBits : SrcC → Nat
  | .reg b => b.toNat
  | .imm i => 32 + i.toNat

/-! ## The common map (R121, R122, R134) -/

/-- Format SA without wide forms. -/
def decSA (len s : Nat) (f : Guard → BitVec 5 → BitVec 5 → SrcB → Instr) : Except Reject Instr :=
  if len = 0 then
    match srcBOf s with
    | some b => .ok (f (guardOf s) (syl 5 13 s) (syl 5 8 s) b)
    | none => .error .reserved
  else .error .length

/-- Format SA with wide forms, which have BI = 1 and a zero immediate field (R122). -/
def decSAW (len s s1 s2 : Nat) (f : Guard → BitVec 5 → BitVec 5 → SrcB → Instr)
    (g : Guard → BitVec 5 → BitVec 5 → Wide → Instr) : Except Reject Instr :=
  if len = 0 then decSA len s f
  else need (flag 7 s && zeros 0 7 s) .reserved (g (guardOf s) (syl 5 13 s) (syl 5 8 s) (wideOf len s1 s2))

/-- Format SA of the operations that read A only. -/
def decSA1 (len s : Nat) (f : Guard → BitVec 5 → BitVec 5 → Instr) : Except Reject Instr :=
  if len = 0 then need (zeros 0 8 s) .reserved (f (guardOf s) (syl 5 13 s) (syl 5 8 s)) else .error .length

/-- Format SJ. -/
def decSJ (len s : Nat) (f : Guard → BitVec 17 → Instr) (g : Guard → BitVec 5 → Instr) : Except Reject Instr :=
  if len = 0 then
    if flag 17 s then need (zeros 0 12 s) .reserved (g (guardOf s) (syl 5 12 s)) else .ok (f (guardOf s) (syl 17 0 s))
  else .error .length

/-- An operation of one syllable with a check of its reserved fields. -/
def dec1 (len : Nat) (ok : Bool) (i : Instr) : Except Reject Instr :=
  if len = 0 then need ok .reserved i else .error .length

/-- Majors 0x00 to 0x2F. -/
def decodeCommon (st : StreamId) (len op s s1 s2 : Nat) : Except Reject Instr :=
  match op with
  | 0x00 => dec1 len (zeros 0 23 s) .nop
  | 0x01 =>
    if len = 0 then .ok (.movi (guardOf s) (syl 5 13 s) (syl 13 0 s))
    else need (zeros 0 13 s) .reserved (.moviWide (guardOf s) (syl 5 13 s) (wideOf len s1 s2))
  | 0x02 =>
    if len = 0 then .ok (.movhi (guardOf s) (syl 5 13 s) (syl 13 0 s))
    else if len = 1 then need (zeros 0 13 s) .reserved (.movhiWide (guardOf s) (syl 5 13 s) (BitVec.ofNat 32 s1))
    else .error .length
  | 0x03 => decSA1 len s .mov
  | 0x04 => decSAW len s s1 s2 .add .addWide
  | 0x05 =>
    if len = 0 then .ok (.addi (guardOf s) (syl 5 13 s) (syl 13 0 s))
    else need (zeros 0 13 s) .reserved (.addiWide (guardOf s) (syl 5 13 s) (wideOf len s1 s2))
  | 0x06 => decSAW len s s1 s2 .sub .subWide
  | 0x07 => decSAW len s s1 s2 .mul .mulWide
  | 0x08 => decSA len s .mulh
  | 0x09 => decSA len s .mulhN
  | 0x0A => decSAW len s s1 s2 .and .andWide
  | 0x0B => decSAW len s s1 s2 .andn .andnWide
  | 0x0C => decSAW len s s1 s2 .or .orWide
  | 0x0D => decSAW len s s1 s2 .xor .xorWide
  | 0x0E => decSA len s .shl
  | 0x0F => decSA len s .shr
  | 0x10 => decSA len s .sar
  | 0x11 => decSA len s .rot
  | 0x12 => decSA1 len s .clz
  | 0x13 => decSA1 len s .popc
  | 0x14 => decSAW len s s1 s2 .min .minWide
  | 0x15 => decSAW len s s1 s2 .minN .minNWide
  | 0x16 => decSAW len s s1 s2 .max .maxWide
  | 0x17 => decSAW len s s1 s2 .maxN .maxNWide
  | 0x18 =>
    if len = 0 then .ok (.cmp (guardOf s) (syl 4 14 s) (condOf (s / 2 ^ 11 % 8)) (syl 5 6 s) (srcCOf s))
    else need (flag 5 s && zeros 0 5 s) .reserved
      (.cmpWide (guardOf s) (syl 4 14 s) (condOf (s / 2 ^ 11 % 8)) (syl 5 6 s) (wideOf len s1 s2))
  | 0x19 => dec1 len true (.sel (guardOf s) (syl 5 13 s) (syl 5 8 s) (syl 5 3 s) (syl 3 0 s))
  | 0x1A =>
    if flag 17 s then
      if st = .c then dec1 len (zeros 18 5 s) (.brBq (syl 17 0 s)) else .error .reserved
    else dec1 len true (.br (guardOf s) (syl 17 0 s))
  | 0x1B => decSJ len s .jmp .jmpReg
  | 0x1C => decSJ len s .call .callReg
  | 0x1D => dec1 len (zeros 0 18 s) (.ret (guardOf s))
  | 0x1E => dec1 len true (.loop (guardOf s) (syl 5 13 s) (syl 13 0 s))
  | 0x1F => dec1 len true (.rdsr (guardOf s) (syl 5 13 s) (syl 13 0 s))
  | 0x20 => dec1 len true (.wrsr (guardOf s) (syl 5 13 s) (syl 13 0 s))
  | 0x21 => dec1 len (zeros 8 10 s) (.trap (guardOf s) (syl 8 0 s))
  | 0x22 => dec1 len (zeros 0 18 s) (.fin (guardOf s))
  | _ => .error .major

/-! ## The L-stream map (R135, R158 to R173) -/

/-- The form of an LDL (R158). -/
def ldlFormOf (s : Nat) : Except Reject LdlForm :=
  if flag 7 s then
    if zeros 13 2 s && zeros 0 2 s then .ok (.queue (syl 3 15 s) (syl 5 2 s)) else .error .reserved
  else if !zeros 0 4 s then .error .reserved
  else if flag 4 s && s / 2 ^ 5 % 4 == 3 then .error .code
  else .ok (.reg (syl 5 13 s) (syl 2 5 s) (flag 4 s))

/-- Bits [17:0] of an LDL but for A. -/
def ldlFormBits : LdlForm → Nat
  | .reg d sz sx => d.toNat * 2 ^ 13 + sz.toNat * 2 ^ 5 + flagBit sx * 2 ^ 4
  | .queue q e => q.toNat * 2 ^ 15 + 2 ^ 7 + e.toNat * 2 ^ 2

/-- Majors 0x30 to 0x7F of the L stream. -/
def decodeL (len op s s1 s2 : Nat) : Except Reject Instr :=
  match op with
  | 0x30 =>
    if !zeros 0 5 s then .error .reserved
    else if flag 5 s && s / 2 ^ 6 % 4 == 3 then .error .code
    else if len = 0 then .ok (.ld (guardOf s) (syl 5 13 s) (syl 5 8 s) (syl 2 6 s) (flag 5 s))
    else .ok (.ldOffset (guardOf s) (syl 5 13 s) (syl 5 8 s) (syl 2 6 s) (flag 5 s) (wideOf len s1 s2))
  | 0x31 =>
    match ldlFormOf s with
    | .error r => .error r
    | .ok f =>
      if len = 0 then
        match f with
        | .reg d sz sx => .ok (.ldl (guardOf s) d (syl 5 8 s) sz sx)
        | .queue q e => .ok (.ldlQ (guardOf s) q (syl 5 8 s) e)
      else .ok (.ldlOffset (guardOf s) f (syl 5 8 s) (wideOf len s1 s2))
  | 0x32 =>
    if !(zeros 13 2 s && zeros 0 3 s) then .error .reserved
    else if len = 0 then .ok (.ldr (guardOf s) (syl 3 15 s) (syl 5 8 s) (syl 5 3 s))
    else .ok (.ldrOffset (guardOf s) (syl 3 15 s) (syl 5 8 s) (syl 5 3 s) (wideOf len s1 s2))
  | 0x33 => dec1 len (zeros 0 11 s) (.lds (guardOf s) (syl 3 15 s) (syl 4 11 s))
  | 0x34 =>
    if !zeros 0 2 s then .error .reserved
    else if len = 0 then
      .ok (.gath (guardOf s) (syl 3 15 s) (flag 14 s) (syl 2 12 s) (syl 5 7 s) (syl 5 2 s))
    else if len = 1 then
      if !zeros 8 24 s1 then .error .reserved
      else need ((s1 % 256 + 1) * 2 ^ (s / 2 ^ 12 % 4) ≤ 256) .code
        (.gathN (guardOf s) (syl 3 15 s) (flag 14 s) (syl 2 12 s) (syl 5 7 s) (syl 5 2 s) (syl 8 0 s1))
    else .error .length
  | 0x35 =>
    if !(zeros 13 1 s && zeros 0 8 s) then .error .reserved
    else if len = 0 then .ok (.stcfg (guardOf s) (syl 4 14 s) (syl 5 8 s))
    else .ok (.stcfgOffset (guardOf s) (syl 4 14 s) (syl 5 8 s) (wideOf len s1 s2))
  | 0x36 =>
    if !zeros 0 3 s then .error .reserved
    else if len = 0 then
      if flag 13 s then need (zeros 3 5 s) .reserved (.stadvSkip (guardOf s) (syl 4 14 s) (syl 5 8 s))
      else .ok (.stadv (guardOf s) (syl 4 14 s) (syl 5 8 s) (syl 5 3 s))
    else if len = 1 then
      need (zeros 8 5 s && (!flag 13 s || zeros 3 5 s)) .reserved
        (.stadvImm (guardOf s) (syl 4 14 s) (flag 13 s) (syl 5 3 s) (BitVec.ofNat 32 s1))
    else .error .length
  | 0x37 =>
    if !zeros 13 3 s then .error .reserved
    else if flag 17 s then .error .code
    else if len = 0 then .ok (.pref (guardOf s) (syl 2 16 s) (syl 5 8 s) (syl 8 0 s))
    else .ok (.prefOffset (guardOf s) (syl 2 16 s) (syl 5 8 s) (syl 8 0 s) (wideOf len s1 s2))
  | 0x38 =>
    if !zeros 0 5 s then .error .reserved
    else if len = 0 then .ok (.ldlay (guardOf s) (syl 5 13 s) (syl 5 8 s) (syl 3 5 s))
    else .ok (.ldlayOffset (guardOf s) (syl 5 13 s) (syl 5 8 s) (syl 3 5 s) (wideOf len s1 s2))
  | 0x39 => dec1 len (zeros 0 18 s) (.fenceLayout (guardOf s))
  | 0x3A => dec1 len (zeros 0 8 s) (.qpush (guardOf s) (syl 3 15 s) (syl 2 13 s) (syl 5 8 s))
  | 0x3B => dec1 len (zeros 0 13 s) (.bqpush (guardOf s) (syl 4 14 s) (flag 13 s))
  | 0x3C =>
    if !zeros 0 4 s then .error .reserved
    else if len = 0 then .ok (.recv (guardOf s) (syl 3 15 s) (syl 6 9 s) (syl 5 4 s))
    else if len = 1 then
      need (zeros 0 28 s1) .reserved (.recvTry (guardOf s) (syl 3 15 s) (syl 6 9 s) (syl 5 4 s) (syl 4 28 s1))
    else .error .length
  | _ => .error .major

/-! ## The S-stream map (R136, R212 to R232) -/

/-- The form of an ST or STL (R212). -/
def stFormOf (s : Nat) : Except Reject StForm :=
  if flag 7 s then
    if zeros 13 2 s && zeros 0 2 s then .ok (.queue (syl 3 15 s) (syl 5 2 s)) else .error .reserved
  else if zeros 0 5 s then .ok (.reg (syl 5 13 s) (syl 2 5 s)) else .error .reserved

/-- Bits [17:0] of an ST or STL but for A. -/
def stFormBits : StForm → Nat
  | .reg b sz => b.toNat * 2 ^ 13 + sz.toNat * 2 ^ 5
  | .queue q e => q.toNat * 2 ^ 15 + 2 ^ 7 + e.toNat * 2 ^ 2

/-- A barrier operand in bits [17:10] (R127, R228). -/
def barOf (s : Nat) : Option BarOp :=
  match scopeOf (s / 2 ^ 15 % 8) with
  | some sc => some { scope := sc, n := syl 5 10 s }
  | none => none

/-- The eight bits of a barrier operand (R127). -/
def barBits (b : BarOp) : Nat := 32 * scopeCode b.scope + b.n.toNat

/-- Majors 0x30 to 0x7F of the S stream. -/
def decodeS (len op s s1 s2 : Nat) : Except Reject Instr :=
  match op with
  | 0x30 =>
    match stFormOf s with
    | .error r => .error r
    | .ok f =>
      if len = 0 then
        match f with
        | .reg b sz => .ok (.st (guardOf s) b (syl 5 8 s) sz)
        | .queue q e => .ok (.stQ (guardOf s) q (syl 5 8 s) e)
      else .ok (.stOffset (guardOf s) f (syl 5 8 s) (wideOf len s1 s2))
  | 0x31 =>
    match stFormOf s with
    | .error r => .error r
    | .ok f =>
      if len = 0 then
        match f with
        | .reg b sz => .ok (.stl (guardOf s) b (syl 5 8 s) sz)
        | .queue q e => .ok (.stlQ (guardOf s) q (syl 5 8 s) e)
      else .ok (.stlOffset (guardOf s) f (syl 5 8 s) (wideOf len s1 s2))
  | 0x32 =>
    if len = 0 then .ok (.str (guardOf s) (syl 3 15 s) (syl 5 10 s) (syl 5 5 s) (syl 5 0 s))
    else if len = 1 then
      .ok (.strOffset (guardOf s) (syl 3 15 s) (syl 5 10 s) (syl 5 5 s) (syl 5 0 s) (BitVec.ofNat 32 s1) none)
    else
      match scopeOf (s2 / 2 ^ 29 % 8) with
      | none => .error .code
      | some sc => need (zeros 0 29 s2 && !zeros 5 5 s) .reserved
          (.strOffset (guardOf s) (syl 3 15 s) (syl 5 10 s) (syl 5 5 s) (syl 5 0 s) (BitVec.ofNat 32 s1) (some sc))
  | 0x33 =>
    match scopeOf (s / 2 ^ 11 % 8) with
    | none => .error .code
    | some sc =>
      if flag 10 s then dec1 len (zeros 14 4 s && zeros 8 2 s && zeros 0 5 s) (.pushSq (guardOf s) sc (syl 3 5 s))
      else dec1 len (zeros 14 4 s && zeros 5 3 s && zeros 0 5 s) (.pushReg (guardOf s) sc (syl 5 5 s))
  | 0x34 =>
    let f := s / 2 ^ 14 % 16
    let d := s / 2 ^ 9 % 32
    let ok := zeros 0 4 s && ((f == 1 && d ≤ 30) || (f == 2 && d ≤ 30) || (f == 3 && d ≤ 28))
    if flag 8 s then dec1 len ok (.popTry (guardOf s) (syl 4 14 s) (syl 5 9 s) (syl 4 4 s))
    else dec1 len (ok && zeros 4 4 s) (.pop (guardOf s) (syl 4 14 s) (syl 5 9 s))
  | 0x35 =>
    if !zeros 0 3 s then .error .reserved
    else if len = 0 then .ok (.rgx (guardOf s) (syl 5 13 s) (syl 5 8 s) (syl 5 3 s))
    else if len = 1 then
      need (zeros 3 5 s && zeros 0 4 s1) .reserved
        (.rgxImm (guardOf s) (syl 5 13 s) (syl 5 8 s) (syl 14 18 s1) (syl 14 4 s1))
    else .error .length
  | 0x36 =>
    match scopeOf (s / 2 ^ 15 % 8) with
    | none => .error .code
    | some sc => dec1 len (zeros 0 15 s) (.fence (guardOf s) sc)
  | 0x37 =>
    if !zeros 0 7 s then .error .reserved
    else if len = 0 then
      if flag 7 s then .ok (.waitaNb (guardOf s) (syl 5 13 s) (syl 5 8 s))
      else .ok (.waita (guardOf s) (syl 5 13 s) (syl 5 8 s))
    else .ok (.waitaOffset (guardOf s) (flag 7 s) (syl 5 13 s) (syl 5 8 s) (wideOf len s1 s2))
  | 0x38 =>
    match barOf s with
    | none => .error .code
    | some b => dec1 len (zeros 0 10 s) (.barArrive (guardOf s) b)
  | 0x39 =>
    match barOf s with
    | none => .error .code
    | some b => dec1 len (zeros 0 5 s) (.barWait (guardOf s) b (syl 5 5 s))
  | 0x3A =>
    match barOf s with
    | none => .error .code
    | some b => dec1 len (zeros 0 5 s) (.barArwt (guardOf s) b (syl 5 5 s))
  | 0x3B => dec1 len (zeros 0 18 s) (.trig (guardOf s))
  | 0x3C =>
    if !zeros 0 4 s then .error .reserved
    else if len = 0 then .ok (.send (guardOf s) (syl 3 15 s) (syl 6 9 s) (syl 5 4 s))
    else if len = 1 then
      need (zeros 0 28 s1) .reserved (.sendTry (guardOf s) (syl 3 15 s) (syl 6 9 s) (syl 5 4 s) (syl 4 28 s1))
    else .error .length
  | _ => .error .major

/-! ## The C-stream map (R124, R125, R137) -/

/-- A V syllable of an integer operation with two sources. -/
def decV (s : Nat) (f : Guard → BitVec 5 → BitVec 5 → BitVec 5 → IntTy → Instr) : Except Reject Instr :=
  match intTyOf (s % 8) with
  | some ty => .ok (f (guardOf s) (syl 5 13 s) (syl 5 8 s) (syl 5 3 s) ty)
  | none => .error .code

/-- A V syllable of an integer operation with one source: B is zero. -/
def decV1 (s : Nat) (f : Guard → BitVec 5 → BitVec 5 → IntTy → Instr) : Except Reject Instr :=
  match intTyOf (s % 8) with
  | some ty => need (zeros 3 5 s) .reserved (f (guardOf s) (syl 5 13 s) (syl 5 8 s) ty)
  | none => .error .code

/-- A V syllable of a floating-point operation with two sources. -/
def decF (s : Nat) (f : Guard → BitVec 5 → BitVec 5 → BitVec 5 → FpTy → Instr) : Except Reject Instr :=
  match fpTyOf (s % 8) with
  | some ty => .ok (f (guardOf s) (syl 5 13 s) (syl 5 8 s) (syl 5 3 s) ty)
  | none => .error .code

/-- A V syllable of a floating-point operation with one source. -/
def decF1 (s : Nat) (f : Guard → BitVec 5 → BitVec 5 → FpTy → Instr) : Except Reject Instr :=
  match fpTyOf (s % 8) with
  | some ty => need (zeros 3 5 s) .reserved (f (guardOf s) (syl 5 13 s) (syl 5 8 s) ty)
  | none => .error .code

/-- A V syllable of an operation on bits, which takes no type. -/
def decB (s : Nat) (f : Guard → BitVec 5 → BitVec 5 → BitVec 5 → Instr) : Except Reject Instr :=
  need (zeros 0 3 s) .code (f (guardOf s) (syl 5 13 s) (syl 5 8 s) (syl 5 3 s))

/-- Whether a syllable is an extension (R124): major 0x7F with its LEN and reserved bits zero. -/
def isExt (x : Nat) : Bool := x / 2 ^ 23 == 0x7F && zeros 0 10 x

/-- The amount of a funnel shift (R196). -/
def funnelOf (x : Nat) : Option FunnelAmt :=
  if flag 17 x then if zeros 10 7 x then some (.reg (syl 5 18 x)) else none
  else if zeros 18 5 x then some (.imm (syl 7 10 x)) else none

/-- Bits [22:10] of the extension of a funnel shift. -/
def funnelBits : FunnelAmt → Nat
  | .imm k => k.toNat * 2 ^ 10
  | .reg c => c.toNat * 2 ^ 18 + 2 ^ 17

/-- The majors of joined operations (R137). -/
def isJoined (op : Nat) : Bool :=
  op == 0x38 || op == 0x3C || op == 0x3D || op == 0x47 || op == 0x59 || op == 0x5A

/-- A funnel shift. -/
def decFunnel (s x : Nat) (f : Guard → BitVec 5 → BitVec 5 → BitVec 5 → FunnelAmt → IntTy → Instr) :
    Except Reject Instr :=
  match intTyOf (s % 8), funnelOf x with
  | some ty, some amt => .ok (f (guardOf s) (syl 5 13 s) (syl 5 8 s) (syl 5 3 s) amt ty)
  | none, _ => .error .code
  | _, none => .error .reserved

/-- A joined lane operation with its two forms (R200). -/
def decLane (s x : Nat) (useA : Bool) (f : Guard → BitVec 5 → BitVec 5 → BitVec 8 → IntTy → Instr)
    (g : Guard → BitVec 5 → BitVec 5 → BitVec 5 → IntTy → Instr) : Except Reject Instr :=
  match intTyOf (s % 8) with
  | none => .error .code
  | some ty =>
    match s / 2 ^ 3 % 32 with
    | 0 => need (zeros 18 5 x && x / 2 ^ 10 % 256 < ty.lanes) .reserved
        (f (guardOf s) (syl 5 13 s) (syl 5 8 s) (syl 8 10 x) ty)
    | 1 => need (zeros 10 8 x && (useA || zeros 8 5 s)) .reserved
        (g (guardOf s) (syl 5 13 s) (syl 5 8 s) (syl 5 18 x) ty)
    | _ => .error .code

/-- The joined operations: `s` in slot 1, `x` in slot 2. -/
def decodeJoined (op s x : Nat) : Except Reject Instr :=
  if !isExt x then .error .extension
  else
    match op with
    | 0x38 => need (zeros 0 3 s) .code
        (.vlop3 (guardOf s) (syl 5 13 s) (syl 5 8 s) (syl 5 3 s) (syl 5 18 x) (syl 8 10 x))
    | 0x3C => decFunnel s x .vfshl
    | 0x3D => decFunnel s x .vfshr
    | 0x47 =>
      match intTyOf (s % 8) with
      | some ty => need (zeros 10 8 x) .reserved
          (.vsel (guardOf s) (syl 5 13 s) (syl 5 8 s) (syl 5 3 s) (syl 5 18 x) ty)
      | none => .error .code
    | 0x59 => decLane s x false .vbcast fun gd d _ c ty => .vbcastG gd d c ty
    | 0x5A => decLane s x true .vrotl .vrotlG
    | _ => .error .major

/-- The operations of slots 1 and 2 that are not joined (majors 0x30 to 0x61). -/
def decodeVector (op s : Nat) : Except Reject Instr :=
  match op with
  | 0x30 => decV s .vadd
  | 0x31 => decV s .vsub
  | 0x32 => decV s .vmul
  | 0x33 => decV s .vmulh
  | 0x34 => decV s .vmad
  | 0x35 => decB s .vand
  | 0x36 => decB s .vor
  | 0x37 => decB s .vxor
  | 0x39 => decV s .vshl
  | 0x3A => decV s .vshr
  | 0x3B => decV s .vsar
  | 0x3E => decV1 s .vpopc
  | 0x3F => decV1 s .vclz
  | 0x40 => decV s .vmin
  | 0x41 => decV s .vmax
  | 0x42 =>
    match intTyOf (s % 8) with
    | some ty => need (zeros 3 5 s && s % 8 < 3) .code (.vabs (guardOf s) (syl 5 13 s) (syl 5 8 s) ty)
    | none => .error .code
  | 0x43 => decV s .vcmpEq
  | 0x44 => decV s .vcmpNe
  | 0x45 => decV s .vcmpLt
  | 0x46 => decV s .vcmpLe
  | 0x48 => decF s .fadd
  | 0x49 => decF s .fsub
  | 0x4A => decF s .fmul
  | 0x4B => decF s .ffma
  | 0x4C => decF s .fmin
  | 0x4D => decF s .fmax
  | 0x4E => decF1 s .fabs
  | 0x4F => decF1 s .fneg
  | 0x50 => decF s .fcmpEq
  | 0x51 => decF s .fcmpNe
  | 0x52 => decF s .fcmpLt
  | 0x53 => decF s .fcmpLe
  | 0x54 => decF1 s .frcp
  | 0x55 => decF1 s .frsq
  | 0x56 => decF1 s .fexp2
  | 0x57 => decF1 s .flog2
  | 0x58 => decV s .vperm
  | 0x5B => decV s .vcomp
  | 0x5C =>
    match intTyOf (s % 8), redOpOf (s / 2 ^ 3 % 32) with
    | some ty, some op => .ok (.vred (guardOf s) (syl 5 13 s) (syl 5 8 s) op ty)
    | _, _ => .error .code
  | 0x5D =>
    match fpTyOf (s % 8), redOpOf (s / 2 ^ 3 % 32) with
    | some ty, some op => need (s / 2 ^ 3 % 32 < 3) .code (.fred (guardOf s) (syl 5 13 s) (syl 5 8 s) op ty)
    | _, _ => .error .code
  | 0x5E => decV s .vredm
  | 0x5F => decF s .fredm
  | 0x60 => need (zeros 11 2 s && zeros 0 8 s) .reserved (.qpop (guardOf s) (syl 5 13 s) (syl 3 8 s))
  | 0x61 => need (zeros 11 2 s && zeros 0 3 s) .reserved (.qput (guardOf s) (syl 5 13 s) (syl 3 8 s) (syl 5 3 s))
  | _ => .error .major

/-- The operations of slot 0 with C-stream majors (R182, R205, R206). -/
def decodeSlot0 (op s : Nat) : Except Reject Instr :=
  match op with
  | 0x62 => need (viewWf (syl 2 16 s) (syl 3 13 s) (syl 2 11 s) (syl 11 0 s)) .code
      (.view (guardOf s) (syl 2 16 s) (syl 3 13 s) (syl 2 11 s) (syl 11 0 s))
  | 0x63 => need (zeros 0 18 s) .reserved (.rotb (guardOf s))
  | 0x64 => need (zeros 0 13 s && s / 2 ^ 14 % 16 ≤ 8) .code (.loopst (guardOf s) (syl 4 14 s) (flag 13 s))
  | _ => .error .slot

/-- The operations of slot 2 alone: quantiser and matrix engine (R242 to R257, R280 to R287). -/
def decodeSlot2 (op s : Nat) : Except Reject Instr :=
  match op with
  | 0x65 => need (zeros 0 3 s) .reserved (.cvt (guardOf s) (syl 5 13 s) (syl 5 8 s) (syl 2 6 s) (syl 3 3 s))
  | 0x66 => need (zeros 0 3 s && zeros 13 1 s) .reserved
      (.qmx (guardOf s) (syl 5 13 s) (syl 5 8 s) (syl 2 6 s) (syl 3 3 s))
  | 0x67 => need (zeros 8 5 s && zeros 0 6 s) .reserved (.qtrl (guardOf s) (syl 5 13 s) (syl 2 6 s))
  | 0x68 => need (zeros 0 11 s) .reserved
      (if flag 11 s then .qstatClr (guardOf s) (syl 6 12 s) else .qstat (guardOf s) (syl 6 12 s))
  | 0x69 => need (zeros 13 5 s && zeros 0 7 s) .reserved
      (if flag 7 s then .mxsetLvl (guardOf s) (syl 5 8 s) else .mxsetHdr (guardOf s) (syl 5 8 s))
  | 0x6A =>
    if !zeros 0 8 s then .error .reserved
    else if flag 13 s then
      need (roleViewWf (syl 4 14 s) (syl 2 11 s)) .code
        (.mxbindView (guardOf s) (syl 4 14 s) (syl 2 11 s) (syl 3 8 s))
    else need (s / 2 ^ 14 % 16 ≤ 8) .code (.mxbindG (guardOf s) (syl 4 14 s) (syl 5 8 s))
  | 0x6B => need (zeros 0 13 s && s / 2 ^ 14 % 8 ≤ 5 && (flag 17 s || zeros 14 3 s)) .code
      (.mxgrp (guardOf s) (flag 17 s) (syl 3 14 s) (flag 13 s))
  | 0x6C => need (zeros 0 18 s) .reserved (.mxgo (guardOf s))
  | 0x6D => need (zeros 0 13 s && s / 2 ^ 13 % 32 ≤ 30) .code (.mxwait (guardOf s) (syl 5 13 s))
  | 0x6E => need (zeros 0 17 s) .reserved (if flag 17 s then .mxcommitClr (guardOf s) else .mxcommit (guardOf s))
  | 0x6F => need (zeros 0 8 s && !zeros 8 10 s) .code (.mxswap (guardOf s) (syl 10 8 s))
  | _ => .error .slot

/-- Majors 0x30 to 0x7F of the C stream, at a slot, with the syllable after (for a joined operation). -/
def decodeC (slot len op s x : Nat) : Except Reject Instr :=
  if len ≠ 0 then .error .length
  else if op = 0x7F then .error .extension
  else if 0x70 ≤ op then .error .major
  else if slot = 0 then decodeSlot0 op s
  else if isJoined op then if slot = 1 then decodeJoined op s x else .error .slot
  else if op ≤ 0x61 then decodeVector op s
  else if slot = 2 then decodeSlot2 op s
  else .error .slot

/-! ## Operations, words and headers (R112 to R119) -/

/-- Why a common operation may not stand where it does in a C word (R119, R134). -/
def misplaced (st : StreamId) (slot len op : Nat) : Option Reject :=
  match st with
  | .l => none
  | .s => none
  | .c => if len ≠ 0 then some .length else if slot ≠ 0 ∧ op ≠ 0 then some .slot else none

/-- Majors 0x30 to 0x7F of a stream. -/
def decodeSpecific (st : StreamId) (slot len op s s1 s2 : Nat) : Except Reject Instr :=
  match st with
  | .l => decodeL len op s s1 s2
  | .s => decodeS len op s s1 s2
  | .c => decodeC slot len op s s1

/-- An operation with its LEN and major taken out. -/
def decodeFields (st : StreamId) (slot len op s s1 s2 : Nat) : Except Reject Instr :=
  if len = 3 then .error .length
  else if zeros 19 4 s && flag 18 s then .error .guard
  else if 0x30 ≤ op then decodeSpecific st slot len op s s1 s2
  else
    match misplaced st slot len op with
    | some r => .error r
    | none => decodeCommon st len op s s1 s2

/-- An operation from its syllables, in a stream and (for C) a slot. -/
def decodeOp (st : StreamId) (slot s s1 s2 : Nat) : Except Reject Instr :=
  decodeFields st slot (s / 2 ^ 30 % 4) (s / 2 ^ 23 % 128) s s1 s2

/-- Whether an operation's major is stream-specific. -/
def specific (s : Nat) : Bool := 0x30 ≤ s / 2 ^ 23 % 128

/-- The operations of an L or S word (R118): `n` syllables are left, `had` tells of a stream-specific one. -/
def decodeOps (st : StreamId) : Nat → Bool → List Nat → Except Reject (List Instr)
  | 0, _, _ => .ok []
  | _, _, [] => .ok []
  | fuel + 1, had, s :: rest =>
    let len := s / 2 ^ 30 % 4
    if len = 3 then .error .length
    else if rest.length < len then .error .overrun
    else if had && specific s then .error .specific
    else
      match decodeOp st 0 s (rest.getD 0 0) (rest.getD 1 0) with
      | .error r => .error r
      | .ok i =>
        match decodeOps st fuel (had || specific s) (rest.drop len) with
        | .error r => .error r
        | .ok is => .ok (i :: is)

/-- A word of three syllables: its operations in the order of R120. -/
def decodeWord (st : StreamId) (s0 s1 s2 : Nat) : Except Reject (List Instr) :=
  match st with
  | .c =>
    match decodeOp .c 0 s0 0 0 with
    | .error r => .error r
    | .ok i0 =>
      match decodeOp .c 1 s1 s2 0 with
      | .error r => .error r
      | .ok i1 =>
        if isJoined (s1 / 2 ^ 23 % 128) then .ok [i0, i1]
        else
          match decodeOp .c 2 s2 0 0 with
          | .error r => .error r
          | .ok i2 => .ok [i0, i1, i2]
  | _ => decodeOps st 3 false [s0, s1, s2]

/-- A header (R113). -/
def decodeHeader (s0 s1 : Nat) : Except Reject Instr :=
  if s0 / 2 ^ 30 % 4 ≠ 3 then .error .kind
  else need (zeros 16 10 s0) .reserved
    (.sectionHeader { sp := flag 29 s0, pp := flag 28 s0, ma := flag 27 s0, mb := flag 26 s0, len := syl 16 0 s0,
                      na := syl 16 16 s1, nb := syl 16 0 s1 })

/-! ## Command records, packets and circuit words -/

/-- The command of a record (R300); a reserved opcode is a command too. -/
def decodeCommand (r : CmdRecord) : Instr :=
  match r.opc with
  | 0x01 => .copy r
  | 0x02 => .copy2 r
  | 0x03 => .copy3 r
  | 0x04 => .put r
  | 0x05 => .putf r
  | 0x06 => .get r
  | 0x07 => .accw r
  | 0x08 => .fill r
  | 0x09 => .mcast r
  | 0x0A => .prefAdapt r
  | 0x0B => .signal r
  | 0x10 => .aowAdd r
  | 0x11 => .aowMin r
  | 0x12 => .aowMax r
  | 0x13 => .aowAnd r
  | 0x14 => .aowOr r
  | 0x15 => .aowXor r
  | 0x16 => .aowSwap r
  | 0x17 => .cas r
  | 0x18 => .flagadd r
  | _ => .reservedCommand r

/-- The packet that a header begins (R386, R387). -/
def decodePacket (p : Packet) : Instr :=
  match p.type with
  | 0x01 => .launch p
  | 0x02 => .waitsig p
  | 0x03 => .signalPacket p
  | 0x04 => .fetchfence p
  | 0x05 => .wrap p
  | 0x06 => .pad p
  | 0x07 => .writePacket p
  | 0x08 => .copyPacket p
  | 0x09 => if p.act = 1 then .preemptResume p else if p.act = 2 then .preemptKill p else .preemptSuspend p
  | 0x0A => .cadence p
  | 0x0B => .qstatus p
  | _ => .reservedPacket p

/-- A circuit word, as a number below 2^64 (R344 to R351). -/
def decodeCircuit (w : Nat) : Except Reject Instr :=
  match w / 2 ^ 58 % 64 with
  | 0x01 => need (zeros 0 16 w) .reserved
      (.connect (syl 6 52 w) (syl 12 40 w) (syl 12 28 w) (syl 3 25 w) (syl 3 22 w) (syl 6 16 w))
  | 0x02 => need (zeros 0 35 w && (!flag 45 w || zeros 46 6 w)) .reserved
      (.hold (syl 6 52 w) (syl 6 46 w) (flag 45 w) (syl 10 35 w))
  | 0x03 => need (zeros 0 45 w && (!flag 45 w || zeros 46 6 w)) .reserved
      (.tear (syl 6 52 w) (syl 6 46 w) (flag 45 w))
  | 0x04 => need (zeros 0 50 w) .reserved (.step (syl 8 50 w))
  | 0x05 => need (zeros 56 2 w) .reserved (.settle (syl 56 0 w))
  | 0x06 => need (zeros 16 22 w) .reserved (.loopc (syl 20 38 w) (syl 16 0 w))
  | 0x07 => need (zeros 16 40 w && !(w / 2 ^ 56 % 4 == 3)) .reserved (.jumpc (syl 2 56 w) (syl 16 0 w))
  | 0x08 => need (zeros 32 26 w) .reserved (.mark (syl 32 0 w))
  | 0x09 => need (zeros 0 40 w && w / 2 ^ 40 % 16 ≤ 8 && !(w / 2 ^ 44 % 4 == 3) && (zeros 44 2 w || zeros 55 3 w))
      .reserved (.query (syl 6 52 w) (syl 6 46 w) (syl 2 44 w) (syl 4 40 w))
  | 0x0A => need (zeros 0 58 w) .reserved .endc
  | _ => .error .major

/-! ## The encoder -/

/-- D, A and [7:0] of format SA. -/
def saBits (d a : BitVec 5) (low : Nat) : Nat := d.toNat * 2 ^ 13 + a.toNat * 2 ^ 8 + low

/-- Format V (R124). -/
def vBits (d a b : BitVec 5) (ty : Nat) : Nat := d.toNat * 2 ^ 13 + a.toNat * 2 ^ 8 + b.toNat * 2 ^ 3 + ty

/-- An extension syllable (R124). -/
def extSyl (c : BitVec 5) (k8 : BitVec 8) : Nat := 0x7F * 2 ^ 23 + c.toNat * 2 ^ 18 + k8.toNat * 2 ^ 10

/-- An operation of one syllable. -/
def one (op : Nat) (gd : Guard) (body : Nat) : Option (List Nat) := some [headSyl 0 op gd body]

/-- An operation with a wide immediate or offset. -/
def withWide (op : Nat) (gd : Guard) (body : Nat) (v : Wide) : Option (List Nat) :=
  some (headSyl v.len op gd body :: v.syls)

/-- The syllables of an operation of the common map. -/
def encodeCommon : Instr → Option (List Nat)
  | .nop => some [0]

  | .movi gd d i => one 0x01 gd (d.toNat * 2 ^ 13 + i.toNat)
  | .moviWide gd d v => withWide 0x01 gd (d.toNat * 2 ^ 13) v
  | .movhi gd d i => one 0x02 gd (d.toNat * 2 ^ 13 + i.toNat)
  | .movhiWide gd d v => some [headSyl 1 0x02 gd (d.toNat * 2 ^ 13), v.toNat]
  | .mov gd d a => one 0x03 gd (saBits d a 0)
  | .addi gd d i => one 0x05 gd (d.toNat * 2 ^ 13 + i.toNat)
  | .addiWide gd d v => withWide 0x05 gd (d.toNat * 2 ^ 13) v
  | .add gd d a b => one 0x04 gd (saBits d a (srcBBits b))
  | .addWide gd d a v => withWide 0x04 gd (saBits d a 128) v
  | .sub gd d a b => one 0x06 gd (saBits d a (srcBBits b))
  | .subWide gd d a v => withWide 0x06 gd (saBits d a 128) v
  | .mul gd d a b => one 0x07 gd (saBits d a (srcBBits b))
  | .mulWide gd d a v => withWide 0x07 gd (saBits d a 128) v
  | .and gd d a b => one 0x0A gd (saBits d a (srcBBits b))
  | .andWide gd d a v => withWide 0x0A gd (saBits d a 128) v
  | .andn gd d a b => one 0x0B gd (saBits d a (srcBBits b))
  | .andnWide gd d a v => withWide 0x0B gd (saBits d a 128) v
  | .or gd d a b => one 0x0C gd (saBits d a (srcBBits b))
  | .orWide gd d a v => withWide 0x0C gd (saBits d a 128) v
  | .xor gd d a b => one 0x0D gd (saBits d a (srcBBits b))
  | .xorWide gd d a v => withWide 0x0D gd (saBits d a 128) v
  | .min gd d a b => one 0x14 gd (saBits d a (srcBBits b))
  | .minWide gd d a v => withWide 0x14 gd (saBits d a 128) v
  | .minN gd d a b => one 0x15 gd (saBits d a (srcBBits b))
  | .minNWide gd d a v => withWide 0x15 gd (saBits d a 128) v
  | .max gd d a b => one 0x16 gd (saBits d a (srcBBits b))
  | .maxWide gd d a v => withWide 0x16 gd (saBits d a 128) v
  | .maxN gd d a b => one 0x17 gd (saBits d a (srcBBits b))
  | .maxNWide gd d a v => withWide 0x17 gd (saBits d a 128) v
  | .mulh gd d a b => one 0x08 gd (saBits d a (srcBBits b))
  | .mulhN gd d a b => one 0x09 gd (saBits d a (srcBBits b))
  | .shl gd d a b => one 0x0E gd (saBits d a (srcBBits b))
  | .shr gd d a b => one 0x0F gd (saBits d a (srcBBits b))
  | .sar gd d a b => one 0x10 gd (saBits d a (srcBBits b))
  | .rot gd d a b => one 0x11 gd (saBits d a (srcBBits b))
  | .clz gd d a => one 0x12 gd (saBits d a 0)
  | .popc gd d a => one 0x13 gd (saBits d a 0)
  | .cmp gd pd cc a b => one 0x18 gd (pd.toNat * 2 ^ 14 + condCode cc * 2 ^ 11 + a.toNat * 2 ^ 6 + srcCBits b)
  | .cmpWide gd pd cc a v => withWide 0x18 gd (pd.toNat * 2 ^ 14 + condCode cc * 2 ^ 11 + a.toNat * 2 ^ 6 + 32) v
  | .sel gd d a b ps => one 0x19 gd (d.toNat * 2 ^ 13 + a.toNat * 2 ^ 8 + b.toNat * 2 ^ 3 + ps.toNat)
  | .br gd off => one 0x1A gd off.toNat
  | .brBq off => one 0x1A { p := 0, neg := false } (2 ^ 17 + off.toNat)
  | .jmp gd off => one 0x1B gd off.toNat
  | .jmpReg gd a => one 0x1B gd (2 ^ 17 + a.toNat * 2 ^ 12)
  | .call gd off => one 0x1C gd off.toNat
  | .callReg gd a => one 0x1C gd (2 ^ 17 + a.toNat * 2 ^ 12)
  | .ret gd => one 0x1D gd 0
  | .loop gd a body => one 0x1E gd (a.toNat * 2 ^ 13 + body.toNat)
  | .rdsr gd d n => one 0x1F gd (d.toNat * 2 ^ 13 + n.toNat)
  | .wrsr gd a n => one 0x20 gd (a.toNat * 2 ^ 13 + n.toNat)
  | .trap gd code => one 0x21 gd code.toNat
  | .fin gd => one 0x22 gd 0
  | _ => none

/-- The syllables of an operation of the L-stream map. -/
def encodeL : Instr → Option (List Nat)
  | .ld gd d a sz sx => one 0x30 gd (d.toNat * 2 ^ 13 + a.toNat * 2 ^ 8 + sz.toNat * 2 ^ 6 + flagBit sx * 2 ^ 5)
  | .ldOffset gd d a sz sx v =>
    withWide 0x30 gd (d.toNat * 2 ^ 13 + a.toNat * 2 ^ 8 + sz.toNat * 2 ^ 6 + flagBit sx * 2 ^ 5) v
  | .ldl gd d a sz sx => one 0x31 gd (ldlFormBits (.reg d sz sx) + a.toNat * 2 ^ 8)
  | .ldlQ gd q a e => one 0x31 gd (ldlFormBits (.queue q e) + a.toNat * 2 ^ 8)
  | .ldlOffset gd f a v => withWide 0x31 gd (ldlFormBits f + a.toNat * 2 ^ 8) v
  | .ldr gd q a e => one 0x32 gd (q.toNat * 2 ^ 15 + a.toNat * 2 ^ 8 + e.toNat * 2 ^ 3)
  | .ldrOffset gd q a e v => withWide 0x32 gd (q.toNat * 2 ^ 15 + a.toNat * 2 ^ 8 + e.toNat * 2 ^ 3) v
  | .lds gd q st => one 0x33 gd (q.toNat * 2 ^ 15 + st.toNat * 2 ^ 11)
  | .gath gd q sp esz a b =>
    one 0x34 gd (q.toNat * 2 ^ 15 + flagBit sp * 2 ^ 14 + esz.toNat * 2 ^ 12 + a.toNat * 2 ^ 7 + b.toNat * 2 ^ 2)
  | .gathN gd q sp esz a b n =>
    some [headSyl 1 0x34 gd
      (q.toNat * 2 ^ 15 + flagBit sp * 2 ^ 14 + esz.toNat * 2 ^ 12 + a.toNat * 2 ^ 7 + b.toNat * 2 ^ 2), n.toNat]
  | .stcfg gd st a => one 0x35 gd (st.toNat * 2 ^ 14 + a.toNat * 2 ^ 8)
  | .stcfgOffset gd st a v => withWide 0x35 gd (st.toNat * 2 ^ 14 + a.toNat * 2 ^ 8) v
  | .stadv gd st a b => one 0x36 gd (st.toNat * 2 ^ 14 + a.toNat * 2 ^ 8 + b.toNat * 2 ^ 3)
  | .stadvSkip gd st a => one 0x36 gd (st.toNat * 2 ^ 14 + 2 ^ 13 + a.toNat * 2 ^ 8)
  | .stadvImm gd st skip b imm =>
    some [headSyl 1 0x36 gd (st.toNat * 2 ^ 14 + flagBit skip * 2 ^ 13 + b.toNat * 2 ^ 3), imm.toNat]
  | .pref gd lvl a n => one 0x37 gd (lvl.toNat * 2 ^ 16 + a.toNat * 2 ^ 8 + n.toNat)
  | .prefOffset gd lvl a n v => withWide 0x37 gd (lvl.toNat * 2 ^ 16 + a.toNat * 2 ^ 8 + n.toNat) v
  | .ldlay gd d a k => one 0x38 gd (d.toNat * 2 ^ 13 + a.toNat * 2 ^ 8 + k.toNat * 2 ^ 5)
  | .ldlayOffset gd d a k v => withWide 0x38 gd (d.toNat * 2 ^ 13 + a.toNat * 2 ^ 8 + k.toNat * 2 ^ 5) v
  | .fenceLayout gd => one 0x39 gd 0
  | .qpush gd q sz a => one 0x3A gd (q.toNat * 2 ^ 15 + sz.toNat * 2 ^ 13 + a.toNat * 2 ^ 8)
  | .bqpush gd ps inv => one 0x3B gd (ps.toNat * 2 ^ 14 + flagBit inv * 2 ^ 13)
  | .recv gd q h e => one 0x3C gd (q.toNat * 2 ^ 15 + h.toNat * 2 ^ 9 + e.toNat * 2 ^ 4)
  | .recvTry gd q h e pd =>
    some [headSyl 1 0x3C gd (q.toNat * 2 ^ 15 + h.toNat * 2 ^ 9 + e.toNat * 2 ^ 4), pd.toNat * 2 ^ 28]
  | _ => none

/-- The syllables of an operation of the S-stream map. -/
def encodeS : Instr → Option (List Nat)
  | .st gd b a sz => one 0x30 gd (stFormBits (.reg b sz) + a.toNat * 2 ^ 8)
  | .stQ gd q a e => one 0x30 gd (stFormBits (.queue q e) + a.toNat * 2 ^ 8)
  | .stOffset gd f a v => withWide 0x30 gd (stFormBits f + a.toNat * 2 ^ 8) v
  | .stl gd b a sz => one 0x31 gd (stFormBits (.reg b sz) + a.toNat * 2 ^ 8)
  | .stlQ gd q a e => one 0x31 gd (stFormBits (.queue q e) + a.toNat * 2 ^ 8)
  | .stlOffset gd f a v => withWide 0x31 gd (stFormBits f + a.toNat * 2 ^ 8) v
  | .str gd q a f e => one 0x32 gd (q.toNat * 2 ^ 15 + a.toNat * 2 ^ 10 + f.toNat * 2 ^ 5 + e.toNat)
  | .strOffset gd q a f e off none =>
    some [headSyl 1 0x32 gd (q.toNat * 2 ^ 15 + a.toNat * 2 ^ 10 + f.toNat * 2 ^ 5 + e.toNat), off.toNat]
  | .strOffset gd q a f e off (some sc) =>
    some [headSyl 2 0x32 gd (q.toNat * 2 ^ 15 + a.toNat * 2 ^ 10 + f.toNat * 2 ^ 5 + e.toNat), off.toNat,
      scopeCode sc * 2 ^ 29]
  | .pushReg gd sc b => one 0x33 gd (scopeCode sc * 2 ^ 11 + b.toNat * 2 ^ 5)
  | .pushSq gd sc q => one 0x33 gd (scopeCode sc * 2 ^ 11 + 2 ^ 10 + q.toNat * 2 ^ 5)
  | .pop gd f d => one 0x34 gd (f.toNat * 2 ^ 14 + d.toNat * 2 ^ 9)
  | .popTry gd f d pd => one 0x34 gd (f.toNat * 2 ^ 14 + d.toNat * 2 ^ 9 + 2 ^ 8 + pd.toNat * 2 ^ 4)
  | .rgx gd d a b => one 0x35 gd (d.toNat * 2 ^ 13 + a.toNat * 2 ^ 8 + b.toNat * 2 ^ 3)
  | .rgxImm gd d a exp new =>
    some [headSyl 1 0x35 gd (d.toNat * 2 ^ 13 + a.toNat * 2 ^ 8), exp.toNat * 2 ^ 18 + new.toNat * 2 ^ 4]
  | .fence gd sc => one 0x36 gd (scopeCode sc * 2 ^ 15)
  | .waita gd a b => one 0x37 gd (a.toNat * 2 ^ 13 + b.toNat * 2 ^ 8)
  | .waitaNb gd a b => one 0x37 gd (a.toNat * 2 ^ 13 + b.toNat * 2 ^ 8 + 2 ^ 7)
  | .waitaOffset gd nb a b v => withWide 0x37 gd (a.toNat * 2 ^ 13 + b.toNat * 2 ^ 8 + flagBit nb * 2 ^ 7) v
  | .barArrive gd bar => one 0x38 gd (barBits bar * 2 ^ 10)
  | .barWait gd bar d => one 0x39 gd (barBits bar * 2 ^ 10 + d.toNat * 2 ^ 5)
  | .barArwt gd bar d => one 0x3A gd (barBits bar * 2 ^ 10 + d.toNat * 2 ^ 5)
  | .trig gd => one 0x3B gd 0
  | .send gd q h e => one 0x3C gd (q.toNat * 2 ^ 15 + h.toNat * 2 ^ 9 + e.toNat * 2 ^ 4)
  | .sendTry gd q h e pd =>
    some [headSyl 1 0x3C gd (q.toNat * 2 ^ 15 + h.toNat * 2 ^ 9 + e.toNat * 2 ^ 4), pd.toNat * 2 ^ 28]
  | _ => none

/-- The syllables of a vector operation. -/
def encodeVector : Instr → Option (List Nat)
  | .vadd gd d a b ty => one 0x30 gd (vBits d a b (intTyCode ty))
  | .vsub gd d a b ty => one 0x31 gd (vBits d a b (intTyCode ty))
  | .vmul gd d a b ty => one 0x32 gd (vBits d a b (intTyCode ty))
  | .vmulh gd d a b ty => one 0x33 gd (vBits d a b (intTyCode ty))
  | .vmad gd d a b ty => one 0x34 gd (vBits d a b (intTyCode ty))
  | .vshl gd d a b ty => one 0x39 gd (vBits d a b (intTyCode ty))
  | .vshr gd d a b ty => one 0x3A gd (vBits d a b (intTyCode ty))
  | .vsar gd d a b ty => one 0x3B gd (vBits d a b (intTyCode ty))
  | .vmin gd d a b ty => one 0x40 gd (vBits d a b (intTyCode ty))
  | .vmax gd d a b ty => one 0x41 gd (vBits d a b (intTyCode ty))
  | .vcmpEq gd d a b ty => one 0x43 gd (vBits d a b (intTyCode ty))
  | .vcmpNe gd d a b ty => one 0x44 gd (vBits d a b (intTyCode ty))
  | .vcmpLt gd d a b ty => one 0x45 gd (vBits d a b (intTyCode ty))
  | .vcmpLe gd d a b ty => one 0x46 gd (vBits d a b (intTyCode ty))
  | .vperm gd d a b ty => one 0x58 gd (vBits d a b (intTyCode ty))
  | .vcomp gd d a b ty => one 0x5B gd (vBits d a b (intTyCode ty))
  | .vredm gd d a b ty => one 0x5E gd (vBits d a b (intTyCode ty))
  | .vpopc gd d a ty => one 0x3E gd (vBits d a 0 (intTyCode ty))
  | .vclz gd d a ty => one 0x3F gd (vBits d a 0 (intTyCode ty))
  | .vabs gd d a ty => one 0x42 gd (vBits d a 0 (intTyCode ty))
  | .fadd gd d a b ty => one 0x48 gd (vBits d a b (fpTyCode ty))
  | .fsub gd d a b ty => one 0x49 gd (vBits d a b (fpTyCode ty))
  | .fmul gd d a b ty => one 0x4A gd (vBits d a b (fpTyCode ty))
  | .ffma gd d a b ty => one 0x4B gd (vBits d a b (fpTyCode ty))
  | .fmin gd d a b ty => one 0x4C gd (vBits d a b (fpTyCode ty))
  | .fmax gd d a b ty => one 0x4D gd (vBits d a b (fpTyCode ty))
  | .fcmpEq gd d a b ty => one 0x50 gd (vBits d a b (fpTyCode ty))
  | .fcmpNe gd d a b ty => one 0x51 gd (vBits d a b (fpTyCode ty))
  | .fcmpLt gd d a b ty => one 0x52 gd (vBits d a b (fpTyCode ty))
  | .fcmpLe gd d a b ty => one 0x53 gd (vBits d a b (fpTyCode ty))
  | .fredm gd d a b ty => one 0x5F gd (vBits d a b (fpTyCode ty))
  | .fabs gd d a ty => one 0x4E gd (vBits d a 0 (fpTyCode ty))
  | .fneg gd d a ty => one 0x4F gd (vBits d a 0 (fpTyCode ty))
  | .frcp gd d a ty => one 0x54 gd (vBits d a 0 (fpTyCode ty))
  | .frsq gd d a ty => one 0x55 gd (vBits d a 0 (fpTyCode ty))
  | .fexp2 gd d a ty => one 0x56 gd (vBits d a 0 (fpTyCode ty))
  | .flog2 gd d a ty => one 0x57 gd (vBits d a 0 (fpTyCode ty))
  | .vand gd d a b => one 0x35 gd (vBits d a b 0)
  | .vor gd d a b => one 0x36 gd (vBits d a b 0)
  | .vxor gd d a b => one 0x37 gd (vBits d a b 0)
  | .vlop3 gd d a b c k8 => some [headSyl 0 0x38 gd (vBits d a b 0), extSyl c k8]
  | .vfshl gd d a b amt ty =>
    some [headSyl 0 0x3C gd (vBits d a b (intTyCode ty)), 0x7F * 2 ^ 23 + funnelBits amt]
  | .vfshr gd d a b amt ty =>
    some [headSyl 0 0x3D gd (vBits d a b (intTyCode ty)), 0x7F * 2 ^ 23 + funnelBits amt]
  | .vsel gd d a b c ty => some [headSyl 0 0x47 gd (vBits d a b (intTyCode ty)), extSyl c 0]
  | .vbcast gd d a k ty => some [headSyl 0 0x59 gd (vBits d a 0 (intTyCode ty)), extSyl 0 k]
  | .vbcastG gd d c ty => some [headSyl 0 0x59 gd (vBits d 0 1 (intTyCode ty)), extSyl c 0]
  | .vrotl gd d a k ty => some [headSyl 0 0x5A gd (vBits d a 0 (intTyCode ty)), extSyl 0 k]
  | .vrotlG gd d a c ty => some [headSyl 0 0x5A gd (vBits d a 1 (intTyCode ty)), extSyl c 0]
  | .vred gd d a op ty => one 0x5C gd (d.toNat * 2 ^ 13 + a.toNat * 2 ^ 8 + redOpCode op * 2 ^ 3 + intTyCode ty)
  | .fred gd d a op ty => one 0x5D gd (d.toNat * 2 ^ 13 + a.toNat * 2 ^ 8 + redOpCode op * 2 ^ 3 + fpTyCode ty)
  | .qpop gd d q => one 0x60 gd (d.toNat * 2 ^ 13 + q.toNat * 2 ^ 8)
  | .qput gd n8 q b => one 0x61 gd (n8.toNat * 2 ^ 13 + q.toNat * 2 ^ 8 + b.toNat * 2 ^ 3)
  | _ => none

/-- The syllables of an operation of slot 0 or slot 2 with a C-stream major. -/
def encodeSlot : Instr → Option (List Nat)
  | .view gd k n w imm => one 0x62 gd (k.toNat * 2 ^ 16 + n.toNat * 2 ^ 13 + w.toNat * 2 ^ 11 + imm.toNat)
  | .rotb gd => one 0x63 gd 0
  | .loopst gd ns rt => one 0x64 gd (ns.toNat * 2 ^ 14 + flagBit rt * 2 ^ 13)
  | .cvt gd d a cf part => one 0x65 gd (d.toNat * 2 ^ 13 + a.toNat * 2 ^ 8 + cf.toNat * 2 ^ 6 + part.toNat * 2 ^ 3)
  | .qmx gd d a cf part => one 0x66 gd (d.toNat * 2 ^ 13 + a.toNat * 2 ^ 8 + cf.toNat * 2 ^ 6 + part.toNat * 2 ^ 3)
  | .qtrl gd d cf => one 0x67 gd (d.toNat * 2 ^ 13 + cf.toNat * 2 ^ 6)
  | .qstat gd tid => one 0x68 gd (tid.toNat * 2 ^ 12)
  | .qstatClr gd tid => one 0x68 gd (tid.toNat * 2 ^ 12 + 2 ^ 11)
  | .mxsetHdr gd a => one 0x69 gd (a.toNat * 2 ^ 8)
  | .mxsetLvl gd a => one 0x69 gd (a.toNat * 2 ^ 8 + 2 ^ 7)
  | .mxbindG gd role b => one 0x6A gd (role.toNat * 2 ^ 14 + b.toNat * 2 ^ 8)
  | .mxbindView gd role kind n => one 0x6A gd (role.toNat * 2 ^ 14 + 2 ^ 13 + kind.toNat * 2 ^ 11 + n.toNat * 2 ^ 8)
  | .mxgrp gd en gl gx => one 0x6B gd (flagBit en * 2 ^ 17 + gl.toNat * 2 ^ 14 + flagBit gx * 2 ^ 13)
  | .mxgo gd => one 0x6C gd 0
  | .mxwait gd d => one 0x6D gd (d.toNat * 2 ^ 13)
  | .mxcommit gd => one 0x6E gd 0
  | .mxcommitClr gd => one 0x6E gd (2 ^ 17)
  | .mxswap gd n => one 0x6F gd (n.toNat * 2 ^ 8)
  | _ => none

/-- The syllables of an operation; `none` for a row that no stream word carries. -/
def encodeOp (i : Instr) : Option (List Nat) :=
  match i.place with
  | .anywhere | .common | .wide => encodeCommon i
  | .c0 => match encodeSlot i with
    | some x => some x
    | none => encodeCommon i
  | .l => encodeL i
  | .s => encodeS i
  | .c12 | .joined => encodeVector i
  | .c2 => encodeSlot i
  | .notStream => none

/-- The two syllables of a header (R113). -/
def encodeHeader (h : Header) : List Nat :=
  [3 * 2 ^ 30 + flagBit h.sp * 2 ^ 29 + flagBit h.pp * 2 ^ 28 + flagBit h.ma * 2 ^ 27 + flagBit h.mb * 2 ^ 26 + h.len.toNat,
    h.na.toNat * 2 ^ 16 + h.nb.toNat]

/-- A circuit word. -/
def encodeCircuit : Instr → Option Nat
  | .connect h src dst sp dp rep =>
    some (0x01 * 2 ^ 58 + h.toNat * 2 ^ 52 + src.toNat * 2 ^ 40 + dst.toNat * 2 ^ 28 + sp.toNat * 2 ^ 25 +
      dp.toNat * 2 ^ 22 + rep.toNat * 2 ^ 16)
  | .hold h tile all n =>
    some (0x02 * 2 ^ 58 + h.toNat * 2 ^ 52 + tile.toNat * 2 ^ 46 + flagBit all * 2 ^ 45 + n.toNat * 2 ^ 35)
  | .tear h tile all => some (0x03 * 2 ^ 58 + h.toNat * 2 ^ 52 + tile.toNat * 2 ^ 46 + flagBit all * 2 ^ 45)
  | .step bar => some (0x04 * 2 ^ 58 + bar.toNat * 2 ^ 50)
  | .settle addr => some (0x05 * 2 ^ 58 + addr.toNat)
  | .loopc count body => some (0x06 * 2 ^ 58 + count.toNat * 2 ^ 38 + body.toNat)
  | .jumpc cnd off => some (0x07 * 2 ^ 58 + cnd.toNat * 2 ^ 56 + off.toNat)
  | .mark v => some (0x08 * 2 ^ 58 + v.toNat)
  | .query h tile kind minw =>
    some (0x09 * 2 ^ 58 + h.toNat * 2 ^ 52 + tile.toNat * 2 ^ 46 + kind.toNat * 2 ^ 44 + minw.toNat * 2 ^ 40)
  | .endc => some (0x0A * 2 ^ 58)
  | _ => none

/-- The record of a command. -/
def encodeCommand : Instr → Option CmdRecord
  | .copy r | .copy2 r | .copy3 r | .put r | .putf r | .get r | .accw r | .fill r | .mcast r | .prefAdapt r
  | .signal r | .aowAdd r | .aowMin r | .aowMax r | .aowAnd r | .aowOr r | .aowXor r | .aowSwap r | .cas r
  | .flagadd r | .reservedCommand r => some r
  | _ => none

/-- The words of a packet. -/
def encodePacket : Instr → Option Packet
  | .launch p | .waitsig p | .signalPacket p | .fetchfence p | .wrap p | .pad p | .writePacket p | .copyPacket p
  | .preemptSuspend p | .preemptResume p | .preemptKill p | .cadence p | .qstatus p | .reservedPacket p => some p
  | _ => none

/-- The eight words of a record. -/
def CmdRecord.words (r : CmdRecord) : List W64 := [r.w0, r.w1, r.w2, r.w3, r.w4, r.w5, r.w6, r.w7]

/-- ENCODE: the bytes of an instruction as the hardware stores them; `none` for a step that is no item of a
program. -/
def encode (i : Instr) : Option (List Byte) :=
  match encodeOp i with
  | some ss => some (ss.flatMap (natLE 4))
  | none =>
    match encodeCircuit i with
    | some w => some (natLE 8 w)
    | none =>
      match encodeCommand i with
      | some r => some (r.words.flatMap fun w => natLE 8 w.toNat)
      | none =>
        match encodePacket i with
        | some p => some (p.words.flatMap fun w => natLE 8 w.toNat)
        | none =>
          match i with
          | .sectionHeader h => some ((encodeHeader h).flatMap (natLE 4))
          | _ => none

/-- What the decoder reads from an instruction whose bits are `w`, the bits above `nbits` zero. A table row of
the majors 0x30 to 0x3C names no stream: the L reading is taken first, then the S, then the C one (log 16). -/
def decodeTableWord (nbits w : Nat) : Option Instr :=
  let v := w % 2 ^ nbits
  let s0 := v % 2 ^ 32
  let s1 := v / 2 ^ 32 % 2 ^ 32
  let s2 := v / 2 ^ 64 % 2 ^ 32
  if s0 / 2 ^ 30 = 3 then (decodeHeader s0 s1).toOption
  else
    match decodeOp .l 0 s0 s1 s2 with
    | .ok i => some i
    | .error _ =>
      match decodeOp .s 0 s0 s1 s2 with
      | .ok i => some i
      | .error _ =>
        match decodeOp .c 0 s0 s1 s2 with
        | .ok i => some i
        | .error _ =>
          match decodeOp .c 1 s0 s1 s2 with
          | .ok i => some i
          | .error _ => (decodeOp .c 2 s0 s1 s2).toOption

end Sys2Proof
end

