-- ==== Sys2Proof/Config.lean ====
section
/-! DEFINITION. What the manual leaves open (free values, with no body: nothing can be proved of a value of
theirs), and the moves from which the interleaving of the machine's agents is chosen. -/

namespace Sys2Proof

/-- The standing orders of a foreign request: what another panel of the domain asks of a home of this one
(R47, R368, R379). -/
inductive ForeignOp where
  | load (n : Nat)
  /-- `bad`: the sectors that the bytes meet arrive poisoned (R78, R79). -/
  | store (bs : List Byte) (bad : Bool)
  | flagAdd (v : W64)
  /-- A block that a copy engine reads or writes, and one that it accumulates in element type `ty`. -/
  | engRead (n : Nat)
  | engWrite (bs : List Byte) (bad : Bool)
  | accw (ty : Nat) (bs : List Byte) (bad : Bool)
  /-- An AOW, CAS or FLAGADD, by its record. -/
  | atomic (r : CmdRecord)
  | rgx (exp new : W32)
  | waita (exp : W64)
deriving DecidableEq, Repr, Inhabited

/-- A move of one agent. Which agent moves next is not fixed by the manual (R18, R65, R72). -/
inductive Move where
  /-- Stream `st` of physical core `c` tries to issue its next item. -/
  | issue (c : Nat) (st : StreamId)
  /-- The copy engine of core `c` takes the record at the head of f0. -/
  | engine (c : Nat)
  /-- The front end takes the packet at the head of queue `q`. -/
  | packet (part q : Nat)
  /-- The drover decodes the next word of a partition's circuit program. -/
  | circuitWord (part : Nat)
  /-- A step of the table that is not fetched from an instruction stream. -/
  | event (i : Instr)
  /-- Time passes, in ns. -/
  | elapse (ns : Nat)
  /-- A request of another panel arrives at an edge port for the partition with this DASID. -/
  | foreign (panel core : Nat) (dasid : BitVec 16) (num floor : W32) (addr : W64) (op : ForeignOp)
  /-- A transmit end sends a flit: it gets the next link sequence number and enters the replay buffer. -/
  | transmit (e : PortEnd) (f : FlitOut)
  /-- A transmit end is told that every flit up to this one has arrived (R338). -/
  | acknowledge (e : PortEnd) (lseq : BitVec 16)
  /-- A flock of another panel joins a system barrier under a key, or one of its members arrives (R399). -/
  | foreignBarrier (key party : Nat) (join : Bool)
  /-- Of operations that take effect piece by piece in no fixed order (R65, R74), one piece goes ahead: operation `op` of a
  core's L access queue reads one, the committed store at the head of its S access queue writes one, the home of request
  `req` reads one, or writes one for another panel, the homes of a started transfer move one, block `block` of a penumbra
  transfer writes one, the write at the head of a host port writes one. -/
  | readAhead (c op piece : Nat)
  | storePiece (c piece : Nat)
  | loadPiece (req piece : Nat)
  | foreignPiece (req piece : Nat)
  | transferPiece (c tk piece : Nat)
  | deliverPiece (c tk block piece : Nat)
  | hostPiece (port piece : Nat)
  /-- The store at place `ix` of a core's S access queue, which has committed, is performed before those ahead of it, which
  are bound for other homes (R209). -/
  | storeAhead (c ix : Nat)
  /-- A started command that stays within its core's local memory makes its accesses. -/
  | localTransfer (c tk : Nat)
  /-- A block of a penumbra transfer is delivered before its deadline (R325). -/
  | deliverBlock (c tk block : Nat)
  /-- A host port hands its oldest accepted write to the host's ordering point (R75). -/
  | handOn (port : Nat)
  /-- A gather unit reads the next K row, or the next scale row, of its nest's next pass ahead of the swap (R266, R267). -/
  | shadowRow (c : Nat) (scale : Bool)
  /-- Host memory is written by the host itself. -/
  | hostStore (addr : Nat) (bs : List Byte)
deriving DecidableEq, Repr, Inhabited

namespace Config

/-- A free byte: an unspecified value (R7, R130). Log 5, DESIGN CHOICE. -/
opaque anyByte : Nat → Byte

/-- A free word (R7). Log 5, DESIGN CHOICE. -/
opaque anyWord : Nat → W64

/-- A free choice between two outcomes the manual allows. Log 5, DESIGN CHOICE. -/
opaque anyBool : Nat → Bool

/-- The FEC parity of a flit's first 224 bytes: the manual names the code RS(128,112) over GF(2^8), but neither the field's
polynomial nor the generator's (R336). Log 27, DEDUCED. -/
opaque fecParity : List Byte → List Byte

/-- A free count. -/
opaque anyNat : Nat → Nat

/-- The move that is made when no move has been given from outside: the interleaving of the agents and the
inputs of the outside world, both left open by the manual. Log 1, DESIGN CHOICE. -/
opaque anyMove : Nat → Move

/-- The status with which a home of another panel answers a request: 0 for success, or a cause. Log 4, DESIGN CHOICE. -/
opaque foreignCause : Nat → Cause

/-- What another device answers where the manual does not give its bytes (SPDM, host identity). Log 4, DESIGN CHOICE. -/
opaque foreignBytes : Nat → List Byte

/-- The DER bytes that a certificate's signature covers, for a layer and its public key (R411): the manual names X.509 v3 and
gives no field of it. Log 4, DESIGN CHOICE. -/
opaque certBody : Nat → Option (Nat × Nat) → List Byte

/-- The DER bytes of a whole certificate: what its signature covers, and the signature. Log 4, DESIGN CHOICE. -/
opaque certFile : List Byte → Nat × Nat → List Byte

/-- The bytes of an SPDM request, and of an answer before its signature, as they are exchanged (R411): DMTF's, which the
manual does not give. Log 4, DESIGN CHOICE. -/
opaque spdmAsked : SpdmRequest → List Byte
opaque spdmAnswered : SpdmAnswer → List Byte

/-- The bytes of a measurement block with an index and a value, and which indices belong to the trusted computing base (R411):
DMTF's, which the manual does not give. Log 4, DESIGN CHOICE. -/
opaque spdmBlock : Nat × List Byte → List Byte
opaque spdmTcb : Nat → Bool

/-- What HBM and the ports of a tile draw, in W: the manual gives the layers' power only (R423, R424).
Log 46, DESIGN CHOICE. -/
opaque otherWatts : Nat → Nat

end Config
end Sys2Proof
end

