-- ==== Sys2Proof/Machine/State.lean ====
section
/-! DEFINITION. The state of the machine as plain data: one panel of the domain, its cores, homes, fabric,
drover, front end, roles and firmware, the host memory it can reach, and the model's own bookkeeping. -/

namespace Sys2Proof.Machine

/-- A keyed store: pairs of a key and a value, keys rising. A key that is not listed reads as a default. -/
abbrev AMap (α : Type) := List (Nat × α)

/-- Byte storage in canonical form: addresses rising, no entry equal to what an unlisted byte reads as. -/
abbrev Memory := List Host.Cell

/-! ## Outcomes of an issue -/

/-- Why a stream waits (R20). -/
inductive WaitReason where
  /-- A queue of the core that the word reads is empty. -/
  | queueEmpty
  /-- A queue of the core that the word writes is full. -/
  | queueFull
  /-- The section's dependences do not hold. -/
  | sectionDep
  /-- A destination has not passed its latency bound. -/
  | interlock
  /-- An access queue, or a g register with an outstanding access. -/
  | access
  | recvBytes
  | credit
  | barrier
  | mxwait
  | waita
  | fence
  | commitBuffer
  /-- The stream holds at a switch point (R427); not a wait under R20. -/
  | hold
  /-- The core stands at a cut, or has been asked for one. -/
  | cut
deriving DecidableEq, Repr, Inhabited

/-- What the last operation did: ran, waited, or raised a cause at its word. -/
inductive Verdict where
  | ran
  /-- Ran, and has itself set the stream's next item: a taken transfer, an executing LOOP, or FIN. -/
  | moved
  | waits (r : WaitReason)
  | traps (cause : Cause) (code : Byte) (addr : W64)
deriving DecidableEq, Repr, Inhabited

/-! ## Streams -/

/-- One level of a loop stack (R151, R189). -/
structure LoopLevel where
  first : Nat
  last : Nat
  left : Nat
  rot : Bool
deriving DecidableEq, Repr, Inhabited

/-- Where a stream stands. -/
inductive Phase where
  /-- Not released. -/
  | off
  /-- The next item must be a header. -/
  | header
  /-- Inside a section. -/
  | body
  /-- FIN has been executed. -/
  | done
deriving DecidableEq, Repr, Inhabited

/-- The state each stream has of its own (R18). Log 2, DESIGN CHOICE. -/
structure StreamState where
  g : Vector W64 32 := Vector.replicate 32 0
  p : Vector Bool 16 := Vector.replicate 16 false
  /-- Sequence counter of issued words. -/
  seq : W32 := 0
  /-- Section counter (R114). -/
  sect : W32 := 0
  /-- True until the entry section has been entered. -/
  fresh : Bool := true
  /-- Sections retired since launch (R114). -/
  retired : Nat := 0
  /-- Sections left and not yet retired: the issue stamp at which each was left. -/
  left : List Nat := []
  /-- Syllable offset of the next item. -/
  pc : Nat := 0
  /-- Syllable offset of the first word of the current section, and its length in words. -/
  secStart : Nat := 0
  secLen : Nat := 0
  phase : Phase := .off
  /-- A section has been entered and not left (R114). -/
  inSection : Bool := false
  /-- The header whose dependences have not yet been found to hold. -/
  dep : Option Header := none
  loops : List LoopLevel := []
  /-- The record of the variant table at which the stream holds (R427), and whether the next header is
  to be entered without a new look (R428). -/
  hold : Option Nat := none
  noSwitch : Bool := false
  wait : Option WaitReason := none
deriving DecidableEq, Repr

/-- An entry of lq, sq or bq: its bytes, whether they are written, and its issue stamp (R154). -/
structure QEntry where
  data : List Byte := []
  ready : Bool := true
  tk : Nat := 0
deriving DecidableEq, Repr, Inhabited

/-- A queue between streams (R19): declared depth, entries, and the sequence numbers of head and tail. -/
structure Queue where
  depth : Nat := 0
  entries : List QEntry := []
  head : W32 := 0
  tail : W32 := 0
deriving DecidableEq, Repr, Inhabited

/-- The decoded fields of a layout record (R165). -/
structure LayoutRec where
  sp : Bool := false
  tc : Bool := false
  base : W64 := 0
  fmt : BitVec 5 := 0
  sbase : W64 := 0
  n0 : Nat := 0
  n1 : Nat := 0
  n2 : Nat := 0
  n3 : Nat := 0
  s0 : W32 := 0
  s1 : W32 := 0
  s2 : W32 := 0
  s3 : W32 := 0
  sstr : W32 := 0
  sq : BitVec 3 := 0
  ebm1 : BitVec 5 := 0
  tbase : W64 := 0
deriving DecidableEq, Repr, Inhabited

/-- A stream register (R167). -/
structure StreamReg where
  conf : Bool := false
  lay : LayoutRec := {}
  i0 : Nat := 0
  i1 : Nat := 0
  i2 : Nat := 0
  i3 : Nat := 0
  j : Nat := 0
  crc : W32 := 0xFFFFFFFF
deriving DecidableEq, Repr, Inhabited

/-- The part of the loop engine that is not in the loop stack (R189). -/
structure LoopEngine where
  pns : BitVec 4 := 0
  prt : Bool := false
  ns : BitVec 4 := 0
  drn : Bool := false
  rbd : BitVec 5 := 0
  n : W32 := 0
  k : W32 := 0
deriving DecidableEq, Repr, Inhabited

/-- Operand-file bytes that an issued operation will write: its issue slot, the last slot of its bound, and the
bytes (R130). -/
structure Landing where
  slot : Nat
  due : Nat
  cells : List (Nat × Byte)
  /-- Bytes that a later operation also writes: undefined until this one lands, and not written by it (R132). -/
  ghosts : List Nat := []
deriving DecidableEq, Repr, Inhabited

/-- A destination on which the C stream interlocks (R180): g register, predicate, a view register or SRSTATE. -/
inductive Scoreboard where
  | g (i : BitVec 5)
  | p (i : BitVec 4)
  | srstate
deriving DecidableEq, Repr, Inhabited

/-- A C-stream destination and the slot from which it may be read. -/
structure Busy where
  dst : Scoreboard
  due : Nat
deriving DecidableEq, Repr, Inhabited

/-! ## Access queues -/

/-- A place in storage: a byte of a tile's storage, of a core's local memory, or of the host. -/
inductive Loc where
  | panel (tile off : Nat)
  | lm (core off : Nat)
  | host (port addr : Nat) (atomics : Bool)
  /-- A home on another panel of the domain. -/
  | foreign (panel : Nat)
deriving DecidableEq, Repr, Inhabited

/-- A line of the layout cache: where it was read, and its words as they were read last (R76). -/
structure LayoutLine where
  loc : Loc := .panel 0 0
  ws : List W64 := []
deriving DecidableEq, Repr, Inhabited

/-- The state of an access: its request travels, its data has come, its checks have passed and its homes hold it
(R209), or a check has failed. -/
inductive AccStatus where
  | sent
  | data (bs : List Byte)
  | held (locs : List Loc)
  | fail (cause : Cause) (addr : W64)
deriving DecidableEq, Repr, Inhabited

/-- What an operation of the L access queue does when it completes (R153). -/
inductive LKind where
  /-- LD and LDL into a register. -/
  | reg (lm : Bool) (addr : W64) (n : Nat) (d : BitVec 5) (sx : Bool)
  /-- LDL and LDR into an lq entry. -/
  | entry (lm : Bool) (addr : W64) (n : Nat) (q : BitVec 3)
  /-- LDS: the stream register as it stood, its number, and the lq of the entry. -/
  | lds (st : BitVec 4) (sr : StreamReg) (q : BitVec 3)
  | gath (q : BitVec 3) (lm : Bool) (e n : Nat) (base idx : W64)
  | stcfg (st : BitVec 4) (addr : W64)
  | ldlay (d : BitVec 5) (addr : W64) (k : BitVec 3)
  | pref (lvl : BitVec 2) (addr : W64) (lines : Nat)
  /-- The read of the trailer that the LDS before it compares with (R153, R170). -/
  | trailer (lm : Bool) (addr : W64)
deriving DecidableEq, Repr, Inhabited

/-- An outstanding operation of the L access queue, with what a withdrawal must restore (R155). -/
structure LAccess where
  tk : Nat
  kind : LKind
  status : AccStatus := .sent
  seq : W32 := 0
  syl : Nat := 0
  undo : StreamState := {}
  undoSt : Vector StreamReg 16 := Vector.replicate 16 {}
  /-- Aligned 8-byte pieces that it has read already: local memory or not, address over 8, bytes (R65, R74). -/
  got : List ((Bool × Nat) × List Byte) := []
  /-- Sends of a read that it makes itself, and when one that got no answer is sent again (R330, R362). -/
  sends : Nat := 1
  resendAt : Option Nat := none
  /-- A flit of a reply to it was given up after retransmission: the address of the read that it answered (R78, R338). -/
  bad : Option W64 := none
deriving DecidableEq, Repr

/-- What an operation of the S access queue does (R208). -/
inductive SKind where
  | glob (addr : W64) (bs : List Byte)
  | loc (addr : W64) (bs : List Byte)
  | str (addr : W64) (bs : List Byte) (flag : W64) (sc : Scope)
  | rgx (d : BitVec 5) (addr : W64) (exp new : W32)
deriving DecidableEq, Repr, Inhabited

/-- An outstanding operation of the S access queue, with the stream before its word, which a withdrawal restores
(R210). -/
structure SAccess where
  tk : Nat
  kind : SKind
  status : AccStatus := .sent
  seq : W32 := 0
  syl : Nat := 0
  undo : StreamState := {}
  /-- The aligned 8-byte pieces of a committed wide store that are still to be performed (R74). -/
  todo : Option (List Nat) := none
  /-- Its flit was given up after retransmission: its sectors arrive poisoned (R338). -/
  bad : Bool := false
deriving DecidableEq, Repr

/-- What a word of the S stream changed, beside the stream itself, behind an outstanding access: a withdrawal undoes it
(R210). An entry taken from an sq or from f1 to f3, the waited count of a barrier, SYNC_ST, VARTAB. -/
inductive SUndo where
  | sq (q : BitVec 3) (e : QEntry)
  | f1 (e : W64 × W64)
  | f2 (e : W64 × W64)
  | f3 (e : List Byte)
  | waited (key w : Nat)
  | awp (awp : Bool) (bar : BitVec 8)
  | vartab (v : W64) (err : Bool)
deriving DecidableEq, Repr, Inhabited

/-- Bytes of a SEND that earlier accesses of its stream still hold back: its stamp, handle and bytes (R210, R232). -/
structure SentBytes where
  tk : Nat
  h : Nat
  bs : List Byte
deriving DecidableEq, Repr, Inhabited

/-- The flag of an STR that waits for its data's data-visible point (R213): its place, whose check stands. -/
structure FlagAdd where
  addr : W64
  loc : Loc := .panel 0 0
  sc : Scope
  tk : Nat
  /-- Its request is on its way (R328). -/
  sent : Bool := false
deriving DecidableEq, Repr, Inhabited

/-- A host-bound write in a commit buffer or at a host port (R234, R75): its stamp, and the flag where it is the addition
of an STR's flag in the host window. -/
structure HostWrite where
  addr : Nat
  bs : List Byte
  port : Nat
  tk : Nat := 0
  flag : Option FlagAdd := none
  /-- The aligned 8-byte pieces that are still to be handed to the host's ordering point, once one has been (R74). -/
  todo : Option (List Nat) := none
deriving DecidableEq, Repr, Inhabited

/-! ## Copy engine -/

/-- A record in f0: pushed with a scope, at an issue stamp, its bytes counted in a barrier phase if it names one. -/
structure F0Entry where
  cmd : CmdRecord
  scope : Scope
  tk : Nat
  bar : Option (Nat × Nat) := none
  /-- The step that established its circuit, for a command bound to a handle (R301, R327). -/
  circ : Option Nat := none
  /-- Where the completion record of a COPY packet goes; 0 for none (R390); and the queue of the packet. -/
  recAt : Nat := 0
  queue : Option Nat := none
deriving DecidableEq, Repr, Inhabited

/-- How far a started command is. -/
inductive CmdStage where
  /-- Moving, or refused with retry-after and to be sent again. -/
  | running
  /-- A penumbra transfer before its deadline. -/
  | penumbra
  /-- Its settlement has been sent to the homes (R325). -/
  | settling
  /-- Data visible (and settled); its flag is to be added. -/
  | flag
  /-- The flag's addition has been sent to its home (R312, R328). -/
  | flagSent
  /-- All its accesses are made; it can complete. -/
  | ended
deriving DecidableEq, Repr, Inhabited

/-- A block of a penumbra transfer that is not yet delivered: its index, destination and data as sent, whether it arrives
poisoned or was lost, and the pieces that are still to be written, once one has been (R74, R325). -/
structure PenBlock where
  ix : Nat
  dst : W64
  data : List Byte
  bad : Bool := false
  todo : Option (List Nat) := none
deriving DecidableEq, Repr, Inhabited

/-- A started command (R307). -/
structure Started where
  tk : Nat
  cmd : CmdRecord
  scope : Scope
  bar : Option (Nat × Nat) := none
  stage : CmdStage := .running
  status : Cause := 0
  value : W64 := 0
  cnt : Nat := 0
  flags : BitVec 8 := 0
  startedAt : Nat := 0
  circ : Option Nat := none
  recAt : Nat := 0
  queue : Option Nat := none
  /-- Elements or pieces of the walk already written, and the pieces that are not (R74, R331). -/
  pos : Nat := 0
  todo : Option (List Nat) := none
  /-- Destination sectors whose flit was given up after retransmission (R323): address over 64. -/
  bad : List Nat := []
  /-- Destination sectors that poisoned bytes of pieces moved so far have reached. -/
  spoilt : List Loc := []
  /-- The source of an MCAST, each byte perhaps poisoned, once it has been read (R314). -/
  source : Option (List (Byte × Bool)) := none
  /-- Blocks of a penumbra transfer not yet delivered. -/
  blocks : List PenBlock := []
  lost : List Nat := []
  nblocks : Nat := 0
deriving DecidableEq, Repr, Inhabited

/-! ## Quantiser -/

/-- A trailer accumulator (R249). -/
structure TrailerAcc where
  crc : W32 := 0xFFFFFFFF
  bytes : Nat := 0
  sat : Nat := 0
  amax : W32 := 0
deriving DecidableEq, Repr, Inhabited

/-- The counters of one tensor identifier (R256). -/
structure TensorStats where
  elems : Nat := 0
  sat : Nat := 0
  flush : Nat := 0
  nan : Nat := 0
  amax : W32 := 0
deriving DecidableEq, Repr, Inhabited

/-! ## Matrix engine -/

/-- A table bank (R270 to R272, R283). -/
structure Bank where
  hdr : List W64 := List.replicate 32 0
  lvl : List W32 := List.replicate 64 0
  gen : Bool := false
  gl : BitVec 3 := 0
  gx : Bool := false
deriving DecidableEq, Repr, Inhabited

/-- Where a running nest stands (R273). -/
inductive NestStage where
  /-- At a pass boundary, before the swap. -/
  | swap
  /-- The weight tile is active; the pass is to run. -/
  | pass
  /-- The pass ended a run; the landing tile is to be drained. -/
  | drain
  /-- All is done, or the nest has failed. -/
  | ended
deriving DecidableEq, Repr, Inhabited

/-- A nest handed to the engine, with the view registers as they stood at its MXGO or MXCOMMIT (R269). -/
structure Nest where
  num : W32
  bank : Bank
  tviews : List W64
  aviews : List W64
  /-- A drain nest (R286), and whether it discards. -/
  commit : Option Bool := none
  /-- Rows and columns of what it drains (R276, R286). -/
  shape : Nat × Nat := (0, 0)
  idx : List Nat := [0, 0, 0, 0, 0, 0]
  stage : NestStage := .swap
  /-- The issue slot and stamp of its MXGO or MXCOMMIT (R290). -/
  slot : Nat := 0
  tk : Nat := 0
  cause : Cause := 0
  sub : Cause := 0
  row : Nat := 0
  role : Nat := 0
deriving DecidableEq, Repr, Inhabited

/-- The landing tile (R276): its columns, its accumulator format, and its rows of entries. -/
structure Tile where
  cols : Nat
  accf : Nat
  rows : List (List (BitVec 48))
deriving DecidableEq, Repr, Inhabited

/-- The weight tile of a pass: K rows of elements, and scale rows by block. -/
structure Weights where
  rows : List (List Nat) := []
  scales : List (List Nat) := []
deriving DecidableEq, Repr, Inhabited

/-- What the gather unit has read ahead of the next pass: the shadow tile and the scale queue's part of it, with the
addresses of W and SW as the pointer table gave them (R266, R267, R273). -/
structure Shadow where
  addrs : Option (Int × Int) := none
  tile : Weights := {}
deriving DecidableEq, Repr, Inhabited

/-- The result of a completed nest, as MXWAIT writes it (R285), and the nest. -/
structure NestResult where
  r0 : W64
  r1 : W64
  nest : Nest
deriving DecidableEq, Repr, Inhabited

/-- The matrix engine of a core (R295). -/
structure Matrix where
  bank0 : Bank := {}
  bank1 : Bank := {}
  staging : Bool := false
  running : Option Nest := none
  pending : Option Nest := none
  shadow : Shadow := {}
  /-- The weight tile and scales of the pass in progress. -/
  active : Weights := {}
  land : Option Tile := none
  held : Option Tile := none
  grants : Nat := 0
  ngo : W32 := 0
  outst : Nat := 0
  results : List NestResult := []
deriving DecidableEq, Repr, Inhabited

/-! ## A member's context -/

/-- A trap a member stands at (R401, R402). -/
structure TrapInfo where
  cause : Cause
  stream : StreamId
  code : Byte
  addr : W64
  seq : W32
  syl : Nat
  /-- Its record has been written to TRAPQ; it has had to wait for space there (R394). -/
  written : Bool := false
  waited : Bool := false
deriving DecidableEq, Repr, Inhabited

/-- What a WAITA asks of its home (R218, R219). -/
structure WaitReq where
  addr : W64
  exp : W64
  nb : Bool
  tk : Nat
  armed : Bool := false
  /-- Its request is on its way to the home (R328). -/
  sent : Bool := false
  /-- The record of a blocking WAITA has been written: the word goes on when it is next tried. -/
  done : Bool := false
deriving DecidableEq, Repr, Inhabited

/-- The architected context of a member and its engines (R176, R191, R236, R262, R295, R331).
Log 2, DESIGN CHOICE; log 11, DEDUCED. -/
structure Ctx where
  /-- The flock and member this context belongs to; `none` for a core that no flock holds. -/
  flock : Option Nat := none
  member : Nat := 0
  logical : BitVec 12 := 0
  l : StreamState := {}
  c : StreamState := {}
  s : StreamState := {}
  lq : Vector Queue 8 := Vector.replicate 8 {}
  sq : Vector Queue 8 := Vector.replicate 8 {}
  bq : Queue := {}
  st : Vector StreamReg 16 := Vector.replicate 16 {}
  laccess : List LAccess := []
  saccess : List SAccess := []
  /-- Issue stamp: counts words issued by the core. -/
  tk : Nat := 0
  /-- C-stream issue slots passed. -/
  slot : Nat := 0
  opfile : Memory := []
  landings : List Landing := []
  busy : List Busy := []
  viewV : W64 := 0
  viewT : Vector W64 8 := Vector.replicate 8 0
  viewA : Vector W64 8 := Vector.replicate 8 0
  le : LoopEngine := {}
  srstate : W32 := 1
  lostcnt : W32 := 0
  qcfg : Vector W64 4 := Vector.replicate 4 0
  acc : Vector TrailerAcc 4 := Vector.replicate 4 {}
  stats : Vector TensorStats 64 := Vector.replicate 64 {}
  f0 : List F0Entry := []
  f1 : List (W64 × W64) := []
  f1res : Nat := 0
  f2 : List (W64 × W64) := []
  f2res : Nat := 0
  f3 : List (List Byte) := []
  fifoHead : Vector (BitVec 16) 4 := Vector.replicate 4 0
  fifoTail : Vector (BitVec 16) 4 := Vector.replicate 4 0
  started : List Started := []
  seqno : W32 := 0
  unanswered : List W32 := []
  fcause : Cause := 0
  nfail : Nat := 0
  clost : Nat := 0
  waits : List WaitReq := []
  awp : Bool := false
  awpBar : BitVec 8 := 0
  monmiss : W32 := 0
  arrivals : List (Nat × Nat) := []
  slog : List (Nat × SUndo) := []
  sends : List SentBytes := []
  /-- Phases whose pending bytes a command would overflow, behind an access that can still fault: the stamp, the key of the
  instance and the phase (R210, R227). -/
  overs : List (Nat × Nat × Nat) := []
  flagAdds : List FlagAdd := []
  commit : List HostWrite := []
  trigPending : Bool := false
  /-- The stamp of the TRIG that is on its way. -/
  trigTk : Nat := 0
  triggered : Bool := false
  vartab : W64 := 0
  varSwitches : Nat := 0
  varMiss : Nat := 0
  varRec : Byte := 0
  varLvl : Byte := 0
  varErr : Bool := false
  /-- When the first stream began to hold, and when the latest one did (R428). -/
  holdSince : Nat := 0
  heldAt : Nat := 0
  mx : Matrix := {}
  cycles : Nat := 0
  layoutCache : AMap LayoutLine := []
  nearCache : List Nat := []
  regionCache : AMap W32 := []
  prefDrops : Nat := 0
  /-- A pre-emption request is pending (R38); each stream that has reached its cut. -/
  preempt : Bool := false
  lcut : Bool := false
  ccut : Bool := false
  scut : Bool := false
  /-- The cut is forced (R41): taken at the next word boundary of each stream. -/
  forced : Bool := false
  trap : Option TrapInfo := none
  resumeWith : Bool := false
  waitSince : Nat := 0
  /-- The handle on which a RECV, or a SEND, of the core waits, and the step that established its circuit (R163,
R232). -/
  recvOn : Option (BitVec 6 × Nat) := none
  sendOn : Option (BitVec 6 × Nat) := none
deriving DecidableEq, Repr, Inhabited

end Sys2Proof.Machine

namespace Sys2Proof.Config

/-- What a restore makes of a context into whose slot the host has written: the manual gives a slot no layout (R405).
Log 12, DESIGN CHOICE. -/
opaque anyCtx : Nat → Machine.Ctx → Machine.Ctx

end Sys2Proof.Config

namespace Sys2Proof.Machine

/-! ## Homes -/

/-- An armed monitor of a tile (R219, R220); `fired` holds the value and poison of the waking write. -/
structure Monitor where
  flock : Nat
  member : Nat
  tk : Nat
  nb : Bool
  va : W64
  mem : Bool
  pa : Nat
  exp : W64
  fired : Option (W64 × Bool) := none
  /-- The flock and member whose local memory holds the location, while it stands moved out; `pa` is then its offset
  (R42, R310). -/
  away : Option (Nat × Nat) := none
  /-- Armed by a core of another panel, `flock` and `member` then being that panel and core: its wake record goes there. -/
  ext : Bool := false
deriving DecidableEq, Repr, Inhabited

/-- A saved reply of an ingress (R329): source panel, core, request number, and what was answered. -/
structure SavedReply where
  panel : Nat
  core : Nat
  num : W32
  cause : Cause
  value : W64
  /-- The address a failure names, and the places that the home holds for a store. -/
  at_ : W64 := 0
  bs : List Byte := []
  locs : List Loc := []
deriving DecidableEq, Repr, Inhabited

/-- A cached translation (R52, R366): ASID, page number of 64 KiB, and the leaf and its level. -/
structure TlbEntry where
  asid : BitVec 16
  page : Nat
  leaf : W64
  level : Nat
deriving DecidableEq, Repr, Inhabited

/-- A request to a home (R328). -/
inductive ReqOp where
  | load (n : Nat)
  | store (bs : List Byte)
  | str (bs : List Byte) (flag : W64)
  | rgx (exp new : W32)
  | command (tk : Nat)
  /-- The arming of the WAITA with this stamp (R219). -/
  | arm (tk : Nat)
  /-- The addition to the flag of the STR, or of the PUTF, with this stamp (R213, R312). -/
  | strAdd (tk : Nat)
  | putfAdd (tk : Nat)
  /-- The addition to the flag of a SETTLE: the program's flock, the step, and the index of the word (R348). -/
  | drvSettle (fl step word : Nat)
  /-- The settlement of the penumbra transfer with this stamp, with the blocks not delivered (R325). -/
  | settle (tk : Nat) (lost : List Nat)
  | foreign (op : ForeignOp)
deriving DecidableEq, Repr, Inhabited

/-- Where a request is. -/
inductive ReqStage where
  | travelling
  | answered (cause : Cause) (at_ : W64) (bs : List Byte) (locs : List Loc)
  | refused (until_ : Nat)
deriving DecidableEq, Repr, Inhabited

/-- A request in flight, or its reply. -/
structure Request where
  panel : Nat
  core : Nat
  part : Nat
  tk : Nat
  lstream : Bool
  num : W32
  floor : W32
  addr : W64
  op : ReqOp
  sends : Nat
  sentAt : Nat
  stage : ReqStage
  /-- The aligned 8-byte pieces of a load that its home has read ahead: address over 8, bytes (R65, R74). -/
  got : List ((Bool × Nat) × List Byte) := []
deriving DecidableEq, Repr, Inhabited

/-! ## Fabric -/

/-- The training state of a wavelength at a port end (R359). -/
inductive WlState where
  /-- After module reset, before the training that a partition's creation begins: PORT_ST reads 0 (R365). -/
  | idle
  | active | retrain | exchange | failed
deriving DecidableEq, Repr, Inhabited

/-- One wavelength of a port end, with the counters of its receive end (R357, R365). It is in the usable map where
its state is active (R333). -/
structure Wavelength where
  state : WlState := .idle
  /-- This end's view excludes it (R359). -/
  excluded : Bool := false
  /-- It has crossed its threshold and is to be handed back (R357). -/
  crossed : Bool := false
  /-- The crossing of this window has been dealt with. -/
  met : Bool := false
  /-- When its training last began. -/
  since : Nat := 0
  attempts : Nat := 0
  /-- Symbols received in the current window, those that FEC corrected, and the uncorrectable flits (R357). -/
  symbols : Nat := 0
  window : Nat := 0
  uncWindow : Nat := 0
  corr : Nat := 0
  hb : Nat := 0
  agf : Nat := 0
  unc : Nat := 0
  rtns : Nat := 0
  /-- When it left the map, or began to retrain after a failure; `none` where it is not out for retraining. -/
  outSince : Option Nat := none
  crossings : Nat := 0
  viaMesh : Bool := false
  /-- The loss of its laser line took it out: it retrains when the line is back (R361). -/
  lineLost : Bool := false
deriving DecidableEq, Repr, Inhabited

/-- A sequenced flit that a transmit end keeps until it is acknowledged: its LSEQ, bytes, and sends so far (R338). -/
structure TxFlit where
  lseq : BitVec 16
  bytes : List Byte
  sends : Nat := 1
deriving DecidableEq, Repr, Inhabited

/-- What an end has sent and its peer has not yet taken, with the wavelengths that its units go on (R337): a flit, perhaps
marked poisoned; a skip (R339); idle units that end a round; a hand-back (R358); and the LSEQ of the last flit under the old
map, after which a wavelength leaves the map or is back in it. -/
inductive Sent where
  | data (lseq : BitVec 16) (bytes : List Byte) (poisoned : Bool) (lanes : List Nat)
  | skip (lseq : BitVec 16) (lanes : List Nat)
  | idle (lanes : List Nat)
  | handBack (k : BitVec 3)
  | lastFlit (k : Nat) (lseq : BitVec 16) (back : Bool)
deriving DecidableEq, Repr, Inhabited

/-- A port end (R333, R336 to R340, R365). -/
structure PortSt where
  wl : Vector Wavelength 8 := Vector.replicate 8 {}
  minw : BitVec 4 := 4
  cthr : BitVec 20 := 0x400
  half : Bool := false
  /-- The training at partition creation is over (R359). -/
  trained : Bool := false
  resent : Nat := 0
  poisoned : Nat := 0
  txSeq : BitVec 16 := 0
  /-- Reliable flits sent and not acknowledged; penumbra flits, kept only to be told by their numbers (R338, R339). -/
  replay : List TxFlit := []
  penSent : List TxFlit := []
  outbox : List Sent := []
  /-- The place in the current round of the next unit that is sent, or received (R337). -/
  deal : Nat := 0
  rxSeq : BitVec 16 := 0
  /-- Flits that came before an earlier one: their bytes and poison, or nothing left to deliver. -/
  heldFlits : List (BitVec 16 × Option (List Byte × Bool)) := []
  delivered : List (List Byte × Bool) := []
  /-- Flits refused and not yet received well; NACKs on their way to the transmit end. -/
  nacks : List (BitVec 16) := []
  nackOut : List (BitVec 16) := []
deriving DecidableEq, Repr

/-! ## Tiles and layers -/

/-- The roles of a layer die (R413). -/
inductive Role where
  | lit | shade | offline
deriving DecidableEq, Repr, Inhabited

/-- A layer die (R413, R417, R423). -/
structure Layer where
  role : Role := .offline
  logical : Option Nat := none
  temp : Int := 0
  /-- The last sample lay at TWARN or above; a crossing that the next grant has still to answer (R417). -/
  warned : Bool := false
  toLower : Bool := false
  emrgSince : Option Nat := none
  coolSince : Option Nat := none
  /-- The extremes since the last counted swing of more than 40 °C (R432). -/
  lowest : Int := 0
  highest : Int := 0
  /-- The emergency that has lowered the tile's grant, with no shade layer (R418). -/
  emrgLowered : Option Nat := none
  testFailed : Bool := false
  level : BitVec 3 := 0
  tripped : Bool := false
  /-- The ballast ramp: its end, and the length of its window in ns (R429). -/
  rampUntil : Nat := 0
  rampLen : Nat := 0
  charge : Nat := 0
deriving DecidableEq, Repr, Inhabited

/-- A capture unit (R433). -/
structure Capture where
  org : W32 := 0
  shift : BitVec 6 := 0
  layer : BitVec 4 := 0
  src : Byte := 0
  en : Bool := false
  mn : W32 := 0
  mx : W32 := 0
  cnt : Nat := 0
  bins : Vector Nat 32 := Vector.replicate 32 0
deriving DecidableEq, Repr

/-- The phases of a role change (R415). -/
inductive RolePhase where
  | none
  | drain
  | flushed
deriving DecidableEq, Repr, Inhabited

/-- What a role change is to do. -/
inductive RoleAction where
  /-- Roles for a partition with this many lit layers. -/
  | create (lit : Nat)
  /-- Hot or failed lit layer to the shade layer, sectors that could not be read. -/
  | swap (hot : Nat) (unreadable : List Nat)
  /-- A lit layer is lost. -/
  | lose (layer : Nat)
  /-- A layer returns as shade. -/
  | comeBack (layer : Nat)
deriving DecidableEq, Repr, Inhabited

/-- A compute tile (R2, R366). -/
structure TileSt where
  part : Option Nat := none
  layers : Vector Layer 4 := Vector.replicate 4 {}
  rx : Vector PortSt 14 := Vector.replicate 14 {}
  tx : Vector PortSt 14 := Vector.replicate 14 {}
  monitors : List Monitor := []
  replies : List SavedReply := []
  /-- The latest FLOOR of each source: panel × 4096 + core (R329). -/
  floors : AMap W32 := []
  tlb : List TlbEntry := []
  dirty : List Nat := []
  migDly : BitVec 16 := 16
  caps : Vector Capture 4 := Vector.replicate 4 {}
  rolePhase : RolePhase := .none
  roleAction : Option RoleAction := none
  /-- Role changes that wait for the one at work, in order of arrival; with each, whether it arrived during a drain, which then
  serves for it (R422). -/
  roleQueue : List (RoleAction × Bool) := []
  fourLit : Bool := false
  noShadeBacking : Bool := false
  /-- The shadow store: the flock and member whose context lies in the slot of each of the tile's cores, and those that have
  been moved to bytes 176 MiB to 256 MiB of the CTXOFF area (R405). -/
  slots : AMap (Nat × Nat) := []
  movedCtxs : List (Nat × Nat) := []
  /-- The ranges of the CTXOFF area that contexts have been saved to, and that the host has not written since: their bytes
  are open. -/
  ctxBytes : List (Nat × Nat) := []
deriving DecidableEq, Repr

/-! ## Barriers, flocks, queues, partitions -/

/-- A participant of a barrier instance: member number, arrivals issued, arrivals that have reached the
object, waited count, and whether it has retired (R223). -/
structure Party where
  member : Nat
  issued : Nat := 0
  a : Nat := 0
  w : Nat := 0
  gone : Bool := false
deriving DecidableEq, Repr, Inhabited

/-- The state of a barrier instance (R223); the three phases c, c + 1, c + 2 have their pending bytes and
error state in order, and `past` keeps the error state of completed phases that a wait may still cover. -/
structure BarInst where
  c : Nat := 0
  parties : List Party := []
  pend : List Nat := [0, 0, 0]
  err : List (Option Cause) := [none, none, none]
  past : AMap Cause := []
  joined : Nat := 1
  need : Nat := 1
  crowded : Bool := false
  /-- When the last completed phase completed (R342). -/
  doneAt : Nat := 0
deriving DecidableEq, Repr, Inhabited

/-- A scheduled circuit (R335, R343). -/
structure Circuit where
  h : Nat
  sendTile : Nat
  recvTile : Nat
  send : BitVec 12
  recv : BitVec 12
  sp : Nat
  dp : Nat
  settled : Bool := false
  live : Bool := false
  /-- The step that established it, and when that step began. -/
  step : Nat := 0
  since : Nat := 0
  /-- Its usable map as it stood 22 ns after the step's beginning (R343). -/
  map : Option (List Nat) := none
  tearAt : Option Nat := none
  rx : List Byte := []
  inFlight : List Byte := []
  /-- Bytes that RECV has taken; and poisoned bytes of the stream, from a position in it on, in number (R338). -/
  taken : Nat := 0
  spoilt : List (Nat × Nat) := []
deriving DecidableEq, Repr, Inhabited

/-- A circuit as the drover knows it after the blocks decoded so far (R346, R350). -/
structure PlanCircuit where
  h : Nat
  sendTile : Nat
  recvTile : Nat
  send : BitVec 12
  recv : BitVec 12
  sp : Nat
  dp : Nat
  block : Nat
  /-- Index of its CONNECT in the image. -/
  word : Nat := 0
  tearAt : Option Nat := none
deriving DecidableEq, Repr, Inhabited

/-- A decoded block of a circuit program (R342). -/
structure Block where
  tears : List (Nat × Nat) := []
  connects : List PlanCircuit := []
  /-- Flag addresses, each with the index of its word. -/
  settles : List (BitVec 56 × Nat) := []
  mark : Option W32 := none
  endc : Bool := false
  other : Bool := false
  words : Nat := 0
  /-- The barrier whose completion begins the block's step; `none` for step 0. -/
  bar : Option Nat := none
  holds : List (Nat × Nat × Nat) := []
deriving DecidableEq, Repr, Inhabited

/-- The drover's state for one partition (R341 to R353). -/
structure Drover where
  owner : Option Nat := none
  prog : List W64 := []
  pc : Nat := 0
  decoding : Bool := false
  ended : Bool := false
  halted : Bool := false
  cond : Bool := false
  loops : List (Nat × Nat × Nat) := []
  cur : Block := {}
  curNo : Nat := 0
  ready : List Block := []
  plan : List PlanCircuit := []
  /-- Steps begun, or none before step 0. -/
  step : Option Nat := none
  stepAt : Nat := 0
  used : AMap Nat := []
  circuits : List Circuit := []
  /-- Settles of begun steps: step, flag address, index of the word, and whether its addition is on its way. -/
  settles : List (Nat × BitVec 56 × Nat × Bool) := []
  /-- The ports have been given to another flock's program (R40, R355). -/
  given : Bool := false
deriving DecidableEq, Repr, Inhabited

/-- The status of a flock in the front end. -/
inductive FlockStatus where
  | waiting
  /-- On its cores, its members not yet released: the circuits of its step are being established (R326, R40). -/
  | placed
  | running
  | preempting
  | preempted
  /-- Cut as for a forced cut, to be discarded (R392). -/
  | killing
  | retired
  /-- Rejected, killed or failed. -/
  | failed
deriving DecidableEq, Repr, Inhabited

/-- A flock: its launch packet, members and progress (R27, R395 to R400). -/
structure Flock where
  part : Nat
  queue : Option Nat
  hid : Byte := 0
  lnum : W32 := 0
  pkt : List W64 := []
  status : FlockStatus := .waiting
  suspended : Bool := false
  members : List (BitVec 12) := []
  doneMembers : List Nat := []
  trigMembers : List Nat := []
  /-- The image bytes as they stood when the LAUNCH was processed (R77), by stream and byte offset. -/
  image : Memory := []
  /-- The 64 KiB pages of the image that could be read then; any other page is read when it is fetched. -/
  imagePages : List Nat := []
  bars : AMap BarInst := []
  cause : Cause := 0
  detail : Byte := 0
  killedTrap : Bool := false
  killedHost : Bool := false
  missed : Bool := false
  /-- The tick of its release, the time of that tick since the partition's creation, and the period (R37, R393). -/
  tick : Option Nat := none
  tickAt : Nat := 0
  period : Nat := 0
  released : Bool := true
  /-- It has left the head of its queue (R30); when, in ns since the partition's creation (R393). -/
  left : Bool := false
  leftAt : Nat := 0
  wrote : Bool := false
  /-- When it was last released, and its place in the round of R36. -/
  runAt : Nat := 0
  turn : Nat := 0
  /-- It has been placed before: a placement now is a resumption. -/
  resuming : Bool := false
  /-- Its program's drover, while the ports are given to another flock (R40, R355). -/
  drover : Option Drover := none
  ctxs : AMap Ctx := []
  lms : AMap Memory := []
  /-- Poisoned sectors of the local memories that were moved out. -/
  lmsPoison : AMap (List Nat) := []
  cutAt : Nat := 0
deriving DecidableEq, Repr

/-- Storage as it stood at some moment. -/
structure Stored where
  mem : Memory := []
  lm : Memory := []
  hostMem : Memory := []
deriving DecidableEq, Repr, Inhabited

/-- The state of a command queue (R380 to R384). -/
structure CmdQueue where
  en : Bool := false
  state : Nat := 0
  cause : Cause := 0
  mem : Cause := 0
  base : W64 := 0
  lsz : Nat := 0
  prio : Nat := 0
  headwb : W64 := 0
  cadP : Nat := 0
  cadPhase : Nat := 0
  irqPort : Nat := 0
  irqVec : Nat := 0
  h : W32 := 0
  t : W32 := 0
  everEnabled : Bool := false
  nextL : W32 := 0
  parsed : Nat := 0
  ignored : Nat := 0
  missed : Nat := 0
  /-- The latest tick boundary that a launch of the queue has used, in ns since the partition's creation (R393). -/
  lastTick : Option Nat := none
  wbDue : Bool := false
  /-- Bytes read ahead of the head and not yet processed: sequence and content (R384, R391). -/
  ahead : List (Nat × List Byte) := []
  /-- Storage as the last FETCHFENCE found it: every write before it is seen by the fetches of later launches (R77). -/
  fence : Stored := {}
  /-- EN has been written 1, and the read of the descriptor has met retry-after. -/
  enabling : Bool := false
  /-- The WAITSIG at the head, as it was read, and whether its monitor is armed (R389). -/
  sig : Option Packet := none
  armed : Bool := false
  /-- The packet at the head that has been read and is in process: it waits under WAITFOR, or for a home (R383). -/
  work : Option Packet := none
  /-- When CADENCE last set the clock, in ns since the partition's creation (R393). -/
  cadAt : Nat := 0
  /-- The launch at the head, parsed and not yet gone (R30). -/
  atHead : Option Nat := none
  polledAt : Nat := 0
deriving DecidableEq, Repr, Inhabited

/-- A routed fault awaiting its record (R364). -/
structure FaultRec where
  bytes : List Byte
  cause : Cause
deriving DecidableEq, Repr, Inhabited

/-- A partition (R12, R376 to R379). -/
structure Partition where
  exists_ : Bool := false
  /-- It is being created: its tiles change their roles (R376). -/
  making : Bool := false
  x0 : Nat := 0
  y0 : Nat := 0
  w : Nat := 0
  h : Nat := 0
  lit : Nat := 0
  carve : Nat := 0
  asid : BitVec 16 := 0
  dasid : BitVec 16 := 0
  quantum : Nat := 0
  ptimeout : Nat := 0
  ptroot : Nat := 0
  rtbase : Nat := 0
  qtab : W64 := 0
  nq : Nat := 0
  trapq : W64 := 0
  ntrap : Nat := 0
  faultq : W64 := 0
  nfault : Nat := 0
  htab : W64 := 0
  nh : Nat := 0
  ctxoff : Nat := 0
  createdAt : Nat := 0
  hwin : Vector W64 16 := Vector.replicate 16 0
  froute : AMap W64 := []
  mmuAsid : BitVec 16 := 0
  mmuTile : BitVec 6 := 0
  mmuAll : Bool := false
  trapAct : Byte := 0
  trapCore : BitVec 12 := 0
  trapHead : W32 := 0
  faultHead : W32 := 0
  trapN : W32 := 0
  faultN : W32 := 0
  trapWaited : Nat := 0
  faultDropped : Nat := 0
  forcedCuts : Nat := 0
  rxDiscarded : Nat := 0
  markStep : W32 := 0
  markVal : W32 := 0
  handlers : W32 := 0
  queues : AMap CmdQueue := []
  /-- The placement map (R15): physical core of each logical core, by logical tile × 4 + layer. -/
  place : AMap Nat := []
  /-- Which flock holds each logical core, plus one. -/
  holder : AMap Nat := []
  drover : Drover := {}
  /-- The drover's own source sequence number, and its numbers not yet answered (R328, R348). -/
  drvSeq : W32 := 0
  drvOpen : List W32 := []
  faults : List FaultRec := []
  /-- TRAPCTL's actions that wait for the shepherd core: ACT and CORE (R408). -/
  trapActs : List (Byte × BitVec 12) := []
  /-- Handlers that are to be launched (R406). -/
  handlersDue : List Nat := []
  /-- Writes of the front end, and of the statistics of members, that a home has refused with retry-after, by address: their
  sends so far, and when each is sent again (R330, R367). -/
  feSends : AMap (Nat × Nat) := []
  /-- Faults that FROUTE only counts, by cause (R363). Log 50, DEDUCED. -/
  faultsCounted : AMap Nat := []
deriving DecidableEq, Repr

/-! ## Front-end, firmware and module state -/

/-- The registers of the global block (R371, R376, R379, R409). -/
structure Globals where
  restarts : Nat := 0
  layer : Byte := 0
  cfgRej : Nat := 0
  shr : Bool := false
  rdy : Bool := false
  pcStatus : Byte := 0
  pcPart : BitVec 4 := 0
  pcOp : BitVec 4 := 0
  partArg : W64 := 0
  domid : Byte := 0
  domWritten : Bool := false
  domrt : AMap W64 := []
  /-- The value that the last register read returned is not state; creation has begun once a partition exists. -/
  anyPart : Bool := false
deriving DecidableEq, Repr, Inhabited

/-- The lifetime counters (R432). -/
structure Lifetime where
  hours : W64 := 0
  thermal : AMap Nat := []
  replays : AMap Nat := []
  corr : AMap Nat := []
  roleChanges : Nat := 0
  emergencies : Nat := 0
  layersLost : Nat := 0
deriving DecidableEq, Repr, Inhabited

/-- A certificate: the key that it certifies, the bytes that its signature covers, and the signature (R410, R411). -/
structure Cert where
  key : Option (Nat × Nat)
  body : List Byte
  sig : Nat × Nat
deriving DecidableEq, Repr, Inhabited

/-- Firmware and its identity (R410, R411, R431). -/
structure Firmware where
  cdi2 : List Byte := []
  /-- The public keys of IDK and of CDI[1]: only CDI[2] is passed on to layer 2. -/
  idk : Option (Nat × Nat) := none
  key1 : Option (Nat × Nat) := none
  key2 : Nat := 0
  m1 : List Byte := []
  m2 : List Byte := []
  cfgDigest : List Byte := []
  /-- The certificates of IDK, layer 1 and layer 2 (R411). -/
  certs : List Cert := []
  twarn : Int := 380
  temrg : Int := 420
  ttrip : Int := 448
  fourTiles : List Nat := []
  capKw : Nat := 32
  calibrated : Bool := false
  serial : Nat := 0
  stepping : List Byte := []
deriving DecidableEq, Repr, Inhabited

/-- The SPDM responder (R411): the bytes exchanged on the connection, and its answers with their signatures. -/
structure Spdm where
  phase : Nat := 0
  /-- The messages exchanged so far that a signature covers: those of the negotiation; those of digests and certificates; those
  of measurements. -/
  vca : List Byte := []
  certMsgs : List Byte := []
  measMsgs : List Byte := []
  out : List (SpdmAnswer × Option (Nat × Nat)) := []
deriving DecidableEq, Repr, Inhabited

/-- A host port (R75): host-bound writes accepted and not yet handed to the host's ordering point. -/
structure HostPort where
  fifo : List HostWrite := []
  msix : List (Nat × Nat) := []
deriving DecidableEq, Repr, Inhabited

/-- The agent whose item is being executed. -/
inductive Focus where
  | none
  | stream (c : Nat) (st : StreamId)
  | engine (c : Nat) (e : F0Entry)
  | packet (part q : Nat)
  | drover (part : Nat)
deriving DecidableEq, Repr, Inhabited

/-- What the operations of one word read at issue (R120, R131, R181): registers, predicates and views. -/
structure ReadPort where
  g : Vector W64 32 := Vector.replicate 32 0
  p : Vector Bool 16 := Vector.replicate 16 false
  viewV : W64 := 0
  viewT : Vector W64 8 := Vector.replicate 8 0
  viewA : Vector W64 8 := Vector.replicate 8 0
  /-- The context as the word found it: the system registers and accumulators that its operations read. -/
  old : Ctx := {}
  /-- Syllable offset of the word, its index in the section, and the offset of the next item. -/
  pc : Nat := 0
  ix : Nat := 0
deriving DecidableEq, Repr

/-- The machine. -/
structure State where
  /-- Time in ns since the module was powered. -/
  now : Nat := 0
  /-- Core contexts by physical core: 64 × tile + 16 × layer + core. -/
  cores : AMap Ctx := []
  /-- Replayed bundles counted by each physical core (R430). -/
  replays : AMap Nat := []
  /-- Panel storage: physical tile × 2^42 + physical offset. -/
  mem : Memory := []
  poison : List Nat := []
  /-- Local memories: physical core × 2^23 + byte. -/
  lm : Memory := []
  lmPoison : List Nat := []
  /-- Host memory at the host's ordering point. -/
  hostMem : Memory := []
  hostPoison : List Nat := []
  ports : Vector HostPort 4 := Vector.replicate 4 {}
  tiles : AMap TileSt := []
  parts : AMap Partition := []
  flocks : AMap Flock := []
  nextFlock : Nat := 0
  /-- The system barriers that join flocks, by DGRP and number, whatever their partitions (R399). -/
  dgrps : AMap BarInst := []
  /-- Requests in flight (R328). -/
  reqs : List Request := []
  glob : Globals := {}
  life : Lifetime := {}
  flash : Lifetime := {}
  fw : Firmware := {}
  spdm : Spdm := {}
  lines : List (BitVec 3 × BitVec 3) := []
  /-- What the last read through the HDM range returned, and its poison indication (R372). -/
  hdmOut : List Byte := []
  hdmBad : Bool := false
  /-- Model bookkeeping: free values drawn, moves given from outside, the agent at work, the word's operands,
  the outcome of the last operation. -/
  draws : Nat := 0
  agenda : List Move := []
  focus : Focus := .none
  rd : ReadPort := {}
  verdict : Verdict := .ran
deriving DecidableEq, Repr

/-- The machine right after reset: every layer offline (R413), no partition, no core running, storage with nothing
listed, every register at the value the manual gives or the assumption log names.
Log 2, DESIGN CHOICE; log 47, DESIGN CHOICE. -/
def State.reset : State := {}

/-- No part of this machine stops with a fault: every cause of the manual is delivered as a trap, a status or a
routed fault, which are states. -/
inductive Fault where
  /-- Raised by no step. Safe: nothing stops with it. -/
  | none
deriving DecidableEq, Repr

/-- Why the model gives no next state. -/
inductive Refusal where
  /-- The instruction of this mnemonic has no meaning in the model yet. Raised by `exec`'s own arms only. Safe. -/
  | notModelled (mnemonic : String)
deriving DecidableEq, Repr

end Sys2Proof.Machine
end

