-- ==== Sys2Proof/Machine/Ops.lean ====
section
/-! DEFINITION. The named operations over storage, registers, queues and contexts, and taking a trap and
returning from one. -/

namespace Sys2Proof.Machine

/-- The outcome of a step of this machine. -/
abbrev Result := Host.Outcome State Fault Refusal

/-! ## Bit fields and bytes (R3) -/

/-- Field of `len` bits from bit `lo`, as a number. -/
def fld {n : Nat} (x : BitVec n) (lo len : Nat) : Nat := x.toNat / 2 ^ lo % 2 ^ len

/-- Bit `i`. -/
def bit {n : Nat} (x : BitVec n) (i : Nat) : Bool := x.toNat / 2 ^ i % 2 == 1

/-- The value of a `w`-bit number read in two's complement. -/
def signed (w : Nat) (x : Nat) : Int := if x % 2 ^ w < 2 ^ (w - 1) then (x % 2 ^ w : Nat) else (x % 2 ^ w : Nat) - (2 ^ w : Nat)

/-- An integer wrapped into `w` bits. -/
def wrap (w : Nat) (x : Int) : Nat := (x % (2 ^ w : Nat)).toNat

/-- A 64-bit word from bytes. -/
def leWord (bs : List Byte) : W64 := BitVec.ofNat 64 (leNat bs)

/-- The 8 bytes of a word. -/
def wordLE (w : W64) : List Byte := natLE 8 w.toNat

/-- The bytes of a list of words. -/
def wordsLE (ws : List W64) : List Byte := ws.flatMap wordLE

/-- Elements of `n` bytes each, as numbers; a short last piece is dropped. -/
def chunks (n : Nat) (bs : List Byte) : List Nat :=
  (List.range (bs.length / n)).map fun j => leNat ((bs.drop (j * n)).take n)

/-- Bytes of elements of `n` bytes each. -/
def unchunks (n : Nat) (xs : List Nat) : List Byte := xs.flatMap (natLE n)

/-- An 8-byte piece of a byte list at word index `i`. -/
def wordAt (bs : List Byte) (i : Nat) : W64 := leWord ((bs.drop (8 * i)).take 8)

/-- Saturating count (every counter of the manual that says so). -/
def satAdd (limit a b : Nat) : Nat := min limit (a + b)

/-! ## Keyed stores and memory -/

/-- The value at a key, or the default. -/
def mget {α : Type} (d : α) : AMap α → Nat → α
  | [], _ => d
  | (j, v) :: t, k => if j = k then v else mget d t k

/-- Puts a value at a key, keeping the keys in order. -/
def mset {α : Type} : AMap α → Nat → α → AMap α
  | [], k, v => [(k, v)]
  | (j, w) :: t, k, v =>
    if k < j then (k, v) :: (j, w) :: t else if k = j then (k, v) :: t else (j, w) :: mset t k v

/-- Whether a key is listed. -/
def mhas {α : Type} (m : AMap α) (k : Nat) : Bool := m.any fun e => e.1 == k

/-- Removes a key. -/
def mdel {α : Type} (m : AMap α) (k : Nat) : AMap α := m.filter fun e => e.1 != k

/-- The byte at an address; an unlisted byte reads as zero (log entry 3). -/
def Memory.read (m : Memory) (a : Nat) : Byte := mget 0 m a

/-- Writes one byte, keeping the canonical form. Log 3, DESIGN CHOICE. -/
def Memory.write (m : Memory) (a : Nat) (b : Byte) : Memory := if b = 0 then mdel m a else mset m a b

/-- Reads `n` bytes from `a` up. -/
def Memory.readN (m : Memory) (a n : Nat) : List Byte := (List.range n).map fun i => Memory.read m (a + i)

/-- Writes bytes from `a` up. -/
def Memory.writeN (m : Memory) (a : Nat) : List Byte → Memory
  | [] => m
  | b :: t => Memory.writeN (Memory.write m a b) (a + 1) t

/-- The canonical form: addresses strictly rising, no listed byte equal to what an unlisted one reads as.
Log 3, DESIGN CHOICE. -/
def Memory.wf (m : Memory) : Bool := decide (m.Pairwise fun a b => a.1 < b.1) && m.all fun e => e.2 != 0

/-! ## Contexts and the stream at work -/

/-- The context of a physical core. -/
def State.ctx (s : State) (c : Nat) : Ctx := mget {} s.cores c

/-- Replaces the context of a physical core. -/
def State.setCtx (s : State) (c : Nat) (x : Ctx) : State := { s with cores := mset s.cores c x }

/-- Changes the context of a physical core. -/
def State.updCtx (s : State) (c : Nat) (f : Ctx → Ctx) : State := s.setCtx c (f (s.ctx c))

/-- The physical core of the agent at work. -/
def State.core (s : State) : Nat :=
  match s.focus with
  | .stream c _ => c
  | .engine c _ => c
  | _ => 0

/-- The stream at work; C where no stream is at work. -/
def State.stream (s : State) : StreamId :=
  match s.focus with
  | .stream _ st => st
  | _ => .c

/-- The context at work. -/
def State.me (s : State) : Ctx := s.ctx s.core

/-- Changes the context at work. -/
def State.updMe (s : State) (f : Ctx → Ctx) : State := s.updCtx s.core f

/-- A stream of a context. -/
def Ctx.stream (x : Ctx) : StreamId → StreamState
  | .l => x.l
  | .c => x.c
  | .s => x.s

/-- Changes a stream of a context. -/
def Ctx.updStream (x : Ctx) (st : StreamId) (f : StreamState → StreamState) : Ctx :=
  match st with
  | .l => { x with l := f x.l }
  | .c => { x with c := f x.c }
  | .s => { x with s := f x.s }

/-- Changes the stream at work. -/
def State.updStream (s : State) (f : StreamState → StreamState) : State := s.updMe fun x => x.updStream s.stream f

/-- Clears the wait marks of a core: something has changed that a wait could be waiting for (R20, R21). -/
def Ctx.wake (x : Ctx) : Ctx :=
  { x with l := { x.l with wait := none }, c := { x.c with wait := none }, s := { x.s with wait := none } }

/-- Changes a core's context by an event and clears its wait marks. -/
def State.onCore (s : State) (c : Nat) (f : Ctx → Ctx) : State := s.updCtx c fun x => (f x).wake

/-- The free value number `k` of this step. -/
def State.freeIx (s : State) (k : Nat) : Nat := s.draws * 2 ^ 40 + k

/-! ## Scalar registers and predicates (R18) -/

/-- g[i] of a stream; g0 reads as zero (R18). -/
def StreamState.getG (x : StreamState) (i : BitVec 5) : W64 := if i = 0 then 0 else x.g[i.toNat]'(i.isLt)

/-- Writes g[i]; a write to g0 is discarded (R18). -/
def StreamState.setG (x : StreamState) (i : BitVec 5) (v : W64) : StreamState :=
  if i = 0 then x else { x with g := x.g.set i.toNat v (i.isLt) }

/-- p[i] of a stream; p0 reads as true (R18). -/
def StreamState.getP (x : StreamState) (i : BitVec 4) : Bool := if i = 0 then true else x.p[i.toNat]'(i.isLt)

/-- Writes p[i]; a write to p0 is discarded (R18). -/
def StreamState.setP (x : StreamState) (i : BitVec 4) (v : Bool) : StreamState :=
  if i = 0 then x else { x with p := x.p.set i.toNat v (i.isLt) }

/-- The value of g[i] that the word at work read at issue (R120). -/
def State.rg (s : State) (i : BitVec 5) : W64 := if i = 0 then 0 else s.rd.g[i.toNat]'(i.isLt)

/-- The value of p[i] that the word at work read at issue (R120). -/
def State.rp (s : State) (i : BitVec 4) : Bool := if i = 0 then true else s.rd.p[i.toNat]'(i.isLt)

/-- Writes g[i] of the stream at work. -/
def State.wg (s : State) (i : BitVec 5) (v : W64) : State := s.updStream fun x => x.setG i v

/-- Writes p[i] of the stream at work. -/
def State.wp (s : State) (i : BitVec 4) (v : Bool) : State := s.updStream fun x => x.setP i v

/-- Marks a C-stream destination as not to be read before its bound (R148, R180); a bound of 1 has passed for the
next word, and in the other streams a word waits for every outstanding write in any case. -/
def State.busyC (s : State) (d : Scoreboard) (bound : Nat) : State :=
  if s.stream = .c ∧ 1 < bound then s.updMe fun x => { x with busy := { dst := d, due := x.slot + bound } :: x.busy }
  else s

/-- Writes g[d] of the stream at work, with a latency bound in the C stream. Log 7, DEDUCED. -/
def State.wgB (s : State) (d : BitVec 5) (v : W64) (bound : Nat) : State := (s.wg d v).busyC (.g d) bound

/-- Whether an operation with this guard executes: p[PG] xor PN (R116). -/
def guardOk (gd : Guard) (s : State) : Bool := s.rp gd.p != gd.neg

/-- An operation under its guard: without it, no effect at all (R117). -/
def guarded (gd : Guard) (s : State) (f : State → State) : Result := .next (if guardOk gd s then f s else s)

/-! ## Waiting, and taking a trap (R20, R401) -/

/-- The word at work does not issue: its stream waits (R20); the time from which all three streams wait is kept
(R21). -/
def State.waitNow (s : State) (r : WaitReason) : State :=
  { s.updMe fun x =>
      { x.updStream s.stream fun y => { y with wait := some r } with
        waitSince := if x.l.wait.isSome && x.c.wait.isSome && x.s.wait.isSome then x.waitSince else s.now } with
    verdict := .waits r }

/-- TAKING A TRAP: the member stands at a trap of this cause until TRAPCTL acts. The record keeps the faulting
stream, its word's sequence number and syllable offset (R401, R402). A core that already stands at a trap keeps
that one: a condition met while its cut is taken reports no cause (R175, R235). Log 59, DEDUCED. -/
def takeTrap (s : State) (c : Nat) (st : StreamId) (cause : Cause) (code : Byte) (addr : W64) (seq : W32) (syl : Nat) :
    State :=
  s.updCtx c fun x =>
    match x.trap with
    | some _ => x
    | none => { x with trap := some { cause, stream := st, code, addr, seq, syl } }

/-- The word at work raises a cause: precise at the word, which has no effect (R138, R207). -/
def State.trapWith (s : State) (cause : Cause) (code : Byte) (addr : W64) : State :=
  { takeTrap s s.core s.stream cause code addr (s.me.stream s.stream).seq s.rd.pc with
    verdict := .traps cause code addr }

/-- A cause with no code and no faulting address. -/
def State.trapNow (s : State) (cause : Cause) : State := s.trapWith cause 0 0

/-- RETURNING FROM A TRAP: the member stands at no trap any more, and each stream issues its next item, the
faulting word first (R403). After TRAP that is the word after it, where the stream already stands (R147). Layout records and
variant tables are read from memory again (R76, R176). -/
def Ctx.returnFromTrap (x : Ctx) : Ctx :=
  { x with trap := none, resumeWith := false, lcut := false, ccut := false, scut := false, layoutCache := [] }

/-! ## Queues between the streams (R19, R154) -/

/-- Appends an entry. -/
def Queue.push (q : Queue) (e : QEntry) : Queue := { q with entries := q.entries ++ [e], tail := q.tail + 1 }

/-- Removes the head entry. -/
def Queue.popHead (q : Queue) : Queue := { q with entries := q.entries.tail, head := q.head + 1 }

/-- Returns an entry to the head of a queue (R210). -/
def Queue.unpop (q : Queue) (e : QEntry) : Queue := { q with entries := e :: q.entries, head := q.head - 1 }

/-- Whether the queue has room for `n` more entries. -/
def Queue.room (q : Queue) (n : Nat) : Bool := q.entries.length + n ≤ q.depth

/-- Withdraws the entries allocated by the word with stamp `tk` and by later words (R155). -/
def Queue.withdraw (q : Queue) (tk : Nat) : Queue :=
  let keep := q.entries.filter fun e => e.tk < tk
  { q with entries := keep, tail := q.tail - BitVec.ofNat 32 (q.entries.length - keep.length) }

/-- Writes the bytes of the first entry that stamp `tk` allocated and that has none yet. -/
def fillFirst (tk : Nat) (bs : List Byte) : List QEntry → List QEntry
  | [] => []
  | e :: t => if e.tk = tk ∧ e.ready = false then { e with data := bs, ready := true } :: t else e :: fillFirst tk bs t

/-- Queue `fillFirst`. -/
def Queue.fill (q : Queue) (tk : Nat) (bs : List Byte) : Queue := { q with entries := fillFirst tk bs q.entries }

/-- lq[i]. -/
def Ctx.getLq (x : Ctx) (i : BitVec 3) : Queue := x.lq[i.toNat]'(i.isLt)
/-- Changes lq[i]. -/
def Ctx.updLq (x : Ctx) (i : BitVec 3) (f : Queue → Queue) : Ctx :=
  { x with lq := x.lq.set i.toNat (f (x.getLq i)) (i.isLt) }
/-- sq[i]. -/
def Ctx.getSq (x : Ctx) (i : BitVec 3) : Queue := x.sq[i.toNat]'(i.isLt)
/-- Changes sq[i]. -/
def Ctx.updSq (x : Ctx) (i : BitVec 3) (f : Queue → Queue) : Ctx :=
  { x with sq := x.sq.set i.toNat (f (x.getSq i)) (i.isLt) }

/-- The head entry of a queue that L writes, if the C stream may read it: its data is written, and no earlier
operation of the access queue can still fault (R154, R155). -/
def Ctx.readable (x : Ctx) (q : Queue) : Option QEntry :=
  match q.entries with
  | [] => none
  | e :: _ => if e.ready && !(x.laccess.any fun a => a.tk < e.tk) then some e else none

/-! ## Withdrawal from the S stream (R210) -/

/-- Notes a change by the word at work that a withdrawal must undo (R210). -/
def Ctx.note (x : Ctx) (u : SUndo) : Ctx := { x with slog := x.slog ++ [(x.tk, u)] }

/-- Forgets the notes of words that can no longer be withdrawn: those before the oldest outstanding access. -/
def Ctx.trimLog (x : Ctx) : Ctx :=
  match x.saccess with
  | [] => { x with slog := [] }
  | a :: _ => { x with slog := x.slog.filter fun e => decide (a.tk ≤ e.1) }

/-! ## The matrix engine's table and its drains (R268, R271, R272, R291) -/

/-- A header word. -/
def Bank.word (b : Bank) (n : Nat) : W64 := b.hdr.getD n 0
/-- AFMT. -/
def Bank.afmt (b : Bank) : Nat := fld (b.word 0) 59 5
/-- WFMT. -/
def Bank.wfmt (b : Bank) : Nat := fld (b.word 0) 54 5
/-- ACCF. -/
def Bank.accf (b : Bank) : Nat := fld (b.word 0) 49 5
/-- DFMT. -/
def Bank.dfmt (b : Bank) : Nat := fld (b.word 0) 44 5
/-- RM. -/
def Bank.rm (b : Bank) : Nat := fld (b.word 0) 41 3
/-- OVP. -/
def Bank.ovp (b : Bank) : Nat := fld (b.word 0) 39 2
/-- STE. -/
def Bank.ste (b : Bank) : Bool := bit (b.word 0) 38
/-- TID. -/
def Bank.tid (b : Bank) : Nat := fld (b.word 0) 32 6
/-- CINIT. -/
def Bank.cinit (b : Bank) : Nat := fld (b.word 0) 30 2
/-- HOLD. -/
def Bank.hold (b : Bank) : Bool := bit (b.word 0) 29
/-- SWM. -/
def Bank.swm (b : Bank) : Bool := bit (b.word 0) 28
/-- KFROM. -/
def Bank.kfrom (b : Bank) : Nat := fld (b.word 0) 25 3
/-- EBAR. -/
def Bank.ebar (b : Bank) : Nat := fld (b.word 0) 17 8
/-- EBE. -/
def Bank.ebe (b : Bank) : Bool := bit (b.word 0) 16
/-- Rows per pass. -/
def Bank.rows (b : Bank) : Nat := fld (b.word 1) 56 8 + 1
/-- K rows of the weight tile. -/
def Bank.kt (b : Bank) : Nat := fld (b.word 1) 49 7 + 1
/-- Columns of the weight tile. -/
def Bank.nt (b : Bank) : Nat := fld (b.word 1) 42 7 + 1
/-- A signed byte stride between rows: AROW, WROW, SAROW, SWROW, CROW, DROW for 0 to 5. -/
def Bank.rowStride (b : Bank) (k : Nat) : Int := signed 32 (fld (b.word (2 + k / 2)) (if k % 2 = 0 then 32 else 0) 32)
/-- The base word of a role. -/
def Bank.base (b : Bank) (role : Nat) : W64 := b.word (6 + role)
/-- OFFSET of a role. -/
def Bank.offset (b : Bank) (role : Nat) : Nat := fld (b.base role) 0 23
/-- A word of a level. -/
def Bank.level (b : Bank) (l k : Nat) : W32 := b.lvl.getD (10 * l + k) 0
/-- COUNT of a level. -/
def Bank.count (b : Bank) (l : Nat) : Nat := (b.level l 0).toNat
/-- STR of a role at a level. -/
def Bank.stride (b : Bank) (role l : Nat) : Int := signed 32 (b.level l (1 + role)).toNat

/-- The codes of the roles (R268). -/
def roleA : Nat := 0
/-- W. -/
def roleW : Nat := 1
/-- SA. -/
def roleSA : Nat := 2
/-- SW. -/
def roleSW : Nat := 3
/-- C. -/
def roleC : Nat := 4
/-- D. -/
def roleD : Nat := 5
/-- DS. -/
def roleDS : Nat := 6
/-- IX. -/
def roleIX : Nat := 7
/-- P. -/
def roleP : Nat := 8

/-- The view register that a base word names, of the two sets. -/
def viewNamed (tv av : List W64) (w : W64) : W64 :=
  if bit w 62 then av.getD (fld w 59 3) 0 else tv.getD (fld w 59 3) 0

/-- Bits of an element in its packed form (R88, R92). -/
def fmtBits (f : Nat) : Nat :=
  match f with
  | 0x00 | 0x01 | 0x1B => 32
  | 0x02 | 0x03 | 0x09 | 0x1C => 16
  | 0x06 | 0x07 | 0x13 | 0x14 => 6
  | 0x08 | 0x0C | 0x0D | 0x15 | 0x17 | 0x18 => 4
  | 0x0E | 0x0F => 2
  | 0x10 => 1
  | 0x1A => 48
  | _ => 8

/-- Bytes of a landing entry in format ACCF, or of a drained element. -/
def elemBytes (f : Nat) : Nat := fmtBits f / 8

/-- Whether a byte `p` bytes from a role's first address lies where some index of the levels brings it. -/
def Bank.reaches (b : Bank) (role : Nat) (hit : Int → Bool) : List Nat → Int → Bool
  | [], p => hit p
  | l :: t, p =>
    if b.stride role l = 0 then b.reaches role hit t p
    else (List.range (b.count l)).any fun i => b.reaches role hit t (p - i * b.stride role l)

/-- Whether a nest's drains write an operand-file byte through a role: rows of `n` bytes, `rs` apart. -/
def Nest.drainsTo (ne : Nest) (role n : Nat) (rs : Int) (off : Nat) : Bool :=
  let w := ne.bank.base role
  let v := viewNamed ne.tviews ne.aviews w
  let p : Int := (off : Int) - (fld v 0 11 * 256 : Nat)
  bit w 63 && decide (0 ≤ p ∧ p < (fld v 16 12 * 256 : Nat)) &&
    ne.bank.reaches role (fun p => (List.range ne.shape.1).any fun r => decide (0 ≤ p - r * rs ∧ p - r * rs < n))
      (if ne.commit.isSome then [] else List.range 6) (p - ne.bank.offset role)

/-- Whether a nest's drains write an operand-file byte: its drain output, or its row scales. -/
def Nest.drainsByte (ne : Nest) (off : Nat) : Bool :=
  let drains : Bool := match ne.commit with
    | some clr => !clr
    | none => !ne.bank.hold
  drains && (ne.drainsTo roleD (elemBytes ne.bank.dfmt * ne.shape.2) (ne.bank.rowStride 5) off ||
    (ne.bank.dfmt == 0x1C && ne.drainsTo roleDS 1 1 off))

/-- Whether an operand-file byte is one that the drains of a nest write whose MXWAIT has not returned (R291). -/
def Matrix.drains (m : Matrix) (off : Nat) : Bool :=
  (m.running.toList ++ m.pending.toList ++ m.results.map (·.nest)).any fun ne => ne.drainsByte off

/-! ## The operand file (R128 to R132) -/

/-- Byte offset of v register `i` under VIEW_V (R129). -/
def vOffset (view : W64) (i : BitVec 5) : Nat :=
  let c := match fld view 16 3 with
    | 1 => 2 | 2 => 4 | 3 => 8 | 4 => 16 | 5 => 32 | _ => 0
  let u := if i.toNat < c then (i.toNat + fld view 19 5) % c else i.toNat
  (fld view 0 11 + u) * 256

/-- The rotating count that RN selects (R128). -/
def rotCount (view : W64) : Nat :=
  match fld view 16 3 with
  | 1 => 2 | 2 => 4 | 3 => 8 | 4 => 16 | 5 => 32 | _ => 0

/-- VIEW_V with another rotation base. -/
def withRB (view : W64) (rb : Nat) : W64 :=
  BitVec.ofNat 64 (view.toNat % 2 ^ 19 + (rb % 32) * 2 ^ 19 + view.toNat / 2 ^ 24 * 2 ^ 24)

/-- One step of the rotation base (R129). -/
def rotate (view : W64) : W64 :=
  let c := rotCount view
  if c = 0 then view else withRB view ((fld view 19 5 + c - 1) % c)

/-- Whether an operation of an earlier slot has still to land on a byte (R130). Log 8, DEDUCED. -/
def Ctx.undefinedAt (x : Ctx) (off : Nat) : Bool :=
  x.landings.any fun l => l.slot < x.slot && (l.cells.any (fun e => e.1 == off) || l.ghosts.contains off)

/-- A byte of the operand file as a read at issue finds it: unspecified until the earlier writes to it have landed (R130,
R180), and while a nest that drains to it has not been waited for (R291). Log 8, DEDUCED. -/
def State.opByte (s : State) (off : Nat) : Byte :=
  if s.me.undefinedAt off || s.me.mx.drains off then Config.anyByte (s.freeIx off) else Memory.read s.me.opfile off

/-- `n` bytes of the operand file from `off`. -/
def State.opBytes (s : State) (off n : Nat) : List Byte := (List.range n).map fun i => s.opByte (off + i)

/-- The 256 bytes of v register `i`. -/
def State.vRead (s : State) (i : BitVec 5) : List Byte := s.opBytes (vOffset s.rd.viewV i) 256

/-- Later writes of a byte take it from an older landing (R132). Log 8, DEDUCED. -/
def Landing.shadow (l : Landing) (offs : List Nat) : Landing :=
  { l with cells := l.cells.filter (fun e => !offs.contains e.1),
           ghosts := l.ghosts ++ (l.cells.filter fun e => offs.contains e.1).map (·.1) }

/-- Issues a result of bound `bound` for the bytes from `off` up (R130). Log 7, DEDUCED. -/
def State.opWrite (s : State) (off : Nat) (bs : List Byte) (bound : Nat) : State :=
  s.updMe fun x =>
    let cells := (List.range bs.length).zip bs |>.map fun e => (off + e.1, e.2)
    let offs := cells.map (·.1)
    { x with landings := (x.landings.map fun l => l.shadow offs) ++
        [{ slot := x.slot, due := x.slot + bound, cells }] }

/-- Writes bytes of v register `i` from byte `at_`, with a latency bound. -/
def State.vWrite (s : State) (i : BitVec 5) (at_ : Nat) (bs : List Byte) (bound : Nat) : State :=
  s.opWrite (vOffset s.rd.viewV i + at_) bs bound

/-- Lands one result. -/
def landOne (m : Memory) (l : Landing) : Memory := l.cells.foldl (fun m e => Memory.write m e.1 e.2) m

/-- Lands every result whose bound ends at or before slot `t`, in issue order (R130, R132). -/
def Ctx.landDue (x : Ctx) (t : Nat) : Ctx :=
  { x with opfile := (x.landings.filter fun l => l.due ≤ t).foldl landOne x.opfile,
           landings := x.landings.filter fun l => !(l.due ≤ t),
           busy := x.busy.filter fun b => !(b.due ≤ t) }

/-- Lands every issued result, as before a cut (R133). -/
def Ctx.landAll (x : Ctx) : Ctx :=
  { x with opfile := x.landings.foldl landOne x.opfile, landings := [], busy := [] }

/-! ## Flocks and members -/

/-- The flock with a number. -/
def State.flock (s : State) (f : Nat) : Flock := mget { part := 0, queue := none } s.flocks f

/-- Changes a flock. -/
def State.updFlock (s : State) (f : Nat) (h : Flock → Flock) : State :=
  { s with flocks := mset s.flocks f (h (s.flock f)) }

/-- Word `k` of the launch packet of a flock (R395). -/
def Flock.word (f : Flock) (k : Nat) : W64 := f.pkt.getD k 0

/-- Declared operand-file bytes (R395 word 11). -/
def Flock.ofb (f : Flock) : Nat := fld (f.word 11) 52 12 * 256
/-- Declared local-memory bytes. -/
def Flock.lmb (f : Flock) : Nat := fld (f.word 11) 36 16 * 256
/-- Declared matrix engines. -/
def Flock.mxe (f : Flock) : Nat := fld (f.word 11) 34 2
/-- Declared stream registers. -/
def Flock.nst (f : Flock) : Nat := fld (f.word 11) 29 5
/-- Declared bq depth. -/
def Flock.bqd (f : Flock) : Nat := fld (f.word 11) 22 7
/-- Declared depth of lqk. -/
def Flock.lqd (f : Flock) (k : Nat) : Nat := fld (f.word 12) (7 * k) 7
/-- Declared depth of sqk. -/
def Flock.sqd (f : Flock) (k : Nat) : Nat := fld (f.word 13) (7 * k) 7

/-- The flock at work. -/
def State.myFlock (s : State) : Flock := s.flock (s.me.flock.getD 0)

/-- The partition with a number. -/
def State.part (s : State) (n : Nat) : Partition := mget {} s.parts n

/-- Changes a partition. -/
def State.updPart (s : State) (n : Nat) (f : Partition → Partition) : State :=
  { s with parts := mset s.parts n (f (s.part n)) }

/-- Numbers from here up stand, in place of a core, for the front end of a partition (R388, R390). -/
def frontCore : Nat := 2 ^ 20

/-- Numbers from here up stand, in place of a core, for the drover of a partition (R348). -/
def droverCore : Nat := 2 ^ 21

/-- The partition of a core's flock, or of a front end or drover. -/
def State.partOf (s : State) (c : Nat) : Nat :=
  if droverCore ≤ c then c - droverCore else if frontCore ≤ c then c - frontCore else (s.flock ((s.ctx c).flock.getD 0)).part

/-- The tile with a physical number. -/
def State.tile (s : State) (t : Nat) : TileSt := mget {} s.tiles t

/-- Changes a tile. -/
def State.updTile (s : State) (t : Nat) (f : TileSt → TileSt) : State := { s with tiles := mset s.tiles t (f (s.tile t)) }

/-- A queue of a partition. -/
def State.queue (s : State) (n q : Nat) : CmdQueue := mget {} (s.part n).queues q

/-- Changes a queue of a partition. -/
def State.updQueue (s : State) (n q : Nat) (f : CmdQueue → CmdQueue) : State :=
  s.updPart n fun p => { p with queues := mset p.queues q (f (mget {} p.queues q)) }

/-- Physical tile of a logical tile of a partition (R13). -/
def Partition.physTile (p : Partition) (t : Nat) : Nat := 8 * (p.y0 + t / p.w) + p.x0 + t % p.w

/-- Logical tile of a physical tile of a partition (R13). -/
def Partition.logTile (p : Partition) (t : Nat) : Nat := (t / 8 - p.y0) * p.w + (t % 8 - p.x0)

/-- The number of tiles of a partition. -/
def Partition.tiles (p : Partition) : Nat := p.w * p.h

/-- The number of lit layers of a physical tile. -/
def TileSt.litCount (t : TileSt) : Nat := (t.layers.toList.filter fun l => l.role == .lit).length

/-- Whether a tile has a shade layer. -/
def TileSt.hasShade (t : TileSt) : Bool := t.layers.toList.any fun l => l.role == .shade

/-- Whether an identifier names a core of the partition (R13). -/
def State.namesCore (s : State) (n : Nat) (id : BitVec 12) : Bool :=
  let p := s.part n
  fld id 6 6 < p.tiles && fld id 4 2 < (s.tile (p.physTile (fld id 6 6))).litCount

/-- Physical core of a logical core, through the placement map (R15). -/
def State.physCore (s : State) (n : Nat) (id : BitVec 12) : Nat :=
  let p := s.part n
  let t := fld id 6 6
  64 * p.physTile t + 16 * mget (fld id 4 2) p.place (4 * t + fld id 4 2) + fld id 0 4

/-! ## Barrier objects (R222, R223) -/

/-- The instance of a scope that holds a logical core (R11, R68). -/
def scopeInstance (sc : Scope) (id : BitVec 12) : Nat :=
  match sc with
  | .quad => fld id 2 10
  | .layer => fld id 4 8
  | .tile => fld id 6 6
  | .panel => 0
  | .system => 0

/-- Key of a barrier instance within its flock: operand bits and instance of the scope. -/
def barKey (bar : Nat) (id : BitVec 12) : Nat :=
  match scopeOf (bar / 32) with
  | some sc => bar * 1024 + scopeInstance sc id
  | none => bar * 1024

/-- Whether the flock's LAUNCH allocated a barrier (R127, R395 words 14 to 16). -/
def Flock.allocated (f : Flock) (bar : Nat) : Bool :=
  let n := bar % 32
  match bar / 32 with
  | 0 => bit (f.word 14) (32 + n)
  | 1 => bit (f.word 14) n
  | 2 => bit (f.word 15) (32 + n)
  | 3 => bit (f.word 15) n
  | 4 => n < 8 && bit (f.word 16) n
  | _ => false

/-- A system barrier that joins other flocks is held under its DGRP, for every flock of the domain (R399). -/
def Flock.joins (f : Flock) (bar : Nat) : Bool := bar / 32 == 4 && 1 < fld (f.word 16) 40 8

/-- Key of a joined system barrier: DGRP and number. -/
def Flock.dgrpKey (f : Flock) (bar : Nat) : Nat := fld (f.word 16) 48 16 * 8 + bar % 8

/-- A barrier instance of a flock. -/
def State.barInst (s : State) (fl key : Nat) : BarInst :=
  let f := s.flock fl
  let bar := key / 1024
  if f.joins bar then mget {} s.dgrps (f.dgrpKey bar) else mget {} f.bars key

/-- Changes a barrier instance of a flock. -/
def State.updBar (s : State) (fl key : Nat) (h : BarInst → BarInst) : State :=
  let f := s.flock fl
  let bar := key / 1024
  if f.joins bar then
    { s with dgrps := mset s.dgrps (f.dgrpKey bar) (h (s.barInst fl key)) }
  else s.updFlock fl fun f => { f with bars := mset f.bars key (h (s.barInst fl key)) }

/-- The participant number of a member: members of joined flocks are kept apart by their flock. -/
def partyId (fl member : Nat) : Nat := fl * 4096 + member

/-- A participant of an instance. -/
def BarInst.party (b : BarInst) (m : Nat) : Party := (b.parties.find? fun p => p.member == m).getD { member := m }

/-- Changes a participant of an instance. -/
def BarInst.updParty (b : BarInst) (m : Nat) (f : Party → Party) : BarInst :=
  { b with parties := b.parties.map fun p => if p.member == m then f p else p }

/-- Marks phase `ph` of an instance in error with a cause, if it has none yet (R225, R226). -/
def BarInst.markError (b : BarInst) (ph : Nat) (cause : Cause) : BarInst :=
  if ph < b.c then b
  else { b with err := b.err.modify (ph - b.c) fun e => some (e.getD cause) }

/-- Adds counted bytes to phase `ph` (R227). -/
def BarInst.addPending (b : BarInst) (ph n : Nat) : BarInst :=
  if ph < b.c then b else { b with pend := b.pend.modify (ph - b.c) (· + n) }

/-- Subtracts counted bytes from phase `ph` (R227). -/
def BarInst.subPending (b : BarInst) (ph n : Nat) : BarInst :=
  if ph < b.c then b else { b with pend := b.pend.modify (ph - b.c) (· - n) }

/-! ## Routed faults (R363, R364, R434) -/

/-- Queues a routed fault record for a partition; FAULT_ROUTE delivers it. -/
def State.routeFault (s : State) (n : Nat) (cause : Cause) (bytes : List Byte) : State :=
  s.updPart n fun p => { p with faults := p.faults ++ [{ bytes, cause }] }

/-- The 32 bytes of a routed fault record (R364). -/
def faultBytes (cause : Cause) (sub tile port map row mem : Nat) (ns step word : Nat) : List Byte :=
  [cause, BitVec.ofNat 8 sub, BitVec.ofNat 8 tile, BitVec.ofNat 8 port, BitVec.ofNat 8 map, BitVec.ofNat 8 row, 0,
    BitVec.ofNat 8 mem] ++ natLE 8 ns ++ natLE 4 step ++ natLE 4 word ++ natLE 8 0

end Sys2Proof.Machine
end

