-- ==== Sys2Proof/Machine/Operands.lean ====
section
/-! DEFINITION. The operand forms of the stream operations: immediates, second sources, addresses, and the
elements of vector registers. -/

namespace Sys2Proof.Machine

/-- A wide immediate or offset as a 64-bit value (R122, R158). -/
def wideVal : Wide → W64
  | .i32 v => v.signExtend 64
  | .i64 v => v

/-- The second source of format SA: g[B], or IMM7 sign-extended (R121, R122). -/
def State.srcB (s : State) : SrcB → W64
  | .reg b => s.rg b
  | .imm i => i.signExtend 64

/-- The second source of CMP: g[B], or IMM5 sign-extended. -/
def State.srcC (s : State) : SrcC → W64
  | .reg b => s.rg b
  | .imm i => i.signExtend 64

/-- The address of an access: the 64-bit sum of g[A] and an offset (R158). -/
def State.addr (s : State) (a : BitVec 5) (off : W64) : W64 := s.rg a + off

/-- The bytes of an SZ code (R158). -/
def szBytes (sz : BitVec 2) : Nat := 2 ^ sz.toNat

/-- The bytes of an EBM1 field (R158). -/
def entryBytes (e : BitVec 5) : Nat := 8 * (e.toNat + 1)

/-- Whether `n` bytes at `a` lie in one aligned 256-byte block (R159). -/
def oneBlock (a n : Nat) : Bool := a / 256 == (a + n - 1) / 256

/-- A datum of `n` bytes as a register value, sign- or zero-extended (R159). -/
def extendData (sx : Bool) (n : Nat) (bs : List Byte) : W64 :=
  let v := leNat (bs.take n)
  if sx then BitVec.ofInt 64 (signed (8 * n) v) else BitVec.ofNat 64 v

/-! ## Elements of vector registers (R125, R192) -/

/-- Bytes of an element of an integer type. -/
def intBytes : IntTy → Nat
  | .i8 | .n8 => 1
  | .i16 | .n16 => 2
  | .i32 | .n32 => 4

/-- Whether a type is read as signed (R193). -/
def intSigned : IntTy → Bool
  | .i8 | .i16 | .i32 => true
  | .n8 | .n16 | .n32 => false

/-- Bits of an element. -/
def intBits (ty : IntTy) : Nat := 8 * intBytes ty

/-- An element as an integer, in the signedness of its type. -/
def intVal (ty : IntTy) (x : Nat) : Int := if intSigned ty then signed (intBits ty) x else x

/-- The elements of v register `i`, as numbers below 2^w. -/
def State.elems (s : State) (ty : IntTy) (i : BitVec 5) : List Nat := chunks (intBytes ty) (s.vRead i)

/-- Writes all 256 bytes of v register `d` from elements, with a latency bound. -/
def State.putElems (s : State) (ty : IntTy) (d : BitVec 5) (xs : List Nat) (bound : Nat) : State :=
  s.vWrite d 0 (unchunks (intBytes ty) xs) bound

/-- Bytes of an element of a floating-point type. -/
def fpBytes : FpTy → Nat
  | .f32 => 4
  | .bf16 | .f16 => 2

/-- The elements of v register `i` of a floating-point type, as encodings. -/
def State.felems (s : State) (ty : FpTy) (i : BitVec 5) : List Nat := chunks (fpBytes ty) (s.vRead i)

/-- Writes all 256 bytes of v register `d` from floating-point encodings. -/
def State.putFelems (s : State) (ty : FpTy) (d : BitVec 5) (xs : List Nat) (bound : Nat) : State :=
  s.vWrite d 0 (unchunks (fpBytes ty) xs) bound

/-- Writes a result to the first bytes of `d`, and zero to the rest of its 256 bytes (R201). -/
def State.putFirst (s : State) (d : BitVec 5) (bs : List Byte) (bound : Nat) : State :=
  s.vWrite d 0 (bs ++ List.replicate (256 - bs.length) 0) bound

end Sys2Proof.Machine
end

