-- ==== Sys2Proof/Machine/Floats.lean ====
section
/-! DEFINITION. Exact values, floating-point formats, rounding, and the arithmetic of R83 to R101 and R198, R199.
A finite value is a sign and a rational magnitude, so that each result is rounded once from the exact one. -/

namespace Sys2Proof.Machine

/-- A value: NaN, an infinity, or a sign with a magnitude `num / den`; a zero keeps its sign. -/
inductive FVal where
  | nan
  | inf (neg : Bool)
  | fin (neg : Bool) (num den : Nat)
deriving DecidableEq, Repr, Inhabited

/-- Which encodings of a format are special (R84). -/
inductive Specials where
  | ieee
  | e4m3
  | none
deriving DecidableEq, Repr, Inhabited

/-- A floating-point format: exponent and mantissa bits, bias, specials, and the bits below the mantissa in its
container (TF32, R85). -/
structure Fmt where
  eb : Nat
  mb : Nat
  bias : Nat
  sp : Specials
  low : Nat := 0
deriving DecidableEq, Repr, Inhabited

/-- FP32 (R84). -/
def fmtFP32 : Fmt := { eb := 8, mb := 23, bias := 127, sp := .ieee }
/-- TF32 (R84, R85). -/
def fmtTF32 : Fmt := { eb := 8, mb := 10, bias := 127, sp := .ieee, low := 13 }
/-- BF16 (R84). -/
def fmtBF16 : Fmt := { eb := 8, mb := 7, bias := 127, sp := .ieee }
/-- FP16 (R84). -/
def fmtFP16 : Fmt := { eb := 5, mb := 10, bias := 15, sp := .ieee }
/-- E5M2 (R84). -/
def fmtE5M2 : Fmt := { eb := 5, mb := 2, bias := 15, sp := .ieee }
/-- E4M3 (R84). -/
def fmtE4M3 : Fmt := { eb := 4, mb := 3, bias := 7, sp := .e4m3 }
/-- E3M2 (R84). -/
def fmtE3M2 : Fmt := { eb := 3, mb := 2, bias := 3, sp := .none }
/-- E2M3 (R84). -/
def fmtE2M3 : Fmt := { eb := 2, mb := 3, bias := 1, sp := .none }
/-- E2M1 (R84). -/
def fmtE2M1 : Fmt := { eb := 2, mb := 1, bias := 1, sp := .none }

/-- The format of a vector element type (R125). -/
def fpFmt : FpTy → Fmt
  | .f32 => fmtFP32
  | .bf16 => fmtBF16
  | .f16 => fmtFP16

/-- num / den times 2^e. -/
def scaleRat (num den : Nat) (e : Int) : Nat × Nat :=
  if 0 ≤ e then (num * 2 ^ e.toNat, den) else (num, den * 2 ^ (-e).toNat)

/-- The value of an encoding (R83, R84). -/
def fdecode (f : Fmt) (x : Nat) : FVal :=
  let y := x / 2 ^ f.low
  let m := y % 2 ^ f.mb
  let e := y / 2 ^ f.mb % 2 ^ f.eb
  let neg := y / 2 ^ (f.mb + f.eb) % 2 == 1
  if f.sp = .ieee ∧ e = 2 ^ f.eb - 1 then if m = 0 then .inf neg else .nan
  else if f.sp = .e4m3 ∧ e = 2 ^ f.eb - 1 ∧ m = 2 ^ f.mb - 1 then .nan
  else if e = 0 then
    let r := scaleRat m 1 (1 - (f.bias : Int) - (f.mb : Int))
    .fin neg r.1 r.2
  else
    let r := scaleRat (2 ^ f.mb + m) 1 ((e : Int) - (f.bias : Int) - (f.mb : Int))
    .fin neg r.1 r.2

/-- The sign bit of a format as a number. -/
def signBits (f : Fmt) (neg : Bool) : Nat := if neg then 2 ^ (f.low + f.mb + f.eb) else 0

/-- The canonical NaN of a format that has one (R86); +0 for one that has none (R99). -/
def canonicalNaN (f : Fmt) : Nat :=
  match f.sp with
  | .ieee => ((2 ^ f.eb - 1) * 2 ^ f.mb + 2 ^ (f.mb - 1)) * 2 ^ f.low
  | .e4m3 => (2 ^ f.eb - 1) * 2 ^ f.mb + (2 ^ f.mb - 1)
  | .none => 0

/-- An infinity of a format with one. -/
def infBits (f : Fmt) (neg : Bool) : Nat := signBits f neg + (2 ^ f.eb - 1) * 2 ^ f.mb * 2 ^ f.low

/-- The largest finite magnitude of a format (R84). -/
def maxBits (f : Fmt) : Nat :=
  match f.sp with
  | .ieee => ((2 ^ f.eb - 1) * 2 ^ f.mb - 1) * 2 ^ f.low
  | .e4m3 => (2 ^ f.eb * 2 ^ f.mb - 2) * 2 ^ f.low
  | .none => (2 ^ f.eb * 2 ^ f.mb - 1) * 2 ^ f.low

/-- A rounding mode (R95); stochastic rounding carries the generator value (R96). -/
inductive RMode where
  | rne
  | rz
  | ru
  | rd
  | sr (x : Nat)
deriving DecidableEq, Repr, Inhabited

/-- The rounding of the magnitude `lo + rem / den`, `rem < den`, to an integer (R95, R96). -/
def roundStep (mode : RMode) (neg : Bool) (lo rem den : Nat) : Nat :=
  if rem = 0 then lo
  else
    match mode with
    | .rne => if 2 * rem < den then lo else if den < 2 * rem then lo + 1 else if lo % 2 = 0 then lo else lo + 1
    | .rz => lo
    | .ru => if neg then lo else lo + 1
    | .rd => if neg then lo + 1 else lo
    | .sr x => if x < rem * 2 ^ 32 / den then lo + 1 else lo

/-- floor(log2 (num / den)) of a positive rational. -/
def ratLog2 (num den : Nat) : Int :=
  let k : Int := (Nat.log2 num : Int) - (Nat.log2 den : Int)
  let r := scaleRat 1 1 k
  if num * r.2 < den * r.1 then k - 1 else k

/-- A positive magnitude rounded to `mb` mantissa bits, the exponent at least 1 − bias and unbounded above:
mantissa and exponent of its last place. -/
def roundMag (f : Fmt) (mode : RMode) (neg : Bool) (num den : Nat) : Nat × Int :=
  let e := max (ratLog2 num den) (1 - (f.bias : Int))
  let q := e - (f.mb : Int)
  let r := scaleRat num den (-q)
  (roundStep mode neg (r.1 / r.2) (r.1 % r.2) r.2, q)

/-- The encoding of a rounded magnitude; `none` where it lies beyond the largest finite value. -/
def packMag (f : Fmt) (m : Nat) (q : Int) : Option Nat :=
  if m < 2 ^ f.mb then some (m * 2 ^ f.low)
  else
    let m' := if m = 2 ^ (f.mb + 1) then 2 ^ f.mb else m
    let q' := if m = 2 ^ (f.mb + 1) then q + 1 else q
    let e := q' + (f.mb : Int) + (f.bias : Int)
    let bits := (e.toNat * 2 ^ f.mb + (m' - 2 ^ f.mb)) * 2 ^ f.low
    if bits ≤ maxBits f then some bits else none

/-- Round(x, f, mode) with overflow to ±∞, as the vector operations do (R101, R198). -/
def fencode (f : Fmt) (mode : RMode) : FVal → Nat
  | .nan => canonicalNaN f
  | .inf neg => infBits f neg
  | .fin neg num den =>
    if num = 0 then signBits f neg
    else
      let r := roundMag f mode neg num den
      match packMag f r.1 r.2 with
      | some b => signBits f neg + b
      | none => infBits f neg

/-! ## Exact arithmetic with IEEE specials (R101) -/

/-- The sign of a value. -/
def FVal.neg : FVal → Bool
  | .nan => false
  | .inf n => n
  | .fin n _ _ => n

/-- Whether a value is a zero. -/
def FVal.isZero : FVal → Bool
  | .fin _ num _ => num == 0
  | _ => false

/-- The value with its sign turned. -/
def FVal.flip : FVal → FVal
  | .nan => .nan
  | .inf n => .inf !n
  | .fin n a b => .fin (!n) a b

/-- The signed numerator of a finite value over `den`. -/
def FVal.inum (neg : Bool) (num : Nat) : Int := if neg then -(num : Int) else num

/-- The exact sum; an exact zero of unlike signs is +0 (RNE). -/
def FVal.add : FVal → FVal → FVal
  | .nan, _ => .nan
  | _, .nan => .nan
  | .inf a, .inf b => if a = b then .inf a else .nan
  | .inf a, .fin _ _ _ => .inf a
  | .fin _ _ _, .inf b => .inf b
  | .fin n1 a1 b1, .fin n2 a2 b2 =>
    let t : Int := FVal.inum n1 (a1 * b2) + FVal.inum n2 (a2 * b1)
    if t = 0 then .fin (n1 && n2) 0 1 else .fin (t < 0) t.natAbs (b1 * b2)

/-- The exact product. -/
def FVal.mul : FVal → FVal → FVal
  | .nan, _ => .nan
  | _, .nan => .nan
  | .inf a, y => if y.isZero then .nan else .inf (a != y.neg)
  | x, .inf b => if x.isZero then .nan else .inf (x.neg != b)
  | .fin n1 a1 b1, .fin n2 a2 b2 => .fin (n1 != n2) (a1 * a2) (b1 * b2)

/-- x < y, neither a NaN; −0 equals +0. -/
def FVal.lt : FVal → FVal → Bool
  | .nan, _ => false
  | _, .nan => false
  | .inf a, .inf b => a && !b
  | .inf a, .fin _ _ _ => a
  | .fin _ _ _, .inf b => !b
  | .fin n1 a1 b1, .fin n2 a2 b2 => FVal.inum n1 (a1 * b2) < FVal.inum n2 (a2 * b1)

/-- x = y, neither a NaN; −0 equals +0. -/
def FVal.eq : FVal → FVal → Bool
  | .nan, _ => false
  | _, .nan => false
  | .inf a, .inf b => a == b
  | .inf _, .fin _ _ _ => false
  | .fin _ _ _, .inf _ => false
  | .fin n1 a1 b1, .fin n2 a2 b2 => FVal.inum n1 (a1 * b2) == FVal.inum n2 (a2 * b1)

/-- Whether a value is a NaN. -/
def FVal.isNaN : FVal → Bool
  | .nan => true
  | _ => false

/-- FMIN: the other operand where one is a NaN, −0 below +0 (R101). -/
def FVal.lower (x y : FVal) : FVal :=
  if x.isNaN then y else if y.isNaN then x else if x.lt y then x else if y.lt x then y else if x.neg then x else y

/-- FMAX (R101). -/
def FVal.upper (x y : FVal) : FVal :=
  if x.isNaN then y else if y.isNaN then x else if x.lt y then y else if y.lt x then x else if x.neg then y else x

/-! ## FRCP, FRSQ, FEXP2 and FLOG2 (R199) -/

/-- Newton's steps toward the integer square root from above. -/
def isqrtLoop (n : Nat) : Nat → Nat → Nat
  | 0, g => g
  | fuel + 1, g =>
    let h := (g + n / g) / 2
    if h < g then isqrtLoop n fuel h else g

/-- floor(√n). -/
def isqrt (n : Nat) : Nat := if n = 0 then 0 else isqrtLoop n (Nat.log2 n + 2) (2 ^ (Nat.log2 n / 2 + 1))

/-- A magnitude known to lie strictly between `t / 2^p` and `(t + 1) / 2^p`, given by its middle: the middle
rounds as the magnitude does in every format with fewer bits than `t`. -/
def between (neg : Bool) (t p : Nat) : FVal := .fin neg (2 * t + 1) (2 ^ (p + 1))

/-- 1/x. -/
def FVal.rcp : FVal → FVal
  | .nan => .nan
  | .inf n => .fin n 0 1
  | .fin n a b => if a = 0 then .inf n else .fin n b a

/-- 1/√x. -/
def FVal.rsq : FVal → FVal
  | .nan => .nan
  | .inf n => if n then .nan else .fin false 0 1
  | .fin n a b =>
    if a = 0 then .inf n
    else if n then .nan
    else
      let p := 256
      let t := isqrt (b * 2 ^ (2 * p) / a)
      if t * t * a = b * 2 ^ (2 * p) then .fin false t (2 ^ p) else between false t p

/-- The bits of FEXP2's and FLOG2's fixed-point work (log 13). -/
def workBits : Nat := 512

/-- 2^(f / 2^n) in fixed point: the product of the roots that the bits of f select, from the highest.
Log 13, PRESUMED. -/
def exp2Loop (f : Nat) : Nat → Nat → Nat → Nat
  | 0, _, acc => acc
  | i + 1, root, acc =>
    let r := isqrt (root * 2 ^ workBits)
    exp2Loop f i r (if f / 2 ^ i % 2 = 1 then acc * r / 2 ^ workBits else acc)

/-- 2^x. -/
def FVal.exp2 : FVal → FVal
  | .nan => .nan
  | .inf n => if n then .fin false 0 1 else .inf false
  | .fin n a b =>
    if a = 0 then .fin false 1 1
    else
      let x : Int := FVal.inum n a
      let k : Int := max (-2000) (min 2000 (x / (b : Int)))
      let r := (x % (b : Int)).toNat
      if r = 0 then
        let v := scaleRat 1 1 k
        .fin false v.1 v.2
      else
        let f := r * 2 ^ 160 / b
        let t := exp2Loop f 160 (2 * 2 ^ workBits) (2 ^ workBits) / 2 ^ 200
        let v := scaleRat (2 * t + 1) (2 ^ (workBits - 200 + 1)) k
        .fin false v.1 v.2

/-- The bits of log2 y, 1 ≤ y < 2 in fixed point, by repeated squaring. Log 13, PRESUMED. -/
def log2Loop : Nat → Nat → Nat → Nat
  | 0, _, acc => acc
  | i + 1, y, acc =>
    let z := y * y / 2 ^ workBits
    if 2 ^ (workBits + 1) ≤ z then log2Loop i (z / 2) (2 * acc + 1) else log2Loop i z (2 * acc)

/-- log2 x. -/
def FVal.log2 : FVal → FVal
  | .nan => .nan
  | .inf n => if n then .nan else .inf false
  | .fin n a b =>
    if a = 0 then .inf true
    else if n then .nan
    else
      let k := ratLog2 a b
      let r := scaleRat a b (-k)
      if r.1 = r.2 then .fin (k < 0) k.natAbs 1
      else
        let t := log2Loop 160 (r.1 * 2 ^ workBits / r.2) 0
        let v : Int := k * 2 ^ 161 + (2 * t + 1 : Nat)
        .fin (v < 0) v.natAbs (2 ^ 161)

end Sys2Proof.Machine
end

