-- ==== Sys2Proof/Machine/Convert.lean ====
section
/-! DEFINITION. The element formats of R92, packing (R88), and conversions with rounding modes, overflow policies,
specials and flushes (R95 to R100). -/

namespace Sys2Proof.Machine

/-- An element format: floating-point, integer of a width and signedness, or BIN1. -/
inductive NumFmt where
  | fp (f : Fmt)
  | int (w : Nat) (sg : Bool)
  | bin
deriving DecidableEq, Repr, Inhabited

/-- The element format of a code of R92; the block forms give that of their elements (R91). -/
def numFmt (code : Nat) : NumFmt :=
  match code with
  | 0x00 => .fp fmtFP32
  | 0x01 => .fp fmtTF32
  | 0x02 | 0x1C => .fp fmtBF16
  | 0x03 => .fp fmtFP16
  | 0x04 | 0x11 | 0x19 => .fp fmtE4M3
  | 0x05 | 0x12 => .fp fmtE5M2
  | 0x06 | 0x13 => .fp fmtE2M3
  | 0x07 | 0x14 => .fp fmtE3M2
  | 0x08 | 0x15 | 0x17 => .fp fmtE2M1
  | 0x09 => .int 16 true
  | 0x0A | 0x16 => .int 8 true
  | 0x0B => .int 8 false
  | 0x0C | 0x18 => .int 4 true
  | 0x0D => .int 4 false
  | 0x0E => .int 2 true
  | 0x0F => .int 2 false
  | 0x10 => .bin
  | _ => .int 32 true

/-- Elements per scale block of a format code; 0 for a format with no scale (R91, R92). -/
def blockLen (f : Nat) : Nat :=
  if 0x11 ≤ f ∧ f ≤ 0x16 then 32 else if 0x17 ≤ f ∧ f ≤ 0x19 then 16 else 0

/-- The `w`-bit elements that bytes hold, element 0 in the least significant bits (R88). -/
def unpackElems (w : Nat) (bs : List Byte) : List Nat :=
  let x := leNat bs
  (List.range (8 * bs.length / w)).map fun j => x / 2 ^ (w * j) % 2 ^ w

/-- `w`-bit elements as one number (R88). -/
def packNat (w : Nat) : List Nat → Nat
  | [] => 0
  | x :: t => x % 2 ^ w + 2 ^ w * packNat w t

/-- Elements of `w` bits as bytes (R88). -/
def packElems (w : Nat) (xs : List Nat) : List Byte := natLE (w * xs.length / 8) (packNat w xs)

/-- The value of an integer. -/
def intFVal (x : Int) : FVal := .fin (x < 0) x.natAbs 1

/-- The value of an element (R83, R87). -/
def readNum (f : NumFmt) (x : Nat) : FVal :=
  match f with
  | .fp f => fdecode f x
  | .int w sg => intFVal (if sg then signed w x else (x % 2 ^ w : Nat))
  | .bin => intFVal (if x % 2 = 1 then 1 else -1)

/-- A conversion's result: its bits, and the events that R98 to R100 count; `trap` where policy 0b11 traps. -/
structure Conv where
  bits : Nat
  sat : Bool := false
  flush : Bool := false
  nan : Bool := false
  trap : Bool := false
deriving DecidableEq, Repr, Inhabited

/-- What an overflow of a floating-point target gives (R98). -/
def overflowFp (f : Fmt) (ovp : Nat) (neg : Bool) : Conv :=
  let big : Conv := { bits := signBits f neg + maxBits f, sat := true }
  let nan : Conv := { bits := canonicalNaN f, nan := true }
  if ovp = 3 then { bits := 0, trap := true }
  else if ovp = 0 then big
  else
    match f.sp with
    | .none => big
    | .e4m3 => nan
    | .ieee => if ovp = 1 then { bits := infBits f neg } else nan

/-- The least and the greatest value of an integer format. -/
def intRange (w : Nat) (sg : Bool) : Int × Int :=
  if sg then (-(2 ^ (w - 1) : Nat), (2 ^ (w - 1) : Nat) - 1) else (0, (2 ^ w : Nat) - 1)

/-- The magnitude of a rational, rounded to an integer with its sign. -/
def roundInt (mode : RMode) (neg : Bool) (num den : Nat) : Int :=
  FVal.inum neg (roundStep mode neg (num / den) (num % den) den)

/-- A conversion to an integer format (R97 to R100). -/
def convInt (w : Nat) (sg : Bool) (mode : RMode) (ovp : Nat) (v : FVal) : Conv :=
  let r := intRange w sg
  let endOf := fun (neg : Bool) => ({ bits := wrap w (if neg then r.1 else r.2), sat := true, trap := ovp == 3 } : Conv)
  match v with
  | .nan => { bits := 0, nan := true, trap := ovp == 3 }
  | .inf neg => endOf neg
  | .fin neg num den =>
    let i := roundInt mode neg num den
    if r.1 ≤ i ∧ i ≤ r.2 then { bits := wrap w i, flush := num ≠ 0 && i == 0 }
    else if ovp = 0 ∨ ovp = 3 then endOf (i < r.1)
    else { bits := wrap w i }

/-- The down-conversion of a value to a format, in a rounding mode with an overflow policy (R97 to R100). -/
def downConv (t : NumFmt) (mode : RMode) (ovp : Nat) (v : FVal) : Conv :=
  match t with
  | .int w sg => convInt w sg mode ovp v
  | .bin =>
    match v with
    | .nan => { bits := 1, nan := true, trap := ovp == 3 }
    | .inf neg => { bits := if neg then 0 else 1 }
    | .fin neg num _ => { bits := if neg && num != 0 then 0 else 1 }
  | .fp f =>
    match v with
    | .nan => { bits := canonicalNaN f, nan := true, trap := f.sp == .none && ovp == 3 }
    | .inf neg => if f.sp = .ieee then { bits := infBits f neg } else overflowFp f ovp neg
    | .fin neg num den =>
      if num = 0 then { bits := signBits f neg }
      else
        let r := roundMag f mode neg num den
        match packMag f r.1 r.2 with
        | some b => { bits := signBits f neg + b, flush := b == 0 }
        | none => overflowFp f ovp neg

/-- The largest finite value of a format as an integer times 2^200, to compare magnitudes. -/
def maxScaled (f : Fmt) : Nat :=
  match fdecode f (maxBits f) with
  | .fin _ num den => num * 2 ^ 200 / den
  | _ => 0

/-- Whether a target holds every value of a source (R97). -/
def convExact (src dst : NumFmt) : Bool :=
  match src, dst with
  | .fp f, .fp g =>
    f.mb ≤ g.mb && f.bias + f.mb ≤ g.bias + g.mb && maxScaled f ≤ maxScaled g &&
      (f.sp == .none || g.sp == .ieee || f.sp == g.sp)
  | .int w sg, .fp g => (if sg then w - 1 else w) ≤ g.mb + 1 && (2 ^ (if sg then w - 1 else w)) * 2 ^ 200 ≤
      maxScaled g + (if sg then 0 else 2 ^ 200)
  | .bin, .fp _ => true
  | .int w sg, .int w' sg' => (intRange w' sg').1 ≤ (intRange w sg).1 && (intRange w sg).2 ≤ (intRange w' sg').2
  | .bin, .int _ sg => sg
  | .bin, .bin => true
  | .fp _, .int _ _ => false
  | .fp _, .bin => false
  | .int _ _, .bin => false

/-- One step of the stochastic-rounding generator (R96). -/
def srNext (x : W32) : W32 :=
  let x := x ^^^ (x <<< 13)
  let x := x ^^^ (x >>> 17)
  x ^^^ (x <<< 5)

/-- The rounding mode of a code, drawing on the generator for SR (R95, R96). -/
def rmodeOf (rm : Nat) (sr : W32) : RMode :=
  match rm with
  | 0 => .rne
  | 1 => .rz
  | 2 => .ru
  | 3 => .rd
  | _ => .sr sr.toNat

/-- The magnitude of a value. -/
def FVal.mag : FVal → FVal
  | .nan => .nan
  | .inf _ => .inf false
  | .fin _ a b => .fin false a b

/-- |x| of a finite value as FP32, rounded toward +∞ (R249, R256); 0 for a value that is not finite. Log 21, DEDUCED. -/
def amaxBits (v : FVal) : Nat :=
  match v with
  | .fin _ a b => fencode fmtFP32 .ru (.fin false a b)
  | _ => 0

/-- The value of an E8M0 scale (R89). -/
def e8m0Val (e : Nat) : FVal :=
  if e % 256 = 0xFF then .nan
  else
    let r := scaleRat 1 1 ((e % 256 : Nat) - 127)
    .fin false r.1 r.2

/-- UE5M3 as a format without sign: NaN is 0xFF, the largest value 0xFE (R90). -/
def fmtUE5M3 : Fmt := { eb := 5, mb := 3, bias := 15, sp := .e4m3 }

/-- The value of a UE5M3 scale (R90). -/
def ue5m3Val (e : Nat) : FVal := fdecode fmtUE5M3 (e % 256)

/-- x / y for a positive finite y. -/
def FVal.divPos (x : FVal) (a b : Nat) : FVal :=
  match x with
  | .fin n p q => .fin n (p * b) (q * a)
  | v => v

end Sys2Proof.Machine
end

