-- ==== Sys2Proof/Machine/Crc.lean ====
section
/-! DEFINITION. The check codes of the part: CRC-32C over tiles and records (R165, R250), and CRC-64 with the ECMA-182
polynomial over flits (R336). -/

namespace Sys2Proof.Machine

/-- One bit of CRC-32C, reflected. -/
def crcBit (x : W32) : W32 := if x.getLsbD 0 then (x >>> 1) ^^^ 0x82F63B78 else x >>> 1

/-- One byte folded into a CRC-32C state. -/
def crcByte (x : W32) (b : Byte) : W32 :=
  crcBit (crcBit (crcBit (crcBit (crcBit (crcBit (crcBit (crcBit (x ^^^ b.zeroExtend 32))))))))

/-- Bytes folded into a CRC-32C state (R250). -/
def crcFold (x : W32) (bs : List Byte) : W32 := bs.foldl crcByte x

/-- The CRC of a state: the final exclusive OR. -/
def crcOut (x : W32) : W32 := x ^^^ 0xFFFFFFFF

/-- CRC-32C of bytes (R250). -/
def crc32c (bs : List Byte) : W32 := crcOut (crcFold 0xFFFFFFFF bs)

/-- One bit of CRC-64, from the highest. -/
def crc64Bit (x : W64) : W64 := if x.getLsbD 63 then (x <<< 1) ^^^ 0x42F0E1EBA9EA3693 else x <<< 1

/-- One byte folded into a CRC-64 state. -/
def crc64Byte (x : W64) (b : Byte) : W64 :=
  crc64Bit (crc64Bit (crc64Bit (crc64Bit (crc64Bit (crc64Bit (crc64Bit (crc64Bit
    (x ^^^ (b.zeroExtend 64 <<< 56)))))))))

/-- CRC-64 of bytes with the ECMA-182 polynomial (R336), as that standard forms it: from 0, the highest bit first, nothing added
at the end. Log 87, PRESUMED. -/
def crc64 (bs : List Byte) : W64 := bs.foldl crc64Byte 0

end Sys2Proof.Machine
end

