-- ==== Sys2Proof/Machine/Home.lean ====
section
/-! DEFINITION. The home of an address: naming it, its region and page checks, the storage behind it, and reads and
writes there with poison and monitors (R44 to R61, R78 to R80, R219, R220, R374). -/

namespace Sys2Proof.Machine

/-- The kinds of access that the columns of R57 and the checks of R51 tell apart. -/
inductive Acc where
  | load
  | store
  | engRead
  | engWrite
  | atomic
  | waita
  | fetch
deriving DecidableEq, Repr, Inhabited

/-- Who asks: the partition, and the logical core where a core asks. -/
structure Asker where
  part : Nat
  who : Option (BitVec 12)
  /-- The front end and its copy engine skip the region checks (R388). -/
  front : Bool := false
deriving DecidableEq, Repr, Inhabited

/-- What the checks of a home give. -/
inductive HomeAns where
  | fail (cause : Cause)
  | retry
  | ok (loc : Loc) (tlb : Option TlbEntry)
  /-- A home on another panel of the domain. -/
  | foreign (panel : Nat)
deriving DecidableEq, Repr, Inhabited

/-- PANEL of a global address (R45). -/
def panelOf (a : Nat) : Nat := a / 2 ^ 48 % 256
/-- TILE of a global address. -/
def tileOf (a : Nat) : Nat := a / 2 ^ 42 % 64
/-- OFFSET of a global address. -/
def offOf (a : Nat) : Nat := a % 2 ^ 42

/-! ## Storage keys -/

/-- Where a tile keeps a physical offset: on a tile with no shade layer, carve-out k lies in bytes
64 MiB + 16 MiB × k of the CTXOFF area (R54). -/
def State.backOff (s : State) (tile off : Nat) : Nat :=
  let t := s.tile tile
  if t.noShadeBacking ∧ 0x10100000000 ≤ off ∧ off < 0x10100000000 + 7 * 0x1000000 then
    (s.part (t.part.getD 0)).ctxoff + 0x4000000 + (off - 0x10100000000)
  else off

/-- The place `n` bytes on. -/
def Loc.shift (l : Loc) (n : Nat) : Loc :=
  match l with
  | .panel t o => .panel t (o + n)
  | .lm c o => .lm c (o + n)
  | .host p a x => .host p (a + n) x
  | .foreign p => .foreign p

/-- The key of a byte of tile storage. -/
def State.panelKey (s : State) (tile off : Nat) : Nat := tile * 2 ^ 42 + s.backOff tile off

/-- The key of a byte of a local memory. -/
def lmKey (core off : Nat) : Nat := core * 2 ^ 23 + off

/-- Reads `n` bytes of a place. A host read returns what has been handed to the host's ordering point (R75). -/
def State.readLoc (s : State) (loc : Loc) (n : Nat) : List Byte :=
  match loc with
  | .panel t o => Memory.readN s.mem (s.panelKey t o) n
  | .lm c o => Memory.readN s.lm (lmKey c o) n
  | .host _ a _ => Memory.readN s.hostMem a n
  | .foreign p => (List.range n).map fun i => Config.anyByte (s.freeIx (p * 2 ^ 20 + i))

/-- Whether a sector list meets `n` bytes from a key. -/
def sectorsMeet (ps : List Nat) (k n : Nat) : Bool := ps.any fun p => k < 64 * (p + 1) && 64 * p < k + n

/-- Whether any of `n` bytes of a place is poisoned (R78, R79). -/
def State.poisonedLoc (s : State) (loc : Loc) (n : Nat) : Bool :=
  match loc with
  | .panel t o => sectorsMeet s.poison (s.panelKey t o) n
  | .lm c o => sectorsMeet s.lmPoison (lmKey c o) n
  | .host _ a _ => sectorsMeet s.hostPoison a n
  | .foreign _ => false

/-- Removes the sectors that `n` bytes from a key cover whole (R80). -/
def clearSectors (ps : List Nat) (k n : Nat) : List Nat := ps.filter fun p => !(k ≤ 64 * p && 64 * (p + 1) ≤ k + n)

/-- Adds the sectors that `n` bytes from a key touch. -/
def addSectors (ps : List Nat) (k n : Nat) : List Nat :=
  if n = 0 then ps
  else (List.range ((k + n - 1) / 64 - k / 64 + 1)).foldl
    (fun ps i => if ps.contains (k / 64 + i) then ps else (k / 64 + i) :: ps) ps

/-! ## Monitors (R220) -/

/-- Fires a monitor if the location differs from its expected value or is poisoned. -/
def Monitor.check (m : Monitor) (v : W64) (poisoned : Bool) : Monitor :=
  match m.fired with
  | some _ => m
  | none => if poisoned || v != m.exp then { m with fired := some (v, poisoned) } else m

/-- Whether a monitor's location meets `n` bytes written from a key; a local memory that stands moved out is not
written (R310). -/
def Monitor.meets (m : Monitor) (mem : Bool) (k n : Nat) : Bool :=
  m.away.isNone && m.mem == mem && m.pa < k + n && k < m.pa + 8

/-- What a write of `n` bytes from a key does to a monitor. -/
def Monitor.onWrite (x : Monitor) (s : State) (inMem : Bool) (k n : Nat) : Monitor :=
  if x.meets inMem k n then
    x.check (leWord (Memory.readN (if inMem then s.mem else s.lm) x.pa 8))
      (sectorsMeet (if inMem then s.poison else s.lmPoison) x.pa 8)
  else x

/-- Wakes the monitors whose location a write of `n` bytes from a key touches, of tile storage (`inMem`) or of
local memory. -/
def State.fireMonitors (s : State) (inMem : Bool) (k n : Nat) : State :=
  { s with tiles := s.tiles.map fun e =>
      (e.1, { e.2 with monitors := e.2.monitors.map fun x => x.onWrite s inMem k n }) }

/-! ## Host port (R75) -/

/-- The aligned 8-byte pieces of `n` stored bytes, by number (R74). -/
def pieceCount (n : Nat) : Nat := (n + 7) / 8

/-- The pieces of a host-bound write that are still to be handed on. -/
def HostWrite.left (w : HostWrite) : List Nat := w.todo.getD (List.range (pieceCount w.bs.length))

/-- Hands piece `i` of a host-bound write to the host's ordering point. -/
def HostWrite.handPiece (w : HostWrite) (m : Memory) (i : Nat) : Memory :=
  Memory.writeN m (w.addr + 8 * i) ((w.bs.drop (8 * i)).take 8)

/-- Hands what is left of a host-bound write to the host's ordering point. -/
def HostWrite.handTo (w : HostWrite) (m : Memory) : Memory :=
  match w.todo with
  | none => Memory.writeN m w.addr w.bs
  | some is => is.foldl w.handPiece m

/-- Hands the first `n` writes that a port has accepted to the host's ordering point: its memory, and its poisoned
sectors, of which a write that covers one whole clears it (R80). Log 55, DEDUCED. -/
def handOn : Nat → HostPort → Memory → List Nat → HostPort × Memory × List Nat
  | 0, p, m, ps => (p, m, ps)
  | n + 1, p, m, ps =>
    match p.fifo with
    | [] => (p, m, ps)
    | w :: t => handOn n { p with fifo := t } (w.handTo m) (clearSectors ps w.addr w.bs.length)

/-- Hands on `n` writes of a port. Log 55, DEDUCED. -/
def State.drainPort (s : State) (port n : Nat) : State :=
  if h : port < 4 then
    let r := handOn n s.ports[port] s.hostMem s.hostPoison
    { s with ports := s.ports.set port r.1, hostMem := r.2.1, hostPoison := r.2.2 }
  else s

/-- The oldest write of a port has one of its pieces handed to the host's ordering point ahead of the others (R74).
Log 6, DESIGN CHOICE. -/
def State.hostPiece (s : State) (port piece : Nat) : State :=
  if h : port < 4 then
    match s.ports[port].fifo with
    | [] => s
    | w :: t =>
      if decide (8 < w.bs.length) && w.left.contains piece then
        { s with
          hostMem := w.handPiece s.hostMem piece
          ports := s.ports.set port
            { s.ports[port] with fifo := { w with todo := some (w.left.filter fun i => i != piece) } :: t } }
      else s
  else s

/-- Hands on every write of every port. -/
def State.drainAll (s : State) : State :=
  (List.range 4).foldl (fun s p => if h : p < 4 then s.drainPort p (s.ports[p]).fifo.length else s) s

/-- A port accepts a write, and may hand on some of what it holds (R75). Log 55, DEDUCED. -/
def State.acceptHost (s : State) (port a : Nat) (bs : List Byte) : State :=
  if h : port < 4 then
    let q := s.ports[port]
    let s := { s with ports := s.ports.set port { q with fifo := q.fifo ++ [({ addr := a, bs := bs, port := port } : HostWrite)] } }
    s.drainPort port (Config.anyNat (s.freeIx a) % (q.fifo.length + 2))
  else s

/-! ## Writes -/

/-- Performs a write at its place: bytes, poison of whole sectors cleared, monitors woken, sectors of HBM marked
modified in the memory-side cache (R53, R80, R220). -/
def State.writeLoc (s : State) (loc : Loc) (bs : List Byte) : State :=
  match loc with
  | .panel t o =>
    let k := s.panelKey t o
    let s := { s with mem := Memory.writeN s.mem k bs, poison := clearSectors s.poison k bs.length }
    let s := if o < 2 ^ 36 ∧ (s.tile t).hasShade then
        s.updTile t (fun x => { x with dirty := addSectors x.dirty o bs.length }) else s
    s.fireMonitors true k bs.length
  | .lm c o =>
    let k := lmKey c o
    let s := { s with lm := Memory.writeN s.lm k bs, lmPoison := clearSectors s.lmPoison k bs.length }
    s.fireMonitors false k bs.length
  | .host port a _ => s.acceptHost port a bs
  | .foreign _ => s

/-- Clears the poison of the sectors that `n` bytes of a place cover whole: a write of them has been made piece by piece
(R74, R80). -/
def State.clearLoc (s : State) (loc : Loc) (n : Nat) : State :=
  match loc with
  | .panel t o => { s with poison := clearSectors s.poison (s.panelKey t o) n }
  | .lm c o => { s with lmPoison := clearSectors s.lmPoison (lmKey c o) n }
  | .host _ a _ => { s with hostPoison := clearSectors s.hostPoison a n }
  | .foreign _ => s

/-- Poisons the sectors of `n` bytes of a place (R78, R79). -/
def State.poisonLoc (s : State) (loc : Loc) (n : Nat) : State :=
  match loc with
  | .panel t o =>
    let k := s.panelKey t o
    State.fireMonitors { s with poison := addSectors s.poison k n } true k n
  | .lm c o =>
    let k := lmKey c o
    State.fireMonitors { s with lmPoison := addSectors s.lmPoison k n } false k n
  | .host _ a _ => { s with hostPoison := addSectors s.hostPoison a n }
  | .foreign _ => s

/-- Performs piece `i` of a write. -/
def State.storeOne (s : State) (loc : Loc) (bs : List Byte) (i : Nat) : State :=
  s.writeLoc (loc.shift (8 * i)) ((bs.drop (8 * i)).take 8)

/-- Performs what is left of a write, whole or by its pieces; sectors that arrive poisoned are so (R74, R78, R80).
Log 6, DESIGN CHOICE. -/
def State.writeLeft (s : State) (loc : Loc) (bs : List Byte) (todo : Option (List Nat)) (bad : Bool) : State :=
  let s := match todo with
    | none => s.writeLoc loc bs
    | some is => (is.foldl (fun s i => s.storeOne loc bs i) s).clearLoc loc bs.length
  if bad then s.poisonLoc loc bs.length else s

/-! ## Regions (R56, R57) -/

/-- The 32-bit region entry of an offset of a tile. -/
def State.regionEntry (s : State) (part tile off : Nat) : W32 :=
  BitVec.ofNat 32 (leNat (s.readLoc (.panel tile ((s.part part).rtbase + 4 * (off / 2 ^ 21))) 4))

/-- STATE of an entry. -/
def regState (e : W32) : Nat := e.toNat / 2 ^ 30
/-- OWNER of an entry. -/
def regOwner (e : W32) : BitVec 12 := BitVec.ofNat 12 (e.toNat / 2 ^ 18)

/-- Whether an entry is well formed (R56). -/
def regWf (e : W32) : Bool := e.toNat % 2 ^ 18 == 0 && (regState e < 2 || regOwner e == 0)

/-- The table of R57. `none` asks for the drover, allowed where the column reads "any core" (R348). -/
def regPermits (e : W32) (who : Option (BitVec 12)) (acc : Acc) : Bool :=
  let own := who == some (regOwner e)
  match acc with
  | .fetch => true
  | .load => (regState e == 0 && own) || (regState e == 1 && own) || regState e == 3
  | .store => regState e == 0 && own
  | .engRead => (regState e == 0 && own) || (regState e == 1 && own) || regState e == 2 || regState e == 3
  | .engWrite | .atomic => (regState e == 0 && own) || regState e == 1 || regState e == 2
  | .waita => (regState e == 0 && own) || regState e == 1 || regState e == 2 || regState e == 3

/-! ## The walk (R48 to R51) -/

/-- The size of the page that a leaf of this level maps. -/
def pageSize : Nat → Nat
  | 1 => 2 ^ 30
  | 2 => 2 ^ 21
  | _ => 2 ^ 16

/-- Whether `n` bytes from a physical offset lie in one backed range of a tile (R50). -/
def State.backed (s : State) (part tile off n : Nat) : Bool :=
  let lit := (s.tile tile).litCount
  let carve := (s.part part).carve
  off + n ≤ 2 ^ 36 ||
    (List.range lit).any (fun k => 0x10000000000 + k * 0x2000000 ≤ off && off + n ≤ 0x10000000000 + (k + 1) * 0x2000000) ||
    (List.range carve).any (fun k => 0x10100000000 + k * 0x1000000 ≤ off && off + n ≤ 0x10100000000 + (k + 1) * 0x1000000) ||
    (List.range (16 * lit)).any (fun k => 0x10200000000 + k * 0x800000 ≤ off && off + n ≤ 0x10200000000 + (k + 1) * 0x800000)

/-- FRAME of a leaf as an offset. -/
def frameOf (e : W64) : Nat := e.toNat / 2 ^ 16 % 2 ^ 26 * 2 ^ 16

/-- Whether a valid entry at a level is well formed (R49, R51 order 6). -/
def State.entryWf (s : State) (part tile level : Nat) (e : W64) : Bool :=
  let p := s.part part
  fld e 42 22 == 0 &&
    (if bit e 1 then
      let f := frameOf e
      fld e 6 10 == 0 && f % pageSize level == 0 && s.backed part tile f (pageSize level) &&
        !(f < p.ctxoff + 2 ^ 28 && p.ctxoff < f + pageSize level)
    else
      level < 3 && fld e 2 6 == 0 && fld e 8 34 * 2 ^ 8 + 4096 ≤ 2 ^ 36 + (if level = 2 then 3840 else 0) &&
        (if level = 1 then fld e 8 34 * 2 ^ 8 % 4096 == 0 else true))

/-- The index of an offset at a level (R48). -/
def levelIndex (level off : Nat) : Nat :=
  match level with
  | 1 => off / 2 ^ 30 % 4096
  | 2 => off / 2 ^ 21 % 512
  | _ => off / 2 ^ 16 % 32

/-- The walk from a table at a level: the leaf and its level, or the cause of the first entry that fails. -/
def State.walkFrom (s : State) (part tile off : Nat) : Nat → Nat → Nat → Except Cause (W64 × Nat)
  | 0, _, _ => .error 0x28
  | fuel + 1, level, table =>
    let e := leWord (s.readLoc (.panel tile (table + 8 * levelIndex level off)) 8)
    if !bit e 0 then .error 0x21
    else if !s.entryWf part tile level e then .error 0x28
    else if bit e 1 then .ok (e, level)
    else s.walkFrom part tile off fuel (level + 1) (fld e 8 34 * 2 ^ 8)

/-- The leaf for an offset: from the tables, or a cached copy where the ingress MMU holds one and uses it (R52).
Log 10, DESIGN CHOICE. -/
def State.leafOf (s : State) (part tile off : Nat) : Except Cause (W64 × Nat) :=
  let asid := (s.part part).asid
  match (s.tile tile).tlb.find? fun e => e.asid == asid && e.page == off / 2 ^ 16 with
  | some e => if Config.anyBool (s.freeIx (2 ^ 30 + off / 2 ^ 16)) then .ok (e.leaf, e.level)
    else s.walkFrom part tile off 3 1 (s.part part).ptroot
  | none => s.walkFrom part tile off 3 1 (s.part part).ptroot

/-- The flock that holds a logical core, if any. -/
def State.holderOf (s : State) (part : Nat) (id : BitVec 12) : Option Nat :=
  match mget 0 (s.part part).holder id.toNat with
  | 0 => none
  | n + 1 => some n

/-- Whether the local memory of a logical core's holder stands moved out to HBM (R42, R310). -/
def State.lmEvicted (s : State) (part : Nat) (id : BitVec 12) : Bool :=
  match s.holderOf part id with
  | none => false
  | some f => mhas (s.flock f).lms (((s.flock f).members.idxOf id))

/-! ## The checks of a home (R51) -/

/-- The place of a physical offset, or the cause of R50 and R310. -/
def State.placeOf (s : State) (part tile off n : Nat) (acc : Acc) : HomeAns :=
  if 0x10200000000 ≤ off then
    if acc == .load || acc == .store then .fail 0x22
    else
      let k := (off - 0x10200000000) / 0x800000
      let o := (off - 0x10200000000) % 0x800000
      let id : BitVec 12 := BitVec.ofNat 12 ((s.part part).logTile tile * 64 + k)
      match s.holderOf part id with
      | none => .fail 0x22
      | some f =>
        if (s.flock f).lmb < o + n then .fail 0x22
        else if s.lmEvicted part id then .retry
        else .ok (.lm (s.physCore part id) o) none
  else .ok (.panel tile off) none

/-- Whether an access kind writes. -/
def Acc.writes : Acc → Bool
  | .store | .engWrite | .atomic => true
  | .load | .engRead | .waita | .fetch => false

/-- The checks of the page: rows 5 to 7 of R51, then TRANSIT (R52). -/
def State.pageCheck (s : State) (part tile off n : Nat) (acc : Acc) : HomeAns :=
  match s.leafOf part tile off with
  | .error c => .fail c
  | .ok (leaf, level) =>
    if acc.writes && !bit leaf 2 then .fail 0x22
    else if acc == .fetch && !bit leaf 3 then .fail 0x22
    else
      match s.placeOf part tile (frameOf leaf + off % pageSize level) n acc with
      | .ok loc _ =>
        if bit leaf 5 && acc.writes then .retry
        else .ok loc (some { asid := (s.part part).asid, page := off / 2 ^ 16, leaf, level })
      | a => a

/-- The host-window entry that an address matches (R374): port, atomics. -/
def hostMatch (w : W64) (h : Nat) : Bool :=
  let base := fld w 0 32 * 2 ^ 16
  let size := 2 ^ (fld w 51 5 + 16)
  bit w 56 && base % size == 0 && base ≤ h && h < base + size

/-- The place of a host-window address, or 0x27. -/
def State.hostCheck (s : State) (part h : Nat) : HomeAns :=
  match (s.part part).hwin.toList.find? fun w => hostMatch w h with
  | some w => .ok (.host (fld w 58 2) h (bit w 57)) none
  | none => .fail 0x27

/-- Whether the core that asks is of a flock that a role change of the tile pre-empts: what it has issued is served, so that
it reaches its cut (R175, R235, R331). -/
def State.drainsFor (s : State) (tile : Nat) (who : Asker) : Bool :=
  match who.who with
  | none => false
  | some id =>
    match s.holderOf who.part id with
    | none => false
    | some fl => (s.flock fl).members.any fun m => (s.part who.part).physTile (fld m 6 6) == tile

/-- Whether the home on a tile refuses an arriving request with retry-after, during a role change of the tile (R415): what a
member needs to reach its cut, its accesses, its fetches and the front end's records, is served during the drain.
Log 31, DEDUCED. -/
def State.refuses (s : State) (tile : Nat) (who : Asker) (acc : Acc) : Bool :=
  match (s.tile tile).rolePhase with
  | .none => false
  | .drain => !(acc == .fetch || who.front || s.drainsFor tile who)
  | .flushed => true

/-- A home's answer to an access of `n` bytes of a naturally placed datum (R46, R51): order 2 to 7 and TRANSIT.
Alignment is the requester's check and poison the consumer's. -/
def State.homeCheck (s : State) (who : Asker) (acc : Acc) (a n : Nat) : HomeAns :=
  if panelOf a = 0xFF then s.hostCheck who.part (a % 2 ^ 48)
  else if panelOf a ≠ s.glob.domid.toNat then
    if bit (mget 0 s.glob.domrt (panelOf a)) 7 then .foreign (panelOf a) else .fail 0x27
  else
    let p := s.part who.part
    if p.tiles ≤ tileOf a then .fail 0x27
    else
      let tile := p.physTile (tileOf a)
      let e := s.regionEntry who.part tile (offOf a)
      if s.refuses tile who acc then .retry
      else if acc == .fetch || who.front then s.pageCheck who.part tile (offOf a) n acc
      else if !regWf e then .fail 0x28
      else if !regPermits e who.who acc then .fail 0x23
      else s.pageCheck who.part tile (offOf a) n acc

/-- The home tile of an address, where it lies on this panel. -/
def State.homeTile (s : State) (part a : Nat) : Option Nat :=
  if panelOf a = 0xFF ∨ panelOf a ≠ s.glob.domid.toNat ∨ (s.part part).tiles ≤ tileOf a then none
  else some ((s.part part).physTile (tileOf a))

/-- Keeps a translation that an access has used (R52, R366). Log 10, DESIGN CHOICE. -/
def State.noteTlb (s : State) (tile : Option Nat) (e : Option TlbEntry) : State :=
  match tile, e with
  | some t, some e => s.updTile t fun x =>
      { x with tlb := (e :: x.tlb.filter fun y => !(y.asid == e.asid && y.page == e.page)).take 4096 }
  | _, _ => s

/-- Stands for retry-after where a cause is expected; no cause of the manual has this code. -/
def retryCode : Cause := 0xFF

/-- A read that passes its checks and consumes the data: 0x24 on poison. -/
def State.homeRead (s : State) (who : Asker) (acc : Acc) (a n : Nat) : Except Cause (List Byte) :=
  match s.homeCheck who acc a n with
  | .ok loc _ => if s.poisonedLoc loc n then .error 0x24 else .ok (s.readLoc loc n)
  | .fail c => .error c
  | .retry => .error retryCode
  | .foreign _ =>
    let c := Config.foreignCause (s.freeIx a)
    if c = 0 then .ok ((List.range n).map fun i => Config.anyByte (s.freeIx (a + i))) else .error c

/-! ## Local memory through the LM form (R44) -/

/-- Whether an LM-form access lies below the flock's declared bytes. -/
def State.lmOk (s : State) (c : Nat) (a n : Nat) : Bool := a + n ≤ (s.flock ((s.ctx c).flock.getD 0)).lmb

/-- A read of local memory: 0x22 beyond the declared bytes, 0x24 on poison. -/
def State.lmRead (s : State) (c a n : Nat) : Except Cause (List Byte) :=
  if !s.lmOk c a n then .error 0x22
  else if s.poisonedLoc (.lm c a) n then .error 0x24
  else .ok (s.readLoc (.lm c a) n)

/-- The asker of a core's own accesses. -/
def State.asker (s : State) (c : Nat) : Asker :=
  if droverCore ≤ c then { part := c - droverCore, who := none }
  else if frontCore ≤ c then { part := c - frontCore, who := none, front := true }
  else { part := s.partOf c, who := some (s.ctx c).logical }

/-! ## Reads and writes of the front end (R388) -/

/-- The front end of a partition as an asker: page checks only. -/
def frontAsker (part : Nat) : Asker := { part := part, who := none, front := true }

/-- The aligned sectors of 64 bytes that `n` bytes from `a` meet: start and length of the part in each. -/
def sectorPieces : Nat → Nat → Nat → List (Nat × Nat)
  | 0, _, _ => []
  | fuel + 1, a, n =>
    if n = 0 then []
    else
      let k := min n (64 - a % 64)
      (a, k) :: sectorPieces fuel (a + k) (n - k)

/-- The outcome of a front-end access: done, to be tried again (retry-after), or failed with a cause. -/
inductive FrontAns where
  | done
  | again
  | fail (cause : Cause)
deriving DecidableEq, Repr, Inhabited

/-- A front-end read. -/
def State.feRead (s : State) (part a n : Nat) : Except FrontAns (List Byte) :=
  (sectorPieces (n + 1) a n).foldl (fun r p =>
    match r with
    | .error e => .error e
    | .ok bs =>
      match s.homeRead (frontAsker part) .engRead p.1 p.2 with
      | .error c => .error (if c = retryCode then .again else .fail c)
      | .ok b => .ok (bs ++ b)) (.ok [])

/-- Writes the pieces of some bytes in order, up to the first failure. Log 66, DEDUCED. -/
def State.fePieces (s : State) (part : Nat) (bs : List Byte) : List (Nat × Nat) → State × FrontAns
  | [] => (s, .done)
  | (a, n) :: t =>
    match s.homeCheck (frontAsker part) .engWrite a n with
    | .ok loc _ => (s.writeLoc loc (bs.take n)).fePieces part (bs.drop n) t
    | .fail c => (s, .fail c)
    | .retry => (s, .again)
    | .foreign _ =>
      let c := Config.foreignCause (s.freeIx a)
      if c = 0 then s.fePieces part (bs.drop n) t else (s, .fail c)

/-! ## Writes that are sent again (R330, R367) -/

/-- The most sends of a request (R330). -/
def maxSends : Nat := 8

/-- The sends so far of a write that has been refused, and when it is sent again. -/
def State.feTried (s : State) (part a : Nat) : Nat × Nat := mget (0, 0) (s.part part).feSends a

/-- Whether a refused write is not yet to be sent again. -/
def State.fePaused (s : State) (part a : Nat) : Bool := decide (s.now < (s.feTried part a).2)

/-- A write of `n` bytes at `a` has been refused: the home's delay passes before it is sent again (R367). -/
def State.feAgain (s : State) (part a n : Nat) : State :=
  if s.fePaused part a then s
  else
    let refused := fun (p : Nat × Nat) => match s.homeCheck (frontAsker part) .engWrite p.1 p.2 with
      | .retry => true
      | _ => false
    let at_ := (((sectorPieces (n + 1) a n).find? refused).map (·.1)).getD a
    let dly := match s.homeTile part at_ with
      | some t => 64 * (s.tile t).migDly.toNat
      | none => 0
    s.updPart part fun p => { p with feSends := mset p.feSends a ((s.feTried part a).1 + 1, s.now + dly) }

/-- The write at an address has its final answer. -/
def State.feEnded (s : State) (part a : Nat) : State := s.updPart part fun p => { p with feSends := mdel p.feSends a }

/-- What the front end makes of the answer to a write at `a`: one that has been refused at its eighth send ends with 0x47
(R330). -/
def State.feAnswer (s : State) (part a : Nat) (r : State × FrontAns) : State × FrontAns :=
  match r.2 with
  | .again => if maxSends ≤ (s.feTried part a).1 + 1 then (s.feEnded part a, .fail 0x47) else (s, .again)
  | x => (r.1.feEnded part a, x)

/-- A front-end write: sector by sector, so that a sector that it covers whole is no longer poisoned (R80), and each aligned
8-byte piece single-copy atomic (R74, R390). Refused by a home, it is made again whole after the home's delay (R367).
Log 66, DEDUCED. -/
def State.feWrite (s : State) (part a : Nat) (bs : List Byte) : State × FrontAns :=
  if s.fePaused part a then (s, .again)
  else s.feAnswer part a (s.fePieces part bs (sectorPieces (bs.length + 1) a bs.length))

end Sys2Proof.Machine
end

