-- ==== Sys2Proof/Machine/Links.lean ====
section
/-! DEFINITION. The fabric as the rest of the model sees it: port ends, usable maps, which ends are joined, and the
fixed path of the standing lattice (R24, R25, R333 to R335, R362, R368). -/

namespace Sys2Proof.Machine

/-! ## Port ends -/

/-- Whether a wavelength is in its end's usable map (R333). -/
def Wavelength.up (w : Wavelength) : Bool := w.state == .active

/-- Wavelength λk of an end. -/
def PortSt.lane (p : PortSt) (k : Nat) : Wavelength := p.wl.toList.getD k {}

/-- The usable map of an end: its wavelengths in ascending order (R333). -/
def PortSt.map (p : PortSt) : List Nat := (List.range 8).filter fun k => (p.lane k).up

/-- A set of wavelengths as a byte. -/
def laneBits (ks : List Nat) : Nat := ks.foldl (fun n k => n + 2 ^ k) 0

/-- Changes λk of an end. -/
def PortSt.updLane (p : PortSt) (k : Nat) (f : Wavelength → Wavelength) : PortSt :=
  if h : k < 8 then { p with wl := p.wl.set k (f p.wl[k]) } else p

/-- The state of a port end. -/
def State.portEnd (s : State) (e : PortEnd) : PortSt :=
  let t := s.tile e.tile
  (if e.tx then t.tx else t.rx).toList.getD e.port {}

/-- Changes the state of a port end. -/
def State.updPort (s : State) (e : PortEnd) (f : PortSt → PortSt) : State :=
  if h : e.port < 14 then
    s.updTile e.tile fun t =>
      if e.tx then { t with tx := t.tx.set e.port (f t.tx[e.port]) } else { t with rx := t.rx.set e.port (f t.rx[e.port]) }
  else s

/-- The first of the eight scheduled ports, P4 (R333). -/
def scheduledPort : Nat := 4

/-! ## Which ends are joined -/

/-- The neighbour of a logical position in the torus of a partition, in the direction of a standing port; none where
the torus has one column, or one row, in that direction (R24). -/
def Partition.neighbour (p : Partition) (t port : Nat) : Option Nat :=
  let x := t % p.w
  let y := t / p.w
  match port with
  | 0 => if p.w ≤ 1 then none else some (y * p.w + (x + 1) % p.w)
  | 1 => if p.w ≤ 1 then none else some (y * p.w + (x + p.w - 1) % p.w)
  | 2 => if p.h ≤ 1 then none else some ((y + 1) % p.h * p.w + x)
  | 3 => if p.h ≤ 1 then none else some ((y + p.h - 1) % p.h * p.w + x)
  | _ => none

/-- The standing port that faces a standing port: +x faces −x, +y faces −y. -/
def facing (port : Nat) : Nat :=
  match port with
  | 0 => 1
  | 1 => 0
  | 2 => 3
  | _ => 2

/-- The circuit that a scheduled port end of a tile carries (R334). -/
def Partition.circuitAt (p : Partition) (e : PortEnd) : Option Circuit :=
  p.drover.circuits.find? fun k =>
    if e.tx then k.sendTile == e.tile && scheduledPort + k.sp == e.port
    else k.recvTile == e.tile && scheduledPort + k.dp == e.port

/-- The end that a port end is joined to: over a standing circuit, or over the scheduled circuit it carries; an edge
port is joined to another panel. -/
def State.peerEnd (s : State) (e : PortEnd) : Option PortEnd :=
  match (s.tile e.tile).part with
  | none => none
  | some n =>
    let p := s.part n
    if e.port < scheduledPort then
      (p.neighbour (p.logTile e.tile) e.port).map fun t =>
        { tile := p.physTile t, port := facing e.port, tx := !e.tx }
    else if e.port < 12 then
      (p.circuitAt e).map fun k =>
        if e.tx then { tile := k.recvTile, port := scheduledPort + k.dp, tx := false }
        else { tile := k.sendTile, port := scheduledPort + k.sp, tx := true }
    else none

/-- The ends of a scheduled circuit. -/
def Circuit.sendEnd (k : Circuit) : PortEnd := { tile := k.sendTile, port := scheduledPort + k.sp, tx := true }
/-- The receive end of a scheduled circuit. -/
def Circuit.recvEnd (k : Circuit) : PortEnd := { tile := k.recvTile, port := scheduledPort + k.dp, tx := false }

/-- The usable map between a transmit end and a receive end: the intersection of their maps (R334). -/
def State.mapBetween (s : State) (a b : PortEnd) : List Nat :=
  (s.portEnd a).map.filter fun k => (s.portEnd b).map.contains k

/-- The usable map of a circuit. -/
def State.circuitMap (s : State) (k : Circuit) : List Nat := s.mapBetween k.sendEnd k.recvEnd

/-! ## The path of a flit (R25) -/

/-- The standing port by which a flit at position `a` of `n` goes towards `b`: the shorter way round, the positive
direction where both are equally short. -/
def ringPort (n a b plus minus : Nat) : Nat := if (b + n - a) % n ≤ (a + n - b) % n then plus else minus

/-- The standing port by which a flit at logical tile `a` leaves towards tile `b`: first in x, then in y. -/
def Partition.nextPort (p : Partition) (a b : Nat) : Option Nat :=
  if a % p.w ≠ b % p.w then some (ringPort p.w (a % p.w) (b % p.w) 0 1)
  else if a / p.w ≠ b / p.w then some (ringPort p.h (a / p.w) (b / p.w) 2 3)
  else none

/-- The transmit ends that a flit uses from logical tile `a` to `b`. -/
def Partition.path (p : Partition) : Nat → Nat → Nat → List PortEnd
  | 0, _, _ => []
  | fuel + 1, a, b =>
    match p.nextPort a b with
    | none => []
    | some port =>
      match p.neighbour a port with
      | none => []
      | some t => { tile := p.physTile a, port := port, tx := true } :: p.path fuel t b

/-- Whether every standing link of the path between two physical tiles of a partition has a wavelength (R362). -/
def State.pathUp (s : State) (part a b : Nat) : Bool :=
  let p := s.part part
  (p.path 16 (p.logTile a) (p.logTile b)).all fun e =>
    match s.peerEnd e with
    | some r => !(s.mapBetween e r).isEmpty
    | none => false

/-- The tile of an edge port E (R368). -/
def edgeTile (e : Nat) : Nat :=
  match e / 8 with
  | 0 => e % 8
  | 1 => 8 * (e % 8) + 7
  | 2 => 56 + e % 8
  | _ => 8 * (e % 8)

/-- The edge ports of a tile, in ascending order: A, then B on a corner (R368). -/
def edgePorts (tile : Nat) : List Nat := (List.range 32).filter fun e => edgeTile e == tile

/-- The end of an edge port E (R368). -/
def edgeEnd (e : Nat) (tx : Bool) : PortEnd :=
  { tile := edgeTile e, port := 12 + (edgePorts (edgeTile e)).idxOf e, tx := tx }

/-- The edge port by which flits bound for another panel leave (R379). -/
def State.edgeFor (s : State) (panel : Nat) : Nat := fld (mget 0 s.glob.domrt panel) 0 5

/-- Whether flits can pass between a physical tile and another panel: over the standing lattice, where the edge tile is one
of the partition's, and over the edge port that the domain's table names (R362, R368). To an edge tile outside the partition
they always pass. Log 89, DESIGN CHOICE. -/
def State.edgeUp (s : State) (part tile panel : Nat) (inward : Bool) : Bool :=
  let e := edgeEnd (s.edgeFor panel) (!inward)
  !(s.portEnd e).map.isEmpty &&
    ((s.tile e.tile).part != some part || (if inward then s.pathUp part e.tile tile else s.pathUp part tile e.tile))

/-- Whether an access of core `c` reaches the home of an address, or the home's reply the core (R25, R362). -/
def State.carries (s : State) (c a : Nat) (back : Bool) : Bool :=
  let part := s.partOf c
  if frontCore ≤ c ∨ panelOf a = 0xFF then true
  else if panelOf a ≠ s.glob.domid.toNat then s.edgeUp part (c / 64) (panelOf a) back
  else
    match s.homeTile part a with
    | none => true
    | some t => if back then s.pathUp part t (c / 64) else s.pathUp part (c / 64) t

/-- Whether an access and its reply both pass. -/
def State.reaches (s : State) (c a : Nat) : Bool := s.carries c a false && s.carries c a true

end Sys2Proof.Machine
end

