-- ==== Sys2Proof/Machine/Fetch.lean ====
section
/-! DEFINITION. Instruction fetch (R77, R112, R115): the syllables of a flock's images. -/

namespace Sys2Proof.Machine

/-- The number of a stream: L, C, S. -/
def streamIx : StreamId → Nat
  | .l => 0
  | .c => 1
  | .s => 2

/-- OFF, NSYL, ENTRY and SECT0 of a stream's image (R395 words 4 to 9). -/
def Flock.imgOff (f : Flock) (st : StreamId) : Nat := fld (f.word (4 + 2 * streamIx st)) 32 32
/-- NSYL. -/
def Flock.imgLen (f : Flock) (st : StreamId) : Nat := fld (f.word (4 + 2 * streamIx st)) 0 32
/-- ENTRY. -/
def Flock.entry (f : Flock) (st : StreamId) : Nat := fld (f.word (5 + 2 * streamIx st)) 40 24
/-- SECT0. -/
def Flock.sect0 (f : Flock) (st : StreamId) : Nat := fld (f.word (5 + 2 * streamIx st)) 24 16
/-- IMAGE. -/
def Flock.imgBase (f : Flock) : Nat := fld (f.word 3) 0 56

/-- The global address of a syllable of a stream's image. -/
def Flock.sylAddr (f : Flock) (st : StreamId) (k : Nat) : Nat := (f.imgBase + f.imgOff st + 4 * k) % 2 ^ 56

/-- A syllable as the flock's streams fetch it: checked under R51 at the home as the tables stand now, its bytes as
they stood when the LAUNCH was processed, or as they stand now where the page could not be read then (R77). -/
def State.fetchSyl (s : State) (c : Nat) (st : StreamId) (k : Nat) : Except (Cause × Nat) Nat :=
  let f := s.flock ((s.ctx c).flock.getD 0)
  let a := f.sylAddr st k
  match s.homeRead { part := f.part, who := none } .fetch a 4 with
  | .error cause => .error (cause, a)
  | .ok bs => .ok (leNat (if f.imagePages.contains (a / 2 ^ 16) then Memory.readN f.image a 4 else bs))

/-- Consecutive syllables. -/
def State.fetchSyls (s : State) (c : Nat) (st : StreamId) : Nat → Nat → Except (Cause × Nat) (List Nat)
  | _, 0 => .ok []
  | k, n + 1 =>
    match s.fetchSyl c st k with
    | .error e => .error e
    | .ok x =>
      match s.fetchSyls c st (k + 1) n with
      | .error e => .error e
      | .ok xs => .ok (x :: xs)

/-! ## The layout cache (R76) -/

/-- The line that a core's layout cache holds at an address. -/
def State.layoutHit (s : State) (c a : Nat) : Option LayoutLine :=
  ((s.ctx c).layoutCache.find? fun e => e.1 == a).map (·.2)

/-- A 64-byte line as it is now in memory, checked as a direct load. -/
def State.layoutFill (s : State) (c a : Nat) : Except Cause LayoutLine :=
  match s.homeRead (s.asker c) .load a 64, s.homeCheck (s.asker c) .load a 64 with
  | .error e, _ => .error e
  | .ok bs, .ok loc _ => .ok { loc := loc, ws := (List.range 8).map fun i => wordAt bs i }
  | .ok bs, .foreign p => .ok { loc := .foreign p, ws := (List.range 8).map fun i => wordAt bs i }
  | .ok _, .fail e => .error e
  | .ok _, .retry => .error retryCode

/-- A line that the cache holds as it is read again: nothing is checked, and each 8-byte piece is the old or the new one of
the place that the line was read from. Log 10, DESIGN CHOICE. -/
def State.layoutAgain (s : State) (a : Nat) (l : LayoutLine) : LayoutLine :=
  { l with ws := (List.range 8).map fun i =>
      if Config.anyBool (s.freeIx (a + i)) then wordAt (s.readLoc l.loc 64) i else l.ws.getD i 0 }

/-- A 64-byte line read through the layout cache: as the cache holds it, or from memory, over the standing lattice
(R76, R362). -/
def State.layoutRead (s : State) (c a : Nat) : Except Cause LayoutLine :=
  match s.layoutHit c a with
  | some l => .ok (s.layoutAgain a l)
  | none => if s.reaches c a then s.layoutFill c a else .error retryCode

/-- Keeps a line in the layout cache of a core. -/
def State.layoutKeep (s : State) (c a : Nat) (l : LayoutLine) : State :=
  s.updCtx c fun x => { x with layoutCache := mset x.layoutCache a l }

end Sys2Proof.Machine
end

