-- ==== Sys2Proof/Machine/Flags.lean ====
section
/-! DEFINITION. The conditions of CMP and the masks of the vector comparisons: the part's only flag
computations, since no operation sets a flag of a status register (R145). -/

namespace Sys2Proof.Machine

/-- The condition CC on two 64-bit values (R121). -/
def condHolds (cc : Cond) (a b : W64) : Bool :=
  match cc with
  | .eq => a == b
  | .ne => a != b
  | .lt => a.slt b
  | .le => a.sle b
  | .gt => b.slt a
  | .ge => b.sle a
  | .ltn => a.ult b
  | .len => a.ule b

/-- The element that a comparison writes: all ones or zero (R193, R198). -/
def maskOf (w : Nat) (c : Bool) : Nat := if c then 2 ^ w - 1 else 0

end Sys2Proof.Machine
end

