-- ==== Sys2Proof/Machine/Scalar.lean ====
section
/-! DEFINITION. The arithmetic and logic operations of the common scalar subset (R145, R146). -/

namespace Sys2Proof.Machine

/-- Bits [127:64] of the signed product. -/
def mulHighS (a b : W64) : W64 := BitVec.ofInt 64 (a.toInt * b.toInt / 2 ^ 64)
/-- Bits [127:64] of the unsigned product. -/
def mulHighU (a b : W64) : W64 := BitVec.ofNat 64 (a.toNat * b.toNat / 2 ^ 64)
/-- Bits [5:0] of a shift operand. -/
def shiftAmount (b : W64) : Nat := b.toNat % 64
/-- The smaller, signed. -/
def minS (a b : W64) : W64 := if a.slt b then a else b
/-- The smaller, unsigned. -/
def minU (a b : W64) : W64 := if a.ult b then a else b
/-- The larger, signed. -/
def maxS (a b : W64) : W64 := if a.slt b then b else a
/-- The larger, unsigned. -/
def maxU (a b : W64) : W64 := if a.ult b then b else a

/-- The number of leading zero bits below position `n`. -/
def clzFrom (x : Nat) : Nat → Nat
  | 0 => 0
  | n + 1 => if x / 2 ^ n % 2 = 1 then 0 else clzFrom x n + 1

/-- The number of one bits below position `n`. -/
def popFrom (x : Nat) : Nat → Nat
  | 0 => 0
  | n + 1 => x / 2 ^ n % 2 + popFrom x n

/-- An operation that writes one g register under its guard (R117, R145, R148). -/
def scalarOp (gd : Guard) (d : BitVec 5) (v : W64) (bound : Nat) (s : State) : Result :=
  guarded gd s fun s => s.wgB d v bound

/-- MOVHI's placement of its immediate (R145). -/
def movhiVal (imm : Nat) (old : W64) : W64 := BitVec.ofNat 64 (imm * 2 ^ 32 + old.toNat % 2 ^ 32)

/-- MOVI: the immediate, sign-extended (R145). -/
def execMovi (gd : Guard) (d : BitVec 5) (imm : BitVec 13) (s : State) : Result :=
  scalarOp gd d (imm.signExtend 64) 1 s

/-- MOVI, wide form (R122). -/
def execMoviWide (gd : Guard) (d : BitVec 5) (imm : Wide) (s : State) : Result := scalarOp gd d (wideVal imm) 1 s

/-- MOVHI: the immediate in [63:32], the low half kept (R145). -/
def execMovhi (gd : Guard) (d : BitVec 5) (imm : BitVec 13) (s : State) : Result :=
  scalarOp gd d (movhiVal imm.toNat (s.rg d)) 1 s

/-- MOVHI with IMM32 (R122). -/
def execMovhiWide (gd : Guard) (d : BitVec 5) (imm : W32) (s : State) : Result :=
  scalarOp gd d (movhiVal imm.toNat (s.rg d)) 1 s

/-- MOV (R145). -/
def execMov (gd : Guard) (d a : BitVec 5) (s : State) : Result := scalarOp gd d (s.rg a) 1 s

/-- ADDI (R145). -/
def execAddi (gd : Guard) (d : BitVec 5) (imm : BitVec 13) (s : State) : Result :=
  scalarOp gd d (s.rg d + imm.signExtend 64) 1 s

/-- ADDI, wide form (R122). -/
def execAddiWide (gd : Guard) (d : BitVec 5) (imm : Wide) (s : State) : Result :=
  scalarOp gd d (s.rg d + wideVal imm) 1 s

/-- CLZ: leading zero bits; 64 for zero (R145). -/
def execClz (gd : Guard) (d a : BitVec 5) (s : State) : Result :=
  scalarOp gd d (BitVec.ofNat 64 (clzFrom (s.rg a).toNat 64)) 1 s

/-- POPC: one bits (R145). -/
def execPopc (gd : Guard) (d a : BitVec 5) (s : State) : Result :=
  scalarOp gd d (BitVec.ofNat 64 (popFrom (s.rg a).toNat 64)) 1 s

/-- SEL: g[A] where p[PS] is true, else g[B] (R145). -/
def execSel (gd : Guard) (d a b : BitVec 5) (ps : BitVec 3) (s : State) : Result :=
  scalarOp gd d (if s.rp (ps.zeroExtend 4) then s.rg a else s.rg b) 1 s

/-- ADD (R145). -/
def execAdd (gd : Guard) (d a : BitVec 5) (b : SrcB) (s : State) : Result :=
  scalarOp gd d (s.rg a + (s.srcB b)) 1 s

/-- ADD, wide form (R122). -/
def execAddWide (gd : Guard) (d a : BitVec 5) (imm : Wide) (s : State) : Result :=
  scalarOp gd d (s.rg a + (wideVal imm)) 1 s

/-- SUB (R145). -/
def execSub (gd : Guard) (d a : BitVec 5) (b : SrcB) (s : State) : Result :=
  scalarOp gd d (s.rg a - (s.srcB b)) 1 s

/-- SUB, wide form (R122). -/
def execSubWide (gd : Guard) (d a : BitVec 5) (imm : Wide) (s : State) : Result :=
  scalarOp gd d (s.rg a - (wideVal imm)) 1 s

/-- MUL (R145). -/
def execMul (gd : Guard) (d a : BitVec 5) (b : SrcB) (s : State) : Result :=
  scalarOp gd d (s.rg a * (s.srcB b)) 3 s

/-- MUL, wide form (R122). -/
def execMulWide (gd : Guard) (d a : BitVec 5) (imm : Wide) (s : State) : Result :=
  scalarOp gd d (s.rg a * (wideVal imm)) 3 s

/-- MULH (R145). -/
def execMulh (gd : Guard) (d a : BitVec 5) (b : SrcB) (s : State) : Result :=
  scalarOp gd d (mulHighS (s.rg a) (s.srcB b)) 3 s

/-- MULH.n (R145). -/
def execMulhN (gd : Guard) (d a : BitVec 5) (b : SrcB) (s : State) : Result :=
  scalarOp gd d (mulHighU (s.rg a) (s.srcB b)) 3 s

/-- AND (R145). -/
def execAnd (gd : Guard) (d a : BitVec 5) (b : SrcB) (s : State) : Result :=
  scalarOp gd d (s.rg a &&& (s.srcB b)) 1 s

/-- AND, wide form (R122). -/
def execAndWide (gd : Guard) (d a : BitVec 5) (imm : Wide) (s : State) : Result :=
  scalarOp gd d (s.rg a &&& (wideVal imm)) 1 s

/-- ANDN (R145). -/
def execAndn (gd : Guard) (d a : BitVec 5) (b : SrcB) (s : State) : Result :=
  scalarOp gd d (s.rg a &&& ~~~(s.srcB b)) 1 s

/-- ANDN, wide form (R122). -/
def execAndnWide (gd : Guard) (d a : BitVec 5) (imm : Wide) (s : State) : Result :=
  scalarOp gd d (s.rg a &&& ~~~(wideVal imm)) 1 s

/-- OR (R145). -/
def execOr (gd : Guard) (d a : BitVec 5) (b : SrcB) (s : State) : Result :=
  scalarOp gd d (s.rg a ||| (s.srcB b)) 1 s

/-- OR, wide form (R122). -/
def execOrWide (gd : Guard) (d a : BitVec 5) (imm : Wide) (s : State) : Result :=
  scalarOp gd d (s.rg a ||| (wideVal imm)) 1 s

/-- XOR (R145). -/
def execXor (gd : Guard) (d a : BitVec 5) (b : SrcB) (s : State) : Result :=
  scalarOp gd d (s.rg a ^^^ (s.srcB b)) 1 s

/-- XOR, wide form (R122). -/
def execXorWide (gd : Guard) (d a : BitVec 5) (imm : Wide) (s : State) : Result :=
  scalarOp gd d (s.rg a ^^^ (wideVal imm)) 1 s

/-- SHL (R145). -/
def execShl (gd : Guard) (d a : BitVec 5) (b : SrcB) (s : State) : Result :=
  scalarOp gd d (s.rg a <<< (shiftAmount (s.srcB b))) 1 s

/-- SHR (R145). -/
def execShr (gd : Guard) (d a : BitVec 5) (b : SrcB) (s : State) : Result :=
  scalarOp gd d (s.rg a >>> (shiftAmount (s.srcB b))) 1 s

/-- SAR (R145). -/
def execSar (gd : Guard) (d a : BitVec 5) (b : SrcB) (s : State) : Result :=
  scalarOp gd d ((s.rg a).sshiftRight (shiftAmount (s.srcB b))) 1 s

/-- ROT (R145). -/
def execRot (gd : Guard) (d a : BitVec 5) (b : SrcB) (s : State) : Result :=
  scalarOp gd d ((s.rg a).rotateLeft (shiftAmount (s.srcB b))) 1 s

/-- MIN (R145). -/
def execMin (gd : Guard) (d a : BitVec 5) (b : SrcB) (s : State) : Result :=
  scalarOp gd d (minS (s.rg a) (s.srcB b)) 1 s

/-- MIN, wide form (R122). -/
def execMinWide (gd : Guard) (d a : BitVec 5) (imm : Wide) (s : State) : Result :=
  scalarOp gd d (minS (s.rg a) (wideVal imm)) 1 s

/-- MIN.n (R145). -/
def execMinN (gd : Guard) (d a : BitVec 5) (b : SrcB) (s : State) : Result :=
  scalarOp gd d (minU (s.rg a) (s.srcB b)) 1 s

/-- MIN.n, wide form (R122). -/
def execMinNWide (gd : Guard) (d a : BitVec 5) (imm : Wide) (s : State) : Result :=
  scalarOp gd d (minU (s.rg a) (wideVal imm)) 1 s

/-- MAX (R145). -/
def execMax (gd : Guard) (d a : BitVec 5) (b : SrcB) (s : State) : Result :=
  scalarOp gd d (maxS (s.rg a) (s.srcB b)) 1 s

/-- MAX, wide form (R122). -/
def execMaxWide (gd : Guard) (d a : BitVec 5) (imm : Wide) (s : State) : Result :=
  scalarOp gd d (maxS (s.rg a) (wideVal imm)) 1 s

/-- MAX.n (R145). -/
def execMaxN (gd : Guard) (d a : BitVec 5) (b : SrcB) (s : State) : Result :=
  scalarOp gd d (maxU (s.rg a) (s.srcB b)) 1 s

/-- MAX.n, wide form (R122). -/
def execMaxNWide (gd : Guard) (d a : BitVec 5) (imm : Wide) (s : State) : Result :=
  scalarOp gd d (maxU (s.rg a) (wideVal imm)) 1 s

/-- The stages p8 to p(7 + NS) that an active pipelined level holds (R184). -/
def Ctx.stagePred (x : Ctx) (p : BitVec 4) : Bool := x.le.ns != 0 && 8 ≤ p.toNat && p.toNat ≤ 7 + x.le.ns.toNat

/-- A write of a predicate by CMP: 0x05 where it is a stage predicate of an active pipelined level of the C stream
(R146, R184). -/
def cmpWrite (gd : Guard) (pd : BitVec 4) (v : Bool) (s : State) : Result :=
  guarded gd s fun s => if s.stream = .c ∧ s.me.stagePred pd then s.trapNow 0x05 else s.wp pd v

/-- CMP.cc (R146). -/
def execCmp (gd : Guard) (pd : BitVec 4) (cc : Cond) (a : BitVec 5) (b : SrcC) (s : State) : Result :=
  cmpWrite gd pd (condHolds cc (s.rg a) (s.srcC b)) s

/-- CMP.cc, wide form (R122). -/
def execCmpWide (gd : Guard) (pd : BitVec 4) (cc : Cond) (a : BitVec 5) (imm : Wide) (s : State) : Result :=
  cmpWrite gd pd (condHolds cc (s.rg a) (wideVal imm)) s

end Sys2Proof.Machine
end

