-- ==== Sys2Proof/Machine/Control.lean ====
section
/-! DEFINITION. Control flow of the three streams: transfers, loops with rotation and stage predicates, TRAP, FIN,
headers with their dependences and switch points, and the retirement of sections (R112 to R115, R123, R147 to R152,
R182 to R187, R425 to R427). -/

namespace Sys2Proof.Machine

/-! ## Cuts (R38) -/

/-- The stream stands at a cut if a pre-emption request is pending: a pre-emption point of R38. -/
def Ctx.atCut (x : Ctx) (st : StreamId) : Ctx :=
  if x.preempt then
    match st with
    | .l => { x with lcut := true }
    | .c => { x with ccut := true }
    | .s => { x with scut := true }
  else x

/-- Whether a stream has reached its cut. -/
def Ctx.cutAt (x : Ctx) : StreamId → Bool
  | .l => x.lcut
  | .c => x.ccut
  | .s => x.scut

/-! ## Loops (R151, R183) -/

/-- What Pass(w) leaves: the levels, the next word's index, VIEW_V, and whether an iteration boundary was passed. -/
structure Passed where
  loops : List LoopLevel
  next : Nat
  view : W64
  boundary : Bool
deriving DecidableEq, Repr

/-- VIEW_V after an iteration boundary of a level (R183). -/
def LoopLevel.view (t : LoopLevel) (v : W64) : W64 := if t.rot then rotate v else v

/-- Pass(w) over levels that count (R151): innermost first; each boundary of a rotating level rotates (R183).
Log 18, DEDUCED. -/
def passLevels (w : Nat) : List LoopLevel → W64 → Bool → Passed
  | [], v, b => { loops := [], next := w + 1, view := v, boundary := b }
  | t :: rest, v, b =>
    if w = t.last then
      if 1 < t.left then
        { loops := { t with left := t.left - 1 } :: rest, next := t.first, view := t.view v, boundary := true }
      else passLevels w rest (t.view v) true
    else { loops := t :: rest, next := w + 1, view := v, boundary := b }

/-- p8 to p(7 + ns) moved up by one stage, with a new p8 (R183). -/
def shiftStages (ns : Nat) (p : Vector Bool 16) (first : Bool) : Vector Bool 16 :=
  Vector.ofFn fun i =>
    if i.val = 8 then first
    else if 9 ≤ i.val ∧ i.val ≤ 7 + ns then p.toList.getD (i.val - 1) false
    else p[i]

/-- p8 true and p9 to p(7 + ns) false, as a pipelined level starts (R183). -/
def startStages (ns : Nat) (p : Vector Bool 16) : Vector Bool 16 :=
  Vector.ofFn fun i => if i.val = 8 then true else if 9 ≤ i.val ∧ i.val ≤ 7 + ns then false else p[i]

/-- Whether p8 to p(7 + ns) are all false. -/
def stagesOff (ns : Nat) (p : Vector Bool 16) : Bool := (List.range ns).all fun i => !(p.toList.getD (8 + i) false)

/-- The update a drain withheld: DRN := 0, p8 := true, K := K + 1 (R187). Log 62, DEDUCED. -/
def Ctx.refill (x : Ctx) : Ctx :=
  { x with le := { x.le with drn := false, k := x.le.k + 1 },
           c := { x.c with p := startStages 1 x.c.p } }

/-- Leaves Pass's outcome in a stream: levels, next item, VIEW_V, and the cut of an iteration boundary (R38). -/
def Ctx.settle (x : Ctx) (st : StreamId) (r : Passed) : Ctx :=
  let x := x.updStream st fun y => { y with loops := r.loops, pc := y.secStart + 3 * r.next }
  let x := if st = .c then { x with viewV := r.view } else x
  if r.boundary then x.atCut st else x

/-- The iteration boundary of the pipelined level `t` at word `w` (R183, R186): its own end is no pre-emption point, a
boundary of an enclosing level that counts is. Log 62, DEDUCED. -/
def Ctx.pipeBoundary (x : Ctx) (w : Nat) (t : LoopLevel) (rest : List LoopLevel) : Ctx :=
  let ns := x.le.ns.toNat
  let view := t.view x.viewV
  let startDrain := x.preempt && !x.le.drn && decide (x.le.k < x.le.n)
  let le := if startDrain then { x.le with drn := true, rbd := BitVec.ofNat 5 (fld view 19 5) } else x.le
  let more := !le.drn && decide (le.k < le.n)
  let p := shiftStages ns x.c.p more
  let le := if more then { le with k := le.k + 1 } else le
  let x := { x with viewV := view, le := le, c := { x.c with p := p } }
  let stay : Passed := { loops := t :: rest, next := t.first, view := view, boundary := false }
  if stagesOff ns p then
    if le.drn then
      let back := withRB view le.rbd.toNat
      let x := x.settle .c { stay with view := back }
      if x.preempt then x.atCut .c else x.refill
    else
      { x with le := { le with ns := 0 } }.settle .c (passLevels w rest view false)
  else x.settle .c stay

/-- Pass(w): after word `w` of the section has issued without transferring control (R151, R183). Log 18, DEDUCED. -/
def Ctx.pass (x : Ctx) (st : StreamId) (w : Nat) : Ctx :=
  let y := x.stream st
  match y.loops with
  | t :: rest =>
    if st = .c ∧ x.le.ns ≠ 0 ∧ w = t.last then x.pipeBoundary w t rest
    else x.settle st (passLevels w (t :: rest) x.viewV false)
  | [] => x.settle st (passLevels w [] x.viewV false)

/-- The stream at work passes over word `w` and has its next item. -/
def State.passOver (s : State) (w : Nat) : State :=
  { s.updMe fun x => x.pass s.stream w with verdict := .moved }

/-- Leaves a stream in no loop; a pipelined level of the C stream becomes inactive (R152, R184), and a drain of it
ends. Log 72, DESIGN CHOICE. -/
def Ctx.dropLoops (x : Ctx) (st : StreamId) : Ctx :=
  let x := x.updStream st fun y => { y with loops := [] }
  if st = .c then { x with le := { x.le with ns := 0, drn := false } } else x

/-! ## Sections (R113, R114) -/

/-- The issue stamp after the word at work: C-stream slots for C, issued words for L and S. -/
def Ctx.stamp (x : Ctx) : StreamId → Nat
  | .c => x.slot
  | _ => x.tk

/-- The stream leaves its section, which retires later (R114). -/
def StreamState.leaveSection (y : StreamState) (stamp : Nat) : StreamState :=
  if y.inSection then { y with inSection := false, left := y.left ++ [stamp] } else y

/-- The stream transfers to the header at syllable offset `t`: it has left its section (R114). Beside a FIN of the same word
it issues nothing further (R147). -/
def State.toHeader (s : State) (t : Nat) : State :=
  let stamp := s.me.stamp s.stream + 1
  { s.updStream fun y =>
      { y.leaveSection stamp with pc := t, phase := if y.phase = .done then .done else .header } with verdict := .moved }

/-- The two other streams, in the order L, C, S (R113). -/
def othersOf : StreamId → StreamId × StreamId
  | .l => (.c, .s)
  | .c => (.l, .s)
  | .s => (.l, .c)

/-- Whether a dependence of a header holds: mode, value, k, and the sections the other stream has retired (R114). -/
def depHolds (paced : Bool) (n : BitVec 16) (k : W32) (retired : Nat) : Bool :=
  if paced then decide ((k.toNat : Int) + n.toInt ≤ 0) || decide ((k.toNat : Int) + n.toInt ≤ (retired : Int))
  else decide (n.toNat ≤ retired)

/-- Whether both dependences of the section that a stream has entered hold (R114). -/
def Ctx.depsHold (x : Ctx) (st : StreamId) (h : Header) : Bool :=
  let k := (x.stream st).sect
  depHolds h.ma h.na k (x.stream (othersOf st).1).retired && depHolds h.mb h.nb k (x.stream (othersOf st).2).retired

/-- Enters the section of a header at the stream's pc: the counter advances except into the entry section (R114).
Log 25, DEDUCED. -/
def StreamState.enterSection (y : StreamState) (h : Header) : StreamState :=
  { y with
    sect := if y.fresh then y.sect else y.sect + 1
    fresh := false
    secStart := y.pc + 2
    secLen := h.len.toNat
    pc := y.pc + 2
    phase := .body
    inSection := true
    dep := some h
    loops := []
    hold := none
    noSwitch := false }

/-! ## Switch points (R426, R427) -/

/-- Reads consecutive 64-byte lines through the layout cache. -/
def State.layoutLines (s : State) (c : Nat) : Nat → Nat → Except Cause (List LayoutLine)
  | _, 0 => .ok []
  | a, n + 1 =>
    match s.layoutRead c a with
    | .error e => .error e
    | .ok l =>
      match s.layoutLines c (a + 64) n with
      | .error e => .error e
      | .ok r => .ok (l :: r)

/-- Keeps consecutive lines in the layout cache. -/
def State.keepLines (s : State) (c : Nat) : Nat → List LayoutLine → State
  | _, [] => s
  | a, l :: t => State.keepLines (s.layoutKeep c a l) c (a + 64) t

/-- The offset in a record for a stream and a level: bytes 12v + 4 × stream (R426). -/
def variantOffset (r : List Byte) (st : StreamId) (v : Nat) : Nat := leNat ((r.drop (12 * v + 4 * streamIx st)).take 4)

/-- Whether a syllable offset is the first syllable of a header with SP = 1 within the stream's image. -/
def State.switchHeader (s : State) (c : Nat) (st : StreamId) (o : Nat) : Bool :=
  decide (o < (s.flock ((s.ctx c).flock.getD 0)).imgLen st) &&
    match s.fetchSyl c st o with
    | .ok x => x / 2 ^ 29 % 8 == 7
    | .error _ => false

/-- Whether the home of a header within the image refuses its read with retry-after: it is to be read again. -/
def State.headerLater (s : State) (c : Nat) (st : StreamId) (o : Nat) : Bool :=
  decide (o < (s.flock ((s.ctx c).flock.getD 0)).imgLen st) &&
    match s.fetchSyl c st o with
    | .ok _ => false
    | .error e => e.1 == retryCode

/-- The target offsets of a record, each with its stream (R426). -/
def recordTargets (r : List Byte) : List (StreamId × Nat) :=
  (List.range 8).flatMap fun v => [(.l, variantOffset r .l v), (.c, variantOffset r .c v), (.s, variantOffset r .s v)]

/-- Whether every field of a record is valid: its targets, and its reserved bytes 96 to 127. -/
def State.recordOk (s : State) (c : Nat) (r : List Byte) : Bool :=
  ((r.drop 96).all fun b => b == 0) &&
    (recordTargets r).all fun t => s.switchHeader c t.1 t.2

/-- Whether the head of a variant table is well formed (R426). -/
def variantHeadOk (h : List W64) : Bool :=
  let w := h.getD 0 0
  fld w 48 16 == 0x5641 && fld w 9 39 == 0 && 1 ≤ fld w 0 9 && fld w 0 9 ≤ 256 && (h.drop 1).all fun x => x == 0

/-- The variant table of a core as it reads now: its records, and the state with the lines kept. Otherwise it is invalid, or
a home has answered retry-after, and the table is to be read again (R426, R367). -/
def State.variantTable (s : State) (c : Nat) : Except Cause (List (List Byte) × State) :=
  let a := (s.ctx c).vartab.toNat
  match s.layoutRead c a with
  | .error e => .error e
  | .ok h =>
    if !variantHeadOk h.ws then .error 0x26
    else
      let n := fld (h.ws.getD 0 0) 0 9
      match s.layoutLines c (a + 64) (2 * n) with
      | .error e => .error e
      | .ok ls =>
        let bytes := wordsLE (ls.flatMap (·.ws))
        let recs := (List.range n).map fun r => (bytes.drop (128 * r)).take 128
        if recs.any fun r => (recordTargets r).any fun t => s.headerLater c t.1 t.2 then .error retryCode
        else if recs.all (s.recordOk c) then .ok (recs, s.keepLines c a (h :: ls)) else .error 0x26

/-- The power level that PWRLVL reads on a core: its layer's granted level (R139, R424). -/
def State.powerLevel (s : State) (c : Nat) : Nat :=
  (((s.tile (c / 64)).layers.toList.getD (c / 16 % 4) {}).level).toNat

/-- The first record in which a stream's column holds `o` (R427). -/
def findRecord (st : StreamId) (o : Nat) (recs : List (List Byte)) : Option Nat :=
  (List.range recs.length).find? fun r => (List.range 8).any fun v => variantOffset (recs.getD r []) st v == o

/-- What a stream finds at a header with SP = 1 (R427). -/
inductive SwitchLook where
  /-- It enters the section as usual. -/
  | enter
  /-- It holds at this record. -/
  | hold (r : Nat)
  /-- The table could not be read yet. -/
  | later
deriving DecidableEq, Repr

/-- What a stream finds at a header with SP = 1 (R427). -/
def State.switchLook (s : State) (o : Nat) : SwitchLook × State :=
  let c := s.core
  let x := s.me
  if x.vartab = 0 ∨ x.varErr then (.enter, s)
  else
    match s.variantTable c with
    | .error e => if e = retryCode then (.later, s) else (.enter, s.updMe fun x => { x with varErr := true })
    | .ok (recs, s') =>
      match findRecord s.stream o recs with
      | none => (.enter, s')
      | some r =>
        if variantOffset (recs.getD r []) s.stream (s.powerLevel c) = o then (.enter, s') else (.hold r, s')

/-! ## The meanings -/

/-- NOP fills a slot or a word (R147). -/
def execNop (s : State) : Result := .next s

/-- The target of a taken branch: performed inside the innermost active body, to the word after it (its loop is
popped, and a drain of it ends), or with no loop active; 0x03 outside the section, 0x05 out of the body (R123, R152,
R184). Log 72, DESIGN CHOICE. -/
def State.branch (s : State) (off : BitVec 17) : State :=
  let y := s.me.stream s.stream
  let t : Int := (s.rd.ix : Int) + off.toInt
  if t < 0 ∨ (y.secLen : Int) ≤ t then s.trapNow 0x03
  else
    let w := t.toNat
    let go := fun (s : State) =>
      { s.updStream fun y => { y with pc := y.secStart + 3 * w } with verdict := .moved }
    match y.loops with
    | [] => go s
    | l :: rest =>
      if l.first ≤ w ∧ w ≤ l.last then go s
      else if w = l.last + 1 then
        go (s.updMe fun x =>
          let x := if s.stream = .c ∧ x.le.ns ≠ 0 then { x with le := { x.le with ns := 0, drn := false } } else x
          x.updStream s.stream fun y => { y with loops := rest })
      else s.trapNow 0x05

/-- BR with Q = 0 (R149). -/
def execBr (gd : Guard) (off : BitVec 17) (s : State) : Result := guarded gd s fun s => s.branch off

/-- BR with Q = 1: pops the head of bq, waiting while it is empty, and branches where the entry is 1 (R149); a bq of
declared depth 0 raises 0x01 (R19). -/
def execBrBq (off : BitVec 17) (s : State) : Result :=
  if s.me.bq.depth = 0 then .next (s.trapNow 0x01)
  else .next (match s.me.readable s.me.bq with
    | none => s.waitNow .queueEmpty
    | some e =>
      let s := s.updMe fun x => { x with bq := x.bq.popHead }
      if e.data.headD 0 = 1 then s.branch off else s)

/-- Whether a 64-bit offset is the first syllable of a header within the image of the stream at work (R123). A
syllable that cannot be fetched is left to the fetch of the header itself. -/
def State.headerAt (s : State) (t : Int) : Bool :=
  decide (0 ≤ t) && decide (t < (s.myFlock.imgLen s.stream : Int)) &&
    match s.fetchSyl s.core s.stream t.toNat with
    | .ok x => x / 2 ^ 30 % 4 == 3
    | .error _ => true

/-- A transfer to a header: 0x03 for a target that is none, 0x05 while a loop is active (R123, R152). -/
def State.transfer (s : State) (t : Int) : State :=
  if !s.headerAt t then s.trapNow 0x03
  else if (s.me.stream s.stream).loops ≠ [] then s.trapNow 0x05
  else s.toHeader t.toNat

/-- JMP to an offset in syllables from its own word (R123, R150). -/
def execJmp (gd : Guard) (off : BitVec 17) (s : State) : Result :=
  guarded gd s fun s => s.transfer ((s.rd.pc : Int) + off.toInt)

/-- JMP to the offset in g[A] (R150). -/
def execJmpReg (gd : Guard) (a : BitVec 5) (s : State) : Result :=
  guarded gd s fun s => s.transfer ((s.rg a).toNat : Int)

/-- CALL's transfer: control goes, and g31 takes the offset of the item after the word; a CALL that raises a cause
writes nothing (R123, R150). -/
def State.callTo (s : State) (t : Int) : State :=
  let u := s.transfer t
  if u.verdict = .moved then u.wg 31 (BitVec.ofNat 64 (s.rd.pc + 3)) else u

/-- CALL to an offset (R150). -/
def execCall (gd : Guard) (off : BitVec 17) (s : State) : Result :=
  guarded gd s fun s => s.callTo ((s.rd.pc : Int) + off.toInt)

/-- CALL to the offset in g[A] (R150). -/
def execCallReg (gd : Guard) (a : BitVec 5) (s : State) : Result :=
  guarded gd s fun s => s.callTo ((s.rg a).toNat : Int)

/-- RET to the offset in g31 (R150). -/
def execRet (gd : Guard) (s : State) : Result := guarded gd s fun s => s.transfer ((s.rg 31).toNat : Int)

/-- The C stream's LOOP takes the pending configuration and clears it, whatever its guard (R182). -/
def State.takePending (s : State) : State :=
  if s.stream = .c then s.updMe fun x => { x with le := { x.le with pns := 0, prt := false } } else s

/-- Pushes a level and starts its body (R151, R183). -/
def Ctx.pushLoop (x : Ctx) (st : StreamId) (ix body : Nat) (n : W64) (ns : BitVec 4) (rot : Bool) : Ctx :=
  let lvl : LoopLevel := { first := ix + 1, last := ix + body, left := if ns = 0 then n.toNat else 0, rot := rot }
  let x := x.updStream st fun y => { y with loops := lvl :: y.loops, pc := y.secStart + 3 * (ix + 1) }
  if ns = 0 then x
  else
    { x with
      le := { x.le with ns := ns, n := BitVec.ofNat 32 n.toNat, k := 1, drn := false }
      c := { x.c with p := startStages ns.toNat x.c.p } }

/-- LOOP (R151, R182 to R184). -/
def execLoop (gd : Guard) (a : BitVec 5) (body : BitVec 13) (s : State) : Result :=
  .next (
    let y := s.me.stream s.stream
    let c := s.stream = .c
    let ns := if c then s.me.le.pns else 0
    let rot := c && s.me.le.prt
    let s := s.takePending
    if !guardOk gd s then s
    else
      let n := s.rg a
      let last := s.rd.ix + body.toNat
      if body = 0 ∨ y.secLen ≤ last then s.trapNow 0x03
      else if 2 ^ 32 ≤ n.toNat ∨ y.loops.length = 4 then s.trapNow 0x05
      else if (y.loops.head?.map fun l => decide (l.last < last)) = some true then s.trapNow 0x05
      else if c ∧ s.me.le.ns ≠ 0 then s.trapNow 0x05
      else if n = 0 then s.passOver last
      else { s.updMe fun x => x.pushLoop s.stream s.rd.ix body.toNat n ns rot with verdict := .moved })

/-- TRAP: cause 0x14 with CODE; the stream's next item is the word after it (R147). Log 57, DEDUCED. -/
def execTrap (gd : Guard) (code : BitVec 8) (s : State) : Result :=
  guarded gd s fun s => { (s.trapWith 0x14 code 0).updMe fun x => x.pass s.stream s.rd.ix with
    verdict := .traps 0x14 code 0 }

/-- FIN: the stream issues no further word; its loops and the pending configuration are discarded (R147, R152,
R182). -/
def execFin (gd : Guard) (s : State) : Result :=
  guarded gd s fun s =>
    let stamp := s.me.stamp s.stream + 1
    let s := s.takePending
    { s.updMe fun x => (x.dropLoops s.stream).updStream s.stream fun y =>
        { y.leaveSection stamp with phase := .done } with verdict := .moved }

/-- Enters the section of the header at the stream's pc (R114). -/
def State.enter (s : State) (h : Header) : State :=
  { s.updStream fun y => y.enterSection h with verdict := .moved }

/-- The stream at work reaches a header: it leaves its section; at a pre-emption point a pending request takes
effect; at a switch point it may hold; else it enters the section (R113, R114, R38, R427). -/
def execSectionHeader (h : Header) (s : State) : Result :=
  .next (
    let s := s.updMe fun x => x.updStream s.stream fun y => y.leaveSection (x.stamp s.stream)
    let y := s.me.stream s.stream
    if h.pp ∧ s.me.preempt then (s.updMe fun x => x.atCut s.stream).waitNow .cut
    else if h.sp ∧ !y.noSwitch then
      match s.switchLook y.pc with
      | (.enter, s) => s.enter h
      | (.later, s) => s.waitNow .access
      | (.hold r, s) =>
        (s.updMe fun x =>
          let first := x.l.hold.isNone && x.c.hold.isNone && x.s.hold.isNone
          { x.updStream s.stream fun y => { y with hold := some r } with
            holdSince := if first then s.now else x.holdSince, heldAt := s.now }).waitNow .hold
    else s.enter h)

/-- Whether everything of the oldest section that a stream has left is done: its C-stream results have landed
(R114), and no operation of its access queue is outstanding: such a one could still fault, and then the section's later
words have not issued (R133, R155, R210). Log 63, DEDUCED. -/
def Ctx.sectionDone (x : Ctx) (st : StreamId) (stamp : Nat) : Bool :=
  match st with
  | .l => !x.laccess.any fun a => a.tk < stamp
  | .s => !x.saccess.any fun a => a.tk < stamp
  | .c => !x.landings.any fun l => l.slot < stamp

/-- A section retires (R114). -/
def execSectionRetire (c : Nat) (st : StreamId) (s : State) : Result :=
  .next (
    let y := (s.ctx c).stream st
    match y.left with
    | [] => s
    | stamp :: rest =>
      if (s.ctx c).sectionDone st stamp then
        s.onCore c fun x => x.updStream st fun y => { y with retired := y.retired + 1, left := rest }
      else s)

end Sys2Proof.Machine
end

