-- ==== Sys2Proof/Machine/SysRegs.lean ====
section
/-! DEFINITION. The system registers that RDSR and WRSR reach, and VIEW, ROTB and LOOPST, which write the view and
loop-engine registers (R128, R129, R139, R140, R182, R189, R205, R206, R237, R239 to R241, R296, R305, R425, R430). -/

namespace Sys2Proof.Machine

/-- A 64-bit word from fields: position and value. -/
def fieldWord (fs : List (Nat × Nat)) : W64 := BitVec.ofNat 64 (fs.foldl (fun n f => n + f.2 * 2 ^ f.1) 0)

/-- A bit as a number. -/
def b2n (b : Bool) : Nat := if b then 1 else 0

/-- Whether RDSR of a number is assigned in a stream (R139, R140). -/
def sysReadable (st : StreamId) (n : Nat) : Bool :=
  match n with
  | 0x00 | 0x01 | 0x02 | 0x03 | 0x08 | 0x09 | 0x0A | 0x0B | 0x0C | 0x0D | 0x10 | 0x11 | 0x74 => true
  | 0x30 | 0x31 | 0x32 => st = .s
  | n => st = .c && (n == 0x20 || n == 0x21 || n == 0x40 || (0x48 ≤ n && n ≤ 0x57) || n == 0x60 || n == 0x61 ||
      (0x64 ≤ n && n ≤ 0x67) || (0x70 ≤ n && n ≤ 0x73) || n == 0x78)

/-- Whether WRSR of a number is assigned in a stream (R139, R140, R239, R425). -/
def sysWritable (st : StreamId) (n : Nat) : Bool :=
  (st = .s && n == 0x0B) ||
    (st = .c && (n == 0x20 || n == 0x21 || n == 0x40 || (0x48 ≤ n && n ≤ 0x57) || (0x70 ≤ n && n ≤ 0x73)))

/-- LE_CTL (R189). -/
def Ctx.leCtl (x : Ctx) : W64 :=
  let lv := x.c.loops.reverse
  let rtl := (List.range 4).foldl (fun n k => n + b2n ((lv[k]?.map (·.rot)).getD false) * 2 ^ k) 0
  fieldWord [(24, x.le.rbd.toNat), (20, x.le.pns.toNat), (19, b2n x.le.prt), (12, x.le.ns.toNat), (11, b2n x.le.drn),
    (4, rtl), (0, lv.length)]

/-- LE_LVLk (R189); a level that is not active reads as 0. Log 84, DESIGN CHOICE. -/
def Ctx.leLvl (x : Ctx) (k : Nat) : W64 :=
  match x.c.loops.reverse[k]? with
  | some l => fieldWord [(32, l.left), (16, l.first), (0, l.last)]
  | none => 0

/-- MXSTAT (R296). -/
def Matrix.stat (m : Matrix) : W64 :=
  fieldWord [(48, m.grants), (42, b2n m.held.isSome), (41, b2n m.pending.isSome), (40, b2n m.running.isSome),
    (32, m.outst), (0, m.ngo.toNat)]

/-- The content of a system register as the stream at work reads it: as the word found it at issue (R120).
Log 9, DESIGN CHOICE. -/
def State.sysRead (s : State) (n : Nat) : W64 :=
  let x := s.rd.old
  let y := x.stream s.stream
  match n with
  | 0x00 => x.logical.zeroExtend 64
  | 0x01 => BitVec.ofNat 64 x.member
  | 0x02 => BitVec.ofNat 64 s.myFlock.members.length
  | 0x03 =>
    let p := s.part s.myFlock.part
    fieldWord [(3, p.h - 1), (0, p.w - 1)]
  | 0x08 => BitVec.ofNat 64 x.cycles
  | 0x09 => BitVec.ofNat 64 (s.myFlock.tick.getD 0)
  | 0x0A => BitVec.ofNat 64 (s.powerLevel s.core)
  | 0x0B => x.vartab
  | 0x0C => fieldWord [(48, x.varSwitches), (32, x.varMiss), (16, x.varRec.toNat), (8, x.varLvl.toNat), (0, b2n x.varErr)]
  | 0x0D => BitVec.ofNat 64 (mget 0 s.replays s.core)
  | 0x10 => y.sect.zeroExtend 64
  | 0x11 => y.seq.zeroExtend 64
  | 0x20 => x.srstate.zeroExtend 64
  | 0x21 => x.lostcnt.zeroExtend 64
  | 0x30 => fieldWord [(8, x.awpBar.toNat), (0, b2n x.awp)]
  | 0x31 => x.monmiss.zeroExtend 64
  | 0x32 => fieldWord [(56, x.fcause.toNat), (32, x.nfail), (0, x.clost)]
  | 0x40 => x.viewV
  | 0x60 => x.leCtl
  | 0x61 => fieldWord [(32, x.le.n.toNat), (0, x.le.k.toNat)]
  | 0x74 => BitVec.ofNat 64 (fld (s.myFlock.word 19) 0 56)
  | 0x78 => x.mx.stat
  | n =>
    if 0x48 ≤ n ∧ n ≤ 0x4F then x.viewT.toList.getD (n - 0x48) 0
    else if 0x50 ≤ n ∧ n ≤ 0x57 then x.viewA.toList.getD (n - 0x50) 0
    else if 0x64 ≤ n ∧ n ≤ 0x67 then x.leLvl (n - 0x64)
    else if 0x70 ≤ n ∧ n ≤ 0x73 then x.qcfg.toList.getD (n - 0x70) 0
    else 0

/-- CYCLES has gone on since it was last read, by a free amount. Log 9, DESIGN CHOICE. -/
def State.countCycles (s : State) : State :=
  let n := s.me.cycles + Config.anyNat (s.freeIx 8)
  { s.updMe fun x => { x with cycles := n } with rd := { s.rd with old := { s.rd.old with cycles := n } } }

/-- RDSR (R139, R147). CYCLES has gone on by an amount the manual does not fix (log 9).
Log 9, DESIGN CHOICE; log 17, DEDUCED. -/
def execRdsr (gd : Guard) (d : BitVec 5) (srn : BitVec 13) (s : State) : Result :=
  if !sysReadable s.stream srn.toNat then .next (s.trapNow 0x01)
  else guarded gd s fun s =>
    let s := if srn = 0x08 then s.countCycles else s
    s.wgB d (s.sysRead srn.toNat) 2

/-! ## Views (R128, R129) -/

/-- Whether a value is valid for VIEW_V, in a flock with `units` 256-byte units of operand file (R129). -/
def viewVOk (units : Nat) (v : W64) : Bool :=
  fld v 24 40 == 0 && fld v 11 5 == 0 && fld v 16 3 ≤ 5 &&
    (if rotCount v = 0 then fld v 19 5 == 0 else fld v 19 5 < rotCount v) && fld v 0 11 + 32 ≤ units

/-- Whether a value is valid for a t or a view (R128, R129). -/
def viewOk (units : Nat) (v : W64) : Bool :=
  fld v 28 36 == 0 && fld v 11 5 == 0 && fld v 16 12 ≤ 2048 && fld v 0 11 + fld v 16 12 ≤ units

/-- The 256-byte units of operand file that the flock at work declared. -/
def State.units (s : State) : Nat := s.myFlock.ofb / 256

/-- Writes VIEW_V, or raises 0x04 (R129). -/
def State.writeViewV (s : State) (v : W64) : State :=
  if viewVOk s.units v then s.updMe fun x => { x with viewV := v } else s.trapNow 0x04

/-- Writes VIEW_Tn, or raises 0x04. -/
def State.writeViewT (s : State) (n : Fin 8) (v : W64) : State :=
  if viewOk s.units v then s.updMe fun x => { x with viewT := x.viewT.set n v } else s.trapNow 0x04

/-- Writes VIEW_An, or raises 0x04. -/
def State.writeViewA (s : State) (n : Fin 8) (v : W64) : State :=
  if viewOk s.units v then s.updMe fun x => { x with viewA := x.viewA.set n v } else s.trapNow 0x04

/-- Whether a value may be written to a QCFG register (R240). -/
def qcfgOk (v : W64) : Bool :=
  fld v 40 24 == 0 && fld v 21 11 == 0 && fld v 13 3 == 0 && fld v 6 2 == 0 && fld v 2 1 == 0 &&
    fld v 16 5 < 0x1E && fld v 8 5 < 0x1E && fld v 3 3 < 5

/-- The generator state that a write of `x` leaves: never 0 (R96). -/
def srOf (x : W32) : W32 := if x = 0 then 1 else x

/-- WRSR to an assigned register (R140). -/
def State.sysWrite (s : State) (n : Nat) (v : W64) : State :=
  match n with
  | 0x0B => if fld v 56 8 = 0 ∧ v.toNat % 64 = 0 then s.updMe fun x => { x.note (.vartab x.vartab x.varErr) with vartab := v, varErr := false }
    else s.trapNow 0x01
  | 0x20 => if fld v 32 32 = 0 then s.updMe fun x => { x with srstate := srOf (v.truncate 32) } else s.trapNow 0x01
  | 0x21 => if fld v 32 32 = 0 then s.updMe fun x => { x with lostcnt := v.truncate 32 } else s.trapNow 0x01
  | 0x40 => s.writeViewV v
  | n =>
    if n < 0x50 then s.writeViewT (Fin.ofNat 8 (n - 0x48)) v
    else if n < 0x58 then s.writeViewA (Fin.ofNat 8 (n - 0x50)) v
    else if qcfgOk v then s.updMe fun x => { x with qcfg := x.qcfg.set (Fin.ofNat 4 (n - 0x70)) v }
    else s.trapNow 0x01

/-- WRSR (R140, R147). Log 17, DEDUCED. -/
def execWrsr (gd : Guard) (a : BitVec 5) (srn : BitVec 13) (s : State) : Result :=
  if !sysWritable s.stream srn.toNat then .next (s.trapNow 0x01)
  else guarded gd s fun s => s.sysWrite srn.toNat (s.rg a)

/-- A word with a field replaced. -/
def putField (v : W64) (lo len x : Nat) : W64 :=
  BitVec.ofNat 64 (v.toNat % 2 ^ lo + x % 2 ^ len * 2 ^ lo + v.toNat / 2 ^ (lo + len) * 2 ^ (lo + len))

/-- The new value of a view register that VIEW writes (R205). -/
def viewEdit (v : W64) (w : BitVec 2) (imm : BitVec 11) : W64 :=
  match w.toNat with
  | 0 => putField v 0 11 imm.toNat
  | 1 => putField v 16 12 imm.toNat
  | 2 => putField (putField v 16 3 imm.toNat) 19 5 0
  | _ => putField v 19 5 imm.toNat

/-- VIEW (R205). -/
def execView (gd : Guard) (k : BitVec 2) (n : BitVec 3) (w : BitVec 2) (imm : BitVec 11) (s : State) : Result :=
  guarded gd s fun s =>
    match k.toNat with
    | 0 => s.writeViewV (viewEdit s.me.viewV w imm)
    | 1 => s.writeViewT n.toFin (viewEdit (s.me.viewT[n.toFin]) w imm)
    | _ => s.writeViewA n.toFin (viewEdit (s.me.viewA[n.toFin]) w imm)

/-- ROTB (R206). -/
def execRotb (gd : Guard) (s : State) : Result :=
  guarded gd s fun s => s.updMe fun x => { x with viewV := rotate x.viewV }

/-- LOOPST (R182). -/
def execLoopst (gd : Guard) (ns : BitVec 4) (rt : Bool) (s : State) : Result :=
  guarded gd s fun s => s.updMe fun x => { x with le := { x.le with pns := ns, prt := rt } }

end Sys2Proof.Machine
end

