-- ==== Sys2Proof/Machine/Uses.lean ====
section
/-! DEFINITION. Which registers an operation names: its guard, sources and destinations, for the interlocks of R148,
R178 and R180 and the rule of R120 on destinations. -/

namespace Sys2Proof.Machine

/-- The guard of an operation that has one (R116). -/
def guardIn : Instr → Option Guard
  | .movi gd _ _ | .moviWide gd _ _ | .movhi gd _ _ | .movhiWide gd _ _ | .mov gd _ _ | .add gd _ _ _
  | .addWide gd _ _ _ | .addi gd _ _ | .addiWide gd _ _ | .sub gd _ _ _ | .subWide gd _ _ _ | .mul gd _ _ _
  | .mulWide gd _ _ _ | .mulh gd _ _ _ | .mulhN gd _ _ _ | .and gd _ _ _ | .andWide gd _ _ _ | .andn gd _ _ _
  | .andnWide gd _ _ _ | .or gd _ _ _ | .orWide gd _ _ _ | .xor gd _ _ _ | .xorWide gd _ _ _ | .shl gd _ _ _
  | .shr gd _ _ _ | .sar gd _ _ _ | .rot gd _ _ _ | .clz gd _ _ | .popc gd _ _ | .min gd _ _ _ | .minWide gd _ _ _
  | .minN gd _ _ _ | .minNWide gd _ _ _ | .max gd _ _ _ | .maxWide gd _ _ _ | .maxN gd _ _ _ | .maxNWide gd _ _ _
  | .cmp gd _ _ _ _ | .cmpWide gd _ _ _ _ | .sel gd _ _ _ _ | .br gd _ | .jmp gd _ | .jmpReg gd _ | .call gd _
  | .callReg gd _ | .ret gd | .loop gd _ _ | .rdsr gd _ _ | .wrsr gd _ _ | .trap gd _ | .fin gd | .ld gd _ _ _ _
  | .ldOffset gd _ _ _ _ _ | .ldl gd _ _ _ _ | .ldlQ gd _ _ _ | .ldlOffset gd _ _ _ | .ldr gd _ _ _
  | .ldrOffset gd _ _ _ _ | .lds gd _ _ | .gath gd _ _ _ _ _ | .gathN gd _ _ _ _ _ _ | .stcfg gd _ _
  | .stcfgOffset gd _ _ _ | .stadv gd _ _ _ | .stadvSkip gd _ _ | .stadvImm gd _ _ _ _ | .pref gd _ _ _
  | .prefOffset gd _ _ _ _ | .ldlay gd _ _ _ | .ldlayOffset gd _ _ _ _ | .fenceLayout gd | .qpush gd _ _ _
  | .bqpush gd _ _ | .recv gd _ _ _ | .recvTry gd _ _ _ _ | .st gd _ _ _ | .stQ gd _ _ _ | .stOffset gd _ _ _
  | .stl gd _ _ _ | .stlQ gd _ _ _ | .stlOffset gd _ _ _ | .str gd _ _ _ _ | .strOffset gd _ _ _ _ _ _
  | .pushReg gd _ _ | .pushSq gd _ _ | .pop gd _ _ | .popTry gd _ _ _ | .rgx gd _ _ _ | .rgxImm gd _ _ _ _
  | .fence gd _ | .waita gd _ _ | .waitaNb gd _ _ | .waitaOffset gd _ _ _ _ | .barArrive gd _ | .barWait gd _ _
  | .barArwt gd _ _ | .trig gd | .send gd _ _ _ | .sendTry gd _ _ _ _ | .vadd gd _ _ _ _ | .vsub gd _ _ _ _
  | .vmul gd _ _ _ _ | .vmulh gd _ _ _ _ | .vmad gd _ _ _ _ | .vand gd _ _ _ | .vor gd _ _ _ | .vxor gd _ _ _
  | .vlop3 gd _ _ _ _ _ | .vshl gd _ _ _ _ | .vshr gd _ _ _ _ | .vsar gd _ _ _ _ | .vfshl gd _ _ _ _ _
  | .vfshr gd _ _ _ _ _ | .vpopc gd _ _ _ | .vclz gd _ _ _ | .vmin gd _ _ _ _ | .vmax gd _ _ _ _ | .vabs gd _ _ _
  | .vcmpEq gd _ _ _ _ | .vcmpNe gd _ _ _ _ | .vcmpLt gd _ _ _ _ | .vcmpLe gd _ _ _ _ | .vsel gd _ _ _ _ _
  | .fadd gd _ _ _ _ | .fsub gd _ _ _ _ | .fmul gd _ _ _ _ | .ffma gd _ _ _ _ | .fmin gd _ _ _ _
  | .fmax gd _ _ _ _ | .fabs gd _ _ _ | .fneg gd _ _ _ | .fcmpEq gd _ _ _ _ | .fcmpNe gd _ _ _ _
  | .fcmpLt gd _ _ _ _ | .fcmpLe gd _ _ _ _ | .frcp gd _ _ _ | .frsq gd _ _ _ | .fexp2 gd _ _ _ | .flog2 gd _ _ _
  | .vperm gd _ _ _ _ | .vbcast gd _ _ _ _ | .vbcastG gd _ _ _ | .vrotl gd _ _ _ _ | .vrotlG gd _ _ _ _
  | .vcomp gd _ _ _ _ | .vred gd _ _ _ _ | .fred gd _ _ _ _ | .vredm gd _ _ _ _ | .fredm gd _ _ _ _ | .qpop gd _ _
  | .qput gd _ _ _ | .view gd _ _ _ _ | .rotb gd | .loopst gd _ _ | .cvt gd _ _ _ _ | .qmx gd _ _ _ _
  | .qtrl gd _ _ | .qstat gd _ | .qstatClr gd _ | .mxsetHdr gd _ | .mxsetLvl gd _ | .mxbindG gd _ _
  | .mxbindView gd _ _ _ | .mxgrp gd _ _ _ | .mxgo gd | .mxwait gd _ | .mxcommit gd | .mxcommitClr gd
  | .mxswap gd _ => some gd
  | _ => none

/-- The register of a second source. -/
def srcBUses : SrcB → List (BitVec 5)
  | .reg b => [b]
  | .imm _ => []

/-- The register of CMP's second source. -/
def srcCUses : SrcC → List (BitVec 5)
  | .reg b => [b]
  | .imm _ => []

/-- The data register of a store. -/
def stFormUses : StForm → List (BitVec 5)
  | .reg b _ => [b]
  | .queue _ _ => []

/-- The g registers that an operation reads. -/
def gSources : Instr → List (BitVec 5)
  | .add _ _ a b | .sub _ _ a b | .mul _ _ a b | .mulh _ _ a b | .mulhN _ _ a b | .and _ _ a b | .andn _ _ a b
  | .or _ _ a b | .xor _ _ a b | .shl _ _ a b | .shr _ _ a b | .sar _ _ a b | .rot _ _ a b | .min _ _ a b
  | .minN _ _ a b | .max _ _ a b | .maxN _ _ a b => a :: srcBUses b
  | .cmp _ _ _ a b => a :: srcCUses b
  | .mov _ _ a | .clz _ _ a | .popc _ _ a | .cmpWide _ _ _ a _ | .jmpReg _ a | .callReg _ a | .loop _ a _
  | .wrsr _ a _ | .ld _ _ a _ _ | .ldOffset _ _ a _ _ _ | .ldl _ _ a _ _ | .ldlQ _ _ a _ | .ldlOffset _ _ a _
  | .ldr _ _ a _ | .ldrOffset _ _ a _ _ | .stcfg _ _ a | .stcfgOffset _ _ a _ | .stadvSkip _ _ a
  | .pref _ _ a _ | .prefOffset _ _ a _ _ | .ldlay _ _ a _ | .ldlayOffset _ _ a _ _ | .qpush _ _ _ a
  | .stQ _ _ a _ | .stlQ _ _ a _ | .rgxImm _ _ a _ _ | .addWide _ _ a _ | .subWide _ _ a _ | .mulWide _ _ a _
  | .andWide _ _ a _ | .andnWide _ _ a _ | .orWide _ _ a _ | .xorWide _ _ a _ | .minWide _ _ a _
  | .minNWide _ _ a _ | .maxWide _ _ a _ | .maxNWide _ _ a _ => [a]
  | .gath _ _ _ _ a b | .gathN _ _ _ _ a b _ | .stadv _ _ a b | .st _ b a _ | .stl _ b a _ | .rgx _ _ a b
  | .waita _ a b | .waitaNb _ a b | .waitaOffset _ _ a b _ | .sel _ _ a b _ => [a, b]
  | .movhi _ d _ | .movhiWide _ d _ | .addi _ d _ | .addiWide _ d _ => [d]
  | .stOffset _ f a _ | .stlOffset _ f a _ => a :: stFormUses f
  | .str _ _ a f _ | .strOffset _ _ a f _ _ _ => [a, f]
  | .stadvImm _ _ _ b _ | .mxbindG _ _ b => [b]
  | .vbcastG _ _ c _ | .vrotlG _ _ _ c _ | .vredm _ _ _ c _ | .fredm _ _ _ c _ => [c]
  | .ret _ => [31]
  | .pushReg _ _ b => (List.range 8).map fun k => b + BitVec.ofNat 5 k
  | _ => []

/-- The g registers that an operation names as destinations (R120). CALL names none: no field of it holds g31.
Log 69, DESIGN CHOICE. -/
def gDests : Instr → List (BitVec 5)
  | .movi _ d _ | .moviWide _ d _ | .movhi _ d _ | .movhiWide _ d _ | .mov _ d _ | .addi _ d _
  | .addiWide _ d _ | .clz _ d _ | .popc _ d _ | .sel _ d _ _ _ | .rdsr _ d _ | .add _ d _ _ | .sub _ d _ _
  | .mul _ d _ _ | .mulh _ d _ _ | .mulhN _ d _ _ | .and _ d _ _ | .andn _ d _ _ | .or _ d _ _ | .xor _ d _ _
  | .shl _ d _ _ | .shr _ d _ _ | .sar _ d _ _ | .rot _ d _ _ | .min _ d _ _ | .minN _ d _ _ | .max _ d _ _
  | .maxN _ d _ _ | .addWide _ d _ _ | .subWide _ d _ _ | .mulWide _ d _ _ | .andWide _ d _ _
  | .andnWide _ d _ _ | .orWide _ d _ _ | .xorWide _ d _ _ | .minWide _ d _ _ | .minNWide _ d _ _
  | .maxWide _ d _ _ | .maxNWide _ d _ _ | .ld _ d _ _ _ | .ldOffset _ d _ _ _ _ | .ldl _ d _ _ _
  | .ldlay _ d _ _ | .ldlayOffset _ d _ _ _ | .rgx _ d _ _ | .rgxImm _ d _ _ _ | .barWait _ _ d
  | .barArwt _ _ d => [d]
  | .ldlOffset _ (.reg d _ _) _ _ => [d]
  | .pop _ f d | .popTry _ f d _ => if f = 3 then [d, d + 1, d + 2, d + 3] else [d, d + 1]
  | .mxwait _ d => [d, d + 1]
  | _ => []

/-- The predicates that an operation reads beside its guard. -/
def pSources : Instr → List (BitVec 4)
  | .sel _ _ _ _ ps => [ps.zeroExtend 4]
  | .bqpush _ ps _ => [ps]
  | _ => []

/-- The predicates that an operation names as destinations (R120). -/
def pDests : Instr → List (BitVec 4)
  | .cmp _ pd _ _ _ | .cmpWide _ pd _ _ _ | .recvTry _ _ _ _ pd | .popTry _ _ _ pd | .sendTry _ _ _ _ pd => [pd]
  | _ => []

/-- Whether an operation waits for the bound of an earlier write of SRSTATE: RDSR does, an operation of the quantiser
does not (R261). -/
def readsSr : Instr → Bool
  | .rdsr _ _ srn => srn == 0x20
  | _ => false

/-- Whether a list holds an element twice. -/
def twice {α : Type} [DecidableEq α] : List α → Bool
  | [] => false
  | a :: t => t.contains a || twice t

/-- Two operations of one word that name the same g or p destination, other than g0 and p0 (R120). -/
def sameDest (is : List Instr) : Bool :=
  twice ((is.flatMap gDests).filter fun d => d != 0) || twice ((is.flatMap pDests).filter fun d => d != 0)

/-- Whether the word waits for a C-stream result that has not passed its bound (R178, R180). Log 7, DEDUCED. -/
def Ctx.interlocked (x : Ctx) (is : List Instr) : List Busy :=
  x.busy.filter fun b =>
    match b.dst with
    | .g i => is.any fun o => (gSources o).contains i
    | .p i => is.any fun o => (pSources o).contains i || ((guardIn o).map fun g => g.p == i) == some true
    | .srstate => is.any readsSr

/-- The g registers that an outstanding load of the L stream will write. -/
def LAccess.dest (a : LAccess) : Option (BitVec 5) :=
  match a.kind with
  | .reg _ _ _ d _ => some d
  | .ldlay d _ _ => some d
  | _ => none

/-- The g register that an outstanding RGX will write. -/
def SAccess.dest (a : SAccess) : Option (BitVec 5) :=
  match a.kind with
  | .rgx d _ _ _ => some d
  | _ => none

/-- Whether an access is an RGX. -/
def SAccess.isRgx (a : SAccess) : Bool :=
  match a.kind with
  | .rgx _ _ _ _ => true
  | _ => false

/-- The g registers of a stream with an outstanding write (R148). -/
def Ctx.outstanding (x : Ctx) : StreamId → List (BitVec 5)
  | .l => (x.laccess.filterMap LAccess.dest).filter fun d => d != 0
  | .s => (x.saccess.filterMap SAccess.dest).filter fun d => d != 0
  | .c => []

/-- The g registers that an operation reads or writes, R150's g31 among them. -/
def gNamed (i : Instr) : List (BitVec 5) :=
  gSources i ++ gDests i ++
    match i with
    | .call .. | .callReg .. => [31]
    | _ => []

end Sys2Proof.Machine
end

