-- ==== Sys2Proof/Machine/Send.lean ====
section
/-! DEFINITION. Requests to homes: their numbers, and what a home does with a direct load, store, STR or RGX and with a
request of another panel (R46 to R61, R209, R213, R216, R328, R375). -/

namespace Sys2Proof.Machine

/-- The most requests of a core that may be unanswered (R328). -/
def maxUnanswered : Nat := 64

/-- Whether the core at work may send a numbered request (R328). -/
def Ctx.canSend (x : Ctx) : Bool := x.unanswered.length < maxUnanswered

/-- Sends a request of core `c` for the access or command with stamp `tk`. S stream and copy engine take a number and
carry FLOOR (R328); loads of the L stream carry none. -/
def State.sendReq (s : State) (c tk : Nat) (lstream : Bool) (addr : W64) (op : ReqOp) : State :=
  let x := s.ctx c
  let r : Request :=
    { panel := s.glob.domid.toNat, core := c, part := s.partOf c, tk := tk, lstream := lstream,
      num := if lstream then 0 else x.seqno, floor := if lstream then 0 else x.unanswered.headD x.seqno,
      addr := addr, op := op, sends := 1, sentAt := s.now, stage := .travelling }
  let s := { s with reqs := s.reqs ++ [r] }
  if lstream then s
  else s.updCtx c fun x => { x with seqno := x.seqno + 1, unanswered := x.unanswered ++ [x.seqno] }

/-- A request has been answered for good: its number is answered (R328). -/
def Ctx.answeredNum (x : Ctx) (num : W32) : Ctx := { x with unanswered := x.unanswered.filter fun n => n != num }

/-! ## Caches that change no value (R52, R55, R58) -/

/-- Keeps the translation that an access uses. Log 11, DEDUCED. -/
def State.touch (s : State) (who : Asker) (acc : Acc) (a n : Nat) : State :=
  match s.homeCheck who acc a n with
  | .ok _ tlb => s.noteTlb (s.homeTile who.part a) tlb
  | _ => s

/-- The key of a region: its tile and index. -/
def regionKey (tile a : Nat) : Nat := tile * 2 ^ 21 + offOf a / 2 ^ 21

/-- Keeps the region entry of a direct access, and the line where R55 allows it: a PRIVATE region of the core's own
or a FROZEN one, in HBM, on a page with NC = 0. -/
def State.cacheAccess (s : State) (c a n : Nat) : State :=
  let who := s.asker c
  match s.homeTile who.part a, s.homeCheck who .load a n with
  | some t, .ok (.panel _ off) (some tlb) =>
    let e := s.regionEntry who.part t (offOf a)
    let may := (regState e == 3 || (regState e == 0 && who.who == some (regOwner e))) && off < 2 ^ 36 && !bit tlb.leaf 4
    (s.noteTlb (some t) (some tlb)).updCtx c fun x =>
      { x with
        regionCache := (mset x.regionCache (regionKey t a) e).take 64
        nearCache := if may then ((a / 256) :: x.nearCache.filter fun l => l != a / 256).take 256 else x.nearCache }
  | _, _ => s

/-! ## RGX (R59 to R61, R216) -/

/-- Whether a new region entry is malformed: a reserved bit, an OWNER that names no core, or an OWNER where the state
has none (R216). -/
def State.newEntryBad (s : State) (part : Nat) (e : W32) : Bool :=
  !regWf e || (regState e < 2 && !s.namesCore part (regOwner e))

/-- Who may change an entry (R59). Log 61, DEDUCED. -/
def mayChange (e : W32) (who : BitVec 12) : Bool := 2 ≤ regState e || regOwner e == who

/-- Drops what cores of a partition cache of a region: its entry everywhere; its lines at the issuer that owned it,
and everywhere where it was FROZEN (R60). Log 11, DEDUCED. -/
def State.shootDown (s : State) (part tile a : Nat) (issuer : Nat) (old : W32) : State :=
  { s with cores := s.cores.map fun e =>
      if s.partOf e.1 = part then
        let lines := e.2.nearCache.filter fun l => !(l / 2 ^ 13 == a / 2 ^ 21)
        (e.1, { e.2 with
          regionCache := mdel e.2.regionCache (regionKey tile a)
          nearCache := if regState old = 3 ∨ e.1 = issuer then lines else e.2.nearCache })
      else e }

/-- What a home answers: a cause with the address it names, or the data or value and the places that it holds; or
retry-after. -/
inductive Answer where
  | done (cause : Cause) (at_ : W64) (bs : List Byte) (locs : List Loc)
  | retry
deriving DecidableEq, Repr, Inhabited

/-- A failed check. -/
def Answer.fail (cause : Cause) (a : W64) : Answer := .done cause a [] []

/-- The 8 bytes of an RGX's result: the entry found, and the status (R216). -/
def rgxResult (old : W32) (status : Nat) : List Byte := wordLE (BitVec.ofNat 64 (old.toNat * 2 ^ 32 + status))

/-- The compare and exchange of a region entry at its home (R59, R60, R216), by an issuer that may change the entries that
`may` allows. Log 61, DEDUCED. -/
def State.rgxEntry (s : State) (who : Asker) (t issuer : Nat) (may : W32 → Bool) (addr : W64) (exp new : W32) : Answer × State :=
  let part := who.part
  let a := addr.toNat
  let old := s.regionEntry part t (offOf a)
  if s.refuses t who .store then (.retry, s)
  else if !regWf old then (.fail 0x28 addr, s)
  else if s.newEntryBad part new then (.fail 0x28 addr, s)
  else if old ≠ exp then (.done 0 0 (rgxResult old 1) [], s)
  else if !may old then (.done 0 0 (rgxResult old 2) [], s)
  else
    let s := s.shootDown part t a issuer old
    (.done 0 0 (rgxResult old 0) [], s.writeLoc (.panel t ((s.part part).rtbase + 4 * (offOf a / 2 ^ 21))) (natLE 4 new.toNat))

/-- RGX at the home of its address (R60, R216). Log 61, DEDUCED. -/
def State.homeRgx (s : State) (c : Nat) (addr : W64) (exp new : W32) : Answer × State :=
  let who := s.asker c
  let a := addr.toNat
  if panelOf a = 0xFF then (.fail 0x22 addr, s)
  else if panelOf a ≠ s.glob.domid.toNat then
    if !bit (mget 0 s.glob.domrt (panelOf a)) 7 then (.fail 0x27 addr, s)
    else
      let cause := Config.foreignCause (s.freeIx a)
      (.done cause addr (wordLE (Config.anyWord (s.freeIx a))) [], s)
  else
    match s.homeTile who.part a with
    | none => (.fail 0x27 addr, s)
    | some t => s.rgxEntry who t c (fun e => mayChange e (s.ctx c).logical) addr exp new

/-! ## Direct accesses at the home (R51, R209) -/

/-- A direct load (R51). -/
def State.homeLoad (s : State) (who : Asker) (addr : W64) (n : Nat) : Answer :=
  match s.homeRead who .load addr.toNat n with
  | .error c => if c = retryCode then .retry else .fail c addr
  | .ok bs => .done 0 0 bs []

/-- The check of a direct store, which the home then holds (R209). -/
def State.homeStore (s : State) (who : Asker) (addr : W64) (n : Nat) : Answer :=
  match s.homeCheck who .store addr.toNat n with
  | .fail c => .fail c addr
  | .retry => .retry
  | .ok loc _ => .done 0 0 [] [loc]
  | .foreign p =>
    let c := Config.foreignCause (s.freeIx addr.toNat)
    .done c addr [] [.foreign p]

/-- The check of a flag that 1 will be added to, as a FLAGADD (R51, R57, R213); a host flag needs AT = 1 (R375). -/
def State.homeFlag (s : State) (who : Asker) (addr : W64) : Answer :=
  match s.homeCheck who .atomic addr.toNat 8 with
  | .fail c => .fail c addr
  | .retry => .retry
  | .ok (.host _ _ false) _ => .fail 0x22 addr
  | .ok loc _ => if s.poisonedLoc loc 8 then .fail 0x24 addr else .done 0 0 [] [loc]
  | .foreign p =>
    let c := Config.foreignCause (s.freeIx addr.toNat)
    .done c addr [] [.foreign p]

/-- Both checks of an STR with a flag, data first (R213). -/
def State.homeStr (s : State) (who : Asker) (addr : W64) (n : Nat) (flag : W64) : Answer :=
  match s.homeStore who addr n with
  | .done 0 _ _ l1 =>
    match s.homeFlag who flag with
    | .done 0 _ _ l2 => .done 0 0 [] (l1 ++ l2)
    | r => r
  | r => r

end Sys2Proof.Machine
end

