-- ==== Sys2Proof/Machine/Load.lean ====
section
/-! DEFINITION. The L stream: loads, gathers, operand streams, prefetches, layout records, queue pushes, receives, and
the completion of its access queue (R153 to R177). -/

namespace Sys2Proof.Machine

/-! ## The access queue (R153 to R155) -/

/-- The operations that an access queue holds at most (R153, R208). -/
def accessDepth : Nat := 32

/-- Enters an operation in the L access queue, with the checks of its issue already made. -/
def State.pushL (s : State) (kind : LKind) (status : AccStatus) : State :=
  s.updMe fun x => { x with laccess := x.laccess ++ [({ tk := x.tk, kind := kind, status := status } : LAccess)] }

/-- Enters a global load, whose request travels to its home, or an operation that has failed at issue. -/
def State.pushLoad (s : State) (kind : LKind) (status : AccStatus) (addr : W64) (n : Nat) : State :=
  let s' := s.pushL kind status
  match status with
  | .sent => s'.sendReq s.core s.me.tk true addr (.load n)
  | _ => s'

/-- Whether the access queue is full. -/
def Ctx.lFull (x : Ctx) : Bool := accessDepth ≤ x.laccess.length

/-- Allocates an entry of an lq for the word at work (R154). -/
def State.allocLq (s : State) (q : BitVec 3) : State :=
  s.updMe fun x => x.updLq q fun y => y.push { data := [], ready := false, tk := x.tk }

/-- Whether a wide offset address leaves the global space (R159). -/
def beyondGlobal (a : W64) : Bool := fld a 56 8 != 0

/-- What the issue of an access of `n` bytes finds: 0x02 where it is not aligned, 0x27 above the global space. -/
def accessStatus (lm aligned : Bool) (a : W64) : AccStatus :=
  if !aligned then .fail 0x02 a else if !lm && beyondGlobal a then .fail 0x27 a else .sent

/-- LD and LDL into a register (R159). -/
def State.loadReg (s : State) (lm : Bool) (d : BitVec 5) (a : W64) (sz : BitVec 2) (sx : Bool) : State :=
  let n := szBytes sz
  if s.me.lFull then s.waitNow .access
  else
    let st := accessStatus lm (a.toNat % n == 0) a
    let k := LKind.reg lm a n d sx
    if lm then s.pushL k st else s.pushLoad k st a n

/-- LDL and LDR into an lq entry (R154, R159). -/
def State.loadEntry (s : State) (lm : Bool) (q : BitVec 3) (a : W64) (e : BitVec 5) : State :=
  let n := entryBytes e
  if s.me.lFull then s.waitNow .access
  else if !(s.me.getLq q).room 1 then s.waitNow .queueFull
  else
    let st := accessStatus lm (a.toNat % 8 == 0 && oneBlock a.toNat n) a
    let k := LKind.entry lm a n q
    let s := s.allocLq q
    if lm then s.pushL k st else s.pushLoad k st a n

/-- An operation on an lq of declared depth 0 raises 0x01, whatever its guard (R19, R117). Log 17, DEDUCED. -/
def State.onLq (s : State) (q : BitVec 3) (gd : Guard) (f : State → State) : Result :=
  if (s.me.getLq q).depth = 0 then .next (s.trapNow 0x01) else guarded gd s f

/-- An operation on a stream register that the LAUNCH does not declare raises 0x01, whatever its guard. -/
def State.onSt (s : State) (st : BitVec 4) (gd : Guard) (f : State → State) : Result :=
  if s.myFlock.nst ≤ st.toNat then .next (s.trapNow 0x01) else guarded gd s f

/-- LD (R158, R159). -/
def execLd (gd : Guard) (d a : BitVec 5) (sz : BitVec 2) (sx : Bool) (s : State) : Result :=
  guarded gd s fun s => s.loadReg false d (s.addr a 0) sz sx

/-- LD with an offset (R158). -/
def execLdOffset (gd : Guard) (d a : BitVec 5) (sz : BitVec 2) (sx : Bool) (off : Wide) (s : State) : Result :=
  guarded gd s fun s => s.loadReg false d (s.addr a (wideVal off)) sz sx

/-- LDL into a register (R158, R159). -/
def execLdl (gd : Guard) (d a : BitVec 5) (sz : BitVec 2) (sx : Bool) (s : State) : Result :=
  guarded gd s fun s => s.loadReg true d (s.addr a 0) sz sx

/-- LDL into an lq entry (R158, R159). -/
def execLdlQ (gd : Guard) (q : BitVec 3) (a e : BitVec 5) (s : State) : Result :=
  s.onLq q gd fun s => s.loadEntry true q (s.addr a 0) e

/-- LDL with an offset, in both forms (R158). -/
def execLdlOffset (gd : Guard) (f : LdlForm) (a : BitVec 5) (off : Wide) (s : State) : Result :=
  match f with
  | .reg d sz sx => guarded gd s fun s => s.loadReg true d (s.addr a (wideVal off)) sz sx
  | .queue q e => s.onLq q gd fun s => s.loadEntry true q (s.addr a (wideVal off)) e

/-- LDR (R158, R159). -/
def execLdr (gd : Guard) (q : BitVec 3) (a e : BitVec 5) (s : State) : Result :=
  s.onLq q gd fun s => s.loadEntry false q (s.addr a 0) e

/-- LDR with an offset (R158). -/
def execLdrOffset (gd : Guard) (q : BitVec 3) (a e : BitVec 5) (off : Wide) (s : State) : Result :=
  s.onLq q gd fun s => s.loadEntry false q (s.addr a (wideVal off)) e

/-! ## Gathers (R160) -/

/-- GATH of `n` elements of `e` bytes; of two misaligned addresses the base is reported (log 83, DESIGN CHOICE). -/
def State.gather (s : State) (q : BitVec 3) (lm : Bool) (e n : Nat) (base idx : W64) : State :=
  if s.me.lFull then s.waitNow .access
  else if !(s.me.getLq q).room 1 then s.waitNow .queueFull
  else
    let st := if base.toNat % e ≠ 0 then AccStatus.fail 0x02 base
      else if idx.toNat % 4 ≠ 0 then .fail 0x02 idx else .sent
    (s.allocLq q).pushL (.gath q lm e n base idx) st

/-- GATH (R160). -/
def execGath (gd : Guard) (q : BitVec 3) (sp : Bool) (esz : BitVec 2) (a b : BitVec 5) (s : State) : Result :=
  s.onLq q gd fun s => s.gather q sp (szBytes esz) (256 / szBytes esz) (s.rg a) (s.rg b)

/-- GATH with an element count (R160). -/
def execGathN (gd : Guard) (q : BitVec 3) (sp : Bool) (esz : BitVec 2) (a b : BitVec 5) (nm1 : BitVec 8) (s : State) :
    Result :=
  s.onLq q gd fun s => s.gather q sp (szBytes esz) (nm1.toNat + 1) (s.rg a) (s.rg b)

/-! ## Stream registers (R165 to R171) -/

/-- The fields of a layout record (R165). -/
def layoutOf (ws : List W64) : LayoutRec :=
  let w := fun i => ws.getD i 0
  { sp := bit (w 0) 61, tc := bit (w 0) 60, base := BitVec.ofNat 64 (fld (w 0) 0 56),
    fmt := BitVec.ofNat 5 (fld (w 1) 59 5), sbase := BitVec.ofNat 64 (fld (w 1) 0 56),
    n0 := fld (w 2) 0 16, n1 := fld (w 2) 16 16, n2 := fld (w 2) 32 16, n3 := fld (w 2) 48 16,
    s0 := BitVec.ofNat 32 (fld (w 3) 0 32), s1 := BitVec.ofNat 32 (fld (w 3) 32 32),
    s2 := BitVec.ofNat 32 (fld (w 4) 0 32), s3 := BitVec.ofNat 32 (fld (w 4) 32 32),
    sstr := BitVec.ofNat 32 (fld (w 5) 32 32), sq := BitVec.ofNat 3 (fld (w 5) 29 3),
    ebm1 := BitVec.ofNat 5 (fld (w 5) 22 5), tbase := BitVec.ofNat 64 (fld (w 6) 0 56) }

/-- Bytes of an entry of a record. -/
def LayoutRec.bytes (l : LayoutRec) : Nat := entryBytes l.ebm1

/-- Entries of the walk. -/
def LayoutRec.total (l : LayoutRec) : Nat := l.n0 * l.n1 * l.n2 * l.n3

/-- Bytes of a scale group: elements per entry over the block length, 0 without a scale (R167). -/
def LayoutRec.gbytes (l : LayoutRec) : Nat :=
  let b := blockLen l.fmt.toNat
  if b = 0 then 0 else 8 * l.bytes / fmtBits l.fmt.toNat / b

/-- Whether a record is valid (R166). -/
def recordValid (ws : List W64) : Bool :=
  let w := fun i => ws.getD i 0
  let l := layoutOf ws
  let f := l.fmt.toNat
  let unit := if blockLen f = 0 then fmtBits f else fmtBits f * blockLen f
  fld (w 0) 62 2 == 1 && fld (w 0) 56 4 == 0 && fld (w 1) 56 3 == 0 && fld (w 5) 27 2 == 0 && fld (w 5) 0 22 == 0 &&
    fld (w 6) 56 8 == 0 && fld (w 7) 0 32 == 0 &&
    fld (w 7) 32 32 == (crc32c ((wordsLE ws).take 60)).toNat &&
    f < 0x1C && l.n0 != 0 && l.n1 != 0 && l.n2 != 0 && l.n3 != 0 &&
    (blockLen f != 0 || (l.sbase == 0 && l.sstr == 0 && l.sq == 0)) &&
    (l.tc == (l.tbase != 0)) &&
    (!l.sp || (l.base.toNat < 2 ^ 23 && l.sbase.toNat < 2 ^ 23 && l.tbase.toNat < 2 ^ 23)) &&
    8 * l.bytes % unit == 0

/-- A stream register at entry `j` of its walk (R167). -/
def StreamReg.at (r : StreamReg) (j : Nat) : StreamReg :=
  let l := r.lay
  { r with j := j, i0 := j % l.n0, i1 := j / l.n0 % l.n1, i2 := j / (l.n0 * l.n1) % l.n2,
           i3 := j / (l.n0 * l.n1 * l.n2) % l.n3 }

/-- The address of the entry at the position (R167). -/
def StreamReg.ent (r : StreamReg) : W64 :=
  r.lay.base + BitVec.ofNat 64 r.i0 * r.lay.s0.signExtend 64 + BitVec.ofNat 64 r.i1 * r.lay.s1.signExtend 64 +
    BitVec.ofNat 64 r.i2 * r.lay.s2.signExtend 64 + BitVec.ofNat 64 r.i3 * r.lay.s3.signExtend 64

/-- The address of the scale group of the position (R167). -/
def StreamReg.grp (r : StreamReg) : W64 := r.lay.sbase + BitVec.ofNat 64 r.j * r.lay.sstr.signExtend 64

/-- Whether a stream register has no further entry, or was never configured (R169). -/
def StreamReg.spent (r : StreamReg) : Bool := !r.conf || r.j == r.lay.total

/-- A stream register of a context. -/
def Ctx.getSt (x : Ctx) (i : BitVec 4) : StreamReg := x.st[i.toNat]'(i.isLt)

/-- Sets a stream register. -/
def Ctx.setSt (x : Ctx) (i : BitVec 4) (r : StreamReg) : Ctx := { x with st := x.st.set i.toNat r (i.isLt) }

/-- Whether an operation of the access queue concerns a stream register. -/
def LAccess.onSt (a : LAccess) (i : BitVec 4) : Bool :=
  match a.kind with
  | .lds st _ _ => st == i
  | .stcfg st _ => st == i
  | _ => false

/-- Whether an outstanding STCFG of a stream register has still to load it. -/
def Ctx.stPending (x : Ctx) (i : BitVec 4) : Bool :=
  x.laccess.any fun a =>
    match a.kind with
    | .stcfg st _ => st == i
    | _ => false

/-- The entries that an LDS allocates: one for its data, one for its scale group (R169). -/
def ldsRoom (x : Ctx) (q sq : BitVec 3) (scaled : Bool) : Bool :=
  if scaled then
    if sq = q then (x.getLq q).room 2 else (x.getLq q).room 1 && (x.getLq sq).room 1
  else (x.getLq q).room 1

/-- Whether the next LDS of a stream register delivers the last entry of a checked tile, and so reads its trailer too
(R170). -/
def StreamReg.endsTile (r : StreamReg) : Bool := r.lay.tc && r.j + 1 == r.lay.total

/-- LDS (R169, R170): the read of a trailer takes a place of its own in the access queue (R153). -/
def execLds (gd : Guard) (q : BitVec 3) (st : BitVec 4) (s : State) : Result :=
  if (s.me.getLq q).depth = 0 then .next (s.trapNow 0x01)
  else s.onSt st gd fun s =>
    let x := s.me
    let r := x.getSt st
    let scaled := r.lay.gbytes ≠ 0
    if x.stPending st || x.lFull then s.waitNow .access
    else if r.spent then s.pushL (.lds st r q) (.fail 0x06 0)
    else if scaled ∧ (x.getLq r.lay.sq).depth = 0 then s.trapNow 0x01
    else if r.endsTile && decide (accessDepth < x.laccess.length + 2) then s.waitNow .access
    else if !ldsRoom x q r.lay.sq scaled then s.waitNow .queueFull
    else
      let status :=
        if !(r.ent.toNat % 8 == 0 && oneBlock r.ent.toNat r.lay.bytes) then AccStatus.fail 0x02 r.ent
        else if scaled ∧ !oneBlock r.grp.toNat r.lay.gbytes then .fail 0x02 r.grp else .sent
      let s := s.allocLq q
      let s := if scaled then s.allocLq r.lay.sq else s
      let s := s.pushL (.lds st r q) status
      let s := if r.endsTile then s.pushL (.trailer r.lay.sp r.lay.tbase) .sent else s
      s.updMe fun x => x.setSt st (r.at (r.j + 1))

/-- STCFG at an address (R168). -/
def State.stcfgAt (s : State) (st : BitVec 4) (a : W64) : State :=
  if s.me.lFull then s.waitNow .access else s.pushL (.stcfg st a) (accessStatus false (a.toNat % 64 == 0) a)

/-- STCFG (R168). -/
def execStcfg (gd : Guard) (st : BitVec 4) (a : BitVec 5) (s : State) : Result :=
  s.onSt st gd fun s => s.stcfgAt st (s.addr a 0)

/-- STCFG with an offset (R168). -/
def execStcfgOffset (gd : Guard) (st : BitVec 4) (a : BitVec 5) (off : Wide) (s : State) : Result :=
  s.onSt st gd fun s => s.stcfgAt st (s.addr a (wideVal off))

/-- STADV on a stream register whose earlier operations have completed: `move` gives its new value, or none for
cause 0x06 (R171). -/
def State.stadvWith (s : State) (st : BitVec 4) (move : StreamReg → Option StreamReg) : State :=
  if s.me.laccess.any fun a => a.onSt st then s.waitNow .access
  else
    let r := s.me.getSt st
    if !r.conf then s.trapNow 0x06
    else
      match move r with
      | none => s.trapNow 0x06
      | some r' => s.updMe fun x => x.setSt st r'

/-- M = 0: the bases move, the walk and the running CRC start again (R171). -/
def StreamReg.rebase (r : StreamReg) (da db : W64) : StreamReg :=
  { ({ r with lay := { r.lay with base := r.lay.base + da, sbase := r.lay.sbase + db } } : StreamReg).at 0 with
    crc := 0xFFFFFFFF }

/-- M = 1: a skip, which may not pass the end, nor be made with a trailer check (R171). -/
def StreamReg.skip (r : StreamReg) (n : W64) : Option StreamReg :=
  if r.lay.tc ∨ r.lay.total < r.j + n.toNat then none else some (r.at (r.j + n.toNat))

/-- STADV (R171). -/
def execStadv (gd : Guard) (st : BitVec 4) (a b : BitVec 5) (s : State) : Result :=
  s.onSt st gd fun s => s.stadvWith st fun r => some (r.rebase (s.rg a) (s.rg b))

/-- STADV.skip (R171). -/
def execStadvSkip (gd : Guard) (st : BitVec 4) (a : BitVec 5) (s : State) : Result :=
  s.onSt st gd fun s => s.stadvWith st fun r => r.skip (s.rg a)

/-- STADV with IMM32 in g[A]'s place (R171). -/
def execStadvImm (gd : Guard) (st : BitVec 4) (skip : Bool) (b : BitVec 5) (imm : W32) (s : State) : Result :=
  s.onSt st gd fun s => s.stadvWith st fun r =>
    if skip then r.skip (imm.signExtend 64) else some (r.rebase (imm.signExtend 64) (s.rg b))

/-! ## Prefetch and layout records (R164, R172, R173) -/

/-- PREF of an address. -/
def State.prefAt (s : State) (lvl : BitVec 2) (a : W64) (n : BitVec 8) : State :=
  if s.me.lFull then s.waitNow .access else s.pushL (.pref lvl a (n.toNat + 1)) .sent

/-- PREF (R164). -/
def execPref (gd : Guard) (lvl : BitVec 2) (a : BitVec 5) (n : BitVec 8) (s : State) : Result :=
  guarded gd s fun s => s.prefAt lvl (s.addr a 0) n

/-- PREF with an offset (R164). -/
def execPrefOffset (gd : Guard) (lvl : BitVec 2) (a : BitVec 5) (n : BitVec 8) (off : Wide) (s : State) : Result :=
  guarded gd s fun s => s.prefAt lvl (s.addr a (wideVal off)) n

/-- LDLAY of an address (R172). -/
def State.ldlayAt (s : State) (d : BitVec 5) (a : W64) (k : BitVec 3) : State :=
  if s.me.lFull then s.waitNow .access else s.pushL (.ldlay d a k) (accessStatus false (a.toNat % 64 == 0) a)

/-- LDLAY (R172). -/
def execLdlay (gd : Guard) (d a : BitVec 5) (k : BitVec 3) (s : State) : Result :=
  guarded gd s fun s => s.ldlayAt d (s.addr a 0) k

/-- LDLAY with an offset (R172). -/
def execLdlayOffset (gd : Guard) (d a : BitVec 5) (k : BitVec 3) (off : Wide) (s : State) : Result :=
  guarded gd s fun s => s.ldlayAt d (s.addr a (wideVal off)) k

/-- Whether an operation reads a layout record. -/
def LAccess.readsLayout (a : LAccess) : Bool :=
  match a.kind with
  | .stcfg _ _ | .ldlay _ _ _ => true
  | _ => false

/-- FENCE.LAYOUT: waits for the earlier STCFG and LDLAY, then invalidates the layout cache (R76, R173). -/
def execFenceLayout (gd : Guard) (s : State) : Result :=
  guarded gd s fun s =>
    if s.me.laccess.any LAccess.readsLayout then s.waitNow .access
    else s.updMe fun x => { x with layoutCache := [] }

/-! ## Queue pushes (R161) -/

/-- QPUSH (R161). -/
def execQpush (gd : Guard) (q : BitVec 3) (sz : BitVec 2) (a : BitVec 5) (s : State) : Result :=
  s.onLq q gd fun s =>
    if !(s.me.getLq q).room 1 then s.waitNow .queueFull
    else s.updMe fun x => x.updLq q fun y =>
      y.push { data := (wordLE (s.rg a)).take (szBytes sz), ready := true, tk := x.tk }

/-- BQPUSH (R161). -/
def execBqpush (gd : Guard) (ps : BitVec 4) (inv : Bool) (s : State) : Result :=
  if s.me.bq.depth = 0 then .next (s.trapNow 0x01)
  else guarded gd s fun s =>
    if !s.me.bq.room 1 then s.waitNow .queueFull
    else s.updMe fun x =>
      { x with bq := x.bq.push { data := [if s.rp ps != inv then 1 else 0], ready := true, tk := x.tk } }

/-! ## Receives (R162, R163, R335) -/

/-- The circuits that the drover of a core's partition holds. -/
def State.circuits (s : State) (c : Nat) : List Circuit := (s.part (s.partOf c)).drover.circuits

/-- Whether a circuit is inbound on handle `h` at a core. -/
def Circuit.inbound (k : Circuit) (h : BitVec 6) (id : BitVec 12) : Bool := k.h == h.toNat && k.recv == id

/-- A circuit of which a RECV has taken `n` received bytes. -/
def Circuit.took (k : Circuit) (n : Nat) : Circuit := { k with rx := k.rx.drop n, taken := k.taken + n }

/-- Whether any of the next `n` received bytes is poisoned (R78, R338). -/
def Circuit.rxBad (k : Circuit) (n : Nat) : Bool :=
  k.spoilt.any fun e => decide (e.1 < k.taken + n) && decide (k.taken < e.1 + e.2)

/-- Removes the first `n` received bytes of the circuits that `p` picks. -/
def State.takeRx (s : State) (c : Nat) (p : Circuit → Bool) (n : Nat) : State :=
  s.updPart (s.partOf c) fun pt =>
    { pt with drover := { pt.drover with
        circuits := pt.drover.circuits.map fun k => if p k then k.took n else k } }

/-- What a RECV finds: earlier accesses, a cause, too few bytes or a full lq on a circuit that this step established, or
its bytes. -/
inductive RecvFind where
  | earlier
  | traps (cause : Cause)
  | short (step : Nat)
  | full (step : Nat)
  | ready (bs : List Byte)
deriving DecidableEq, Repr

/-- RECV's conditions up to the bytes: earlier accesses complete, its circuit (0x41; 0x45 where the one on which the
RECV has waited was torn down), the bytes, the entry's room (R163); poisoned bytes are consumed with 0x24 (R79). The circuit
is looked at before the room. Log 58, DEDUCED; log 81, DESIGN CHOICE. -/
def State.recvFind (s : State) (q : BitVec 3) (h : BitVec 6) (n : Nat) : RecvFind :=
  let x := s.me
  if x.laccess ≠ [] then .earlier
  else
    match (s.circuits s.core).find? fun k => k.inbound h x.logical with
    | none => .traps (if x.recvOn.any (fun w => w.1 == h) then 0x45 else 0x41)
    | some k =>
      if x.recvOn.any fun w => w.1 == h && w.2 != k.step then .traps 0x45
      else if k.settled && !k.live then .traps 0x41
      else if k.rx.length < n then .short k.step
      else if !(x.getLq q).room 1 then .full k.step
      else if k.rxBad n then .traps 0x24
      else .ready (k.rx.take n)

/-- A RECV waits on the circuit that a step established. -/
def State.recvWait (s : State) (h : BitVec 6) (step : Nat) (r : WaitReason) : State :=
  (s.updMe fun x => { x with recvOn := some (h, step) }).waitNow r

/-- Takes received bytes into an lq entry. -/
def State.recvTake (s : State) (q : BitVec 3) (h : BitVec 6) (bs : List Byte) : State :=
  let id := s.me.logical
  (s.takeRx s.core (fun k => k.inbound h id) bs.length).updMe fun x =>
    x.updLq q fun y => y.push { data := bs, ready := true, tk := x.tk }

/-- RECV: waits until its bytes are present (R163). -/
def execRecv (gd : Guard) (q : BitVec 3) (h : BitVec 6) (e : BitVec 5) (s : State) : Result :=
  s.onLq q gd fun s =>
    match s.recvFind q h (entryBytes e) with
    | .earlier => s.waitNow .access
    | .traps c => s.trapNow c
    | .short step => s.recvWait h step .recvBytes
    | .full step => s.recvWait h step .queueFull
    | .ready bs => s.recvTake q h bs

/-- RECV.try: polls, and waits only where its bytes have come and its lq is full (R154, R163). -/
def execRecvTry (gd : Guard) (q : BitVec 3) (h : BitVec 6) (e : BitVec 5) (pd : BitVec 4) (s : State) : Result :=
  s.onLq q gd fun s =>
    match s.recvFind q h (entryBytes e) with
    | .earlier => s.waitNow .access
    | .traps c => s.trapNow c
    | .short _ => s.wp pd false
    | .full step => s.recvWait h step .queueFull
    | .ready bs => (s.recvTake q h bs).wp pd true

/-! ## Completion at the head of the access queue (R153 to R155) -/

/-- What a completed operation does. -/
inductive LDone where
  /-- Not yet: its request has not been answered. -/
  | later
  | fail (cause : Cause) (addr : W64)
  | reg (d : BitVec 5) (v : W64)
  | entries (es : List (BitVec 3 × List Byte)) (st : Option (BitVec 4 × StreamReg))
  | config (st : BitVec 4) (r : StreamReg) (a : Nat) (line : LayoutLine)
  | word (d : BitVec 5) (v : W64) (a : Nat) (line : LayoutLine)
  | lines (lvl : BitVec 2) (as : List Nat)
  /-- The trailer behind it is to be read first. -/
  | trailer
deriving DecidableEq, Repr

/-- The aligned 8-byte pieces that an operation has read ahead: local memory or not, address over 8, bytes. -/
abbrev Pieces := List ((Bool × Nat) × List Byte)

/-- `n` bytes from `a` up, of which the pieces read ahead stand as they were read (R65, R74). -/
def patch (got : Pieces) (lm : Bool) (a : Nat) (bs : List Byte) : List Byte :=
  ((List.range bs.length).zip bs).map fun e =>
    match got.find? fun p => p.1 == (lm, (a + e.1) / 8) with
    | some p => p.2.getD ((a + e.1) % 8) 0
    | none => e.2

/-- A read of the space SP names: 0x27 above the global space, else the home's or the local memory's checks; with the
pieces that were read ahead. A reply crosses the lattice only where it is up (R362). -/
def State.spaceRead (s : State) (c : Nat) (got : Pieces) (lm : Bool) (a : W64) (n : Nat) :
    Except (Cause × W64) (List Byte) :=
  if lm then
    match s.lmRead c a.toNat n with
    | .error e => .error (e, a)
    | .ok bs => .ok (patch got true a.toNat bs)
  else if beyondGlobal a then .error (0x27, a)
  else if !s.reaches c a.toNat then .error (retryCode, a)
  else
    match s.homeRead (s.asker c) .load a.toNat n with
    | .error e => .error (e, a)
    | .ok bs => .ok (patch got false a.toNat bs)

/-- The elements of a gather from the `i`-th on: the first failure in index order (R160). -/
def State.gatherFrom (s : State) (c : Nat) (got : Pieces) (lm : Bool) (e : Nat) (base idx : W64) : Nat → Nat →
    Except (Cause × W64) (List Byte)
  | _, 0 => .ok []
  | i, n + 1 =>
    match s.spaceRead c got true (idx + BitVec.ofNat 64 (4 * i)) 4 with
    | .error x => .error x
    | .ok ib =>
      match s.spaceRead c got lm (base + BitVec.ofNat 64 (leNat ib * e)) e with
      | .error x => .error x
      | .ok bs =>
        match s.gatherFrom c got lm e base idx (i + 1) n with
        | .error x => .error x
        | .ok r => .ok (bs ++ r)

/-- The read of a trailer. -/
def State.trailerRead (s : State) (c : Nat) (got : Pieces) (lm : Bool) (a : W64) : AccStatus :=
  if a.toNat % 32 ≠ 0 then .fail 0x02 a
  else
    match s.spaceRead c got lm a 32 with
    | .error e => if e.1 = retryCode then .sent else .fail e.1 e.2
    | .ok bs => .data bs

/-- Whether a trailer agrees with the CRC of the bytes delivered: one whose status is lossy is not compared (R170,
R255). -/
def trailerAgrees (t : List Byte) (crc : W32) : Bool :=
  t.getD 31 0 == 0x02 || leNat ((t.drop 8).take 4) == (crcOut crc).toNat

/-- What an LDS delivers (R169, R170), with the trailer that the operation behind it has read, if there is one; 0x25 on a
mismatch. Log 59, DEDUCED. -/
def State.ldsDone (s : State) (c : Nat) (got : Pieces) (st : BitVec 4) (r : StreamReg) (q : BitVec 3)
    (trailer : Option AccStatus) : LDone :=
  match s.spaceRead c got r.lay.sp r.ent r.lay.bytes with
  | .error e => .fail e.1 e.2
  | .ok bs =>
    match if r.lay.gbytes = 0 then Except.ok [] else s.spaceRead c got r.lay.sp r.grp r.lay.gbytes with
    | .error e => .fail e.1 e.2
    | .ok gs =>
      let es := (q, bs) :: (if r.lay.gbytes = 0 then [] else [(r.lay.sq, gs)])
      let now := (s.ctx c).getSt st
      let crc := crcFold now.crc bs
      let next := if r.lay.tc then some (st, { now with crc := crc }) else none
      match trailer with
      | none => .entries es next
      | some (.fail k a) => .fail k a
      | some (.data t) => if trailerAgrees t crc then .entries es next else .fail 0x25 r.lay.tbase
      | some _ => .trailer

/-- A line as it is read with the pieces that were read ahead: of a line that the cache holds, nothing is (R65, R76). -/
def State.layoutPatched (s : State) (c : Nat) (got : Pieces) (a : Nat) (l : LayoutLine) : LayoutLine :=
  if (s.layoutHit c a).isSome then l
  else { l with ws := (List.range 8).map fun i => wordAt (patch got false a (wordsLE l.ws)) i }

/-- A record read and checked through the layout cache (R76, R168). -/
def State.layoutRecord (s : State) (c : Nat) (got : Pieces) (a : W64) : Except (Cause × W64) LayoutLine :=
  match s.layoutRead c a.toNat with
  | .error e => .error (e, a)
  | .ok l =>
    let l := s.layoutPatched c got a.toNat l
    if recordValid l.ws then .ok l else .error (0x26, a)

/-- What the operation at the head of the L access queue does now; `behind` is the one behind it. -/
def State.lDone (s : State) (c : Nat) (a : LAccess) (behind : Option LAccess) : LDone :=
  match a.status with
  | .fail cause addr => .fail cause addr
  | .held _ => .later
  | .data bs =>
    match a.kind with
    | .reg _ _ n d sx => .reg d (extendData sx n bs)
    | .entry _ _ _ q => .entries [(q, bs)] none
    | .trailer _ _ => .entries [] none
    | _ => .later
  | .sent =>
    if let some addr := a.bad then .fail 0x24 addr else
    match a.kind with
    | .reg true addr n d sx =>
      match s.spaceRead c a.got true addr n with
      | .error e => .fail e.1 e.2
      | .ok bs => .reg d (extendData sx n bs)
    | .entry true addr n q =>
      match s.spaceRead c a.got true addr n with
      | .error e => .fail e.1 e.2
      | .ok bs => .entries [(q, bs)] none
    | .reg false _ _ _ _ | .entry false _ _ _ | .trailer _ _ => .later
    | .lds st r q =>
      s.ldsDone c a.got st r q (if r.endsTile then some ((behind.map (·.status)).getD .sent) else none)
    | .gath q lm e n base idx =>
      match s.gatherFrom c a.got lm e base idx 0 n with
      | .error x => .fail x.1 x.2
      | .ok bs => .entries [(q, bs)] none
    | .stcfg st addr =>
      match s.layoutRecord c a.got addr with
      | .error e => .fail e.1 e.2
      | .ok l => .config st { conf := true, lay := layoutOf l.ws } addr.toNat l
    | .ldlay d addr k =>
      match s.layoutRecord c a.got addr with
      | .error e => .fail e.1 e.2
      | .ok l => .word d (l.ws.getD k.toNat 0) addr.toNat l
    | .pref lvl addr n => .lines lvl ((List.range n).map fun i => addr.toNat / 256 * 256 + 256 * i)

/-- A value that an earlier load writes reaches the live register and every later word's saved stream (R155). -/
def Ctx.loadG (x : Ctx) (d : BitVec 5) (v : W64) : Ctx :=
  { x with l := x.l.setG d v, laccess := x.laccess.map fun a => { a with undo := a.undo.setG d v } }

/-- A stream register's change by an earlier operation reaches the live one, by `f`, and every later saved one. -/
def Ctx.loadSt (x : Ctx) (i : BitVec 4) (f : StreamReg → StreamReg) : Ctx :=
  { x.setSt i (f (x.getSt i)) with
    laccess := x.laccess.map fun a =>
      { a with undoSt := a.undoSt.set i.toNat (f (a.undoSt[i.toNat]'(i.isLt))) (i.isLt) } }

/-! ## Reads ahead of the head (R64, R65, R74) -/

/-- The aligned 8-byte pieces that `n` bytes from an address lie in. -/
def piecesOf (lm : Bool) (a n : Nat) : List (Bool × Nat) :=
  (List.range ((a + n + 7) / 8 - a / 8)).map fun i => (lm, a / 8 + i)

/-- The pieces that an outstanding operation reads: the elements of a gather by the index vector as it now stands. -/
def State.readsOf (s : State) (c : Nat) (a : LAccess) : List (Bool × Nat) :=
  match a.kind with
  | .reg lm addr n _ _ | .entry lm addr n _ => piecesOf lm addr.toNat n
  | .lds _ r _ => piecesOf r.lay.sp r.ent.toNat r.lay.bytes ++ piecesOf r.lay.sp r.grp.toNat r.lay.gbytes
  | .gath _ lm e n base idx =>
    (List.range n).flatMap fun i =>
      let at_ := idx + BitVec.ofNat 64 (4 * i)
      piecesOf true at_.toNat 4 ++
        piecesOf lm (base + BitVec.ofNat 64 (leNat (s.readLoc (.lm c at_.toNat) 4) * e)).toNat e
  | .stcfg _ addr | .ldlay _ addr _ => if (s.layoutHit c addr.toNat).isSome then [] else piecesOf false addr.toNat 64
  | .trailer lm addr => piecesOf lm addr.toNat 32
  | .pref _ _ _ => []

/-- The pieces that an operation has still to read. -/
def State.unread (s : State) (c : Nat) (a : LAccess) : List (Bool × Nat) :=
  if a.status = .sent then (s.readsOf c a).filter fun k => !(a.got.any fun g => g.1 == k) else []

/-- A piece of the global space as its home finds it for an asker, where it can be read and is not poisoned: poison is met
by the whole access (R79). -/
def State.homePiece (s : State) (who : Asker) (acc : Acc) (k : Nat) : Option (List Byte) :=
  match s.homeCheck who acc (8 * k) 8 with
  | .ok loc _ => if s.poisonedLoc loc 8 then none else some (s.readLoc loc 8)
  | _ => none

/-- A piece as it stands, where a core can read it. -/
def State.readPiece (s : State) (c : Nat) (k : Bool × Nat) : Option (List Byte) :=
  if k.1 then (s.lmRead c (8 * k.2) 8).toOption else s.homePiece (s.asker c) .load k.2

/-- The reads of the global space that an operation makes itself, each with its length: what a flit of a reply can answer
(R78). -/
def State.spaceReads (s : State) (c : Nat) (a : LAccess) : List (W64 × Nat) :=
  match a.kind with
  | .reg _ _ _ _ _ | .entry _ _ _ _ | .pref _ _ _ => []
  | .lds _ r _ => if r.lay.sp then [] else [(r.ent, r.lay.bytes), (r.grp, r.lay.gbytes)]
  | .gath _ lm e n base idx =>
    if lm then []
    else (List.range n).map fun i =>
      (base + BitVec.ofNat 64 (leNat (s.readLoc (.lm c (idx + BitVec.ofNat 64 (4 * i)).toNat) 4) * e), e)
  | .stcfg _ addr | .ldlay _ addr _ => if (s.layoutHit c addr.toNat).isSome then [] else [(addr, 64)]
  | .trailer lm addr => if lm then [] else [(addr, 32)]

/-- A flit of a reply to an operation of the L access queue was given up: the read that its sectors answer consumes poison
(R78, R79, R338). -/
def State.poisonRead (s : State) (c : Nat) (a : LAccess) (addr : W64) (n : Nat) : LAccess :=
  let meets := fun (e : W64 × Nat) => decide (e.1.toNat < addr.toNat + n) && decide (addr.toNat < e.1.toNat + e.2)
  match if a.status = .sent then (s.spaceReads c a).find? meets else none with
  | some e => { a with bad := some e.1 }
  | none => a

/-- Whether an operation's reads are made by the access queue itself: those of LD, and of LDR, travel as requests. -/
def LAccess.ownReads (a : LAccess) : Bool :=
  match a.kind with
  | .reg false _ _ _ _ | .entry false _ _ _ => false
  | _ => true

/-- Whether an outstanding operation has still to read a piece: by itself, or at the home that its request has yet to be
served by. -/
def State.stillReads (s : State) (c : Nat) (a : LAccess) (k : Bool × Nat) : Bool :=
  (s.unread c a).contains k &&
    (a.ownReads || s.reqs.any fun r =>
      r.core == c && r.lstream && r.tk == a.tk && !(r.got.any fun g => g.1 == k) &&
        match r.stage with
        | .answered _ _ _ _ => false
        | .travelling | .refused _ => true)

/-- Operation `op` of the L access queue reads its unread piece number `piece` ahead of its completion: pieces are read in
no fixed order, but none that an earlier operation has still to read (R64, R74). Log 6, DESIGN CHOICE. -/
def State.readAhead (s : State) (c op piece : Nat) : State :=
  let q := (s.ctx c).laccess
  match q[op]? with
  | none => s
  | some a =>
    match (s.unread c a)[piece]? with
    | none => s
    | some k =>
      let earlier := (q.take op).any fun b => s.stillReads c b k
      match if a.ownReads && !earlier then s.readPiece c k else none with
      | none => s
      | some bs => s.updCtx c fun x => { x with laccess := x.laccess.set op { a with got := a.got ++ [(k, bs)] } }

/-- The line at an address that a prefetch asks for: dropped and counted where a check of R51 would refuse it
(R164), or where its home answers retry-after. The counter counts lines. Log 71, DESIGN CHOICE. -/
def State.prefLine (s : State) (c : Nat) (lvl : BitVec 2) (a : Nat) : State :=
  let refused := decide (2 ^ 56 ≤ a) ||
    match s.homeCheck (s.asker c) .load a 256 with
    | .ok _ _ | .foreign _ => false
    | .fail _ | .retry => true
  if refused then s.updCtx c fun x => { x with prefDrops := x.prefDrops + 1 }
  else if lvl = 0 then s.cacheAccess c a 256
  else s.touch (s.asker c) .load a 256

/-- THE CUT BEFORE A FAULTING ACCESS: its word and every later one are withdrawn, the entries that they allocated
leave their queues, and their requests are forgotten (R155). Retired sections stay retired. Log 63, DEDUCED. -/
def State.withdrawL (s : State) (c : Nat) (a : LAccess) : State :=
  let s := { s with reqs := s.reqs.filter fun r => !(r.core == c && r.lstream && a.tk ≤ r.tk) }
  s.updCtx c fun x =>
    { x with
      l := { a.undo with retired := x.l.retired, left := x.l.left.filter fun t => t ≤ a.tk }
      st := a.undoSt
      laccess := []
      lq := x.lq.map fun q => q.withdraw a.tk
      bq := x.bq.withdraw a.tk }

/-- A fault at the head of the L access queue: the cut before its word, with its cause unless the stream already
stands at a cut (R155, R175). -/
def State.faultL (s : State) (c : Nat) (a : LAccess) (cause : Cause) (addr : W64) : State :=
  let quiet := (s.ctx c).lcut
  let s := s.withdrawL c a
  if quiet then s else takeTrap s c .l cause 0 addr a.seq a.syl

/-- The operation behind a queue's head that reads a trailer reads it. -/
def State.readTrailer (s : State) (c : Nat) (b : LAccess) : AccStatus :=
  match b.kind with
  | .trailer lm addr => match b.bad with
    | some a => .fail 0x24 a
    | none => s.trailerRead c b.got lm addr
  | _ => b.status

/-- The time after which an unanswered request is sent again (R330). Log 15, DESIGN CHOICE. -/
def replyTimeout : Nat := 20000

/-- The time until a read that met no answer is sent again: the home's delay after retry-after, or the time of a lost request
(R330, R362, R367). -/
def State.resendDelay (s : State) (c a : Nat) : Nat :=
  match if s.reaches c a then s.homeTile (s.partOf c) a else none with
  | some t => 64 * (s.tile t).migDly.toNat
  | none => replyTimeout

/-- A read that the head of the L access queue makes itself meets no answer: it is sent again after a time, and after 8 sends
ends with 0x47 (R330, R362). Log 51, DEDUCED. -/
def State.rereadL (s : State) (c : Nat) (a : LAccess) (rest : List LAccess) (addr : W64) : State :=
  if maxSends ≤ a.sends then s.faultL c a 0x47 addr
  else s.updCtx c fun x =>
    { x with laccess := { a with resendAt := some (s.now + s.resendDelay c addr.toNat), sends := a.sends + 1 } :: rest }

/-- The read of the trailer behind the head of the L access queue is made, or is to be sent again. -/
def State.completeTrailer (s : State) (c : Nat) (a : LAccess) (rest : List LAccess) : State :=
  match rest with
  | [] => s
  | b :: more =>
    match s.readTrailer c b, b.kind with
    | .sent, .trailer _ addr => s.rereadL c a rest addr
    | st, _ => s.updCtx c fun x => { x with laccess := a :: { b with status := st } :: more }

/-- Whether the head of the L access queue waits to send a read again. -/
def LAccess.paused (a : LAccess) (now : Nat) : Bool := a.resendAt.any fun t => decide (now < t)

/-- The head of the L access queue completes, or its fault is raised (R153 to R155). -/
def execLAccessComplete (c : Nat) (s : State) : Result :=
  .next (
    match (s.ctx c).laccess with
    | [] => s
    | a :: rest =>
      if a.paused s.now then s else
      let t := s.updCtx c fun x => { x with laccess := rest }
      match s.lDone c a rest.head? with
      | .later => s
      | .trailer => s.completeTrailer c a rest
      | .fail cause addr => if cause = retryCode then s.rereadL c a rest addr else s.faultL c a cause addr
      | .reg d v => t.onCore c fun x => x.loadG d v
      | .entries es st =>
        t.onCore c fun x =>
          let x := es.foldl (fun x e => x.updLq e.1 fun q => q.fill a.tk e.2) x
          match st with
          | none => x
          | some (i, r) => x.loadSt i fun old => { old with crc := r.crc }
      | .config i r k line => (t.layoutKeep c k line).onCore c fun x => x.loadSt i fun _ => r
      | .word d v k line => (t.layoutKeep c k line).onCore c fun x => x.loadG d v
      | .lines lvl as => (as.foldl (fun s l => s.prefLine c lvl l) t).onCore c fun x => x)

end Sys2Proof.Machine
end

