-- ==== Sys2Proof/Machine/Records.lean ====
section
/-! DEFINITION. The fields of copy-engine command records (R298 to R301). -/

namespace Sys2Proof

open Machine

/-- A record from eight words. -/
def recordOf (ws : List W64) : CmdRecord :=
  { w0 := ws.getD 0 0, w1 := ws.getD 1 0, w2 := ws.getD 2 0, w3 := ws.getD 3 0, w4 := ws.getD 4 0, w5 := ws.getD 5 0,
    w6 := ws.getD 6 0, w7 := ws.getD 7 0 }

/-- The fields of w0 (R298). -/
def CmdRecord.ord (r : CmdRecord) : Bool := bit r.w0 55
/-- CLS. -/
def CmdRecord.cls (r : CmdRecord) : Bool := bit r.w0 54
/-- NC. -/
def CmdRecord.nc (r : CmdRecord) : Bool := bit r.w0 53
/-- HV. -/
def CmdRecord.hv (r : CmdRecord) : Bool := bit r.w0 52
/-- H. -/
def CmdRecord.h (r : CmdRecord) : Nat := fld r.w0 46 6
/-- BE. -/
def CmdRecord.be (r : CmdRecord) : Bool := bit r.w0 45
/-- BAR. -/
def CmdRecord.bar (r : CmdRecord) : Nat := fld r.w0 37 8
/-- FSCOPE. -/
def CmdRecord.fscope (r : CmdRecord) : Nat := fld r.w0 34 3
/-- TRL. -/
def CmdRecord.trl (r : CmdRecord) : Bool := bit r.w0 33
/-- DL. -/
def CmdRecord.dl (r : CmdRecord) : Bool := bit r.w0 32
/-- SL. -/
def CmdRecord.sl (r : CmdRecord) : Bool := bit r.w0 31
/-- INL. -/
def CmdRecord.inl (r : CmdRecord) : Bool := bit r.w0 30
/-- TAG. -/
def CmdRecord.tag (r : CmdRecord) : Nat := fld r.w0 0 24
/-- LEN (R299). -/
def CmdRecord.len (r : CmdRecord) : Nat := fld r.w3 0 32
/-- N1, 1 where the command has none. -/
def CmdRecord.n1 (r : CmdRecord) : Nat := if r.opc = 2 ∨ r.opc = 3 then fld r.w5 0 32 else 1
/-- N2, 1 where the command has none. -/
def CmdRecord.n2 (r : CmdRecord) : Nat := if r.opc = 3 then fld r.w5 32 32 else 1

/-- The counted bytes of a command (R299); a reserved opcode counts none (R300). -/
def CmdRecord.counted (r : CmdRecord) : Nat :=
  if !opcKnown r.opc ∨ 0x0B ≤ r.opc then 0
  else if r.opc = 9 then r.len * popFrom r.w4.toNat 64
  else r.len * r.n1 * r.n2

/-- Whether a command needs a circuit at PUSH (R301). -/
def CmdRecord.bound (r : CmdRecord) : Bool := r.hv && ((1 ≤ r.opc && r.opc ≤ 5) || r.opc == 7)

end Sys2Proof
end

