-- ==== Sys2Proof/Machine/Store.lean ====
section
/-! DEFINITION. The S stream: stores, the engine FIFOs, RGX, fences, waits on addresses, triggers and sends, and the
completion of its access queue (R208 to R221, R230 to R235). -/

namespace Sys2Proof.Machine

/-! ## The access queue (R208 to R210) -/

/-- Enters an operation in the S access queue. -/
def State.pushS (s : State) (kind : SKind) (status : AccStatus) : State :=
  s.updMe fun x => { x with saccess := x.saccess ++ [({ tk := x.tk, kind := kind, status := status } : SAccess)] }

/-- Whether the access queue is full. -/
def Ctx.sFull (x : Ctx) : Bool := accessDepth ≤ x.saccess.length

/-- The commit buffer's depth (R234). -/
def commitDepth : Nat := 8

/-- Whether an address is one of the host window. -/
def inHostWindow (a : W64) : Bool := !beyondGlobal a && panelOf a.toNat == 0xFF

/-- The host-bound writes of an outstanding store: its data, and an STR's flag (R234). -/
def SAccess.hostBound (a : SAccess) : Nat :=
  match a.kind with
  | .glob addr _ => if inHostWindow addr then 1 else 0
  | .str addr _ flag _ => (if inHostWindow addr then 1 else 0) + (if inHostWindow flag then 1 else 0)
  | _ => 0

/-- Whether `n` more host-bound writes would overfill the commit buffer. -/
def Ctx.commitFull (x : Ctx) (n : Nat) : Bool :=
  commitDepth < x.commit.length + (x.saccess.map SAccess.hostBound).sum + n

/-- Enters a store in the access queue and sends its request; 0x27 above the global space (R209, R212). -/
def State.pushStore (s : State) (lm : Bool) (a : W64) (bs : List Byte) : State :=
  if lm then s.pushS (.loc a bs) .sent
  else if beyondGlobal a then s.pushS (.glob a bs) (.fail 0x27 a)
  else (s.pushS (.glob a bs) .sent).sendReq s.core s.me.tk false a (.store bs)

/-- Why a store with these global addresses must wait at issue: the access queue, the unanswered requests, or the commit
buffer (R20, R234, R328). -/
def State.storeWait (s : State) (lm : Bool) (as : List W64) : Option WaitReason :=
  let x := s.me
  let host := as.countP inHostWindow
  if x.sFull then some .access
  else if lm then none
  else if !x.canSend then some .access
  else if host ≠ 0 ∧ x.commitFull host then some .commitBuffer
  else none

/-- ST and STL from a g register (R212). -/
def State.storeReg (s : State) (lm : Bool) (b : BitVec 5) (a : W64) (sz : BitVec 2) : State :=
  let n := szBytes sz
  if a.toNat % n ≠ 0 then s.trapWith 0x02 0 a
  else
    match s.storeWait lm [a] with
    | some r => s.waitNow r
    | none => s.pushStore lm a ((wordLE (s.rg b)).take n)

/-- Pops the head entry of an sq for the word at work. -/
def State.popSq (s : State) (q : BitVec 3) (e : QEntry) : State :=
  s.updMe fun x => (x.updSq q Queue.popHead).note (.sq q e)

/-- A queue form of a store: its entry, or the wait or trap that it meets first (R212). -/
def State.sqEntry (s : State) (q : BitVec 3) (n : Nat) (a : W64) : Except (WaitReason ⊕ Cause) QEntry :=
  match (s.me.getSq q).entries with
  | [] => .error (.inl .queueEmpty)
  | e :: _ =>
    if e.data.length ≠ n then .error (.inr 0x07)
    else if a.toNat % 8 ≠ 0 ∨ !oneBlock a.toNat n then .error (.inr 0x02)
    else .ok e

/-- A wait, or a trap with a faulting address. -/
def State.meet (s : State) (a : W64) : WaitReason ⊕ Cause → State
  | .inl r => s.waitNow r
  | .inr c => s.trapWith c 0 (if c = 0x02 then a else 0)

/-- ST and STL from an sq entry (R212). -/
def State.storeEntry (s : State) (lm : Bool) (q : BitVec 3) (a : W64) (e : BitVec 5) : State :=
  match s.sqEntry q (entryBytes e) a with
  | .error m => s.meet a m
  | .ok en =>
    match s.storeWait lm [a] with
    | some r => s.waitNow r
    | none => (s.popSq q en).pushStore lm a en.data

/-- An operation on an sq of declared depth 0 raises 0x01, whatever its guard (R19, R117). -/
def State.onSq (s : State) (q : BitVec 3) (gd : Guard) (f : State → State) : Result :=
  if (s.me.getSq q).depth = 0 then .next (s.trapNow 0x01) else guarded gd s f

/-- ST from a register (R212). -/
def execSt (gd : Guard) (b a : BitVec 5) (sz : BitVec 2) (s : State) : Result :=
  guarded gd s fun s => s.storeReg false b (s.addr a 0) sz

/-- ST from an sq entry (R212). -/
def execStQ (gd : Guard) (q : BitVec 3) (a e : BitVec 5) (s : State) : Result :=
  s.onSq q gd fun s => s.storeEntry false q (s.addr a 0) e

/-- ST with an offset, in both forms (R212). -/
def execStOffset (gd : Guard) (f : StForm) (a : BitVec 5) (off : Wide) (s : State) : Result :=
  match f with
  | .reg b sz => guarded gd s fun s => s.storeReg false b (s.addr a (wideVal off)) sz
  | .queue q e => s.onSq q gd fun s => s.storeEntry false q (s.addr a (wideVal off)) e

/-- STL from a register (R212). -/
def execStl (gd : Guard) (b a : BitVec 5) (sz : BitVec 2) (s : State) : Result :=
  guarded gd s fun s => s.storeReg true b (s.addr a 0) sz

/-- STL from an sq entry (R212). -/
def execStlQ (gd : Guard) (q : BitVec 3) (a e : BitVec 5) (s : State) : Result :=
  s.onSq q gd fun s => s.storeEntry true q (s.addr a 0) e

/-- STL with an offset, in both forms (R212). -/
def execStlOffset (gd : Guard) (f : StForm) (a : BitVec 5) (off : Wide) (s : State) : Result :=
  match f with
  | .reg b sz => guarded gd s fun s => s.storeReg true b (s.addr a (wideVal off)) sz
  | .queue q e => s.onSq q gd fun s => s.storeEntry true q (s.addr a (wideVal off)) e

/-- Enters an STR with a flag in the access queue and sends its request (R213). -/
def State.pushStr (s : State) (a : W64) (bs : List Byte) (flag : W64) (sc : Scope) : State :=
  if beyondGlobal a then s.pushS (.str a bs flag sc) (.fail 0x27 a)
  else if beyondGlobal flag then s.pushS (.str a bs flag sc) (.fail 0x27 flag)
  else (s.pushS (.str a bs flag sc) .sent).sendReq s.core s.me.tk false a (.str bs flag)

/-- STR: with F = 0, the queue form of ST; else the entry and a flag to add to (R213). -/
def State.storeFlag (s : State) (q : BitVec 3) (a : W64) (f e : BitVec 5) (sc : Scope) : State :=
  if f = 0 then s.storeEntry false q a e
  else
    let flag := s.rg f
    match s.sqEntry q (entryBytes e) a with
    | .error m => s.meet a m
    | .ok en =>
      if flag.toNat % 8 ≠ 0 then s.trapWith 0x02 0 flag
      else
        match s.storeWait false [a, flag] with
        | some r => s.waitNow r
        | none => (s.popSq q en).pushStr a en.data flag sc

/-- STR (R213). -/
def execStr (gd : Guard) (q : BitVec 3) (a f e : BitVec 5) (s : State) : Result :=
  s.onSq q gd fun s => s.storeFlag q (s.addr a 0) f e .system

/-- STR with an offset and perhaps a scope; without one the scope is system (R213). -/
def execStrOffset (gd : Guard) (q : BitVec 3) (a f e : BitVec 5) (off : W32) (sc : Option Scope) (s : State) : Result :=
  s.onSq q gd fun s => s.storeFlag q (s.addr a (off.signExtend 64)) f e (sc.getD .system)

/-- What the operation at the head of the S access queue does now. -/
inductive SDone where
  | later
  | fail (cause : Cause) (addr : W64)
  | write (loc : Loc) (bs : List Byte) (flag : Option FlagAdd)
  | reg (d : BitVec 5) (v : W64)
deriving DecidableEq, Repr

/-- The outcome of the head of the S access queue (R208, R209). -/
def State.sDone (s : State) (c : Nat) (a : SAccess) : SDone :=
  match a.status, a.kind with
  | .fail cause addr, _ => .fail cause addr
  | .sent, .loc addr bs => if s.lmOk c addr.toNat bs.length then .write (.lm c addr.toNat) bs none else .fail 0x22 addr
  | .held [loc], .glob _ bs => .write loc bs none
  | .held [loc, fl], .str _ bs flag sc => .write loc bs (some { addr := flag, loc := fl, sc := sc, tk := a.tk })
  | .data bs, .rgx d _ _ _ => .reg d (leWord bs)
  | _, _ => .later

/-- Performs a committed store: at its place, or into the commit buffer where it is bound for the host (R209, R234). Of a
store that has gone ahead piece by piece, the pieces that are left (R74). Log 6, DESIGN CHOICE. -/
def State.commitStore (s : State) (c : Nat) (a : SAccess) (loc : Loc) (bs : List Byte) : State :=
  match loc with
  | .host port k _ => s.updCtx c fun x => { x with commit := x.commit ++ [{ addr := k, bs := bs, port := port, tk := a.tk }] }
  | loc => s.writeLeft loc bs a.todo a.bad

/-- Whether a request is an S stream's access with a stamp from `tk` on. -/
def Request.storeFrom (r : Request) (c tk : Nat) : Bool :=
  r.core == c && !r.lstream && tk ≤ r.tk &&
    match r.op with
    | .store _ | .str _ _ | .rgx _ _ => true
    | _ => false

/-- Undoes what a note of the S stream of core `c` says (R210). -/
def State.undoNote (s : State) (c : Nat) (u : SUndo) : State :=
  match u with
  | .sq q e => s.updCtx c fun x => x.updSq q fun y => y.unpop e
  | .f1 e => s.updCtx c fun x => { x with f1 := e :: x.f1, fifoHead := x.fifoHead.set 1 (x.fifoHead[1] - 1) }
  | .f2 e => s.updCtx c fun x => { x with f2 := e :: x.f2, fifoHead := x.fifoHead.set 2 (x.fifoHead[2] - 1) }
  | .f3 e => s.updCtx c fun x => { x with f3 := e :: x.f3, fifoHead := x.fifoHead.set 3 (x.fifoHead[3] - 1) }
  | .awp awp bar => s.updCtx c fun x => { x with awp := awp, awpBar := bar }
  | .vartab v err => s.updCtx c fun x => { x with vartab := v, varErr := err }
  | .waited key w =>
    let fl := (s.ctx c).flock.getD 0
    s.updBar fl key fun i => i.updParty (partyId fl (s.ctx c).member) fun p => { p with w := w }

/-- Takes back the arrivals, the commands with their counted bytes and the WAITAs of words from stamp `tk` on (R210, R218,
R224, R227): none of them has gone on, for each waits for the access that faults. -/
def State.takeBack (s : State) (c tk : Nat) : State :=
  let x := s.ctx c
  let fl := x.flock.getD 0
  let s := (x.arrivals.filter fun a => decide (tk ≤ a.2)).foldl
    (fun s a => s.updBar fl a.1 fun i => i.updParty (partyId fl x.member) fun p => { p with issued := p.issued - 1 }) s
  let gone := x.f0.filter fun e => decide (tk ≤ e.tk)
  let s := gone.foldl (fun s e => match e.bar with
    | none => s
    | some (key, ph) => s.updBar fl key fun i => i.subPending ph e.cmd.counted) s
  s.updCtx c fun x =>
    { x with
      arrivals := x.arrivals.filter fun a => !decide (tk ≤ a.2)
      f0 := x.f0.filter fun e => !decide (tk ≤ e.tk)
      fifoTail := x.fifoTail.set 0 (x.fifoTail[0] - BitVec.ofNat 16 gone.length)
      sends := x.sends.filter fun b => !decide (tk ≤ b.tk)
      overs := x.overs.filter fun o => !decide (tk ≤ o.1)
      waits := x.waits.filter fun w => !decide (tk ≤ w.tk)
      f2res := x.f2res - (x.waits.countP fun w => decide (tk ≤ w.tk) && !w.done)
      trigPending := x.trigPending && decide (x.trigTk < tk) }

/-- THE CUT BEFORE A FAULTING STORE: its word and every later one are withdrawn, held stores are cancelled at their
homes, popped entries return to the heads of their queues in order, and nothing of a later word stays in the FIFOs, the
barriers or the context (R210). -/
def State.withdrawS (s : State) (c : Nat) (a : SAccess) : State :=
  let gone := (s.reqs.filter fun r => r.storeFrom c a.tk).map (·.num)
  let s := { s with reqs := s.reqs.filter fun r => !r.storeFrom c a.tk }
  let notes := (s.ctx c).slog.filter fun e => decide (a.tk ≤ e.1)
  let s := (notes.foldr (fun e s => s.undoNote c e.2) s).takeBack c a.tk
  s.updCtx c fun x =>
    { x with
      s := { a.undo with retired := x.s.retired, left := x.s.left.filter fun t => t ≤ a.tk }
      saccess := []
      slog := []
      unanswered := x.unanswered.filter fun n => !gone.contains n }

/-- A fault at the head of the S access queue (R210, R235). -/
def State.faultS (s : State) (c : Nat) (a : SAccess) (cause : Cause) (addr : W64) : State :=
  let quiet := (s.ctx c).scut
  let s := s.withdrawS c a
  if quiet then s else takeTrap s c .s cause 0 addr a.seq a.syl

/-- Puts sent bytes on the circuit of a core's handle; bytes of a circuit that is gone are discarded. -/
def State.putOnCircuit (s : State) (c h : Nat) (bs : List Byte) : State :=
  let id := (s.ctx c).logical
  s.updPart (s.partOf c) fun pt =>
    { pt with drover := { pt.drover with
        circuits := pt.drover.circuits.map fun k =>
          if k.h == h && k.send == id then { k with inFlight := k.inFlight ++ bs } else k } }

/-- Sends leave once no earlier access of their stream can fault (R210). -/
def State.flushSends (s : State) (c : Nat) : State :=
  let free := fun (x : Ctx) (b : SentBytes) => !x.saccess.any fun a => decide (a.tk ≤ b.tk)
  let x := s.ctx c
  ((x.sends.filter (free x)).foldl (fun s b => s.putOnCircuit c b.h b.bs) s).updCtx c fun x =>
    { x with sends := x.sends.filter fun b => !free x b }

/-- Phases whose pending bytes a command overflows are in error, once no earlier access of the stream can fault (R210,
R227). -/
def State.flushOvers (s : State) (c : Nat) : State :=
  let x := s.ctx c
  let free := fun (o : Nat × Nat × Nat) => !x.saccess.any fun a => decide (a.tk ≤ o.1)
  ((x.overs.filter free).foldl (fun s o => s.updBar (x.flock.getD 0) o.2.1 fun b => b.markError o.2.2 0x16) s).updCtx c fun x =>
    { x with overs := x.overs.filter fun o => !free o }

/-- An operation has left the S access queue. -/
def State.leftQueue (s : State) (c : Nat) (f : Ctx → Ctx) : State :=
  ((s.onCore c fun x => (f x).trimLog).flushSends c).flushOvers c

/-- Keeps the flag of a committed STR until its data is visible: one in the host window in the commit buffer, behind its
data (R213, R234). -/
def Ctx.keepFlag (x : Ctx) (f : FlagAdd) : Ctx :=
  match f.loc with
  | .host port k _ => { x with commit := x.commit ++ [{ addr := k, bs := [], port := port, tk := f.tk, flag := some f }] }
  | _ => { x with flagAdds := x.flagAdds ++ [f] }

/-- At system scope, host-bound writes are visible once the ports have handed them on (R75). -/
def State.visibleAt (s : State) (sc : Scope) : State := if sc = .system then s.drainAll else s

/-- Whether `n` bytes of one place and `m` bytes of another have a byte in common. -/
def Loc.meets (l : Loc) (n : Nat) (k : Loc) (m : Nat) : Bool :=
  match l, k with
  | .panel t o, .panel u p => t == u && decide (o < p + m) && decide (p < o + n)
  | .lm c o, .lm d p => c == d && decide (o < p + m) && decide (p < o + n)
  | .foreign p, .foreign q => p == q
  | _, _ => false

/-- Whether an earlier WAITA of the S stream may still have to arm on a place that a later event is to write: two events of
one stream on one location keep their order (R62, R64). -/
def State.armBefore (s : State) (c tk : Nat) (loc : Loc) (n : Nat) : Bool :=
  (s.ctx c).waits.any fun w => decide (w.tk < tk) && !w.armed && !w.done &&
    match s.homeCheck (s.asker c) .waita w.addr.toNat 8 with
    | .ok l _ => loc.meets n l 8
    | .foreign p => loc.meets n (.foreign p) 8
    | .retry => true
    | .fail _ => false

/-- A committed store is performed, once an earlier WAITA on its place has been answered: of an STR with a flag, a release,
only once every earlier host-bound write of the core is visible at its scope (R64, R213, R214). -/
def State.performStore (s : State) (c : Nat) (a : SAccess) (rest : List SAccess) (loc : Loc) (bs : List Byte)
    (flag : Option FlagAdd) : State :=
  let done := fun (s : State) => (s.updCtx c fun x => { x with saccess := rest }).commitStore c a loc bs
  if s.armBefore c a.tk loc bs.length then s
  else
    match flag with
    | none => (done s).leftQueue c id
    | some f => if (s.ctx c).commit ≠ [] then s else (done (s.visibleAt f.sc)).leftQueue c fun x => x.keepFlag f

/-- The head of the S access queue completes, or its fault is raised (R208 to R210). A store to another home may have been
performed before it (R209). Log 6, DESIGN CHOICE. -/
def execSAccessComplete (c : Nat) (s : State) : Result :=
  .next (
    match (s.ctx c).saccess with
    | [] => s
    | a :: rest =>
      match s.sDone c a with
      | .later => s
      | .fail cause addr => s.faultS c a cause addr
      | .write loc bs flag => s.performStore c a rest loc bs flag
      | .reg d v => s.leftQueue c fun x => { x with s := x.s.setG d v, saccess := rest })

/-- The committed store at the head of the S access queue performs one of its pieces ahead of the others: they take effect
in no fixed order (R74). Log 6, DESIGN CHOICE. -/
def State.storePiece (s : State) (c piece : Nat) : State :=
  match (s.ctx c).saccess with
  | [] => s
  | a :: rest =>
    match s.sDone c a with
    | .write (.host _ _ _) _ _ => s
    | .write loc bs none =>
      let todo := a.todo.getD (List.range (pieceCount bs.length))
      if decide (8 < bs.length) && todo.contains piece && !s.armBefore c a.tk loc bs.length then
        (s.storeOne loc bs piece).updCtx c fun x =>
          { x with saccess := { a with todo := some (todo.filter fun i => i != piece) } :: rest }
      else s
    | _ => s

/-- The home of a place that a store writes: a tile, the core's own local memory, or another panel; none for the host, whose
writes keep the order of the commit buffer (R234). -/
def Loc.home (l : Loc) : Option (Nat × Nat) :=
  match l with
  | .panel t _ => some (0, t)
  | .lm c _ => some (1, c)
  | .foreign p => some (2, p)
  | .host _ _ _ => none

/-- Whether an operation ahead of a store leaves it to be performed first: a store that has passed its checks, and whose home
is another (R209). -/
def State.passedBy (s : State) (c : Nat) (home : Nat × Nat) (b : SAccess) : Bool :=
  match s.sDone c b with
  | .write loc _ _ => decide (loc.home ≠ some home)
  | _ => false

/-- A store that has committed is performed before those ahead of it: stores to different homes are performed in no fixed
order, once every earlier operation has passed its checks (R209). Log 6, DESIGN CHOICE. -/
def State.storeAhead (s : State) (c ix : Nat) : State :=
  let q := (s.ctx c).saccess
  match q[ix]? with
  | none => s
  | some a =>
    match s.sDone c a with
    | .write loc bs none =>
      match loc.home with
      | none => s
      | some h => if (q.take ix).all (s.passedBy c h) then s.performStore c a (q.eraseIdx ix) loc bs none else s
    | _ => s

/-! ## Failures that are counted, and STR's flag (R213, R305) -/

/-- CESTAT of a command with NC = 1, or an STR flag, that did not succeed (R305). -/
def Ctx.ncFail (x : Ctx) (cause : Cause) : Ctx :=
  { x with fcause := if x.fcause = 0 then cause else x.fcause, nfail := satAdd 65535 x.nfail 1 }

/-- Adds to the 8-byte element at a place whose check stands: the old value, or a cause. A host's port hands the
AtomicOp on after every write that it accepted before, and the host may refuse it (R322, R375).
Log 54, DESIGN CHOICE. -/
def State.addAt (s : State) (loc : Loc) (v : W64) : Except Cause W64 × State :=
  match loc with
  | .host port a atomics =>
    let s := s.drainPort port (if h : port < 4 then (s.ports[port]).fifo.length else 0)
    if !atomics || Config.anyBool (s.freeIx (a + 1)) then (.error 0x22, s)
    else if s.poisonedLoc loc 8 then (.error 0x24, s)
    else
      let old := leWord (Memory.readN s.hostMem a 8)
      (.ok old, { s with hostMem := Memory.writeN s.hostMem a (wordLE (old + v)) })
  | .foreign _ =>
    let c := Config.foreignCause (s.freeIx 2)
    (if c = 0 then .ok (Config.anyWord (s.freeIx 3)) else .error c, s)
  | loc =>
    if s.poisonedLoc loc 8 then (.error 0x24, s)
    else
      let old := leWord (s.readLoc loc 8)
      (.ok old, s.writeLoc loc (wordLE (old + v)))

/-- The outcome of a flag's addition. -/
def Ctx.flagDone (x : Ctx) (r : Except Cause W64) : Ctx :=
  match r with
  | .ok _ => x
  | .error cause => x.ncFail cause

/-- The request to add 1 to the oldest flag of an STR, not yet sent, leaves once the data has passed its data-visible
point (R213, R328). -/
def execStrFlagAdd (c : Nat) (s : State) : Result :=
  .next (
    let x := s.ctx c
    match x.flagAdds.find? fun f => !f.sent with
    | none => s
    | some f =>
      if (x.commit.any fun w => decide (w.tk ≤ f.tk)) ∨ !x.canSend ∨ s.armBefore c f.tk f.loc 8 then s
      else
        (s.visibleAt f.sc |>.sendReq c f.tk false f.addr (.strAdd f.tk)).onCore c fun x =>
          { x with flagAdds := x.flagAdds.map fun g => if g.tk = f.tk then { g with sent := true } else g })

/-- The oldest host-bound write leaves the commit buffer for its host port (R234): a store's, or an STR flag's addition,
which the port hands on after every write that it accepted before (R75, R375). -/
def execCommitBufferRelease (c : Nat) (s : State) : Result :=
  .next (
    match (s.ctx c).commit with
    | [] => s
    | w :: rest =>
      match w.flag with
      | none => (s.acceptHost w.port w.addr w.bs).onCore c fun x => { x with commit := rest }
      | some f =>
        let r := (s.visibleAt f.sc).addAt f.loc 1
        r.2.onCore c fun x => ({ x with commit := rest } : Ctx).flagDone r.1)

/-! ## The engine FIFOs (R23, R214, R215, R301) -/

/-- Depths of f0 to f3 (R23). -/
def fifoDepth : Nat → Nat
  | 0 | 1 => 32
  | _ => 16

/-- Counts an entry taken from FIFO `k`. -/
def Ctx.tookFifo (x : Ctx) (k : Fin 4) : Ctx := { x with fifoHead := x.fifoHead.set k (x.fifoHead[k] + 1) }

/-- Counts an entry put into FIFO `k`. -/
def Ctx.gaveFifo (x : Ctx) (k : Fin 4) : Ctx := { x with fifoTail := x.fifoTail.set k (x.fifoTail[k] + 1) }

/-- Whether a barrier operand names a barrier that the flock's LAUNCH allocated (R127, R301). -/
def Flock.barOk (f : Flock) (bar : Nat) : Bool := (scopeOf (bar / 32)).isSome && f.allocated bar

/-- The circuit outbound on handle `h` from a core, if there is one (R335). -/
def State.outbound (s : State) (c : Nat) (h : Nat) : Option Circuit :=
  (s.circuits c).find? fun k => k.h == h && k.send == (s.ctx c).logical

/-- The most pending bytes of a phase (R227). -/
def maxPending : Nat := 2 ^ 56 - 1

/-- Counts a command's bytes into the phase a_m of its member's instance (R227). On overflow the phase is to be in error
with 0x16 and the command is not to be performed: its entry keeps no phase. -/
def State.countBytes (s : State) (r : CmdRecord) : Option (Nat × Nat) × State :=
  if !r.be then (none, s)
  else
    let x := s.me
    let fl := x.flock.getD 0
    let key := barKey r.bar x.logical
    let b := s.barInst fl key
    let ph := (b.party (partyId fl x.member)).issued
    if maxPending < b.pend.getD (ph - b.c) 0 + r.counted then
      (none, s.updMe fun x => { x with overs := x.overs ++ [(x.tk, key, ph)] })
    else (some (key, ph), s.updBar fl key fun b => b.addPending ph r.counted)

/-- The step that established the circuit of a command bound to a handle. -/
def State.stepOf (s : State) (c : Nat) (r : CmdRecord) : Option Nat :=
  if r.hv then (s.outbound c r.h).map (·.step) else none

/-- PUSH of a record (R214, R301). A phase that its bytes overflow is in error once earlier accesses can no longer fault. -/
def State.pushRecord (s : State) (sc : Scope) (r : CmdRecord) : State :=
  if r.be ∧ !s.myFlock.barOk r.bar then s.trapNow 0x01
  else if r.bound ∧ ((s.outbound s.core r.h).map (·.live)) ≠ some true then s.trapNow 0x41
  else
    let b := s.countBytes r
    (b.2.updMe fun x =>
      ({ x with f0 := x.f0 ++
          [({ cmd := r, scope := sc, tk := x.tk, bar := b.1, circ := s.stepOf s.core r } : F0Entry)] } : Ctx).gaveFifo 0).flushOvers
        s.core

/-- Why a PUSH waits: f0 is full. The S stream does not wait for the release: the command does (R214). -/
def State.pushWait (s : State) : Option WaitReason :=
  if fifoDepth 0 ≤ s.me.f0.length then some .queueFull else none

/-- PUSH from registers g[B] to g[B + 7] (R214). -/
def execPushReg (gd : Guard) (sc : Scope) (b : BitVec 5) (s : State) : Result :=
  guarded gd s fun s =>
    match s.pushWait with
    | some r => s.waitNow r
    | none => s.pushRecord sc (recordOf ((List.range 8).map fun k => s.rg (b + BitVec.ofNat 5 k)))

/-- PUSH from an sq entry of 64 bytes (R214). -/
def execPushSq (gd : Guard) (sc : Scope) (q : BitVec 3) (s : State) : Result :=
  s.onSq q gd fun s =>
    match s.pushWait with
    | some r => s.waitNow r
    | none =>
      match (s.me.getSq q).entries with
      | [] => s.waitNow .queueEmpty
      | e :: _ =>
        if e.data.length ≠ 64 then s.trapNow 0x07
        else (s.popSq q e).pushRecord sc (recordOf ((List.range 8).map fun k => wordAt e.data k))

/-- The words of the head entry of f1, f2 or f3, and the context without it, which notes it; `none` while the FIFO is empty
(R210, R215). -/
def Ctx.popFifo (x : Ctx) (f : BitVec 4) : Option (List W64 × Ctx) :=
  match f.toNat with
  | 1 =>
    match x.f1 with
    | [] => none
    | e :: t => some ([e.1, e.2], (({ x with f1 := t }).tookFifo 1).note (.f1 e))
  | 2 =>
    match x.f2 with
    | [] => none
    | e :: t => some ([e.1, e.2], (({ x with f2 := t }).tookFifo 2).note (.f2 e))
  | _ =>
    match x.f3 with
    | [] => none
    | e :: t => some ((List.range 4).map fun k => wordAt e k, (({ x with f3 := t }).tookFifo 3).note (.f3 e))

/-- Writes words to consecutive registers of the stream at work. -/
def State.wgs (s : State) (d : BitVec 5) (ws : List W64) : State :=
  ((List.range ws.length).zip ws).foldl (fun s e => s.wg (d + BitVec.ofNat 5 e.1) e.2) s

/-- POP: waits while the FIFO is empty (R215). -/
def execPop (gd : Guard) (f : BitVec 4) (d : BitVec 5) (s : State) : Result :=
  guarded gd s fun s =>
    match s.me.popFifo f with
    | none => s.waitNow .queueEmpty
    | some (ws, x) => (s.updMe fun _ => x).wgs d ws

/-- POP.try: never waits (R215). -/
def execPopTry (gd : Guard) (f : BitVec 4) (d : BitVec 5) (pd : BitVec 4) (s : State) : Result :=
  guarded gd s fun s =>
    match s.me.popFifo f with
    | none => s.wp pd false
    | some (ws, x) => ((s.updMe fun _ => x).wgs d ws).wp pd true

/-! ## RGX and FENCE (R216, R217) -/

/-- The scope of an RGX's release: the parties are cores of one panel, except where the region is on another (R60). -/
def State.rgxScope (s : State) (a : W64) : Scope := if panelOf a.toNat = s.glob.domid.toNat then .panel else .system

/-- Sends an RGX once every earlier event of the core has passed its data-visible point at the RGX's scope: accesses have
completed, host-bound writes have been accepted, and handed on at system scope (R60, R75). -/
def State.rgxAt (s : State) (d : BitVec 5) (a : W64) (exp new : W32) : State :=
  if s.me.saccess ≠ [] ∨ s.me.commit ≠ [] ∨ !s.me.canSend then s.waitNow .access
  else if beyondGlobal a then s.pushS (.rgx d a exp new) (.fail 0x27 a)
  else ((s.visibleAt (s.rgxScope a)).pushS (.rgx d a exp new) .sent).sendReq s.core s.me.tk false a (.rgx exp new)

/-- RGX with both entries in g[B] (R216). -/
def execRgx (gd : Guard) (d a b : BitVec 5) (s : State) : Result :=
  guarded gd s fun s =>
    s.rgxAt d (s.rg a) (BitVec.ofNat 32 (fld (s.rg b) 32 32)) (BitVec.ofNat 32 (fld (s.rg b) 0 32))

/-- RGX with immediate entries (R216). -/
def execRgxImm (gd : Guard) (d a : BitVec 5) (exp new : BitVec 14) (s : State) : Result :=
  guarded gd s fun s =>
    s.rgxAt d (s.rg a) (BitVec.ofNat 32 (exp.toNat * 2 ^ 18)) (BitVec.ofNat 32 (new.toNat * 2 ^ 18))

/-- Whether every earlier event and command of a core has passed its data-visible point, but for host-bound writes
that a port holds (R71, R217). Log 61, DEDUCED. -/
def State.quietCore (s : State) (c : Nat) : Bool :=
  let x := s.ctx c
  x.saccess.isEmpty && x.flagAdds.isEmpty && x.commit.isEmpty && x.f0.isEmpty && x.sends.isEmpty &&
    (x.started.all fun t => t.stage == .ended) &&
    (s.circuits c).all fun k => !(k.send == x.logical) || k.inFlight.isEmpty

/-- Whether the accesses and host-bound writes of words up to stamp `tk` have passed their data-visible points, but for
what a port holds. -/
def Ctx.eventsDone (x : Ctx) (tk : Nat) : Bool :=
  !(x.saccess.any fun a => decide (a.tk ≤ tk)) && !(x.commit.any fun w => decide (w.tk ≤ tk))

/-- Whether every event and command of a core up to stamp `tk` has passed its data-visible point, but for what a port
holds (R230). -/
def Ctx.quietUpTo (x : Ctx) (tk : Nat) : Bool :=
  x.eventsDone tk && !(x.flagAdds.any fun f => decide (f.tk ≤ tk)) && !(x.f0.any fun e => decide (e.tk ≤ tk)) &&
    x.started.all fun t => t.stage == .ended || decide (tk < t.tk)

/-- FENCE (R71, R217). -/
def execFence (gd : Guard) (sc : Scope) (s : State) : Result :=
  guarded gd s fun s => if s.quietCore s.core then s.visibleAt sc else s.waitNow .fence

/-! ## Waits on addresses (R218 to R221) -/

/-- Reserves an entry of f2 for a WAITA (R218). -/
def State.waitaStart (s : State) (nb : Bool) (a e : W64) : State :=
  s.updMe fun x =>
    { x with f2res := x.f2res + 1, waits := x.waits ++ [{ addr := a, exp := e, nb := nb, tk := x.tk }] }

/-- WAITA and WAITA.nb: reserve, and in the blocking form wait until the record is written (R218). -/
def State.waitaAt (s : State) (nb : Bool) (a e : W64) : State :=
  let x := s.me
  match x.waits.find? fun w => !w.nb with
  | some w =>
    if w.done then s.updMe fun x => { x with waits := x.waits.filter fun w => w.nb } else s.waitNow .waita
  | none =>
    if fifoDepth 2 ≤ x.f2.length + x.f2res then s.waitNow .queueFull
    else if nb then s.waitaStart true a e
    else (s.waitaStart false a e).waitNow .waita

/-- WAITA (R218). -/
def execWaita (gd : Guard) (a b : BitVec 5) (s : State) : Result :=
  guarded gd s fun s => s.waitaAt false (s.addr a 0) (s.rg b)

/-- WAITA.nb (R218). -/
def execWaitaNb (gd : Guard) (a b : BitVec 5) (s : State) : Result :=
  guarded gd s fun s => s.waitaAt true (s.addr a 0) (s.rg b)

/-- WAITA with an offset (R218). -/
def execWaitaOffset (gd : Guard) (nb : Bool) (a b : BitVec 5) (off : Wide) (s : State) : Result :=
  guarded gd s fun s => s.waitaAt nb (s.addr a (wideVal off)) (s.rg b)

/-- The second word of a wake record: the address, and the status in byte 15 (R220). -/
def wakeWord (a : W64) (status : Nat) : W64 := fieldWord [(0, fld a 0 56), (56, status)]

/-- Writes the wake record of a request into f2; a blocking WAITA may then go on (R218, R220). -/
def Ctx.wakeRecord (x : Ctx) (w : WaitReq) (v : W64) (status : Nat) : Ctx :=
  let waits := if w.nb then x.waits.filter (fun y => y.tk != w.tk)
    else x.waits.map fun y => if y.tk = w.tk then { y with done := true } else y
  ({ x with f2 := x.f2 ++ [(v, wakeWord w.addr status)], f2res := x.f2res - 1, waits := waits }).gaveFifo 2

/-- What a WAITA request finds at its home (R219). -/
inductive ArmFind where
  | record (v : W64) (status : Nat) (miss : Bool)
  | arm (tile : Nat) (mem : Bool) (pa : Nat)
  | retry
deriving DecidableEq, Repr

/-- The home's action on a WAITA request of an asker (R219). -/
def State.armFor (s : State) (who : Asker) (w : WaitReq) : ArmFind :=
  let a := w.addr.toNat
  if a % 8 ≠ 0 then .record 0 0x02 false
  else if beyondGlobal w.addr then .record 0 0x27 false
  else if panelOf a = 0xFF then .record 0 0x22 false
  else
    match s.homeCheck who .waita a 8, s.homeTile who.part a with
    | .fail cause, _ => .record 0 cause.toNat false
    | .retry, _ => .retry
    | .foreign _, _ =>
      let cause := Config.foreignCause (s.freeIx a)
      if cause ≠ 0 then .record 0 cause.toNat false
      else .record (Config.anyWord (s.freeIx a)) (if Config.anyBool (s.freeIx a) then 0 else 1) false
    | .ok loc _, some t =>
      if 256 ≤ (s.tile t).monitors.countP (fun m => m.fired.isNone) then .record 0 2 true
      else if s.poisonedLoc loc 8 then .record 0 3 false
      else
        let v := leWord (s.readLoc loc 8)
        if v ≠ w.exp then .record v 1 false
        else
          match loc with
          | .panel tl o => .arm t true (s.panelKey tl o)
          | .lm k o => .arm t false (lmKey k o)
          | _ => .retry
    | .ok _ _, none => .retry

/-- The home's action on a WAITA request of a core (R219). -/
def State.armFind (s : State) (c : Nat) (w : WaitReq) : ArmFind := s.armFor (s.asker c) w

/-- The request of the oldest WAITA of a core that has not been sent leaves for its home, once no earlier access of the stream
can fault (R210, R219, R328). -/
def execMonitorArm (c : Nat) (s : State) : Result :=
  .next (
    let x := s.ctx c
    match x.waits.find? fun w => !w.sent && !w.armed && !w.done with
    | none => s
    | some w =>
      if !x.canSend || x.saccess.any (fun a => decide (a.tk ≤ w.tk)) then s
      else
        (s.sendReq c w.tk false w.addr (.arm w.tk)).onCore c fun x =>
          { x with waits := x.waits.map fun y => if y.tk = w.tk then { y with sent := true } else y })

/-- What a home's action gives: a wake record in its reply, with what MONMISS counts, or the monitor `m` at its place and
an empty reply (R219). -/
def State.armDo (s : State) (m : Monitor) : ArmFind → Answer × State
  | .retry => (.retry, s)
  | .record v st miss => (.done 0 0 (wordLE v ++ [BitVec.ofNat 8 st, BitVec.ofNat 8 (b2n miss)]) [], s)
  | .arm t mem pa =>
    (.done 0 0 [] [], s.updTile t fun x => { x with monitors := x.monitors ++ [{ m with mem := mem, pa := pa }] })

/-- A WAITA request of core `c` at its home (R219). -/
def State.armAt (s : State) (c : Nat) (w : WaitReq) : Answer × State :=
  s.armDo { flock := (s.ctx c).flock.getD 0, member := (s.ctx c).member, tk := w.tk, nb := w.nb, va := w.addr, mem := true, pa := 0,
            exp := w.exp } (s.armFind c w)

/-- The reply to a WAITA request reaches its core (R219). A request without a final reply ends with status 0x47 (R330). -/
def Ctx.armed (x : Ctx) (tk : Nat) (cause : Cause) (bs : List Byte) : Ctx :=
  match x.waits.find? fun w => w.tk == tk with
  | none => x
  | some w =>
    if cause ≠ 0 then x.wakeRecord w 0 cause.toNat
    else if bs = [] then { x with waits := x.waits.map fun y => if y.tk = tk then { y with armed := true } else y }
    else
      let x := if bs.getD 9 0 = 0 then x else { x with monmiss := BitVec.ofNat 32 (satAdd (2 ^ 32 - 1) x.monmiss.toNat 1) }
      x.wakeRecord w (wordAt bs 0) (bs.getD 8 0).toNat

/-- Changes the context of a member of a flock: live, or in the saved image (R221). -/
def State.updMember (s : State) (fl m : Nat) (f : Ctx → Ctx) : State :=
  match s.cores.find? fun e => e.2.flock == some fl && e.2.member == m with
  | some (c, _) => s.onCore c f
  | none => if !mhas s.flocks fl then s else s.updFlock fl fun x => { x with ctxs := x.ctxs.map fun e => if e.1 = m then (e.1, f e.2) else e }

/-- Whether a wake can travel from a tile to a member: over the standing lattice where the member is on a core (R362). -/
def State.wakePasses (s : State) (tile fl m : Nat) : Bool :=
  match s.cores.find? fun e => e.2.flock == some fl && e.2.member == m with
  | some (c, _) => s.pathUp (s.flock fl).part tile (c / 64)
  | none => true

/-- A fired monitor writes its wake record and is released (R220, R221); one that a core of another panel armed answers
there. -/
def execMonitorWake (tile ix : Nat) (s : State) : Result :=
  .next (
    match (s.tile tile).monitors[ix]? with
    | none => s
    | some m =>
      match m.fired with
      | none => s
      | some (v, poisoned) =>
        if m.ext then s.updTile tile fun x => { x with monitors := x.monitors.eraseIdx ix }
        else if !s.wakePasses tile m.flock m.member then s
        else
          let w : WaitReq := { addr := m.va, exp := m.exp, nb := m.nb, tk := m.tk }
          (s.updTile tile fun x => { x with monitors := x.monitors.eraseIdx ix }).updMember m.flock m.member fun x =>
            if poisoned then x.wakeRecord w 0 3 else x.wakeRecord w v 0)

/-! ## Triggers and sends (R230 to R232) -/

/-- TRIG: the first one of a member sends its trigger, and the S stream goes on (R33, R230). -/
def execTrig (gd : Guard) (s : State) : Result :=
  guarded gd s fun s =>
    if s.me.triggered ∨ s.me.trigPending then s
    else s.updMe fun x => { x with trigPending := true, trigTk := x.tk }

/-- The receive buffer of a circuit (R232). -/
def circuitBuffer : Nat := 4096

/-- What a SEND finds. -/
inductive SendFind where
  | traps (cause : Cause)
  /-- It cannot send yet: no entry, or not enough credit, on the circuit that a step established. -/
  | short (step : Nat) (r : WaitReason)
  | ready (e : QEntry)
deriving DecidableEq, Repr

/-- SEND's conditions: its live circuit (0x41; 0x46 where the one on which it has waited was torn down), the entry's
size, the entry and the credit (R232). -/
def State.sendFind (s : State) (q : BitVec 3) (h : BitVec 6) (n : Nat) : SendFind :=
  let x := s.me
  match s.outbound s.core h.toNat with
  | none => .traps (if x.sendOn.any (fun w => w.1 == h) then 0x46 else 0x41)
  | some k =>
    if x.sendOn.any fun w => w.1 == h && w.2 != k.step then .traps 0x46
    else if !k.live then .traps 0x41
    else
      match (x.getSq q).entries with
      | [] => .short k.step .queueEmpty
      | e :: _ =>
        let held := ((x.sends.filter fun b => b.h == h.toNat).map fun b => b.bs.length).sum
        if e.data.length ≠ n then .traps 0x07
        else if circuitBuffer < k.rx.length + k.inFlight.length + held + n then .short k.step .credit
        else .ready e

/-- Sends an sq entry on a circuit; behind an access that can still fault, its bytes are kept back. -/
def State.sendEntry (s : State) (q : BitVec 3) (h : BitVec 6) (e : QEntry) : State :=
  ((s.popSq q e).updMe fun x =>
    { x with sends := x.sends ++ [({ tk := x.tk, h := h.toNat, bs := e.data } : SentBytes)] }).flushSends s.core

/-- SEND: waits for its entry and credit (R232). -/
def execSend (gd : Guard) (q : BitVec 3) (h : BitVec 6) (e : BitVec 5) (s : State) : Result :=
  s.onSq q gd fun s =>
    match s.sendFind q h (entryBytes e) with
    | .traps c => s.trapNow c
    | .short step r => (s.updMe fun x => { x with sendOn := some (h, step) }).waitNow r
    | .ready en => s.sendEntry q h en

/-- SEND.try: polls, and never waits (R232). -/
def execSendTry (gd : Guard) (q : BitVec 3) (h : BitVec 6) (e : BitVec 5) (pd : BitVec 4) (s : State) : Result :=
  s.onSq q gd fun s =>
    match s.sendFind q h (entryBytes e) with
    | .traps c => s.trapNow c
    | .short _ _ => s.wp pd false
    | .ready en => (s.sendEntry q h en).wp pd true

end Sys2Proof.Machine
end

