-- ==== Sys2Proof/Machine/Barrier.lean ====
section
/-! DEFINITION. Barriers: arrivals, waits, and the completion of phases (R127, R222 to R228, R399). -/

namespace Sys2Proof.Machine

/-- The 8-bit operand of a barrier. -/
def barNo (b : BarOp) : Nat := barBits b

/-- The key of the instance that a barrier operand names for the core at work. -/
def State.myBar (s : State) (b : BarOp) : Nat := barKey (barNo b) s.me.logical

/-- The participant number of the core at work. -/
def State.myParty (s : State) : Nat := partyId (s.me.flock.getD 0) s.me.member

/-- An operation on a barrier that the LAUNCH did not allocate raises 0x01, whatever its guard (R127). -/
def State.onBar (s : State) (b : BarOp) (gd : Guard) (f : State → State) : Result :=
  if !s.myFlock.allocated (barNo b) then .next (s.trapNow 0x01) else guarded gd s f

/-- An arrival of the core at work: 0x15 where it is two phases ahead; else it is counted, and is on its way to the
object (R224). -/
def State.arrive (s : State) (b : BarOp) : State :=
  let fl := s.me.flock.getD 0
  let key := s.myBar b
  let i := s.barInst fl key
  if (i.party s.myParty).issued = i.c + 2 then s.trapNow 0x15
  else
    (s.updBar fl key fun i => i.updParty s.myParty fun p => { p with issued := p.issued + 1 }).updMe fun x =>
      { x with arrivals := x.arrivals ++ [(key, x.tk)] }

/-- The first error cause of phases `lo` to `hi - 1` (R225). -/
def BarInst.firstError (b : BarInst) (lo hi : Nat) : Option Cause :=
  ((List.range (hi - lo)).map fun i => lo + i).findSome? fun ph =>
    if mhas b.past ph then some (mget 0 b.past ph) else none

/-- The result of a wait that covers phases `lo` to `hi - 1` (R225). -/
def BarInst.waitResult (b : BarInst) (lo hi : Nat) : W64 :=
  match b.firstError lo hi with
  | some c => fieldWord [(32, (hi - 1) % 2 ^ 32), (8, c.toNat), (0, 1)]
  | none => fieldWord [(32, (hi - 1) % 2 ^ 32)]

/-- A wait by the core at work (R224): NOARR, or the wait's result once its phase has completed. -/
def State.barrierWait (s : State) (b : BarOp) (d : BitVec 5) : State :=
  let fl := s.me.flock.getD 0
  let key := s.myBar b
  let i := s.barInst fl key
  let p := i.party s.myParty
  if p.issued = p.w then s.wg d 2
  else if i.c < p.issued then s.waitNow .barrier
  else
    ((s.updBar fl key fun i => i.updParty s.myParty fun p => { p with w := p.issued }).updMe
      fun x => x.note (.waited key p.w)).wg d (i.waitResult p.w p.issued)

/-- BAR.ARRIVE (R228). -/
def execBarArrive (gd : Guard) (bar : BarOp) (s : State) : Result := s.onBar bar gd fun s => s.arrive bar

/-- BAR.WAIT (R228). -/
def execBarWait (gd : Guard) (bar : BarOp) (d : BitVec 5) (s : State) : Result :=
  s.onBar bar gd fun s => s.barrierWait bar d

/-- Sets or clears SYNC_ST (R237). -/
def State.setAwp (s : State) (awp : Bool) (bar : Nat) : State :=
  s.updMe fun x =>
    if x.awp = awp ∧ x.awpBar = BitVec.ofNat 8 bar then x
    else { x.note (.awp x.awp x.awpBar) with awp := awp, awpBar := BitVec.ofNat 8 bar }

/-- BAR.ARWT: its arrival, unless SYNC_ST says that it has been made, then its wait (R228). -/
def execBarArwt (gd : Guard) (bar : BarOp) (d : BitVec 5) (s : State) : Result :=
  s.onBar bar gd fun s =>
    let made := s.me.awp && s.me.awpBar.toNat == barNo bar
    let s := if made then s else s.arrive bar
    match s.verdict with
    | .traps _ _ _ => s
    | _ =>
      let t := s.barrierWait bar d
      match t.verdict with
      | .waits _ => t.setAwp true (barNo bar)
      | _ => t.setAwp false 0

/-- The oldest issued arrival of a core reaches its object, once every earlier access and host-bound write of the core has
passed its data-visible point at the barrier's scope and its sent bytes have arrived (R224). -/
def execBarrierArrival (c : Nat) (s : State) : Result :=
  .next (
    let x := s.ctx c
    match x.arrivals with
    | [] => s
    | (key, tk) :: rest =>
      if !x.eventsDone tk ∨ (x.sends.any fun b => decide (b.tk ≤ tk)) ∨ (s.circuits c).any (fun k => k.send == x.logical && !k.inFlight.isEmpty) then s
      else
        let s := if key / 1024 / 32 = 4 then s.drainAll else s
        let fl := x.flock.getD 0
        (s.updBar fl key fun i => i.updParty (partyId fl x.member) fun p => { p with a := p.a + 1 }).onCore c fun x =>
          { x with arrivals := rest })

/-- Whether the open phase of an instance completes: enough flocks have joined, every participant has arrived or
retired, one at least has arrived, and no counted byte is pending (R223, R399). Log 60, DEDUCED. -/
def BarInst.phaseDone (b : BarInst) : Bool :=
  b.need ≤ b.joined && (b.parties.all fun p => decide (b.c < p.a) || p.gone) && (b.parties.any fun p => decide (b.c < p.a)) &&
    b.pend.getD 0 0 == 0

/-- The open phase completes: the counters and error states move by one phase (R223, R226); a flock that joined an
instance already full makes the completion an error phase with 0x8A (R399). -/
def BarInst.complete (b : BarInst) : BarInst :=
  let e := match b.err.getD 0 none with
    | some c => some c
    | none => if b.crowded then some 0x8A else none
  { b with
    c := b.c + 1
    pend := b.pend.tail ++ [0]
    err := b.err.tail ++ [none]
    past := match e with
      | some c => mset b.past b.c c
      | none => b.past
    crowded := false }

/-- Clears the wait marks of every core. -/
def State.wakeAll (s : State) : State := { s with cores := s.cores.map fun e => (e.1, e.2.wake) }

/-- The open phase of a barrier instance completes (R223). -/
def execBarrierPhaseComplete (fl key : Nat) (s : State) : Result :=
  .next (if (s.barInst fl key).phaseDone then (s.updBar fl key fun b => { b.complete with doneAt := s.now }).wakeAll else s)

end Sys2Proof.Machine
end

