-- ==== Sys2Proof/Machine/Crypto.lean ====
section
/-! DEFINITION. SHA-256, HMAC-SHA-256, and ECDSA over P-256 with the nonces of RFC 6979, as R410 and R431 name them. The
standards themselves are public; the manual gives none of their constants (log 14). -/

namespace Sys2Proof.Machine

/-! ## SHA-256 -/

/-- The bytes of a number, the most significant first. -/
def natBE (n x : Nat) : List Byte := (natLE n x).reverse

/-- The number of some bytes, the most significant first. -/
def beNat (bs : List Byte) : Nat := bs.foldl (fun n b => n * 256 + b.toNat) 0

/-- Word `i` of `n` 32-bit words that stand in one number, the first highest. -/
def packedWord (x n i : Nat) : W32 := BitVec.ofNat 32 (x / 2 ^ (32 * (n - 1 - i)))

/-- The 64 round constants of SHA-256 in one number: the first 32 bits of the fractions of the cube roots of the first 64
primes. Log 14, PRESUMED. -/
def shaConsts : Nat :=
  0x428a2f9871374491b5c0fbcfe9b5dba53956c25b59f111f1923f82a4ab1c5ed5d807aa9812835b01243185be550c7dc372be5d7480deb1fe9bdc06a7c19bf174e49b69c1efbe47860fc19dc6240ca1cc2de92c6f4a7484aa5cb0a9dc76f988da983e5152a831c66db00327c8bf597fc7c6e00bf3d5a7914706ca63511429296727b70a852e1b21384d2c6dfc53380d13650a7354766a0abb81c2c92e92722c85a2bfe8a1a81a664bc24b8b70c76c51a3d192e819d6990624f40e3585106aa07019a4c1161e376c082748774c34b0bcb5391c0cb34ed8aa4a5b9cca4f682e6ff3748f82ee78a5636f84c878148cc7020890befffaa4506cebbef9a3f7c67178f2

/-- The eight words of the initial hash value in one number, from the square roots. Log 14, PRESUMED. -/
def shaStart : Nat := 0x6a09e667bb67ae853c6ef372a54ff53a510e527f9b05688c1f83d9ab5be0cd19

/-- The eight working words of the compression, oldest first. -/
structure ShaWork where
  a : W32
  b : W32
  c : W32
  d : W32
  e : W32
  f : W32
  g : W32
  h : W32
deriving DecidableEq, Repr

/-- Two rotated copies of a word and a third word, added without carries. -/
def spin (x : W32) (i j : Nat) (y : W32) : W32 := x.rotateRight i ^^^ x.rotateRight j ^^^ y

/-- The schedule word that follows a window of sixteen. -/
def shaNext (win : List W32) : W32 :=
  let near := win.getD 14 0
  let far := win.getD 1 0
  spin near 17 19 (near >>> 10) + win.getD 9 0 + spin far 7 18 (far >>> 3) + win.headD 0

/-- A round with the sum of its constant and its schedule word: the choice is written as a difference, the majority as a
carry. -/
def ShaWork.round (x : ShaWork) (kw : W32) : ShaWork :=
  let t := kw + x.h + spin x.e 6 11 (x.e.rotateRight 25) + (x.g ^^^ (x.e &&& (x.f ^^^ x.g)))
  { a := t + spin x.a 2 13 (x.a.rotateRight 22) + ((x.a &&& x.b) ||| (x.c &&& (x.a ||| x.b)))
    b := x.a, c := x.b, d := x.c, e := x.d + t, f := x.e, g := x.f, h := x.g }

/-- The rounds from `i` up, `n` of them, over a window of the schedule. -/
def ShaWork.rounds (x : ShaWork) (win : List W32) (i : Nat) : Nat → ShaWork
  | 0 => x
  | n + 1 => (x.round (packedWord shaConsts 64 i + win.headD 0)).rounds (win.tail ++ [shaNext win]) (i + 1) n

/-- The sum, word by word. -/
def ShaWork.plus (x y : ShaWork) : ShaWork :=
  { a := x.a + y.a, b := x.b + y.b, c := x.c + y.c, d := x.d + y.d, e := x.e + y.e, f := x.f + y.f, g := x.g + y.g, h := x.h + y.h }

/-- The compression of one block of 64 bytes into a hash value. -/
def ShaWork.block (x : ShaWork) (bs : List Byte) : ShaWork :=
  let m := beNat bs
  x.plus (x.rounds ((List.range 16).map (packedWord m 16)) 0 64)

/-- The blocks of a message, in order. -/
def ShaWork.blocks (x : ShaWork) (bs : List Byte) : Nat → ShaWork
  | 0 => x
  | n + 1 => (x.block (bs.take 64)).blocks (bs.drop 64) n

/-- The bytes of a hash value. -/
def ShaWork.bytes (x : ShaWork) : List Byte :=
  [x.a, x.b, x.c, x.d, x.e, x.f, x.g, x.h].flatMap fun w => natBE 4 w.toNat

/-- SHA-256: the message, a one bit, zeros, and its length in bits. Log 14, PRESUMED. -/
def sha256 (bs : List Byte) : List Byte :=
  let n := bs.length
  let filled := bs ++ (0x80 : Byte) :: List.replicate ((119 - n % 64) % 64) 0 ++ natBE 8 (8 * n)
  let h := packedWord shaStart 8
  (({ a := h 0, b := h 1, c := h 2, d := h 3, e := h 4, f := h 5, g := h 6, h := h 7 } : ShaWork).blocks filled
    (filled.length / 64)).bytes

/-- HMAC-SHA-256. Log 14, PRESUMED. -/
def hmac (key msg : List Byte) : List Byte :=
  let k := if 64 < key.length then sha256 key else key
  let k := k ++ List.replicate (64 - k.length) 0
  sha256 ((k.map fun b => b ^^^ 0x5C) ++ sha256 ((k.map fun b => b ^^^ 0x36) ++ msg))

/-! ## P-256 -/

/-- The field prime. -/
def p256P : Nat := 0xffffffff00000001000000000000000000000000ffffffffffffffffffffffff
/-- The order n of the group. -/
def p256N : Nat := 0xffffffff00000000ffffffffffffffffbce6faada7179e84f3b9cac2fc632551
/-- The base point G. -/
def p256G : Nat × Nat :=
  (0x6b17d1f2e12c4247f8bce6e563a440f277037d812deb33a0f4a13945d898c296,
   0x4fe342e2fe1a7f9b8ee7eb4a7c0f9e162bce33576b315ececbb6406837bf51f5)

/-- The coefficient b of the curve. -/
def p256B : Nat := 0x5ac635d8aa3a93e7b3ebbd55769886bc651d06b0cc53b0f63bce3c3e27d2604b

/-- A power modulo `m`, over the low `k` bits of the exponent. -/
def powMod (m : Nat) : Nat → Nat → Nat → Nat
  | 0, _, _ => 1 % m
  | k + 1, b, e =>
    let r := powMod m k (b * b % m) (e / 2)
    if e % 2 = 1 then r * b % m else r

/-- The inverse modulo a prime. -/
def invMod (m a : Nat) : Nat := powMod m 256 (a % m) (m - 2)

/-- A point in Jacobian form: x / z², y / z³, and z = 0 at infinity. -/
structure JPoint where
  x : Nat
  y : Nat
  z : Nat
deriving DecidableEq, Repr

/-- The point at infinity. -/
def JPoint.inf : JPoint := { x := 1, y := 1, z := 0 }

/-- A difference in the field. -/
def fieldSub (a b : Nat) : Nat := (a + p256P - b % p256P) % p256P

/-- The double of a point, on a curve with a = −3. -/
def JPoint.double (q : JPoint) : JPoint :=
  let p := p256P
  let yy := q.y * q.y % p
  let zz := q.z * q.z % p
  let m := 3 * (fieldSub q.x zz * (q.x + zz) % p) % p
  let s := 4 * q.x * yy % p
  let x := fieldSub (m * m) (2 * s)
  { x := x, y := fieldSub (m * fieldSub s x) (8 * (yy * yy % p)), z := 2 * q.y * q.z % p }

/-- The sum of two points. -/
def JPoint.add (q r : JPoint) : JPoint :=
  let p := p256P
  if q.z = 0 then r
  else if r.z = 0 then q
  else
    let qz := q.z * q.z % p
    let rz := r.z * r.z % p
    let u := q.x * rz % p
    let s := q.y * (rz * r.z % p) % p
    let h := fieldSub (r.x * qz) u
    let k := fieldSub (r.y * (qz * q.z % p)) s
    if h = 0 then if k = 0 then q.double else JPoint.inf
    else
      let hh := h * h % p
      let v := u * hh % p
      let c := hh * h % p
      let x := fieldSub (k * k) (c + 2 * v)
      { x := x, y := fieldSub (k * fieldSub v x) (s * c), z := h * (q.z * r.z % p) % p }

/-- A multiple of a point, over the low `n` bits of the factor, from the highest down. -/
def JPoint.times (q : JPoint) : Nat → Nat → JPoint
  | 0, _ => JPoint.inf
  | n + 1, d =>
    if d = 0 then JPoint.inf
    else
      let r := (q.times n (d / 2)).double
      if d % 2 = 1 then r.add q else r

/-- The coordinates of a point; `none` at infinity. -/
def JPoint.affine (q : JPoint) : Option (Nat × Nat) :=
  if q.z = 0 then none
  else
    let i := invMod p256P q.z
    let ii := i * i % p256P
    some (q.x * ii % p256P, q.y * (ii * i % p256P) % p256P)

/-- The multiple of a point by a factor below 2^256. -/
def curveMul (d : Nat) (a : Nat × Nat) : JPoint := JPoint.times { x := a.1, y := a.2, z := 1 } 256 d

/-- The public key of a private one: d × G. -/
def publicKey (d : Nat) : Option (Nat × Nat) := (curveMul d p256G).affine

/-- Whether coordinates are those of a point of the curve y² = x³ − 3x + b. -/
def onCurve (a : Nat × Nat) : Bool :=
  let p := p256P
  decide (a.1 < p ∧ a.2 < p) && a.2 * a.2 % p == (fieldSub (a.1 * a.1 % p * a.1) (3 * a.1) + p256B) % p

/-! ## ECDSA with the nonces of RFC 6979 -/

/-- The search for a nonce in range, from the state (K, V) of the generator. -/
def nonceFrom : Nat → List Byte → List Byte → Nat
  | 0, _, _ => 1
  | fuel + 1, k, v =>
    let v := hmac k v
    let t := beNat v
    if 1 ≤ t ∧ t < p256N then t
    else
      let k := hmac k (v ++ [0])
      nonceFrom fuel k (hmac k v)

/-- The nonce for a private key and the hash of a message. -/
def nonceOf (d : Nat) (h : List Byte) : Nat :=
  let seed := natBE 32 d ++ natBE 32 (beNat h % p256N)
  let v := List.replicate 32 (1 : Byte)
  let k := hmac (List.replicate 32 0) (v ++ [0] ++ seed)
  let v := hmac k v
  let k := hmac k (v ++ [1] ++ seed)
  nonceFrom 64 k (hmac k v)

/-- The signature (r, s) of a message by a private key. -/
def ecdsaSign (d : Nat) (msg : List Byte) : Nat × Nat :=
  let h := sha256 msg
  let k := nonceOf d h
  match publicKey k with
  | none => (0, 0)
  | some (x, _) =>
    let r := x % p256N
    (r, invMod p256N k * (beNat h + r * d) % p256N)

/-- Whether (r, s) is a signature of a message under a public key. -/
def ecdsaVerify (key : Nat × Nat) (msg : List Byte) (r s : Nat) : Bool :=
  let n := p256N
  let w := invMod n s
  let e := beNat (sha256 msg)
  let q := (curveMul (e * w % n) p256G).add (curveMul (r * w % n) key)
  onCurve key && decide (0 < r ∧ r < n ∧ 0 < s ∧ s < n) &&
    match q.affine with
    | none => false
    | some (x, _) => x % n == r

end Sys2Proof.Machine
end

