-- ==== Sys2Proof/Machine/Vector.lean ====
section
/-! DEFINITION. The integer and lane operations of the C stream, and its queue operations (R192 to R197, R200 to R204). -/

namespace Sys2Proof.Machine

/-! ## Elementwise forms (R192) -/

/-- Writes f(a_j) to every element of vD. -/
def vecUn (gd : Guard) (d a : BitVec 5) (ty : IntTy) (bound : Nat) (f : Nat → Nat) (s : State) : Result :=
  guarded gd s fun s => s.putElems ty d ((s.elems ty a).map f) bound

/-- Writes f(a_j, b_j) to every element of vD. -/
def vecBin (gd : Guard) (d a b : BitVec 5) (ty : IntTy) (bound : Nat) (f : Nat → Nat → Nat) (s : State) : Result :=
  guarded gd s fun s => s.putElems ty d (List.zipWith f (s.elems ty a) (s.elems ty b)) bound

/-- f applied to three lists, element by element. -/
def zipWith3 (f : Nat → Nat → Nat → Nat) (xs ys zs : List Nat) : List Nat :=
  List.zipWith (fun x p => f x p.1 p.2) xs (List.zip ys zs)

/-- Writes f(a_j, b_j, c_j) to every element of vD. -/
def vecTri (gd : Guard) (d a b c : BitVec 5) (ty : IntTy) (bound : Nat) (f : Nat → Nat → Nat → Nat) (s : State) : Result :=
  guarded gd s fun s => s.putElems ty d (zipWith3 f (s.elems ty a) (s.elems ty b) (s.elems ty c)) bound

/-- An integer result on the values of two elements, wrapped into the element (R193). -/
def wrap2 (ty : IntTy) (f : Int → Int → Int) (a b : Nat) : Nat := wrap (intBits ty) (f (intVal ty a) (intVal ty b))

/-- A comparison on the values of two elements: all ones or zero (R193). -/
def cmp2 (ty : IntTy) (f : Int → Int → Bool) (a b : Nat) : Nat := maskOf (intBits ty) (f (intVal ty a) (intVal ty b))

/-- The upper half of the exact product. -/
def upperHalf (ty : IntTy) (a b : Int) : Int := a * b / ((2 ^ intBits ty : Nat) : Int)

/-- a_j shifted left by b_j, 0 from the width on (R195). -/
def shlElem (w a k : Nat) : Nat := if k < w then a * 2 ^ k % 2 ^ w else 0

/-- a_j shifted right by b_j, 0 from the width on (R195). -/
def shrElem (w a k : Nat) : Nat := if k < w then a / 2 ^ k else 0

/-- a_j shifted right by min(b_j, w − 1), filling with its sign bit (R195). -/
def sarElem (w a k : Nat) : Nat := wrap w (signed w a / ((2 ^ min k (w - 1) : Nat) : Int))

/-- VFSHL on one element (R196). -/
def funnelL (w a b s : Nat) : Nat := (a * 2 ^ w + b) * 2 ^ s / 2 ^ w % 2 ^ w

/-- VFSHR on one element (R196). -/
def funnelR (w a b s : Nat) : Nat := (a * 2 ^ w + b) / 2 ^ s % 2 ^ w

/-- Bits combined by a truth table of three inputs (R194). -/
def lop3 (k : BitVec 8) (a b c : BitVec 2048) : BitVec 2048 :=
  let t := fun (i : Nat) (x : BitVec 2048) => if k.getLsbD i then x else 0
  t 0 (~~~a &&& ~~~b &&& ~~~c) ||| t 1 (~~~a &&& ~~~b &&& c) ||| t 2 (~~~a &&& b &&& ~~~c) ||| t 3 (~~~a &&& b &&& c) |||
    t 4 (a &&& ~~~b &&& ~~~c) ||| t 5 (a &&& ~~~b &&& c) ||| t 6 (a &&& b &&& ~~~c) ||| t 7 (a &&& b &&& c)

/-- The 2,048 bits of v register `i`. -/
def State.vBits (s : State) (i : BitVec 5) : BitVec 2048 := BitVec.ofNat 2048 (leNat (s.vRead i))

/-- Writes the 2,048 bits of vD with bound 1. -/
def State.putBits (s : State) (d : BitVec 5) (x : BitVec 2048) : State := s.vWrite d 0 (natLE 256 x.toNat) 1

/-- VADD (R193). -/
def execVadd (gd : Guard) (d a b : BitVec 5) (ty : IntTy) (s : State) : Result :=
  vecBin gd d a b ty 2 (wrap2 ty (· + ·)) s

/-- VSUB (R193). -/
def execVsub (gd : Guard) (d a b : BitVec 5) (ty : IntTy) (s : State) : Result :=
  vecBin gd d a b ty 2 (wrap2 ty (· - ·)) s

/-- VMUL (R193). -/
def execVmul (gd : Guard) (d a b : BitVec 5) (ty : IntTy) (s : State) : Result :=
  vecBin gd d a b ty 4 (wrap2 ty (· * ·)) s

/-- VMULH: the upper half of the exact product (R193). -/
def execVmulh (gd : Guard) (d a b : BitVec 5) (ty : IntTy) (s : State) : Result :=
  vecBin gd d a b ty 4 (wrap2 ty (upperHalf ty)) s

/-- VMAD: d_j + a_j × b_j (R193). -/
def execVmad (gd : Guard) (d a b : BitVec 5) (ty : IntTy) (s : State) : Result :=
  vecTri gd d a b d ty 4 (fun x y z => wrap (intBits ty) (intVal ty z + intVal ty x * intVal ty y)) s

/-- VMIN (R193). -/
def execVmin (gd : Guard) (d a b : BitVec 5) (ty : IntTy) (s : State) : Result :=
  vecBin gd d a b ty 2 (wrap2 ty min) s

/-- VMAX (R193). -/
def execVmax (gd : Guard) (d a b : BitVec 5) (ty : IntTy) (s : State) : Result :=
  vecBin gd d a b ty 2 (wrap2 ty max) s

/-- VABS: −2^(w−1) is returned unchanged (R193). -/
def execVabs (gd : Guard) (d a : BitVec 5) (ty : IntTy) (s : State) : Result :=
  vecUn gd d a ty 2 (fun x => wrap (intBits ty) ((intVal ty x).natAbs : Int)) s

/-- VPOPC (R193). -/
def execVpopc (gd : Guard) (d a : BitVec 5) (ty : IntTy) (s : State) : Result :=
  vecUn gd d a ty 2 (fun x => popFrom x (intBits ty)) s

/-- VCLZ: w for 0 (R193). -/
def execVclz (gd : Guard) (d a : BitVec 5) (ty : IntTy) (s : State) : Result :=
  vecUn gd d a ty 2 (fun x => clzFrom x (intBits ty)) s

/-- VCMP.eq (R193). -/
def execVcmpEq (gd : Guard) (d a b : BitVec 5) (ty : IntTy) (s : State) : Result :=
  vecBin gd d a b ty 2 (cmp2 ty (fun x y => x == y)) s

/-- VCMP.ne (R193). -/
def execVcmpNe (gd : Guard) (d a b : BitVec 5) (ty : IntTy) (s : State) : Result :=
  vecBin gd d a b ty 2 (cmp2 ty (fun x y => x != y)) s

/-- VCMP.lt (R193). -/
def execVcmpLt (gd : Guard) (d a b : BitVec 5) (ty : IntTy) (s : State) : Result :=
  vecBin gd d a b ty 2 (cmp2 ty (fun x y => decide (x < y))) s

/-- VCMP.le (R193). -/
def execVcmpLe (gd : Guard) (d a b : BitVec 5) (ty : IntTy) (s : State) : Result :=
  vecBin gd d a b ty 2 (cmp2 ty (fun x y => decide (x ≤ y))) s

/-- VAND: the 2,048 bits, bit by bit (R194). -/
def execVand (gd : Guard) (d a b : BitVec 5) (s : State) : Result :=
  guarded gd s fun s => s.putBits d (s.vBits a &&& s.vBits b)

/-- VOR: the 2,048 bits, bit by bit (R194). -/
def execVor (gd : Guard) (d a b : BitVec 5) (s : State) : Result :=
  guarded gd s fun s => s.putBits d (s.vBits a ||| s.vBits b)

/-- VXOR: the 2,048 bits, bit by bit (R194). -/
def execVxor (gd : Guard) (d a b : BitVec 5) (s : State) : Result :=
  guarded gd s fun s => s.putBits d (s.vBits a ^^^ s.vBits b)

/-- VLOP3: bit by bit through the truth table K8 (R194). -/
def execVlop3 (gd : Guard) (d a b c : BitVec 5) (k8 : BitVec 8) (s : State) : Result :=
  guarded gd s fun s => s.putBits d (lop3 k8 (s.vBits a) (s.vBits b) (s.vBits c))

/-- VSHL (R195). -/
def execVshl (gd : Guard) (d a b : BitVec 5) (ty : IntTy) (s : State) : Result :=
  vecBin gd d a b ty 2 (shlElem (intBits ty)) s

/-- VSHR (R195). -/
def execVshr (gd : Guard) (d a b : BitVec 5) (ty : IntTy) (s : State) : Result :=
  vecBin gd d a b ty 2 (shrElem (intBits ty)) s

/-- VSAR (R195). -/
def execVsar (gd : Guard) (d a b : BitVec 5) (ty : IntTy) (s : State) : Result :=
  vecBin gd d a b ty 2 (sarElem (intBits ty)) s

/-- VFSHL: the funnel shift by an immediate or by c_j, modulo the width (R196). -/
def execVfshl (gd : Guard) (d a b : BitVec 5) (amt : FunnelAmt) (ty : IntTy) (s : State) : Result :=
  match amt with
  | .imm k => vecBin gd d a b ty 2 (fun x y => funnelL (intBits ty) x y (k.toNat % intBits ty)) s
  | .reg c => vecTri gd d a b c ty 2 (fun x y z => funnelL (intBits ty) x y (z % intBits ty)) s

/-- VFSHR: the funnel shift by an immediate or by c_j, modulo the width (R196). -/
def execVfshr (gd : Guard) (d a b : BitVec 5) (amt : FunnelAmt) (ty : IntTy) (s : State) : Result :=
  match amt with
  | .imm k => vecBin gd d a b ty 2 (fun x y => funnelR (intBits ty) x y (k.toNat % intBits ty)) s
  | .reg c => vecTri gd d a b c ty 2 (fun x y z => funnelR (intBits ty) x y (z % intBits ty)) s

/-- VSEL: a_j where c_j ≠ 0, else b_j (R197). -/
def execVsel (gd : Guard) (d a b c : BitVec 5) (ty : IntTy) (s : State) : Result :=
  vecTri gd d a b c ty 2 (fun x y z => if z ≠ 0 then x else y) s

/-! ## Lanes (R200) -/

/-- VPERM: d_j := a_(b_j mod n) (R200). -/
def execVperm (gd : Guard) (d a b : BitVec 5) (ty : IntTy) (s : State) : Result :=
  guarded gd s fun s =>
    let xs := s.elems ty a
    s.putElems ty d ((s.elems ty b).map fun y => xs.getD (y % ty.lanes) 0) 3

/-- VBCAST of a lane (R200). -/
def execVbcast (gd : Guard) (d a : BitVec 5) (lane : BitVec 8) (ty : IntTy) (s : State) : Result :=
  guarded gd s fun s => s.putElems ty d (List.replicate ty.lanes ((s.elems ty a).getD lane.toNat 0)) 2

/-- VBCAST of g[C] (R200). -/
def execVbcastG (gd : Guard) (d c : BitVec 5) (ty : IntTy) (s : State) : Result :=
  guarded gd s fun s => s.putElems ty d (List.replicate ty.lanes ((s.rg c).toNat % 2 ^ intBits ty)) 2

/-- The lanes of a register turned by `k`: d_j := a_((j + k) mod n). -/
def turnLanes (k : Nat) (xs : List Nat) : List Nat := (List.range xs.length).map fun j => xs.getD ((j + k) % xs.length) 0

/-- VROTL by an immediate (R200). -/
def execVrotl (gd : Guard) (d a : BitVec 5) (k : BitVec 8) (ty : IntTy) (s : State) : Result :=
  guarded gd s fun s => s.putElems ty d (turnLanes k.toNat (s.elems ty a)) 3

/-- VROTL by g[C], unsigned (R200). -/
def execVrotlG (gd : Guard) (d a c : BitVec 5) (ty : IntTy) (s : State) : Result :=
  guarded gd s fun s => s.putElems ty d (turnLanes (s.rg c).toNat (s.elems ty a)) 3

/-- The elements a_j with b_j ≠ 0, then zeros (R200). -/
def compress (n : Nat) (xs ys : List Nat) : List Nat :=
  let kept := ((List.zip xs ys).filter fun p => p.2 != 0).map (·.1)
  kept ++ List.replicate (n - kept.length) 0

/-- VCOMP (R200). -/
def execVcomp (gd : Guard) (d a b : BitVec 5) (ty : IntTy) (s : State) : Result :=
  guarded gd s fun s => s.putElems ty d (compress ty.lanes (s.elems ty a) (s.elems ty b)) 4

/-! ## Reductions (R110, R111, R201, R202) -/

/-- One level of adjacent pairs. -/
def pairUp (f : Nat → Nat → Nat) : List Nat → List Nat
  | a :: b :: t => f a b :: pairUp f t
  | xs => xs

/-- The tree of R110 over 2^k elements. -/
def treeReduce (f : Nat → Nat → Nat) : Nat → List Nat → Nat
  | 0, xs => xs.headD 0
  | k + 1, xs => treeReduce f k (pairUp f xs)

/-- The operation of VRED on two elements (R201). -/
def redInt (ty : IntTy) (op : RedOp) (a b : Nat) : Nat :=
  match op with
  | .add => wrap2 ty (· + ·) a b
  | .min => wrap2 ty min a b
  | .max => wrap2 ty max a b
  | .and => a &&& b
  | .or => a ||| b
  | .xor => a ^^^ b

/-- VRED (R201). -/
def execVred (gd : Guard) (d a : BitVec 5) (op : RedOp) (ty : IntTy) (s : State) : Result :=
  guarded gd s fun s => s.putFirst d (natLE (intBytes ty) (treeReduce (redInt ty op) 8 (s.elems ty a))) 6

/-- The elements of a source with the blocks whose mask bit is clear replaced by +0 (R111). -/
def maskBlocks (bytes : Nat) (mask : Nat) (xs : List Nat) : List Nat :=
  (List.zip (List.range xs.length) xs).map fun p => if mask / 2 ^ (p.1 * bytes / 64) % 2 = 1 then p.2 else 0

/-- The all-lost count goes up for an all-clear mask; it saturates (R111, R202). -/
def State.countLost (s : State) (mask : Nat) : State :=
  if mask = 0 then s.updMe fun x => { x with lostcnt := BitVec.ofNat 32 (satAdd (2 ^ 32 - 1) x.lostcnt.toNat 1) } else s

/-- The quotient of an integer by a positive number, rounded to nearest, ties to even. -/
def divRne (x : Int) (d : Nat) : Int :=
  let m := (roundStep .rne false (x.natAbs / d) (x.natAbs % d) d : Nat)
  if x < 0 then -(m : Int) else (m : Int)

/-- VREDM's result: the wrapped sum scaled by all positions over valid ones (R111). -/
def redmInt (ty : IntTy) (mask : Nat) (xs : List Nat) : Nat :=
  let valid := popFrom mask 4
  if valid = 0 then 0
  else
    let t := treeReduce (redInt ty .add) 8 (maskBlocks (intBytes ty) mask xs)
    wrap (intBits ty) (divRne (intVal ty t * 4) valid)

/-- VREDM (R202). -/
def execVredm (gd : Guard) (d a b : BitVec 5) (ty : IntTy) (s : State) : Result :=
  guarded gd s fun s =>
    let mask := (s.rg b).toNat % 16
    (s.countLost mask).putFirst d (natLE (intBytes ty) (redmInt ty mask (s.elems ty a))) 8

/-! ## Queues (R203, R204) -/

/-- QPOP: the head entry of lq[N] into vD, the rest zero; waits while no entry is readable (R203). -/
def execQpop (gd : Guard) (d : BitVec 5) (q : BitVec 3) (s : State) : Result :=
  s.onLq q gd fun s =>
    match s.me.readable (s.me.getLq q) with
    | none => s.waitNow .queueEmpty
    | some e => (s.updMe fun x => x.updLq q Queue.popHead).putFirst d e.data 2

/-- QPUT: bytes 0 to 8 × (n8 + 1) − 1 of vB, read at issue, as an entry of sq[N]; waits while it is full (R204). -/
def execQput (gd : Guard) (n8 : BitVec 5) (q : BitVec 3) (b : BitVec 5) (s : State) : Result :=
  s.onSq q gd fun s =>
    if !(s.me.getSq q).room 1 then s.waitNow .queueFull
    else
      let bs := (s.vRead b).take (8 * (n8.toNat + 1))
      s.updMe fun x => x.updSq q fun y => y.push { data := bs, ready := true, tk := x.tk }

/-- A C-stream result lands before its bound (R130). -/
def execResultLanding (c ix : Nat) (s : State) : Result :=
  .next (
    match (s.ctx c).landings[ix]? with
    | none => s
    | some l => s.updCtx c fun x => { x with opfile := landOne x.opfile l, landings := x.landings.eraseIdx ix })

end Sys2Proof.Machine
end

