-- ==== Sys2Proof/Machine/VFloat.lean ====
section
/-! DEFINITION. The floating-point vector operations of the C stream (R101, R198, R199, R201, R202). -/

namespace Sys2Proof.Machine

/-- Bits of a floating-point element. -/
def fpBits (ty : FpTy) : Nat := 8 * fpBytes ty

/-- f on the values of two encodings, rounded once to the element format (R198). -/
def fp2 (ty : FpTy) (f : FVal → FVal → FVal) (a b : Nat) : Nat :=
  fencode (fpFmt ty) .rne (f (fdecode (fpFmt ty) a) (fdecode (fpFmt ty) b))

/-- f on the value of an encoding, rounded once. -/
def fp1 (ty : FpTy) (f : FVal → FVal) (a : Nat) : Nat := fencode (fpFmt ty) .rne (f (fdecode (fpFmt ty) a))

/-- Writes f(a_j) to every element of vD. -/
def fvecUn (gd : Guard) (d a : BitVec 5) (ty : FpTy) (bound : Nat) (f : Nat → Nat) (s : State) : Result :=
  guarded gd s fun s => s.putFelems ty d ((s.felems ty a).map f) bound

/-- Writes f(a_j, b_j) to every element of vD. -/
def fvecBin (gd : Guard) (d a b : BitVec 5) (ty : FpTy) (bound : Nat) (f : Nat → Nat → Nat) (s : State) : Result :=
  guarded gd s fun s => s.putFelems ty d (List.zipWith f (s.felems ty a) (s.felems ty b)) bound

/-- x − y. -/
def FVal.sub (x y : FVal) : FVal := x.add y.flip

/-- |x|. -/
def FVal.abs : FVal → FVal
  | .nan => .nan
  | .inf _ => .inf false
  | .fin _ a b => .fin false a b

/-- A comparison of two encodings: all ones or zero (R198). -/
def fcmp2 (ty : FpTy) (f : FVal → FVal → Bool) (a b : Nat) : Nat :=
  maskOf (fpBits ty) (f (fdecode (fpFmt ty) a) (fdecode (fpFmt ty) b))

/-- FADD (R198). -/
def execFadd (gd : Guard) (d a b : BitVec 5) (ty : FpTy) (s : State) : Result :=
  fvecBin gd d a b ty 4 (fp2 ty FVal.add) s

/-- FSUB (R198). -/
def execFsub (gd : Guard) (d a b : BitVec 5) (ty : FpTy) (s : State) : Result :=
  fvecBin gd d a b ty 4 (fp2 ty FVal.sub) s

/-- FMUL (R198). -/
def execFmul (gd : Guard) (d a b : BitVec 5) (ty : FpTy) (s : State) : Result :=
  fvecBin gd d a b ty 4 (fp2 ty FVal.mul) s

/-- FFMA: a_j × b_j + d_j, rounded once (R198). -/
def execFfma (gd : Guard) (d a b : BitVec 5) (ty : FpTy) (s : State) : Result :=
  guarded gd s fun s =>
    let f := fun x y z => fencode (fpFmt ty) .rne
      ((FVal.mul (fdecode (fpFmt ty) x) (fdecode (fpFmt ty) y)).add (fdecode (fpFmt ty) z))
    s.putFelems ty d (zipWith3 f (s.felems ty a) (s.felems ty b) (s.felems ty d)) 4

/-- FMIN (R101, R198). -/
def execFmin (gd : Guard) (d a b : BitVec 5) (ty : FpTy) (s : State) : Result :=
  fvecBin gd d a b ty 2 (fp2 ty FVal.lower) s

/-- FMAX (R101, R198). -/
def execFmax (gd : Guard) (d a b : BitVec 5) (ty : FpTy) (s : State) : Result :=
  fvecBin gd d a b ty 2 (fp2 ty FVal.upper) s

/-- FABS: the sign bit cleared; the canonical NaN for a NaN (R198). -/
def execFabs (gd : Guard) (d a : BitVec 5) (ty : FpTy) (s : State) : Result :=
  fvecUn gd d a ty 1 (fp1 ty FVal.abs) s

/-- FNEG: the sign bit inverted; the canonical NaN for a NaN (R198). -/
def execFneg (gd : Guard) (d a : BitVec 5) (ty : FpTy) (s : State) : Result :=
  fvecUn gd d a ty 1 (fp1 ty FVal.flip) s

/-- FCMP.eq (R198). -/
def execFcmpEq (gd : Guard) (d a b : BitVec 5) (ty : FpTy) (s : State) : Result :=
  fvecBin gd d a b ty 2 (fcmp2 ty FVal.eq) s

/-- FCMP.ne: true with a NaN operand (R198). -/
def execFcmpNe (gd : Guard) (d a b : BitVec 5) (ty : FpTy) (s : State) : Result :=
  fvecBin gd d a b ty 2 (fcmp2 ty (fun x y => !x.eq y)) s

/-- FCMP.lt (R198). -/
def execFcmpLt (gd : Guard) (d a b : BitVec 5) (ty : FpTy) (s : State) : Result :=
  fvecBin gd d a b ty 2 (fcmp2 ty FVal.lt) s

/-- FCMP.le (R198). -/
def execFcmpLe (gd : Guard) (d a b : BitVec 5) (ty : FpTy) (s : State) : Result :=
  fvecBin gd d a b ty 2 (fcmp2 ty (fun x y => x.lt y || x.eq y)) s

/-- FRCP (R199). -/
def execFrcp (gd : Guard) (d a : BitVec 5) (ty : FpTy) (s : State) : Result :=
  fvecUn gd d a ty 8 (fp1 ty FVal.rcp) s

/-- FRSQ (R199). -/
def execFrsq (gd : Guard) (d a : BitVec 5) (ty : FpTy) (s : State) : Result :=
  fvecUn gd d a ty 8 (fp1 ty FVal.rsq) s

/-- FEXP2 (R199). -/
def execFexp2 (gd : Guard) (d a : BitVec 5) (ty : FpTy) (s : State) : Result :=
  fvecUn gd d a ty 10 (fp1 ty FVal.exp2) s

/-- FLOG2 (R199). -/
def execFlog2 (gd : Guard) (d a : BitVec 5) (ty : FpTy) (s : State) : Result :=
  fvecUn gd d a ty 10 (fp1 ty FVal.log2) s

/-- An element widened exactly to FP32 (R110). -/
def widen (ty : FpTy) (x : Nat) : Nat := fencode fmtFP32 .rne (fdecode (fpFmt ty) x)

/-- The operation of FRED on two FP32 values (R201). -/
def redFp (op : RedOp) (a b : Nat) : Nat :=
  match op with
  | .min => fp2 .f32 FVal.lower a b
  | .max => fp2 .f32 FVal.upper a b
  | _ => fp2 .f32 FVal.add a b

/-- The levels of the tree over the elements of a register: 6 for 64 elements, 7 for 128 (R110). -/
def fpLevels (ty : FpTy) : Nat := if fpBytes ty = 4 then 6 else 7

/-- FRED: the tree in FP32 (R110, R201). -/
def execFred (gd : Guard) (d a : BitVec 5) (op : RedOp) (ty : FpTy) (s : State) : Result :=
  guarded gd s fun s =>
    s.putFirst d (natLE 4 (treeReduce (redFp op) (fpLevels ty) ((s.felems ty a).map (widen ty)))) 12

/-- FREDM's result: the sum scaled by all positions over valid ones, rounded once (R111). -/
def redmFp (ty : FpTy) (mask : Nat) (xs : List Nat) : Nat :=
  let valid := popFrom mask 4
  if valid = 0 then 0
  else
    let t := treeReduce (redFp .add) (fpLevels ty) (maskBlocks (fpBytes ty) mask xs |>.map (widen ty))
    if valid = 4 then t else fencode fmtFP32 .rne ((fdecode fmtFP32 t).mul (.fin false 4 valid))

/-- FREDM (R202). -/
def execFredm (gd : Guard) (d a b : BitVec 5) (ty : FpTy) (s : State) : Result :=
  guarded gd s fun s =>
    let mask := (s.rg b).toNat % 16
    (s.countLost mask).putFirst d (natLE 4 (redmFp ty mask (s.felems ty a))) 16

end Sys2Proof.Machine
end

