-- ==== Sys2Proof/Machine/Quant.lean ====
section
/-! DEFINITION. The quantiser: CVT, QMX, QTRL and QSTAT, the trailer accumulators and the statistics (R239 to R263). -/

namespace Sys2Proof.Machine

/-! ## Fields of QCFG (R239) -/

/-- TID. -/
def cfgTid (q : W64) : Nat := fld q 34 6
/-- STE. -/
def cfgSte (q : W64) : Bool := bit q 33
/-- TRE. -/
def cfgTre (q : W64) : Bool := bit q 32
/-- DFMT. -/
def cfgDfmt (q : W64) : Nat := fld q 16 5
/-- SFMT. -/
def cfgSfmt (q : W64) : Nat := fld q 8 5
/-- RM. -/
def cfgRm (q : W64) : Nat := fld q 3 3
/-- OVP. -/
def cfgOvp (q : W64) : Nat := fld q 0 2

/-! ## Statistics and accumulators (R249, R256) -/

/-- Saturating addition of 32-bit counters. -/
def sat32 (a b : Nat) : Nat := satAdd (2 ^ 32 - 1) a b

/-- The larger of two magnitudes in FP32: positive encodings stand in the order of their values. Log 21, DEDUCED. -/
def maxMag (a : W32) (b : Nat) : W32 := if a.toNat < b then BitVec.ofNat 32 b else a

/-- Counts one element with its conversion (R256). -/
def TensorStats.count (t : TensorStats) (x : FVal) (y : Conv) : TensorStats :=
  { elems := satAdd (2 ^ 64 - 1) t.elems 1, sat := sat32 t.sat (b2n y.sat), flush := sat32 t.flush (b2n y.flush),
    nan := sat32 t.nan (b2n y.nan), amax := maxMag t.amax (amaxBits x) }

/-- What an operation of the quantiser has made so far: the generator, the element codes in order, the statistics of
its identifier, its saturations, the largest finite result, and whether an element traps. -/
structure QuantRun where
  sr : W32
  out : List Nat := []
  stats : TensorStats
  sat : Nat := 0
  amax : W32 := 0
  trap : Bool := false
deriving DecidableEq, Repr

/-- Takes one converted element: its input, its conversion, and the value of its result. -/
def QuantRun.take (r : QuantRun) (x : FVal) (y : Conv) (value : FVal) : QuantRun :=
  { r with out := y.bits :: r.out, stats := r.stats.count x y, sat := r.sat + b2n y.sat,
           amax := maxMag r.amax (amaxBits value), trap := r.trap || y.trap }

/-- The generator after an element: one step in mode SR (R96). -/
def QuantRun.advance (r : QuantRun) (rm : Nat) : QuantRun := if rm = 4 then { r with sr := srNext r.sr } else r

/-- The statistics counters of an identifier. -/
def Ctx.getStats (x : Ctx) (tid : Nat) : TensorStats := x.stats.toList.getD tid {}

/-- Replaces the counters of an identifier. -/
def Ctx.setStats (x : Ctx) (tid : Nat) (t : TensorStats) : Ctx := { x with stats := x.stats.set (Fin.ofNat 64 tid) t }

/-- Folds a destination side into an accumulator (R250). -/
def TrailerAcc.fold (a : TrailerAcc) (bs : List Byte) (sat : Nat) (amax : W32) : TrailerAcc :=
  { crc := crcFold a.crc bs, bytes := sat32 a.bytes bs.length, sat := sat32 a.sat sat, amax := maxMag a.amax amax.toNat }

/-- What a finished conversion does to the context: the generator, where its elements have stepped it (R96), the statistics,
the accumulator. -/
def Ctx.takeRun (x : Ctx) (cf : BitVec 2) (q : W64) (steps : Bool) (r : QuantRun) (bs : List Byte) : Ctx :=
  let x := if steps then { x with srstate := r.sr } else x
  let x := if cfgSte q then x.setStats (cfgTid q) r.stats else x
  if cfgTre q then { x with acc := x.acc.set cf.toFin ((x.acc[cf.toFin]).fold bs r.sat r.amax) } else x

/-! ## CVT (R242 to R244) -/

/-- Whether a format code may stand in a CVT configuration (R240). -/
def cvtFmt (f : Nat) : Bool := f ≤ 0x10 || f == 0x1B

/-- c(w) of R243. -/
def containerBits (w : Nat) : Nat := if w = 6 then 8 else w

/-- The elements of a CVT (R243). -/
def cvtCount (ws wd : Nat) : Nat := 2048 / Nat.max (containerBits ws) (containerBits wd)

/-- Whether PART is accepted for two sides (R243). -/
def partOk (bS bD part : Nat) : Bool :=
  if bS = 256 ∧ bD = 256 then part == 0
  else (bS == 256 || (part + 1) * bS ≤ 256) && (bD == 256 || (part + 1) * bD ≤ 256)

/-- The byte at which a side starts: its whole register, or its segment. -/
def sideAt (b part : Nat) : Nat := if b = 256 then 0 else part * b

/-- One element of CVT. -/
def cvtOne (q : W64) (r : QuantRun) (e : Nat) : QuantRun :=
  let src := numFmt (cfgSfmt q)
  let dst := numFmt (cfgDfmt q)
  let x := readNum src e
  if convExact src dst then
    let y := downConv dst .rne 0 x
    r.take x y (readNum dst y.bits)
  else
    let r := r.advance (cfgRm q)
    let y := downConv dst (rmodeOf (cfgRm q) r.sr) (cfgOvp q) x
    r.take x y (readNum dst y.bits)

/-- CVT (R244). -/
def execCvt (gd : Guard) (d a : BitVec 5) (cf : BitVec 2) (part : BitVec 3) (s : State) : Result :=
  guarded gd s fun s =>
    let q := s.rd.old.qcfg[cf.toFin]
    let ws := fmtBits (cfgSfmt q)
    let wd := fmtBits (cfgDfmt q)
    let n := cvtCount ws wd
    let bS := n * ws / 8
    let bD := n * wd / 8
    if !(cvtFmt (cfgSfmt q) && cvtFmt (cfgDfmt q) && partOk bS bD part.toNat) then s.trapNow 0x17
    else
      let xs := unpackElems ws (((s.vRead a).drop (sideAt bS part.toNat)).take bS)
      let r := xs.foldl (cvtOne q) { sr := s.rd.old.srstate, stats := s.me.getStats (cfgTid q) }
      if r.trap then s.trapNow 0x11
      else
        let bs := packElems wd r.out.reverse
        let steps := cfgRm q == 4 && !convExact (numFmt (cfgSfmt q)) (numFmt (cfgDfmt q))
        let s := s.updMe fun x => x.takeRun cf q steps r bs
        let s := if steps then s.busyC .srstate 4 else s
        s.vWrite d (sideAt bD part.toNat) bs 4

/-! ## QMX (R245 to R248) -/

/-- EMAX of an element format with E8M0 scales (R246). -/
def mxEmax (f : Nat) : Int :=
  match f with
  | 0x11 | 0x19 => 8
  | 0x12 => 15
  | 0x13 => 2
  | 0x14 => 4
  | 0x15 => 2
  | _ => 0

/-- The implied element scale Q (R246). -/
def mxQ (f : Nat) : Nat := if f = 0x16 then 6 else 0

/-- The largest magnitude of a block, exact; `none` where an element is NaN or infinite. -/
def blockMax : List FVal → Option (Nat × Nat)
  | [] => some (0, 1)
  | x :: t =>
    match x, blockMax t with
    | .fin _ a b, some m => some (if m.1 * b < a * m.2 then (a, b) else m)
    | _, _ => none

/-- The scale byte of a block (R246, R247). -/
def blockScale (f : Nat) (xs : List FVal) : Nat :=
  if f = 0x17 ∨ f = 0x18 then
    match blockMax xs with
    | none => 0xFF
    | some (a, b) =>
      if a = 0 then 0x78
      else
        let r := roundMag fmtUE5M3 .ru false a (b * (if f = 0x17 then 6 else 7))
        (packMag fmtUE5M3 r.1 r.2).getD 0xFE
  else
    match blockMax xs with
    | none => 0xFF
    | some (a, b) => if a = 0 then 0x7F else (min 254 (max 0 (ratLog2 a b - mxEmax f + 127))).toNat

/-- The value of a block's scale. -/
def scaleVal (f e : Nat) : FVal := if f = 0x17 ∨ f = 0x18 then ue5m3Val e else e8m0Val e

/-- One element of a block: converted from its input over the scale, times the implied scale. -/
def qmxOne (q : W64) (scale : FVal) (r : QuantRun) (x : FVal) : QuantRun :=
  let f := cfgDfmt q
  let t := numFmt f
  let r := r.advance (cfgRm q)
  match scale with
  | .fin _ sa sb =>
    let k := 2 ^ mxQ f
    let y := downConv t (rmodeOf (cfgRm q) r.sr) (cfgOvp q) (x.divPos sa (sb * k))
    r.take x y ((readNum t y.bits).mul (.fin false sa (sb * k)))
  | _ => r.take x { bits := 0, nan := true, trap := cfgOvp q == 3 } .nan

/-- The blocks of a source, in ascending order: each with its scale. -/
def qmxBlocks (q : W64) (blk : Nat) (r : QuantRun) (xs : List FVal) : Nat → QuantRun × List Nat
  | 0 => (r, [])
  | n + 1 =>
    let b := xs.take blk
    let e := blockScale (cfgDfmt q) b
    let r := b.foldl (qmxOne q (scaleVal (cfgDfmt q) e)) r
    let rest := qmxBlocks q blk r (xs.drop blk) n
    (rest.1, e :: rest.2)

/-- QMX (R245 to R248). -/
def execQmx (gd : Guard) (d a : BitVec 5) (cf : BitVec 2) (part : BitVec 3) (s : State) : Result :=
  if d.toNat % 2 = 1 then .next (s.trapNow 0x01)
  else guarded gd s fun s =>
    let q := s.rd.old.qcfg[cf.toFin]
    let f := cfgDfmt q
    let ws := fmtBits (cfgSfmt q)
    let srcOk := cfgSfmt q == 0 || cfgSfmt q == 2 || cfgSfmt q == 3
    let n := 2048 / ws
    let bD := n * fmtBits f / 8
    if !(srcOk && 0x11 ≤ f && f ≤ 0x19) || !partOk 256 bD part.toNat then s.trapNow 0x17
    else
      let blk := blockLen f
      let nb := n / blk
      let xs := (unpackElems ws (s.vRead a)).map (readNum (numFmt (cfgSfmt q)))
      let r := qmxBlocks q blk { sr := s.rd.old.srstate, stats := s.me.getStats (cfgTid q) } xs nb
      if r.1.trap then s.trapNow 0x11
      else
        let bs := packElems (fmtBits f) r.1.out.reverse
        let steps := cfgRm q == 4
        let s := s.updMe fun x => x.takeRun cf q steps r.1 bs
        let s := if steps then s.busyC .srstate 6 else s
        (s.vWrite d (part.toNat * bD) bs 6).vWrite (d + 1) (part.toNat * nb) (r.2.map (BitVec.ofNat 8)) 6

/-! ## QTRL (R251, R252) -/

/-- The trailer of an accumulator under a configuration (R252). -/
def trailerBytes (a : TrailerAcc) (q : W64) : List Byte :=
  natLE 4 a.amax.toNat ++ natLE 4 a.sat ++ natLE 4 (crcOut a.crc).toNat ++ natLE 4 a.bytes ++
    [BitVec.ofNat 8 (cfgDfmt q), BitVec.ofNat 8 (cfgTid q), 0, 0] ++ List.replicate 11 0 ++ [1]

/-- QTRL: the trailer into bytes 0 to 31 of vD, and the accumulator empty again (R251). -/
def execQtrl (gd : Guard) (d : BitVec 5) (cf : BitVec 2) (s : State) : Result :=
  guarded gd s fun s =>
    let bs := trailerBytes (s.me.acc[cf.toFin]) (s.rd.old.qcfg[cf.toFin])
    (s.updMe fun x => { x with acc := x.acc.set cf.toFin {} }).vWrite d 0 bs 2

/-! ## QSTAT (R257, R258) -/

/-- A statistics record (R258). -/
def statRecord (t : TensorStats) (tid origin : Nat) : List Byte :=
  natLE 8 t.elems ++ natLE 4 t.sat ++ natLE 4 t.flush ++ natLE 4 t.nan ++ natLE 4 t.amax.toNat ++
    [BitVec.ofNat 8 tid, BitVec.ofNat 8 origin] ++ List.replicate 6 0

/-- Appends the record of an identifier to f3, waiting while it is full, and perhaps resets its counters. -/
def State.qstatWith (s : State) (tid : BitVec 6) (clr : Bool) : State :=
  if fifoDepth 3 ≤ s.me.f3.length then s.waitNow .queueFull
  else s.updMe fun x =>
    let y := { x with f3 := x.f3 ++ [statRecord (x.getStats tid.toNat) tid.toNat 0] }.gaveFifo 3
    if clr then y.setStats tid.toNat {} else y

/-- QSTAT (R257). -/
def execQstat (gd : Guard) (tid : BitVec 6) (s : State) : Result := guarded gd s fun s => s.qstatWith tid false

/-- QSTAT.clr (R257). -/
def execQstatClr (gd : Guard) (tid : BitVec 6) (s : State) : Result := guarded gd s fun s => s.qstatWith tid true

end Sys2Proof.Machine
end

