-- ==== Sys2Proof/Machine/Matrix.lean ====
section
/-! DEFINITION. The matrix engine: its table, its operand roles, passes and their sums, drains, completion and the
error phase (R102 to R109, R264 to R297). A pass reads its activation rows, and a drain makes its writes, at one moment. -/

namespace Sys2Proof.Machine

/-- The bank that MXSET, MXBIND and MXGRP write (R270). -/
def Matrix.stagingBank (m : Matrix) : Bank := if m.staging then m.bank1 else m.bank0

/-- Replaces the staging bank. -/
def Matrix.setStaging (m : Matrix) (b : Bank) : Matrix := if m.staging then { m with bank1 := b } else { m with bank0 := b }

/-- Changes the matrix engine of a context. -/
def Ctx.updMx (x : Ctx) (f : Matrix → Matrix) : Ctx := { x with mx := f x.mx }

/-! ## Roles (R268, R269) -/

/-- Whether a format is a block form with scales (R91). -/
def isBlock (f : Nat) : Bool := blockLen f != 0

/-- The roles that a nest uses (R268). -/
def Bank.uses (b : Bank) (role : Nat) : Bool :=
  match role with
  | 0 | 1 => true
  | 2 => isBlock b.afmt
  | 3 => isBlock b.wfmt
  | 4 => b.cinit == 1
  | 5 => !b.hold
  | 6 => b.dfmt == 0x1C
  | 7 => b.gx
  | _ => b.gen

/-- Whether a base word may bind its role (R268): views of a kind, or local memory. -/
def roleBaseOk (role : Nat) (w : W64) : Bool :=
  !bit w 63 ||
    (match role with
     | 0 | 1 | 2 | 3 | 7 => !bit w 62
     | 4 | 5 | 6 => bit w 62
     | _ => false)

/-! ## Checks (R279, R284, R286) -/

/-- Path class Exact (R92). -/
def exactFmt (f : Nat) : Bool := f == 4 || (6 ≤ f && f ≤ 0x11) || (0x13 ≤ f && f ≤ 0x19)

/-- Formats that an integer accumulator takes (R275). -/
def intOperand (f : Nat) : Bool := 0x09 ≤ f && f ≤ 0x10

/-- The pairs of R279. -/
def pairOk (a w : Nat) : Bool :=
  (exactFmt a && exactFmt w) || (a == 0 && w == 0) || (a == 1 && w == 1) || (a == 3 && w == 3) ||
    (a == 2 && (w == 2 || w == 4 || w == 5 || w == 8)) || ((a == 4 || a == 5 || a == 8) && w == 2) ||
    ((a == 4 || a == 5 || a == 0x12) && (w == 5 || w == 0x12)) || ((a == 5 || a == 0x12) && w == 4)

/-- The drain pairs of R277. -/
def drainOk (accf dfmt : Nat) : Bool :=
  (accf == 0 && (dfmt == 0 || dfmt == 2 || dfmt == 3 || dfmt == 4 || dfmt == 5 || dfmt == 0x1C)) ||
    (accf == 0x1B && (dfmt == 0x1B || dfmt == 0x0A || dfmt == 0)) || (accf == 0x1A && dfmt == 0x1A)

/-- Order 1 of R284 over the whole image. -/
def Bank.malformed (b : Bank) : Bool :=
  fld (b.word 0) 0 16 != 0 || fld (b.word 1) 0 42 != 0 || b.word 5 != 0 ||
    ((List.range 17).any fun k => b.word (15 + k) != 0) || ((List.range 9).any fun k => fld (b.base k) 23 36 != 0) ||
    ((List.range 6).any fun l => b.level l 9 != 0) || ((List.range 4).any fun k => b.lvl.getD (60 + k) 0 != 0) ||
    0x1E ≤ b.afmt || 0x1E ≤ b.wfmt || 0x1E ≤ b.accf || 0x1E ≤ b.dfmt || 4 ≤ b.rm || b.cinit == 3 || b.kfrom == 7

/-- The format rules (order 2 of R284). -/
def Bank.formatsOk (b : Bank) : Bool :=
  pairOk b.afmt b.wfmt && (b.accf == 0 || ((b.accf == 0x1A || b.accf == 0x1B) && intOperand b.afmt && intOperand b.wfmt)) &&
    drainOk b.accf b.dfmt

/-- Order 7 of R284 for one role. -/
def Bank.roleBad (b : Bank) (tv av : List W64) (role : Nat) : Bool :=
  !roleBaseOk role (b.base role) || (bit (b.base role) 63 && fld (viewNamed tv av (b.base role)) 16 12 == 0)

/-- The checks of MXGO (R284): the first failing cause; orders 4 and 5 look at the strides of every role that they name, used
or not. Log 74, DESIGN CHOICE. -/
def Bank.check (b : Bank) (f : Flock) (tv av : List W64) : Option Cause :=
  let kLevels := (List.range 6).filter fun l => b.kfrom ≤ l
  if b.malformed then some 0x63
  else if !b.formatsOk then some 0x61
  else if (List.range 6).any fun l => b.count l == 0 || 1024 < b.count l then some 0x63
  else if kLevels.any fun l => b.stride roleC l != 0 || b.stride roleD l != 0 || b.stride roleDS l != 0 then some 0x63
  else if b.gen && (b.kfrom ≤ b.gl.toNat || b.stride roleW b.gl.toNat != 0 || b.stride roleSW b.gl.toNat != 0) then some 0x63
  else if b.hold && (List.range b.kfrom).any fun l => 1 < b.count l then some 0x63
  else if (List.range 9).any fun r => b.uses r && b.roleBad tv av r then some 0x63
  else if b.ebe && !f.barOk b.ebar then some 0x63
  else none

/-- The checks of MXCOMMIT (R286): the drain fields and their roles, which are ACCF, DFMT, RM, the base words of D and DS and
the drain pair. Log 85, DESIGN CHOICE. -/
def Bank.checkCommit (b : Bank) (tv av : List W64) : Option Cause :=
  let roles := if b.dfmt = 0x1C then [roleD, roleDS] else [roleD]
  if 0x1E ≤ b.accf || 0x1E ≤ b.dfmt || 4 ≤ b.rm || roles.any fun r => fld (b.base r) 23 36 != 0 then some 0x63
  else if !drainOk b.accf b.dfmt then some 0x61
  else if roles.any fun r => b.roleBad tv av r then some 0x63
  else none

/-! ## Instructions (R280 to R287) -/

/-- A matrix instruction in a flock with no matrix engine raises 0x01, whatever its guard (R280). -/
def State.onMx (s : State) (gd : Guard) (f : State → State) : Result :=
  if s.myFlock.mxe = 0 then .next (s.trapNow 0x01) else guarded gd s f

/-- An operation that writes the staging bank waits while a nest is pending (R270). -/
def State.onStaging (s : State) (f : State → State) : State :=
  if s.me.mx.pending.isSome then s.waitNow .queueFull else f s

/-- MXSET.hdr (R281): the header, and no grouping. -/
def execMxsetHdr (gd : Guard) (a : BitVec 5) (s : State) : Result :=
  s.onMx gd fun s => s.onStaging fun s =>
    let ws := (chunks 8 (s.vRead a)).map (BitVec.ofNat 64)
    s.updMe fun x => x.updMx fun m =>
      m.setStaging { m.stagingBank with hdr := ws, gen := false, gl := 0, gx := false }

/-- MXSET.lvl (R281). -/
def execMxsetLvl (gd : Guard) (a : BitVec 5) (s : State) : Result :=
  s.onMx gd fun s => s.onStaging fun s =>
    let ws := (chunks 4 (s.vRead a)).map (BitVec.ofNat 32)
    s.updMe fun x => x.updMx fun m => m.setStaging { m.stagingBank with lvl := ws }

/-- Replaces the base word of a role in the staging bank. -/
def Matrix.bind (m : Matrix) (role : Nat) (w : W64) : Matrix :=
  m.setStaging { m.stagingBank with hdr := m.stagingBank.hdr.set (6 + role) w }

/-- MXBIND to local memory (R282). -/
def execMxbindG (gd : Guard) (role : BitVec 4) (b : BitVec 5) (s : State) : Result :=
  s.onMx gd fun s => s.onStaging fun s =>
    if 2 ^ 23 ≤ (s.rg b).toNat then s.trapNow 0x63
    else s.updMe fun x => x.updMx fun m => m.bind role.toNat (s.rg b)

/-- MXBIND to a view (R282); 0x04 for a view whose EXT is 0 (R129). -/
def execMxbindView (gd : Guard) (role : BitVec 4) (kind : BitVec 2) (n : BitVec 3) (s : State) : Result :=
  s.onMx gd fun s => s.onStaging fun s =>
    let v := if kind = 0 then s.rd.viewT[n.toFin] else s.rd.viewA[n.toFin]
    if fld v 16 12 = 0 then s.trapNow 0x04
    else s.updMe fun x => x.updMx fun m => m.bind role.toNat (fieldWord [(63, 1), (62, kind.toNat), (59, n.toNat)])

/-- MXGRP (R283). -/
def execMxgrp (gd : Guard) (en : Bool) (gl : BitVec 3) (gx : Bool) (s : State) : Result :=
  s.onMx gd fun s => s.onStaging fun s =>
    s.updMe fun x => x.updMx fun m => m.setStaging { m.stagingBank with gen := en, gl := gl, gx := gx }

/-- Starts the pending nest (R270): the other bank is free, becomes the staging bank and receives a copy. -/
def Matrix.startPending (m : Matrix) : Matrix :=
  match m.running, m.pending with
  | none, some n =>
    ({ m with running := some { n with stage := if n.commit.isSome then .drain else .swap }, pending := none,
              staging := !m.staging } : Matrix).setStaging n.bank
  | _, _ => m

/-- Whether a held tile is one that a start with CINIT = 0b10 needs: of the same MROWS, NT and ACCF (R276). -/
def Tile.suits (t : Tile) (b : Bank) : Bool := t.cols == b.nt && t.rows.length == b.rows && t.accf == b.accf

/-- Rows and columns of the tile that a drain nest handed now finds held (R276, R286): that of the running nest, where it
holds its own; the one held now, where no nest runs or where the running one has ended, or starts with CINIT = 0b10 on a
tile that does not suit it and so leaves it held. -/
def Matrix.tileShape (m : Matrix) : Nat × Nat :=
  let held := match m.held with
    | some t => (t.rows.length, t.cols)
    | none => (0, 0)
  match m.running with
  | none => held
  | some n =>
    if n.stage = .ended ∨ (n.commit.isNone && n.bank.cinit == 2 && m.held.any fun t => !t.suits n.bank) then held
    else if n.commit.isNone && n.bank.hold then (n.bank.rows, n.bank.nt)
    else (0, 0)

/-- Hands the staging bank to the engine as a nest (R270, R284): pending, or started at once where none runs; it counts as
outstanding from now on. Log 75, DESIGN CHOICE. -/
def State.handNest (s : State) (commit : Option Bool) : State :=
  s.updMe fun x => x.updMx fun m =>
    let n : Nest := { num := m.ngo, bank := m.stagingBank, tviews := s.rd.viewT.toList, aviews := s.rd.viewA.toList,
                      commit := commit, slot := x.slot, tk := x.tk,
                      shape := if commit.isSome then m.tileShape else (m.stagingBank.rows, m.stagingBank.nt) }
    ({ m with pending := some n, ngo := m.ngo + 1, outst := m.outst + 1 } : Matrix).startPending

/-- MXGO and MXCOMMIT wait for the staging bank, and while eight nests are not waited (R284). -/
def State.onHand (s : State) (check : Bank → Option Cause) (commit : Option Bool) : State :=
  s.onStaging fun s =>
    if 8 ≤ s.me.mx.outst then s.waitNow .queueFull
    else
      match check s.me.mx.stagingBank with
      | some c => s.trapNow c
      | none => s.handNest commit

/-- MXGO (R284). -/
def execMxgo (gd : Guard) (s : State) : Result :=
  s.onMx gd fun s => s.onHand (fun b => b.check s.myFlock s.rd.viewT.toList s.rd.viewA.toList) none

/-- MXCOMMIT (R286). -/
def execMxcommit (gd : Guard) (s : State) : Result :=
  s.onMx gd fun s => s.onHand (fun b => b.checkCommit s.rd.viewT.toList s.rd.viewA.toList) (some false)

/-- MXCOMMIT.clr (R286). -/
def execMxcommitClr (gd : Guard) (s : State) : Result :=
  s.onMx gd fun s => s.onHand (fun b => b.checkCommit s.rd.viewT.toList s.rd.viewA.toList) (some true)

/-- MXWAIT (R285). -/
def execMxwait (gd : Guard) (d : BitVec 5) (s : State) : Result :=
  if d = 31 then .next (s.trapNow 0x01)
  else s.onMx gd fun s =>
    let m := s.me.mx
    if m.outst = 0 then (s.wg d 2).wg (d + 1) 0
    else
      match m.results with
      | [] => s.waitNow .mxwait
      | r :: t =>
        ((s.updMe fun x => x.updMx fun m => { m with results := t, outst := m.outst - 1 }).wg d r.r0).wg (d + 1) r.r1

/-- MXSWAP (R287). -/
def execMxswap (gd : Guard) (n : BitVec 10) (s : State) : Result :=
  if n = 0 then .next (s.trapNow 0x01)
  else s.onMx gd fun s =>
    if 65535 < s.me.mx.grants + n.toNat then s.trapNow 0x63
    else s.updMe fun x => x.updMx fun m => { m with grants := m.grants + n.toNat }

/-! ## Reads and writes of a nest (R269, R289) -/

/-- Why a nest ends in error. -/
structure NestErr where
  cause : Cause
  sub : Cause := 0
  row : Nat := 0
  role : Nat := 0
deriving DecidableEq, Repr

/-- A role access fault: cause 0x62 wrapping another. -/
def roleErr (sub : Cause) (row role : Nat) : NestErr := { cause := 0x62, sub, row, role }

/-- f on each element, up to the first failure. -/
def mapE {α β : Type} (f : α → Except NestErr β) : List α → Except NestErr (List β)
  | [] => .ok []
  | a :: t =>
    match f a with
    | .error e => .error e
    | .ok b =>
      match mapE f t with
      | .error e => .error e
      | .ok bs => .ok (b :: bs)

/-- Reads `n` bytes of a role, taken byte by byte: beyond the declared bytes or the view, or poisoned. -/
def State.roleRead (s : State) (c : Nat) (ne : Nest) (role : Nat) (a : Int) (n row : Nat) : Except NestErr (List Byte) :=
  let w := ne.bank.base role
  if bit w 63 then
    let v := viewNamed ne.tviews ne.aviews w
    if a < 0 ∨ ((fld v 16 12 * 256 : Nat) : Int) < a + n then .error (roleErr 0x04 row role)
    else .ok (Memory.readN (s.ctx c).opfile (fld v 0 11 * 256 + a.toNat) n)
  else
    let lim := (s.flock ((s.ctx c).flock.getD 0)).lmb
    if a < 0 then .error (roleErr 0x22 row role)
    else
      let k := min n (lim - a.toNat)
      if k ≠ 0 ∧ s.poisonedLoc (.lm c a.toNat) k then .error (roleErr 0x24 row role)
      else if k < n then .error (roleErr 0x22 row role)
      else .ok (s.readLoc (.lm c a.toNat) n)

/-- Writes elements of `sz` bytes to a role, in order, up to the first that fails. Log 20, DEDUCED. -/
def State.roleWrite (s : State) (c : Nat) (ne : Nest) (role : Nat) (a : Int) (sz : Nat) (bs : List Byte) (row : Nat) :
    State × Option NestErr :=
  let w := ne.bank.base role
  let view := bit w 63
  let v := viewNamed ne.tviews ne.aviews w
  let lim := if view then fld v 16 12 * 256 else (s.flock ((s.ctx c).flock.getD 0)).lmb
  let err := roleErr (if view then 0x04 else 0x22) row role
  if a % (sz : Int) ≠ 0 then (s, some (roleErr 0x02 row role))
  else if a < 0 then (s, some err)
  else
    let good := bs.take ((lim - a.toNat) / sz * sz)
    let s := if good = [] then s
      else if view then s.updCtx c fun x => { x with opfile := Memory.writeN x.opfile (fld v 0 11 * 256 + a.toNat) good }
      else s.writeLoc (.lm c a.toNat) good
    (s, if good.length < bs.length then some err else none)

/-- addr(x) of a role for the current pass (R273). -/
def Nest.addr (ne : Nest) (role : Nat) : Int :=
  (List.range 6).foldl (fun a l => a + (ne.idx.getD l 0 : Int) * ne.bank.stride role l) (ne.bank.offset role : Int)

/-- addr(w) and addr(sw), through the group pointer table where GEN = 1 (R273). -/
def State.weightAddrs (s : State) (c : Nat) (ne : Nest) : Except NestErr (Int × Int) :=
  let b := ne.bank
  if !b.gen then .ok (ne.addr roleW, ne.addr roleSW)
  else
    let pa := b.offset roleP + 8 * ne.idx.getD b.gl.toNat 0
    if pa % 8 ≠ 0 then .error (roleErr 0x02 0 roleP)
    else
      match s.roleRead c ne roleP pa 8 0 with
      | .error e => .error e
      | .ok bs =>
        let e := leWord bs
        if fld e 23 9 ≠ 0 ∨ fld e 55 9 ≠ 0 then .error (roleErr 0x28 0 roleP)
        else .ok (ne.addr roleW - b.offset roleW + fld e 0 23, ne.addr roleSW - b.offset roleSW + fld e 32 23)

/-! ## Sums (R102 to R108, R275) -/

/-- Elements of a row: `n` elements of a format from the row's bytes (R88). -/
def rowElems (f n : Nat) (bs : List Byte) : List Nat := (unpackElems (fmtBits f) bs).take n

/-- Bytes that hold `n` elements of a format. -/
def rowBytes (f n : Nat) : Nat := (n * fmtBits f + 7) / 8

/-- −q of R102. -/
def exactShift (f : Nat) : Nat :=
  match f with
  | 0x04 | 0x11 | 0x19 => 9
  | 0x07 | 0x14 => 4
  | 0x06 | 0x13 => 3
  | 0x08 | 0x15 | 0x17 => 1
  | 0x16 => 6
  | _ => 0

/-- The aligned integer n of an element on the exact path; `none` for a NaN (R102). -/
def elemInt (f x : Nat) : Option Int :=
  match numFmt f with
  | .fp g =>
    match fdecode g x with
    | .fin neg num den => some (FVal.inum neg (num * 2 ^ exactShift f / den))
    | _ => none
  | .int w sg => some (if sg then signed w x else (x % 2 ^ w : Nat))
  | .bin => some (if x % 2 = 1 then 1 else -1)

/-- The moduli of the residue channels (R104). -/
def res1 : Nat := 16381
/-- m2. -/
def res2 : Nat := 16383
/-- m3. -/
def res3 : Nat := 16384

/-- Crt: the block sum from its residues (R105). -/
def crt (a b c : Nat) : Int :=
  let t1 : Int := ((b : Int) - a) * 8191 % 16383
  let t2 : Int := (t1 - 5461 * ((c : Int) - a)) % 16384
  let x := (a : Int) + 16381 * t1 + 268369923 * t2
  if 2198486409216 ≤ x then x - 4396972818432 else x

/-- The three residues of an integer in one RES3 element (R94). -/
def resOf (s : Int) : Nat := wrapMod s res1 + wrapMod s res2 * 2 ^ 16 + wrapMod s res3 * 2 ^ 32
where
  /-- The residue below a modulus. -/
  wrapMod (s : Int) (m : Nat) : Nat := (s % (m : Int)).toNat

/-- The residues of a RES3 element, reduced (R94). -/
def resParts (x : Nat) : Nat × Nat × Nat := (x % 2 ^ 16 % res1, x / 2 ^ 16 % 2 ^ 16 % res2, x / 2 ^ 32 % 2 ^ 16 % res3)

/-- A RES3 element with reduced residues. -/
def resNorm (x : Nat) : Nat :=
  let p := resParts x
  p.1 + p.2.1 * 2 ^ 16 + p.2.2 * 2 ^ 32

/-- Adds a block sum to a RES3 accumulator, channel by channel (R275). -/
def resAdd (acc : Nat) (s : Int) : Nat :=
  let p := resParts acc
  let q := resParts (resOf s)
  (p.1 + q.1) % res1 + (p.2.1 + q.2.1) % res2 * 2 ^ 16 + (p.2.2 + q.2.2) % res3 * 2 ^ 32

/-- The integer that a RES3 element holds (R94, R105). -/
def resVal (x : Nat) : Int :=
  let p := resParts x
  crt p.1 p.2.1 p.2.2

/-- The block sum through its residues; `none` where an element is NaN (R104, R105). -/
def blockSum : List (Option Int) → List (Option Int) → Option Int
  | xs, ws =>
    if xs.any Option.isNone || ws.any Option.isNone then none
    else some (resVal (resOf ((List.zipWith (fun x w => x.getD 0 * w.getD 0) xs ws).foldl (· + ·) 0)))

/-- A value rounded to FP32 with RNE and the drain's policy on overflow (R106 to R108); `none` where policy 0b11
meets an overflow. -/
def round32 (ovp : Nat) (v : FVal) : Option Nat :=
  let c := downConv (.fp fmtFP32) .rne ovp v
  if c.trap then none else some c.bits

/-- The scale of a block, 1 where there is none. -/
def blockScaleVal (f : Nat) (e : Option Nat) : FVal :=
  match e with
  | some e => scaleVal f e
  | none => .fin false 1 1

/-- The block value of the exact path (R106). -/
def blockExact (ovp af wf : Nat) (s : Option Int) (sa sw : FVal) : Option Nat :=
  match s with
  | none => some (canonicalNaN fmtFP32)
  | some s =>
    if sa.isNaN || sw.isNaN then some (canonicalNaN fmtFP32)
    else
      let v := ((FVal.fin (s < 0) s.natAbs (2 ^ (exactShift af + exactShift wf))).mul sa).mul sw
      if v.isZero then some 0 else round32 ovp v

/-- One addition of the floating path. -/
def add32 (ovp : Nat) (x y : Option FVal) : Option FVal :=
  match x, y with
  | some x, some y => (round32 ovp (x.add y)).map (fdecode fmtFP32)
  | _, _ => none

/-- The block value of the floating path over 32 products (R107). -/
def blockFloat (ovp : Nat) (ps : List FVal) (scaled : Bool) (sa sw : FVal) : Option Nat :=
  let p := fun i => some (ps.getD i (.fin false 0 1))
  let ad := add32 ovp
  let g := fun j =>
    let q := 8 * j
    ad (ad (ad (p q) (p (q + 1))) (ad (p (q + 2)) (p (q + 3)))) (ad (ad (p (q + 4)) (p (q + 5))) (ad (p (q + 6)) (p (q + 7))))
  match ad (ad (ad (g 0) (g 1)) (g 2)) (g 3) with
  | none => none
  | some b => if scaled then round32 ovp ((b.mul sa).mul sw) else round32 ovp b

/-- The accumulator addition of R108. -/
def accAdd (ovp acc : Nat) (bv : Option Nat) : Option Nat :=
  match bv with
  | none => none
  | some b => round32 ovp ((fdecode fmtFP32 acc).add (fdecode fmtFP32 b))

/-- The block length of a pairing (R103). -/
def pairBlock (af wf : Nat) : Nat := if blockLen af = 16 ∨ blockLen wf = 16 then 16 else 32

/-- The scale of an operand over block `k` of a pairing with blocks of `len` rows: the one of the operand's own block that
holds those rows, 32 elements for an MX form and 16 for a QS form (R91, R103). Log 73, DEDUCED. -/
def operandScale (f len k : Nat) (scales : List (Option Nat)) : FVal :=
  blockScaleVal f (scales.getD (k * len / blockLen f) none)

/-- One landing entry over the blocks of a pass, ascending (R274): the elements of its activation row and weight
column, and their scales. -/
def accEntry (b : Bank) (xs ws : List Nat) (sa sw : List (Option Nat)) (acc : Nat) : Option Nat :=
  let len := pairBlock b.afmt b.wfmt
  let exact := exactFmt b.afmt && exactFmt b.wfmt
  (List.range (128 / len)).foldl (fun acc k =>
    match acc with
    | none => none
    | some acc =>
      let x := (xs.drop (k * len)).take len
      let w := (ws.drop (k * len)).take len
      let fa := operandScale b.afmt len k sa
      let fw := operandScale b.wfmt len k sw
      if exact then
        let s := blockSum (x.map (elemInt b.afmt)) (w.map (elemInt b.wfmt))
        if b.accf = 0x1B then some (wrap 32 ((acc : Int) + s.getD 0))
        else if b.accf = 0x1A then some (resAdd acc (s.getD 0))
        else accAdd b.ovp acc (blockExact b.ovp b.afmt b.wfmt s fa fw)
      else
        let ps := List.zipWith (fun x w => (readNum (numFmt b.afmt) x).mul (readNum (numFmt b.wfmt) w)) x w
        accAdd b.ovp acc (blockFloat b.ovp ps (isBlock b.afmt || isBlock b.wfmt) fa fw)) (some acc)

/-! ## A pass (R273, R274, R276) -/

/-- Whether a pass starts a run. -/
def Nest.startsRun (ne : Nest) : Bool := (List.range 6).all fun l => l < ne.bank.kfrom || ne.idx.getD l 0 == 0

/-- Whether a pass ends a run. -/
def Nest.endsRun (ne : Nest) : Bool :=
  (List.range 6).all fun l => l < ne.bank.kfrom || ne.idx.getD l 0 + 1 == ne.bank.count l

/-- The indices of the next pass, innermost first; `none` after the last (R273). -/
def nextIdx (b : Bank) (ix : List Nat) : Nat → Option (List Nat)
  | 0 => none
  | l + 1 =>
    if ix.getD l 0 + 1 < b.count l then some ((ix.set l (ix.getD l 0 + 1)).mapIdx fun k v => if l < k then 0 else v)
    else nextIdx b ix l

/-- The landing tile at the start of a run (R276). Log 19, DEDUCED. -/
def State.tileInit (s : State) (c : Nat) (ne : Nest) : Except NestErr Tile :=
  let b := ne.bank
  if b.cinit = 2 then
    match (s.ctx c).mx.held with
    | some t => if t.suits b then .ok t else .error { cause := 0x63 }
    | none => .error { cause := 0x63 }
  else if b.cinit = 1 then
    let sz := elemBytes b.accf
    let row := fun (r : Nat) =>
      let a := ne.addr roleC + (r : Int) * b.rowStride 4
      if a % (sz : Int) ≠ 0 then .error (roleErr 0x02 r roleC)
      else
        match s.roleRead c ne roleC a (sz * b.nt) r with
        | .error e => .error e
        | .ok bs => .ok ((chunks sz bs).map fun x => BitVec.ofNat 48 (if b.accf = 0x1A then resNorm x else x))
    match mapE row (List.range b.rows) with
    | .error e => .error e
    | .ok rows => .ok { cols := b.nt, accf := b.accf, rows := rows }
  else .ok { cols := b.nt, accf := b.accf, rows := List.replicate b.rows (List.replicate b.nt 0) }

/-- The blocks of a block form that hold a row below KT + 1 (R91, R274). Log 73, DEDUCED. -/
def Bank.blocks (b : Bank) (f : Nat) : Nat := (b.kt - 1) / blockLen f + 1

/-- Reads K row `k` of a weight tile. -/
def State.weightRow (s : State) (c : Nat) (ne : Nest) (aw : Int) (k : Nat) : Except NestErr (List Nat) :=
  let b := ne.bank
  match s.roleRead c ne roleW (aw + (k : Int) * b.rowStride 1) (rowBytes b.wfmt b.nt) 0 with
  | .error e => .error e
  | .ok bs => .ok (rowElems b.wfmt b.nt bs)

/-- Reads the scale row of block `k` of a weight tile. -/
def State.scaleRow (s : State) (c : Nat) (ne : Nest) (asw : Int) (k : Nat) : Except NestErr (List Nat) :=
  match s.roleRead c ne roleSW (asw + (k : Int) * ne.bank.rowStride 3) ne.bank.nt 0 with
  | .error e => .error e
  | .ok bs => .ok (chunks 1 bs)

/-- How many scale rows a pass reads. -/
def Bank.scaleRows (b : Bank) : Nat := if isBlock b.wfmt then b.blocks b.wfmt else 0

/-- The addresses of W and SW of a pass, as its first read has found them. -/
def State.shadowAddrs (s : State) (c : Nat) (ne : Nest) (sh : Shadow) : Except NestErr (Int × Int) :=
  match sh.addrs with
  | some a => .ok a
  | none => s.weightAddrs c ne

/-- The shadow tile and its scales, completed: what has not been read ahead is read now (R266, R267). -/
def State.readWeights (s : State) (c : Nat) (ne : Nest) (sh : Shadow) : Except NestErr Weights :=
  let rest := fun (n : Nat) (xs : List (List Nat)) => (List.range n).drop xs.length
  match s.shadowAddrs c ne sh with
  | .error e => .error e
  | .ok a =>
    match mapE (s.weightRow c ne a.1) (rest ne.bank.kt sh.tile.rows) with
    | .error e => .error e
    | .ok rows =>
      match mapE (s.scaleRow c ne a.2) (rest ne.bank.scaleRows sh.tile.scales) with
      | .error e => .error e
      | .ok scales => .ok { rows := sh.tile.rows ++ rows, scales := sh.tile.scales ++ scales }

/-- The address of an activation row, gathered through IX where GX = 1. -/
def State.rowAddr (s : State) (c : Nat) (ne : Nest) (r : Nat) : Except NestErr Int :=
  let b := ne.bank
  if !b.gx then .ok (ne.addr roleA + (r : Int) * b.rowStride 0)
  else
    let a := ne.addr roleIX + 4 * (r : Int)
    if a % 4 ≠ 0 then .error (roleErr 0x02 r roleIX)
    else
      match s.roleRead c ne roleIX a 4 r with
      | .error e => .error e
      | .ok bs => .ok (ne.addr roleA + (leNat bs : Int) * b.rowStride 0)

/-- One row of a pass: its elements and scales read, and its landing entries added to. -/
def State.passRow (s : State) (c : Nat) (ne : Nest) (w : Weights) (r : Nat) (acc : List (BitVec 48)) :
    Except NestErr (List (BitVec 48)) :=
  let b := ne.bank
  match s.rowAddr c ne r with
  | .error e => .error e
  | .ok a =>
    match s.roleRead c ne roleA a (rowBytes b.afmt b.kt) r with
    | .error e => .error e
    | .ok bs =>
      let xs := rowElems b.afmt b.kt bs
      let scales : Except NestErr (List (Option Nat)) :=
        if isBlock b.afmt then
          match s.roleRead c ne roleSA (ne.addr roleSA + (r : Int) * b.rowStride 2) (b.blocks b.afmt) r with
          | .error e => .error e
          | .ok bs => .ok ((chunks 1 bs).map some)
        else .ok []
      match scales with
      | .error e => .error e
      | .ok sa =>
        mapE (fun p : Nat × BitVec 48 =>
          let ws := w.rows.map fun row => row.getD p.1 0
          let sw := w.scales.map fun row => some (row.getD p.1 0)
          match accEntry b xs ws sa sw p.2.toNat with
          | some v => .ok (BitVec.ofNat 48 v)
          | none => .error { cause := 0x11 }) ((List.range acc.length).zip acc)

/-- The landing tile as a pass finds it: at the start of a run as CINIT sets it. -/
def State.passStart (s : State) (c : Nat) (ne : Nest) : Except NestErr Tile :=
  if ne.startsRun then s.tileInit c ne
  else .ok ((s.ctx c).mx.land.getD { cols := ne.bank.nt, accf := ne.bank.accf, rows := [] })

/-- The landing tile after a pass over the active weight tile, or the first failure in the order of R274.
Log 19, DEDUCED. -/
def State.runPass (s : State) (c : Nat) (ne : Nest) : Except NestErr Tile :=
  match s.passStart c ne with
  | .error e => .error e
  | .ok t =>
    let w := (s.ctx c).mx.active
    match mapE (fun p : Nat × List (BitVec 48) => s.passRow c ne w p.1 p.2) ((List.range t.rows.length).zip t.rows) with
    | .error e => .error e
    | .ok rows => .ok { t with rows := rows }

/-! ## The error phase (R226, R289) -/

/-- Ends the running nest in its error phase: the landing tile is discarded, and EBAR is marked where EBE = 1. A held
tile that a start found not to match stays held (R276); a drain nest whose EBAR is reserved or not allocated marks no barrier.
Log 19, DEDUCED; log 77, DESIGN CHOICE. -/
def State.nestFail (s : State) (c : Nat) (ne : Nest) (e : NestErr) (keep : Bool) : State :=
  let x := s.ctx c
  let fl := x.flock.getD 0
  let s := if ne.bank.ebe ∧ (s.flock fl).barOk ne.bank.ebar then
      s.updBar fl (barKey ne.bank.ebar x.logical) fun i => i.markError (i.party (partyId fl x.member)).issued e.cause
    else s
  s.onCore c fun x => x.updMx fun m =>
    { m with land := none, held := if keep then m.held else none,
             running := some { ne with stage := .ended, cause := e.cause, sub := e.sub, row := e.row, role := e.role } }

/-- Whether the engine starts nothing more: a request for a cut is pending, or the member stands at a trap (R293). -/
def Ctx.mxCut (x : Ctx) : Bool := x.preempt || x.trap.isSome

/-! ## The engine's steps -/

/-- The running nest of a core, at a stage. -/
def State.nestAt (s : State) (c : Nat) (st : NestStage) : Option Nest :=
  match (s.ctx c).mx.running with
  | some n => if n.stage = st then some n else none
  | none => none

/-- A pending nest starts when no nest runs (R270). -/
def execNestStart (c : Nat) (s : State) : Result :=
  .next (
    let m := (s.ctx c).mx
    if (s.ctx c).mxCut || m.running.isSome || m.pending.isNone then s else s.onCore c fun x => x.updMx Matrix.startPending)

/-- After a pass and its drain: the next pass, or the end (R273). -/
def Nest.advance (ne : Nest) : Nest :=
  match nextIdx ne.bank ne.idx 6 with
  | some ix => { ne with idx := ix, stage := .swap }
  | none => { ne with stage := .ended }

/-- Whether all that a nest must follow has landed and been performed (R290). -/
def Ctx.nestClear (x : Ctx) (ne : Nest) : Bool :=
  !(x.landings.any (fun l => l.slot ≤ ne.slot) || x.saccess.any (fun a => a.tk < ne.tk))

/-- The next pass of the running nest, whose weights the gather unit may read ahead; with SWM = 1 once the grant for its swap
is there, so that a program can hold it back until its buffer is complete (R266). Log 79, DEDUCED. -/
def Ctx.nextPass (x : Ctx) : Option Nest :=
  match x.mx.running with
  | none => none
  | some ne =>
    let next : Option Nest := match ne.stage with
      | .swap => some ne
      | .pass | .drain => if ne.commit.isSome then none else some ne.advance
      | .ended => none
    next.filter fun n => n.stage == .swap && !x.mxCut && x.nestClear ne && (!ne.bank.swm || x.mx.grants != 0)

/-- The gather unit reads the next K row, or the next scale row, of the next pass into the shadow tile or the scale queue
(R266, R267); a row that cannot be read is left to the swap. -/
def State.shadowRow (s : State) (c : Nat) (scale : Bool) : State :=
  match (s.ctx c).nextPass with
  | none => s
  | some ne =>
    let sh := (s.ctx c).mx.shadow
    match s.shadowAddrs c ne sh with
    | .error _ => s
    | .ok a =>
      let keep := fun (t : Weights) => s.onCore c fun x => x.updMx fun m => { m with shadow := { addrs := some a, tile := t } }
      if scale then
        if ne.bank.scaleRows ≤ sh.tile.scales.length then s
        else
          match s.scaleRow c ne a.2 sh.tile.scales.length with
          | .error _ => s
          | .ok r => keep { sh.tile with scales := sh.tile.scales ++ [r] }
      else if ne.bank.kt ≤ sh.tile.rows.length then s
      else
        match s.weightRow c ne a.1 sh.tile.rows.length with
        | .error _ => s
        | .ok r => keep { sh.tile with rows := sh.tile.rows ++ [r] }

/-- The shadow tile and any scales read ahead are discarded (R293). -/
def Ctx.dropShadow (x : Ctx) : Ctx := x.updMx fun m => { m with shadow := {} }

/-- The shadow weight tile, complete, becomes active (R266), when all that a nest must follow has landed and been performed
(R290); with SWM = 1 it takes a grant, also where the start then finds no tile that suits it. A weight that cannot be read ends
the nest, unless the pass's start fails first (R274, R289). Log 86, DESIGN CHOICE. -/
def execWeightSwap (c : Nat) (s : State) : Result :=
  .next (
    match s.nestAt c .swap with
    | none => s
    | some ne =>
      let x := s.ctx c
      if x.mxCut || !x.nestClear ne || (ne.bank.swm && x.mx.grants == 0) then s
      else
        let weights := s.readWeights c ne x.mx.shadow
        let start := s.passStart c ne
        let s := s.onCore c fun x => x.updMx fun m =>
          { m with grants := if ne.bank.swm then m.grants - 1 else m.grants, shadow := {}, running := some { ne with stage := .pass } }
        match weights, start with
        | .ok w, _ => s.onCore c fun x => x.updMx fun m => { m with active := w }
        | .error _, .error e => s.nestFail c ne e (e.cause = 0x63)
        | .error e, .ok _ => s.nestFail c ne e false)

/-- The engine runs one pass (R274). -/
def execNestPass (c : Nat) (s : State) : Result :=
  .next (
    match s.nestAt c .pass with
    | none => s
    | some ne =>
      match s.runPass c ne with
      | .error e => s.nestFail c ne e (e.cause = 0x63)
      | .ok t =>
        s.onCore c fun x => x.updMx fun m =>
          let held := if ne.startsRun ∧ ne.bank.cinit ≠ 2 then none else m.held
          if !ne.endsRun then { m with land := some t, held := held, running := some ne.advance }
          else if ne.bank.hold then { m with land := none, held := some t, running := some ne.advance }
          else { m with land := some t, held := held, running := some { ne with stage := .drain } })

/-! ## Drains (R259, R277, R278, R286) -/

/-- The value of a landing entry. -/
def cellVal (accf : Nat) (x : BitVec 48) : FVal :=
  if accf = 0 then fdecode fmtFP32 (x.toNat % 2 ^ 32)
  else if accf = 0x1B then intFVal (signed 32 x.toNat)
  else intFVal (resVal x.toNat)

/-- The conversion of a landing entry (R277). -/
def drainConv (b : Bank) (accf : Nat) (x : BitVec 48) : Conv :=
  if accf = 0x1A then { bits := resNorm x.toNat } else downConv (numFmt b.dfmt) (rmodeOf b.rm 0) b.ovp (cellVal accf x)

/-- The scale of a row of BF16-RS and its conversions (R278). -/
def drainRs (b : Bank) (row : List (BitVec 48)) : Nat × List Conv :=
  let vs := row.map (cellVal 0)
  match blockMax vs with
  | none => (0xFF, vs.map fun v => { bits := 0, nan := v.isNaN })
  | some (m, d) =>
    let e := if m = 0 then 0x7F else (min 254 (max 0 (ratLog2 m d + 127))).toNat
    let k := scaleRat 1 1 (127 - (e : Int))
    (e, vs.map fun v => downConv (.fp fmtBF16) (rmodeOf b.rm 0) b.ovp (v.mul (.fin false k.1 k.2)))

/-- A drained row: the conversions, and the row scale where there is one. -/
def drainRow (b : Bank) (accf : Nat) (row : List (BitVec 48)) : Option Nat × List Conv :=
  if b.dfmt = 0x1C then
    let r := drainRs b row
    (some r.1, r.2)
  else (none, row.map (drainConv b accf))

/-- Writes the rows of a drain from row `r` up: the row scale, then the row (R277, R278). Log 20, DEDUCED. -/
def State.drainWrite (s : State) (c : Nat) (ne : Nest) : Nat → List (Option Nat × List Conv) → State × Option NestErr
  | _, [] => (s, none)
  | r, row :: t =>
    let b := ne.bank
    let sz := elemBytes b.dfmt
    let first : State × Option NestErr :=
      match row.1 with
      | some e => s.roleWrite c ne roleDS (ne.addr roleDS + (r : Int)) 1 [BitVec.ofNat 8 e] r
      | none => (s, none)
    match first with
    | (s, some e) => (s, some e)
    | (s, none) =>
      match s.roleWrite c ne roleD (ne.addr roleD + (r : Int) * b.rowStride 5) sz (row.2.flatMap fun v => natLE sz v.bits) r with
      | (s, some e) => (s, some e)
      | (s, none) => s.drainWrite c ne (r + 1) t

/-- Drains a tile: conversions, then statistics, then writes; or the failure. Log 20, DEDUCED. -/
def State.drainTile (s : State) (c : Nat) (ne : Nest) (t : Tile) : State × Option NestErr :=
  let b := ne.bank
  let rows := t.rows.map (drainRow b t.accf)
  if rows.any fun r => r.2.any (·.trap) then (s, some { cause := 0x11 })
  else
    let count := fun (st : TensorStats) (p : BitVec 48 × Conv) => st.count (cellVal t.accf p.1) p.2
    let s := if b.ste then s.updCtx c fun x =>
        x.setStats b.tid (((t.rows.flatten).zip (rows.flatMap (·.2))).foldl count (x.getStats b.tid))
      else s
    s.drainWrite c ne 0 rows

/-- The landing tile is drained at the end of a run, or the held tile by a drain nest (R277, R286); one that discards compares
no ACCF. Log 76, DESIGN CHOICE. -/
def execNestDrain (c : Nat) (s : State) : Result :=
  .next (
    match s.nestAt c .drain with
    | none => s
    | some ne =>
      let m := (s.ctx c).mx
      match ne.commit with
      | none =>
        match s.drainTile c ne (m.land.getD { cols := 0, accf := ne.bank.accf, rows := [] }) with
        | (s, some e) => s.nestFail c ne e false
        | (s, none) => s.onCore c fun x => x.updMx fun m => { m with land := none, held := none, running := some ne.advance }
      | some clr =>
        if !(s.ctx c).nestClear ne then s
        else
          match m.held with
          | none => s.nestFail c ne { cause := 0x63 } false
          | some t =>
            let ended := { ne with stage := NestStage.ended }
            if clr then s.onCore c fun x => x.updMx fun m => { m with held := none, running := some ended }
            else if t.accf ≠ ne.bank.accf then s.nestFail c ne { cause := 0x63 } false
            else
              match s.drainTile c ne t with
              | (s, some e) => s.nestFail c ne e false
              | (s, none) => s.onCore c fun x => x.updMx fun m => { m with held := none, running := some ended })

/-- The result words of a nest (R285). -/
def Nest.result (ne : Nest) : NestResult :=
  if ne.cause = 0 then { r0 := fieldWord [(32, ne.num.toNat)], r1 := 0, nest := ne }
  else
    { nest := ne, r0 := fieldWord [(32, ne.num.toNat), (24, ne.cause.toNat), (16, ne.sub.toNat), (8, ne.row), (4, ne.role), (0, 1)],
      r1 := fieldWord ((List.range 6).map fun l => (50 - 10 * l, ne.idx.getD l 0)) }

/-- The nest's phase completes (R288). -/
def execNestComplete (c : Nat) (s : State) : Result :=
  .next (
    match s.nestAt c .ended with
    | none => s
    | some ne => s.onCore c fun x => x.updMx fun m => { m with running := none, shadow := {}, results := m.results ++ [ne.result] })

end Sys2Proof.Machine
end

