-- ==== Sys2Proof/Machine/Copy.lean ====
section
/-! DEFINITION. The copy engine: the checks of a command, transfers, multicast, accumulation and atomics at the home,
the penumbra class, flags, and completion (R298 to R327). -/

namespace Sys2Proof

open Machine

/-- TY (R317). -/
def CmdRecord.ty (r : CmdRecord) : Nat := fld r.w3 32 4
/-- WIN. -/
def CmdRecord.win (r : CmdRecord) : Nat := fld r.w3 48 16
/-- TOFF, or NLINES. -/
def CmdRecord.toff (r : CmdRecord) : Nat := fld r.w3 32 16
/-- MADDR. -/
def CmdRecord.maddr (r : CmdRecord) : W64 := BitVec.ofNat 64 (fld r.w7 0 56)
/-- MBIT. -/
def CmdRecord.mbit (r : CmdRecord) : Nat := fld r.w7 56 6
/-- The flag of PUTF. -/
def CmdRecord.flag (r : CmdRecord) : W64 := r.w6

end Sys2Proof

namespace Sys2Proof.Machine

/-! ## Element types (R317) -/

/-- Bytes of an element type. -/
def tyBytes (ty : Nat) : Nat :=
  match ty with
  | 2 | 3 => 8
  | 5 => 2
  | 6 => 6
  | _ => 4

/-- Whether a command allows an element type (R317). -/
def tyOk (opc ty : Nat) : Bool :=
  match opc with
  | 0x07 => ty ≤ 6
  | 0x10 | 0x11 | 0x12 | 0x16 => ty ≤ 5
  | 0x13 | 0x14 | 0x15 | 0x17 => ty ≤ 3
  | _ => true

/-- Addition in an element type: wrap, RNE, or residues (R317). -/
def tyAdd (ty a b : Nat) : Nat :=
  match ty with
  | 4 => fp2 .f32 FVal.add a b
  | 5 => fp2 .bf16 FVal.add a b
  | 6 =>
    let p := resParts a
    let q := resParts b
    (p.1 + q.1) % res1 + (p.2.1 + q.2.1) % res2 * 2 ^ 16 + (p.2.2 + q.2.2) % res3 * 2 ^ 32
  | _ => (a + b) % 2 ^ (8 * tyBytes ty)

/-- The smaller (or larger) in an element type (R101, R317). -/
def tyPick (ty : Nat) (larger : Bool) (a b : Nat) : Nat :=
  match ty with
  | 4 => fp2 .f32 (if larger then FVal.upper else FVal.lower) a b
  | 5 => fp2 .bf16 (if larger then FVal.upper else FVal.lower) a b
  | _ =>
    let w := 8 * tyBytes ty
    let less := if ty % 2 = 1 then decide (signed w a < signed w b) else decide (a < b)
    if less != larger then a else b

/-- The new element of an AOW, or of an addition of the flag commands (R319, R321). -/
def aowNew (opc ty old operand : Nat) : Nat :=
  match opc with
  | 0x11 => tyPick ty false old operand
  | 0x12 => tyPick ty true old operand
  | 0x13 => Nat.land old operand
  | 0x14 => Nat.lor old operand
  | 0x15 => Nat.xor old operand
  | 0x16 => operand
  | _ => tyAdd ty old operand

/-! ## Checks at the start (R302 orders 1 to 4, R324) -/

/-- Whether a command moves bytes: COPY to PUTF. -/
def isTransfer (opc : Nat) : Bool := 1 ≤ opc && opc ≤ 5

/-- Whether a command acts on one element: the AOW family, CAS and FLAGADD. -/
def isAtomic (opc : Nat) : Bool := 0x10 ≤ opc && opc ≤ 0x18

/-- Whether an address field is well formed (R299). -/
def addrField (lcl : Bool) (a : W64) : Bool := if lcl then fld a 23 41 == 0 else fld a 56 8 == 0

end Sys2Proof.Machine

namespace Sys2Proof

open Machine

/-- The 0 cells of R299 and the unused bits of the fields, by opcode. -/
def CmdRecord.cellsZero (r : CmdRecord) : Bool :=
  let hi := fld r.w3 32 32 == 0
  match r.opc with
  | 0x01 => r.w4 == 0 && r.w5 == 0 && r.w6 == 0
  | 0x02 => fld r.w5 32 32 == 0 && r.w6 == 0
  | 0x03 => true
  | 0x04 => r.w6 == 0
  | 0x05 => true
  | 0x06 => hi && r.w4 == 0 && r.w5 == 0 && r.w6 == 0 && r.w7 == 0
  | 0x07 => fld r.w3 36 28 == 0 && r.w4 == 0 && r.w5 == 0 && r.w6 == 0 && r.w7 == 0
  | 0x08 => hi && r.w2 == 0 && r.w5 == 0 && r.w6 == 0 && r.w7 == 0
  | 0x09 => hi && r.w5 == 0 && r.w6 == 0 && r.w7 == 0
  | 0x0A => fld r.w3 48 16 == 0 && fld r.w4 32 32 == 0 && r.w6 == 0 && r.w7 == 0
  | 0x0B => r.w2 == 0 && r.w3 == 0 && r.w5 == 0 && r.w6 == 0 && r.w7 == 0
  | 0x17 => r.w2 == 0 && fld r.w3 36 28 == 0 && r.len == 0 && r.w6 == 0 && r.w7 == 0
  | 0x18 => r.w2 == 0 && r.w3 == 0 && r.w5 == 0 && r.w6 == 0 && r.w7 == 0
  | _ => r.w2 == 0 && fld r.w3 36 28 == 0 && r.len == 0 && r.w5 == 0 && r.w6 == 0 && r.w7 == 0

/-- The rules on DL, SL and INL of a command. -/
def CmdRecord.formOk (r : CmdRecord) : Bool :=
  let inl := !r.inl || ((r.opc == 4 || r.opc == 5) && r.len ≤ 16 && !r.sl && r.w2 == 0)
  inl && (match r.opc with
    | 0x04 | 0x05 => r.sl || r.inl
    | 0x06 => r.dl && !r.sl
    | 0x08 | 0x0A => !r.sl
    | 0x09 => !r.dl && fld r.w1 42 6 == 0
    | 0x0B => !r.dl
    | n => !isAtomic n || !r.dl)

/-- Bits above the element of OPERAND, EXPECTED and NEW (R319, R320). -/
def CmdRecord.operandsOk (r : CmdRecord) : Bool :=
  let n := 8 * tyBytes r.ty
  match r.opc with
  | 0x18 => true
  | 0x17 => r.w4.toNat < 2 ^ n && r.w5.toNat < 2 ^ n
  | _ => r.w4.toNat < 2 ^ n

/-- The penumbra rules of R324 that need no circuit. -/
def CmdRecord.penumbraOk (r : CmdRecord) : Bool :=
  let strides := (if r.opc = 2 ∨ r.opc = 3 then fld r.w4 32 32 % 64 == 0 else true) &&
    (if r.opc = 3 then fld r.w6 32 32 % 64 == 0 else true)
  isTransfer r.opc && r.hv && !r.dl && r.w1.toNat % 64 == 0 && r.len % 64 == 0 && strides && 64 ≤ r.win &&
    fld r.w7 62 2 == 0

/-- A malformed record (order 2 of R302). -/
def CmdRecord.malformed (r : CmdRecord) : Bool :=
  let hasLen := r.opc ≤ 0x0A
  let flagCmd := r.opc == 5 || r.opc == 0x0B
  let wellFormed :=
    fld r.w0 24 6 == 0 && r.cellsZero && addrField r.dl r.w1 &&
    (r.inl || r.opc == 8 || !hasLen || addrField r.sl r.w2) &&
    (!hasLen || (r.len != 0 && r.len ≤ 2 ^ 28)) &&
    (!(r.opc == 2 || r.opc == 3) || (1 ≤ r.n1 && r.n1 ≤ 65535)) && (!(r.opc == 3) || (1 ≤ r.n2 && r.n2 ≤ 65535)) &&
    tyOk r.opc r.ty && (!isAtomic r.opc || r.operandsOk) &&
    (if flagCmd then (scopeOf r.fscope).isSome else r.fscope == 0) && (r.opc != 5 || fld r.flag 56 8 == 0) &&
    r.formOk && (!r.hv || isTransfer r.opc || r.opc == 7) &&
    (if r.cls then r.penumbraOk else !r.trl && (!isTransfer r.opc || (r.win == 0 && r.toff == 0 && r.w7 == 0))) &&
    (r.trl || !isTransfer r.opc || r.toff == 0) && (!r.trl || r.toff * 32 + 32 ≤ r.counted) &&
    (r.opc != 0x0A || (fld r.w5 56 8 == 0 && (r.toff != 0 || r.w5 == 0))) && r.counted < 2 ^ 32
  !wellFormed

/-- An address that is not aligned (order 3 of R302). -/
def CmdRecord.misaligned (r : CmdRecord) : Bool :=
  let n := tyBytes r.ty
  (r.opc == 5 && r.flag.toNat % 8 != 0) || (r.opc == 0x0B && r.w1.toNat % 8 != 0) ||
    (r.cls && r.maddr.toNat % 8 != 0) || (r.opc == 0x18 && r.w1.toNat % 8 != 0) ||
    (isAtomic r.opc && r.opc != 0x18 && r.w1.toNat % n != 0) ||
    (r.opc == 7 && (r.w1.toNat % n != 0 || r.w2.toNat % n != 0 || r.len % n != 0))

end Sys2Proof

namespace Sys2Proof.Machine

/-- The logical tile on which an address field lies, on this panel; local memory lies on the core's own tile. -/
def State.fieldTile (s : State) (c : Nat) (lcl : Bool) (a : W64) : Option Nat :=
  if lcl then some (fld (s.ctx c).logical 6 6)
  else if panelOf a.toNat = s.glob.domid.toNat ∧ panelOf a.toNat ≠ 0xFF then some (tileOf a.toNat) else none

/-- The circuit of a command bound to a handle, while the one that it was pushed on stands: a circuit that a later step
established on the handle is another (R327). -/
def State.ownCircuit (s : State) (c h : Nat) (step : Option Nat) : Option Circuit :=
  (s.outbound c h).filter fun k => some k.step == step

/-- The circuit rules: MADDR (order 2), DST and SRC (order 4), and 0x48 where the circuit has been torn down
(R302, R324, R327). Log 52, DEDUCED. -/
def State.circuitCheck (s : State) (c : Nat) (e : F0Entry) (r : CmdRecord) : Cause :=
  if !r.hv then 0
  else
    match s.ownCircuit c r.h e.circ with
    | none => 0x48
    | some k =>
      let recv := some (fld k.recv 6 6)
      if r.cls ∧ s.fieldTile c false r.maddr ≠ recv then 0x08
      else if s.fieldTile c r.dl r.w1 ≠ recv then 0x49
      else if !r.inl ∧ s.fieldTile c r.sl r.w2 ≠ some (fld (s.ctx c).logical 6 6) then 0x49
      else 0

/-- The status of a command that its start refuses, orders 1 to 4 (R300, R302); 0 where it starts. Of a COPY packet's record
the fields that name a core's own things are refused (R390). Log 52, DEDUCED. -/
def State.startCheck (s : State) (c : Nat) (e : F0Entry) (r : CmdRecord) : Cause :=
  let front := decide (frontCore ≤ c)
  if r.be ∧ e.bar = none ∧ opcKnown r.opc ∧ !front then 0x16
  else if !opcKnown r.opc then 0x2F
  else if front && (r.hv || r.cls || r.dl || r.sl || r.be || r.trl) then 0x08
  else if r.malformed then 0x08
  else if r.hv ∧ s.circuitCheck c e r = 0x08 then 0x08
  else if r.misaligned then 0x02
  else s.circuitCheck c e r

/-! ## Bytes of a transfer -/

/-- Where a byte of a transfer comes from. -/
inductive ByteSrc where
  | mem (a : W64)
  | val (b : Byte)
deriving DecidableEq, Repr, Inhabited

/-- A byte that the engine will write: its place, its value, and whether it is poisoned. -/
structure EngByte where
  loc : Loc
  val : Byte
  bad : Bool
deriving DecidableEq, Repr, Inhabited

/-- The place of one byte of an engine access: a cause, or `none` for retry-after. -/
def State.engLoc (s : State) (c : Nat) (lcl : Bool) (acc : Acc) (a : W64) : Except (Option Cause) Loc :=
  if lcl then if s.lmOk c a.toNat 1 then .ok (.lm c a.toNat) else .error (some 0x22)
  else if beyondGlobal a then .error (some 0x27)
  else
    match s.homeCheck (s.asker c) acc a.toNat 1 with
    | .fail k => .error (some k)
    | .retry => .error none
    | .ok loc _ => .ok loc
    | .foreign p =>
      let k := Config.foreignCause (s.freeIx 5)
      if k = 0 then .ok (.foreign p) else .error (some k)

/-- The value of a byte that the engine reads, whether it is poisoned, and its place. -/
def State.engRead (s : State) (c : Nat) (sl : Bool) (b : ByteSrc) : Except (Option Cause) (Byte × Bool × Option Loc) :=
  match b with
  | .val v => .ok (v, false, none)
  | .mem a =>
    match s.engLoc c sl .engRead a with
    | .error e => .error e
    | .ok (.foreign _) => .ok (Config.anyByte (s.freeIx a.toNat), false, none)
    | .ok loc => .ok ((s.readLoc loc 1).headD 0, s.poisonedLoc loc 1, some loc)

/-- One piece of a transfer: bytes read, then their places checked. -/
def State.enginePiece (s : State) (c : Nat) (sl dl : Bool) :
    List (W64 × ByteSrc) → Except (Option Cause) (List EngByte × List Loc)
  | [] => .ok ([], [])
  | (d, b) :: t =>
    match s.engRead c sl b with
    | .error e => .error e
    | .ok (v, bad, src) =>
      match s.engLoc c dl .engWrite d with
      | .error e => .error e
      | .ok loc =>
        match s.enginePiece c sl dl t with
        | .error e => .error e
        | .ok (es, ls) => .ok ({ loc := loc, val := v, bad := bad } :: es, src.toList ++ ls)

/-- What a walk has found: the bytes to write, the places it read, the pieces done, and its failure if any. -/
structure Walk where
  bytes : List EngByte := []
  reads : List Loc := []
  pieces : Nat := 0
  cause : Cause := 0
  retry : Bool := false
deriving DecidableEq, Repr

/-- Walks pieces in order up to the first failure (R302). -/
def State.walk (s : State) (c : Nat) (sl dl : Bool) : List (List (W64 × ByteSrc)) → Walk
  | [] => {}
  | p :: t =>
    match s.enginePiece c sl dl p with
    | .error none => { retry := true }
    | .error (some k) => { cause := k }
    | .ok (es, ls) =>
      let w := s.walk c sl dl t
      { w with bytes := es ++ w.bytes, reads := ls ++ w.reads, pieces := w.pieces + 1 }

/-- The bytes of a row from `k` up, cut at aligned 8-byte pieces of the destination. -/
def cutPieces : List (W64 × ByteSrc) → List (List (W64 × ByteSrc))
  | [] => []
  | b :: t =>
    match cutPieces t with
    | [] => [[b]]
    | p :: ps =>
      match p with
      | [] => [b] :: ps
      | e :: _ => if e.1.toNat / 8 = b.1.toNat / 8 then (b :: p) :: ps else [b] :: p :: ps

end Sys2Proof.Machine

namespace Sys2Proof

open Machine

/-- The rows of a transfer: destination and source of each, in walk order (R311). -/
def CmdRecord.rows (r : CmdRecord) : List (W64 × W64) :=
  let sx := fun (n : Nat) => (BitVec.ofNat 32 n).signExtend 64
  let d1 := if r.opc = 2 ∨ r.opc = 3 then sx (fld r.w4 32 32) else 0
  let s1 := if r.opc = 2 ∨ r.opc = 3 then sx (fld r.w4 0 32) else 0
  let d2 := if r.opc = 3 then sx (fld r.w6 32 32) else 0
  let s2 := if r.opc = 3 then sx (fld r.w6 0 32) else 0
  (List.range r.n2).flatMap fun i2 => (List.range r.n1).map fun i1 =>
    (r.w1 + BitVec.ofNat 64 i1 * d1 + BitVec.ofNat 64 i2 * d2, r.w2 + BitVec.ofNat 64 i1 * s1 + BitVec.ofNat 64 i2 * s2)

/-- The source of byte `k` of a row that starts at `sa` and goes to `d` (R311, R313). -/
def CmdRecord.source (r : CmdRecord) (d sa : W64) (k : Nat) : ByteSrc :=
  if r.opc = 8 then .val ((wordLE r.w4).getD ((d.toNat + k) % 8) 0)
  else if r.inl then .val ((wordLE r.w4 ++ wordLE r.w5).getD k 0)
  else .mem (sa + BitVec.ofNat 64 k)

/-- The pieces of a transfer, a FILL or a PREF.ADAPT (R311, R313, R315). -/
def CmdRecord.pieces (r : CmdRecord) : List (List (W64 × ByteSrc)) :=
  r.rows.flatMap fun row =>
    cutPieces ((List.range r.len).map fun k => (row.1 + BitVec.ofNat 64 k, r.source row.1 row.2 k))

/-! ## Writing -/

end Sys2Proof

namespace Sys2Proof.Machine

/-- Bytes at consecutive places joined into runs. Log 22, DEDUCED. -/
def joinRuns : List EngByte → List (Loc × List (Byte × Bool))
  | [] => []
  | b :: t =>
    match joinRuns t with
    | [] => [(b.loc, [(b.val, b.bad)])]
    | (l, bs) :: rest => if b.loc.shift 1 = l then (b.loc, (b.val, b.bad) :: bs) :: rest
        else (b.loc, [(b.val, b.bad)]) :: (l, bs) :: rest

/-- Writes a run, then poisons the sectors that poisoned bytes reach (R79, R80). -/
def State.writeRun (s : State) (run : Loc × List (Byte × Bool)) : State :=
  let s := s.writeLoc run.1 (run.2.map (·.1))
  ((List.range run.2.length).zip run.2).foldl (fun s e => if e.2.2 then s.poisonLoc (run.1.shift e.1) 1 else s) s

/-- Writes engine bytes. -/
def State.writeBytes (s : State) (bs : List EngByte) : State := (joinRuns bs).foldl State.writeRun s

/-- The sector that holds a place. -/
def Loc.sector (l : Loc) : Loc :=
  match l with
  | .panel t o => .panel t (o / 64)
  | .lm c o => .lm c (o / 64)
  | .host p a _ => .host p (a / 64) false
  | .foreign p => .foreign p

/-- The sectors that poisoned bytes reach, with those that earlier ones reached. -/
def spoiltBy (old : List Loc) (bs : List EngByte) : List Loc := (old ++ (bs.filter (·.bad)).map fun b => b.loc.sector).dedup

/-- CNT of a reliable command: the poisoned sectors (R79). -/
def badSectors (old : List Loc) (bs : List EngByte) : Nat := min 65535 (spoiltBy old bs).length

/-- A destination byte that the same command also reads, at one of the places `reads`, holds an unspecified value (R311).
Log 22, DEDUCED. -/
def State.unspecified (s : State) (reads : List Loc) (bs : List EngByte) : List EngByte :=
  ((List.range bs.length).zip bs).map fun e =>
    if reads.contains e.2.loc then { e.2 with val := Config.anyByte (s.freeIx (2 ^ 32 + e.1)) } else e.2

/-! ## Started commands -/

/-- A started command of a core. -/
def Ctx.startedAt (x : Ctx) (tk : Nat) : Option Started := x.started.find? fun t => t.tk == tk

/-- Changes a started command of a core, and clears the core's wait marks. -/
def State.updStarted (s : State) (c tk : Nat) (f : Started → Started) : State :=
  s.onCore c fun x => { x with started := x.started.map fun t => if t.tk = tk then f t else t }

/-- What the homes make of a command: retry-after, or its effects with status, value, count and flags. -/
inductive Performed where
  | retry
  | done (s : State) (status : Cause) (value : W64) (cnt : Nat) (flags : BitVec 8)

end Sys2Proof.Machine

namespace Sys2Proof

open Machine

/-- The destinations of an MCAST, by tile number (R314). -/
def CmdRecord.targets (r : CmdRecord) : List Nat := (List.range 64).filter fun j => bit r.w4 j

/-- The aligned 8-byte pieces of one destination of an MCAST. -/
def CmdRecord.targetPieces (r : CmdRecord) : Nat := (r.w1.toNat % 8 + r.len + 7) / 8

/-- The pieces that a command's walk counts: elements of ACCW, the pieces of every destination of MCAST, else aligned 8-byte
pieces. -/
def CmdRecord.pieceCount (r : CmdRecord) : Nat :=
  if r.opc = 7 then r.len / tyBytes r.ty
  else if r.opc = 9 then r.targets.length * r.targetPieces
  else r.pieces.length

end Sys2Proof

namespace Sys2Proof.Machine

/-- The pieces that a started command has still to move, in walk order. -/
def Started.left (t : Started) : List Nat := t.todo.getD (List.range t.cmd.pieceCount)

/-- A walk over some of a transfer's pieces. -/
def State.walkOver (s : State) (c : Nat) (r : CmdRecord) (is : List Nat) : Walk :=
  let ps := r.pieces
  s.walk c r.sl r.dl (is.map fun i => ps.getD i [])

/-- The places from which a transfer reads, in a command that moves them as a whole or piece by piece. -/
def State.readsOfAll (s : State) (c : Nat) (t : Started) (w : Walk) : List Loc :=
  if t.todo.isNone then w.reads else (s.walkOver c t.cmd (List.range t.cmd.pieceCount)).reads

/-- Bytes whose flit was given up after retransmission arrive poisoned (R323, R338). -/
def State.flitBad (s : State) (c : Nat) (t : Started) (bs : List EngByte) : List EngByte :=
  if t.bad = [] then bs
  else
    let hit := t.bad.filterMap fun k => (s.engLoc c t.cmd.dl .engWrite (BitVec.ofNat 64 (64 * k))).toOption.map Loc.sector
    bs.map fun e => if hit.contains e.loc.sector then { e with bad := true } else e

/-- Whether a sector of a store of poisoned sectors is one of these places. -/
def State.isSector (s : State) (inMem : Bool) (p : Nat) (ls : List Loc) : Bool :=
  ls.any fun l => match l with
    | .panel t o => inMem && s.panelKey t (64 * o) / 64 == p
    | .lm c o => !inMem && lmKey c (64 * o) / 64 == p
    | _ => false

/-- The sectors that a transfer moved piece by piece has covered whole are no longer poisoned, but for those that poisoned
bytes of it have reached (R74, R79, R80). -/
def State.clearRuns (s : State) (spoilt : List Loc) (bytes : List EngByte) : State :=
  (joinRuns bytes).foldl (fun s run =>
    match run.1 with
    | .panel t o =>
      let gone := clearSectors s.poison (s.panelKey t o) run.2.length
      { s with poison := s.poison.filter fun p => gone.contains p || s.isSector true p spoilt }
    | .lm c o =>
      let gone := clearSectors s.lmPoison (lmKey c o) run.2.length
      { s with lmPoison := s.lmPoison.filter fun p => gone.contains p || s.isSector false p spoilt }
    | loc => s.clearLoc loc run.2.length) s

/-- A transfer, FILL or PREF.ADAPT (R311, R313, R315): the pieces that have not gone ahead (R74), nor been moved before a
forced cut (R331). Log 6, DESIGN CHOICE; log 22, DEDUCED. -/
def State.doTransfer (s : State) (c : Nat) (t : Started) : Performed :=
  let w := s.walkOver c t.cmd t.left
  let bytes := s.flitBad c t w.bytes
  if w.retry then .retry
  else
    let u := s.writeBytes (s.unspecified (s.readsOfAll c t w) bytes)
    let u := if t.todo.isNone || w.cause != 0 then u
      else u.clearRuns (spoiltBy t.spoilt bytes) (s.walkOver c t.cmd (List.range t.cmd.pieceCount)).bytes
    .done u w.cause (t.value + BitVec.ofNat 64 bytes.length) (badSectors t.spoilt bytes) 0

/-- `f` on each element, up to the first failure. -/
def mapO {α β : Type} (f : α → Except (Option Cause) β) : List α → Except (Option Cause) (List β)
  | [] => .ok []
  | a :: t =>
    match f a with
    | .error e => .error e
    | .ok b =>
      match mapO f t with
      | .error e => .error e
      | .ok bs => .ok (b :: bs)

/-- The source of an MCAST, read once (R314). -/
def State.mcastSource (s : State) (c : Nat) (t : Started) : Except (Option Cause) (List (Byte × Bool)) :=
  match t.source with
  | some bs => .ok bs
  | none =>
    match mapO (fun k => s.engRead c t.cmd.sl (.mem (t.cmd.w2 + BitVec.ofNat 64 k))) (List.range t.cmd.len) with
    | .error e => .error e
    | .ok xs => .ok (xs.map fun x => (x.1, x.2.1))

/-- The bytes of an MCAST at destination `j`, every one of them checked (R314). -/
def State.mcastDest (s : State) (c : Nat) (r : CmdRecord) (src : List (Byte × Bool)) (j : Nat) :
    Except (Option Cause) (List EngByte) :=
  mapO (fun e : Nat × Byte × Bool =>
    match s.engLoc c false .engWrite (r.w1 + BitVec.ofNat 64 (j * 2 ^ 42) + BitVec.ofNat 64 e.1) with
    | .error k => .error k
    | .ok loc => .ok ({ loc := loc, val := e.2.1, bad := e.2.2 } : EngByte)) ((List.range src.length).zip src)

/-- Those of a destination's bytes that lie in the pieces `is` of an MCAST; it is destination number `d`. -/
def mcastBytes (r : CmdRecord) (d : Nat) (is : List Nat) (es : List EngByte) : List EngByte :=
  (((List.range es.length).zip es).filter fun e => is.contains (d * r.targetPieces + (r.w1.toNat % 8 + e.1) / 8)).map (·.2)

/-- Whether an MCAST names a tile that is not there; one whose DST lies in the host window names none (R314).
Log 78, DESIGN CHOICE. -/
def State.mcastAstray (s : State) (c : Nat) (r : CmdRecord) : Bool :=
  let panel := panelOf r.w1.toNat
  panel == 0xFF || (panel == s.glob.domid.toNat && r.targets.any fun j => decide ((s.part (s.partOf c)).tiles ≤ j))

/-- MCAST (R314): the pieces that have not gone ahead (R74). -/
def State.doMcast (s : State) (c : Nat) (t : Started) : Performed :=
  let r := t.cmd
  if s.mcastAstray c r then .done s 0x27 0 0 0
  else
    match s.mcastSource c t with
    | .error none => .retry
    | .error (some k) => .done s k 0 0 0
    | .ok src =>
      let outs := r.targets.map (s.mcastDest c r src)
      if outs.any fun o => match o with | .error none => true | _ => false then .retry
      else
        let bytes := s.flitBad c t (((List.range outs.length).zip outs).flatMap fun o => match o.2 with
          | .ok es => mcastBytes r o.1 t.left es
          | .error _ => [])
        let cause := (outs.findSome? fun o => match o with | .error (some k) => some k | _ => none).getD 0
        let u := s.writeBytes bytes
        let u := if t.todo.isNone then u
          else u.clearRuns (spoiltBy t.spoilt bytes) (outs.flatMap fun o => match o with | .ok es => es | .error _ => [])
        .done u cause (t.value + BitVec.ofNat 64 bytes.length) (badSectors t.spoilt bytes) 0

/-- One piece of an MCAST, to a destination that passes its checks: its source, and the bytes of the piece. -/
def State.mcastOne (s : State) (c : Nat) (t : Started) (i : Nat) : Option (List (Byte × Bool) × List EngByte) :=
  let r := t.cmd
  if s.mcastAstray c r then none
  else
    match s.mcastSource c t, r.targets[i / r.targetPieces]? with
    | .ok src, some j =>
      match s.mcastDest c r src j with
      | .ok es => some (src, mcastBytes r (i / r.targetPieces) [i] es)
      | .error _ => none
    | _, _ => none

/-- One element of ACCW: source and destination read, the sum to be written (R318). -/
def State.accwElem (s : State) (c : Nat) (r : CmdRecord) (j : Nat) : Except (Option Cause) (List EngByte) :=
  let n := tyBytes r.ty
  let at_ := fun (k : Nat) => (r.w1 + BitVec.ofNat 64 (j * n + k), ByteSrc.mem (r.w2 + BitVec.ofNat 64 (j * n + k)))
  match s.enginePiece c r.sl r.dl ((List.range n).map at_) with
  | .error e => .error e
  | .ok (es, _) =>
    let old := es.map fun e => match e.loc with
      | .foreign _ => Config.anyByte (s.freeIx (2 ^ 33 + j * n))
      | l => (s.readLoc l 1).headD 0
    let bad := es.any fun e => e.bad || s.poisonedLoc e.loc 1
    let new := natLE n (tyAdd r.ty (leNat old) (leNat (es.map (·.val))))
    .ok (List.zipWith (fun e b => { e with val := b, bad := bad }) es new)

/-- The elements of ACCW in order, up to the first failure. -/
def State.accwFrom (s : State) (c : Nat) (r : CmdRecord) : List Nat → Walk
  | [] => {}
  | j :: t =>
    match s.accwElem c r j with
    | .error none => { retry := true }
    | .error (some k) => { cause := k }
    | .ok es =>
      let w := s.accwFrom c r t
      { w with bytes := es ++ w.bytes, pieces := w.pieces + 1 }

/-- ACCW (R318); a destination in the host window fails with 0x22 (R375). -/
def State.doAccw (s : State) (c : Nat) (t : Started) : Performed :=
  let r := t.cmd
  if !r.dl ∧ panelOf r.w1.toNat = 0xFF then .done s 0x22 0 0 0
  else
    let w := s.accwFrom c r t.left
    let bytes := s.flitBad c t w.bytes
    if w.retry then .retry
    else .done (s.writeBytes bytes) w.cause (t.value + BitVec.ofNat 64 bytes.length) (badSectors t.spoilt bytes) 0

/-- A read-modify-write of `n` bytes at a place: the old element, or a cause. At the host it is an AtomicOp that the
port hands on after every write that it accepted before, and that the host may refuse (R319 to R322, R375).
Log 54, DESIGN CHOICE. -/
def State.rmwAt (s : State) (loc : Loc) (n : Nat) (f : Nat → Option Nat) : Except Cause Nat × State :=
  match loc with
  | .host port a atomics =>
    let s := s.drainPort port (if h : port < 4 then (s.ports[port]).fifo.length else 0)
    if !atomics || Config.anyBool (s.freeIx (a + 1)) then (.error 0x22, s)
    else if s.poisonedLoc loc n then (.error 0x24, s)
    else
      let old := leNat (Memory.readN s.hostMem a n)
      (.ok old, match f old with
        | some v => { s with hostMem := Memory.writeN s.hostMem a (natLE n v) }
        | none => s)
  | .foreign _ => (.ok ((Config.anyWord (s.freeIx 3)).toNat % 2 ^ (8 * n)), s)
  | loc =>
    if s.poisonedLoc loc n then (.error 0x24, s)
    else
      let old := leNat (s.readLoc loc n)
      (.ok old, match f old with
        | some v => s.writeLoc loc (natLE n v)
        | none => s)

end Sys2Proof.Machine

namespace Sys2Proof

open Machine

/-- The element bytes of an atomic command. -/
def CmdRecord.elemBytes (r : CmdRecord) : Nat := if r.opc = 0x18 ∨ r.opc = 0x0B then 8 else tyBytes r.ty

/-- Whether an atomic command may go to the host window as a PCIe AtomicOp (R375). Log 54, DESIGN CHOICE. -/
def CmdRecord.hostAtomic (r : CmdRecord) : Bool :=
  r.opc == 0x18 || r.opc == 0x0B || ((r.opc == 0x10 || r.opc == 0x16 || r.opc == 0x17) && r.ty ≤ 3)

/-- The new element of an atomic command; `none` where CAS does not write. -/
def CmdRecord.newElem (r : CmdRecord) (old : Nat) : Option Nat :=
  if r.opc = 0x17 then if old = r.w4.toNat then some r.w5.toNat else none
  else if r.opc = 0x18 ∨ r.opc = 0x0B then some ((old + r.w4.toNat) % 2 ^ 64)
  else some (aowNew r.opc r.ty old r.w4.toNat)

end Sys2Proof

namespace Sys2Proof.Machine

/-- The AOW family, CAS, FLAGADD and SIGNAL, whose addition is a release at FSCOPE (R316, R319 to R321). -/
def State.doAtomic (s : State) (c : Nat) (r : CmdRecord) : Performed :=
  let n := r.elemBytes
  let s := if r.opc = 0x0B then s.visibleAt ((scopeOf r.fscope).getD .quad) else s
  match s.homeCheck (s.asker c) .atomic r.w1.toNat n with
  | .fail k => .done s k 0 0 0
  | .retry => .retry
  | .foreign p =>
    let k := Config.foreignCause (s.freeIx 5)
    if k ≠ 0 then .done s k 0 0 0
    else
      let old := (Config.anyWord (s.freeIx 3)).toNat % 2 ^ (8 * n)
      .done (s.writeLoc (.foreign p) []) 0 (BitVec.ofNat 64 old) 0 (if r.opc = 0x17 ∧ old = r.w4.toNat then 4 else 0)
  | .ok loc _ =>
    if (match loc with | .host _ _ _ => !r.hostAtomic | _ => false) then .done s 0x22 0 0 0
    else
      match s.rmwAt loc n r.newElem with
      | (.error k, s) => .done s k 0 0 0
      | (.ok old, s) => .done s 0 (BitVec.ofNat 64 old) 0 (if r.opc = 0x17 ∧ old = r.w4.toNat then 4 else 0)

/-- The flag check of PUTF, made before any data is written (R312): with the first piece. Log 23, DEDUCED. -/
def State.flagFirst (s : State) (c : Nat) (r : CmdRecord) : Except (Option Cause) Unit :=
  if r.opc ≠ 5 then .ok ()
  else
    match s.homeFlag (s.asker c) r.flag with
    | .done 0 _ _ _ => .ok ()
    | .done k _ _ _ => .error (some k)
    | .retry => .error none

/-- Performs a started reliable command at its homes. Where its circuit has been torn down, it is cut short: the pieces
that have not gone ahead keep their old values (R327). Log 52, DEDUCED. -/
def State.perform (s : State) (c : Nat) (t : Started) : Performed :=
  let r := t.cmd
  if r.hv ∧ s.ownCircuit c r.h t.circ = none then .done s 0x48 t.value t.cnt 0
  else
    match if t.todo.isNone then s.flagFirst c r else .ok () with
    | .error none => .retry
    | .error (some k) => .done s k 0 0 0
    | .ok () =>
      if r.opc = 7 then s.doAccw c t
      else if r.opc = 9 then s.doMcast c t
      else if r.opc = 0x0B ∨ isAtomic r.opc then s.doAtomic c r
      else s.doTransfer c t

end Sys2Proof.Machine

namespace Sys2Proof

open Machine

/-- The lines of 256 bytes that a command writes (R55). -/
def CmdRecord.linesWritten (r : CmdRecord) : List Nat :=
  let span := fun (a : W64) (n : Nat) => (List.range ((a.toNat + n - 1) / 256 - a.toNat / 256 + 1)).map fun i => a.toNat / 256 + i
  if r.dl then []
  else if r.opc = 9 then
    ((List.range 64).filter fun j => bit r.w4 j).flatMap fun j => span (r.w1 + BitVec.ofNat 64 (j * 2 ^ 42)) r.len
  else if isAtomic r.opc ∨ r.opc = 0x0B then [r.w1.toNat / 256]
  else r.rows.flatMap fun row => span row.1 r.len

end Sys2Proof

namespace Sys2Proof.Machine

/-- Lines leave the near cache of the core whose engine writes them, before the write is performed (R308). -/
def State.dropNear (s : State) (c : Nat) (lines : List Nat) : State :=
  s.updCtx c fun x => { x with nearCache := x.nearCache.filter fun l => !lines.contains l }

/-- The bytes of one piece that can go ahead: of a transfer, an element of an ACCW, or an MCAST, whose source it gives too. -/
def State.pieceBytes (s : State) (c : Nat) (t : Started) (i : Nat) : Option (Option (List (Byte × Bool)) × List EngByte) :=
  let r := t.cmd
  if r.opc = 9 then (s.mcastOne c t i).map fun p => (some p.1, p.2)
  else
    let w := if r.opc = 7 then s.accwFrom c r [i] else s.walkOver c r [i]
    let hostAcc := r.opc == 7 && !r.dl && panelOf r.w1.toNat == 0xFF
    if hostAcc || w.cause != 0 || w.retry then none else some (none, w.bytes)

/-- One piece of a started transfer or MCAST, or one element of an ACCW, goes ahead of the others, which take effect in no
fixed order (R74, R311, R314, R318); a piece that fails a check is left to the walk. Log 6, DESIGN CHOICE. -/
def State.transferOne (s : State) (c : Nat) (t : Started) (i : Nat) : State :=
  let r := t.cmd
  let up := !(r.hv && (s.ownCircuit c r.h t.circ).isNone)
  let flagOk := t.todo.isSome || match s.flagFirst c r with
    | .ok () => true
    | .error _ => false
  match if t.left.contains i && up && flagOk then s.pieceBytes c t i else none with
  | none => s
  | some (src, es) =>
    let got := s.flitBad c t es
    let bs := if r.opc = 7 ∨ r.opc = 9 then got
      else s.unspecified ((s.walkOver c r (List.range r.pieceCount)).reads) got
    ((s.dropNear c r.linesWritten).writeBytes bs).updStarted c t.tk fun u =>
      { u with todo := some (t.left.filter fun j => j != i), pos := u.pos + 1, value := u.value + BitVec.ofNat 64 bs.length,
               cnt := badSectors u.spoilt bs, spoilt := spoiltBy u.spoilt bs, source := src }

/-- Where a performed command goes on: the flag of a PUTF, or its end. -/
def nextStage (r : CmdRecord) (status : Cause) : CmdStage := if r.opc = 5 ∧ status = 0 then .flag else .ended

end Sys2Proof.Machine

namespace Sys2Proof

open Machine

/-- Whether every access of a command is to the core's own local memory. -/
def CmdRecord.localOnly (r : CmdRecord) : Bool :=
  r.dl && (r.sl || r.inl || r.opc == 8) && (r.opc ≤ 4 || r.opc == 7 || r.opc == 8)

/-! ## The penumbra class (R324, R325) -/

/-- The 64-byte blocks of a penumbra transfer, in walk order: destination and source address. -/
def CmdRecord.blockList (r : CmdRecord) : List (W64 × W64) :=
  r.rows.flatMap fun row => (List.range (r.len / 64)).map fun k =>
    (row.1 + BitVec.ofNat 64 (64 * k), row.2 + BitVec.ofNat 64 (64 * k))

end Sys2Proof

namespace Sys2Proof.Machine

/-! ## The fields of a flit (R336) -/

/-- NB, SSEQ, SRC, ADDR and the two parts of XID of a flit's bytes. -/
structure FlitFields where
  type : Nat
  pen : Bool
  nb : Nat
  sseq : W32
  src : BitVec 12
  addr : W64
  xfer : Nat
  block : Nat
deriving DecidableEq, Repr, Inhabited

/-- Reads the fields of a flit's bytes. -/
def flitFields (bs : List Byte) : FlitFields :=
  let at_ := fun (i n : Nat) => leNat ((bs.drop i).take n)
  let b0 := at_ 0 1
  { type := b0 / 16, pen := b0 / 8 % 2 == 1, nb := b0 % 8, sseq := BitVec.ofNat 32 (at_ 4 4), src := BitVec.ofNat 12 (at_ 8 2),
    addr := BitVec.ofNat 64 (at_ 10 7), xfer := at_ 20 4, block := at_ 18 2 }

/-- Reads the data of a block at its sending; poisoned where any byte is. -/
def State.blockData (s : State) (c : Nat) (r : CmdRecord) (d sa : W64) : Except (Option Cause) (List Byte × Bool) :=
  match mapO (fun k => s.engRead c r.sl (r.source d sa k)) (List.range 64) with
  | .error e => .error e
  | .ok bs => .ok (bs.map (·.1), bs.any (·.2.1))

/-- The blocks of a penumbra transfer as sent, or the first failing cause of their sources and destinations; `none` for
retry-after. Log 53, DESIGN CHOICE. -/
def State.sendBlocks (s : State) (c : Nat) (r : CmdRecord) :
    List (Nat × W64 × W64) → Except (Option Cause) (List PenBlock)
  | [] => .ok []
  | (i, d, sa) :: t =>
    match s.blockData c r d sa, s.engLoc c false .engWrite d with
    | .error k, _ => .error k
    | .ok _, .error k => .error k
    | .ok (bs, bad), .ok _ =>
      match s.sendBlocks c r t with
      | .error k => .error k
      | .ok rest => .ok ({ ix := i, dst := d, data := bs, bad := bad } :: rest)

/-- Writes what is left of a block at its destination; a cause, or `none` for retry-after. -/
def State.writeBlock (s : State) (c : Nat) (d : W64) (bs : List Byte) (todo : Option (List Nat)) :
    Except (Option Cause) State :=
  match s.engLoc c false .engWrite d with
  | .ok loc => .ok (s.writeLeft loc bs todo false)
  | .error k => .error k

/-- Whether an earlier command of the core on the same handle has still to write (R309). -/
def Ctx.handleBusy (x : Ctx) (t : Started) : Bool :=
  t.cmd.hv && (x.started.takeWhile fun u => u.tk != t.tk).any fun u =>
    u.cmd.hv && u.cmd.h == t.cmd.h && u.stage != .ended

/-- Starts a penumbra transfer at its homes: its blocks are sent (R324, R325). -/
def State.startPenumbra (s : State) (c : Nat) (t : Started) : Performed :=
  let r := t.cmd
  let bl := r.blockList
  match s.flagFirst c r, s.sendBlocks c r ((List.range bl.length).zip bl) with
  | .error none, _ | _, .error none => .retry
  | .error (some k), _ | _, .error (some k) => .done s k 0 0 0
  | .ok (), .ok blocks =>
    .done (s.updStarted c t.tk fun u => { u with stage := .penumbra, blocks := blocks, nblocks := blocks.length }) 0 0 0 0

/-- Whether a penumbra transfer's blocks can be delivered: up to its deadline, behind the earlier commands on its handle, on a
circuit with a wavelength (R309, R325, R362). -/
def State.canDeliver (s : State) (c : Nat) (t : Started) : Bool :=
  let up : Bool := match s.ownCircuit c t.cmd.h t.circ with
    | some k => !(s.circuitMap k).isEmpty
    | none => false
  t.stage == .penumbra && !(s.ctx c).handleBusy t && decide (s.now ≤ t.startedAt + t.cmd.win) && up

/-- Block `i` of a penumbra transfer arrives, and its data is written; one that was poisoned, or comes after the deadline, is
discarded (R325). -/
def State.arriveBlock (s : State) (c tk i : Nat) : State :=
  match (s.ctx c).startedAt tk with
  | none => s
  | some t =>
    match t.blocks.find? fun b => b.ix == i && !b.bad with
    | none => s
    | some b =>
      if !s.canDeliver c t then s
      else
        match s.writeBlock c b.dst b.data b.todo with
        | .error _ => s
        | .ok u =>
          (u.dropNear c t.cmd.linesWritten).updStarted c tk fun t => { t with blocks := t.blocks.filter fun b => b.ix != i }

/-- A bit of a word, set or cleared. -/
def putBit (w : W64) (i : Nat) (v : Bool) : W64 := putField w i 1 (b2n v)

/-- One mask bit at settlement, as an engine write of its word (R325); a cause, or `none` for retry-after. -/
def State.putMask (s : State) (c : Nat) (r : CmdRecord) (i : Nat) (valid : Bool) : Except (Option Cause) State :=
  let a := r.maddr + BitVec.ofNat 64 (8 * ((r.mbit + i) / 64))
  match s.homeCheck (s.asker c) .engWrite a.toNat 8 with
  | .ok loc _ => .ok (s.writeLoc loc (wordLE (putBit (leWord (s.readLoc loc 8)) ((r.mbit + i) % 64) valid)))
  | .fail k => .error (some k)
  | .retry => .error none
  | .foreign _ =>
    let k := Config.foreignCause (s.freeIx 5)
    if k = 0 then .ok s else .error (some k)

/-- The lines of 256 bytes in which the mask words of a penumbra transfer lie (R55, R325). -/
def maskLines (r : CmdRecord) (n : Nat) : List Nat :=
  (List.range n).map fun i => (r.maddr + BitVec.ofNat 64 (8 * ((r.mbit + i) / 64))).toNat / 256

/-- The masks of all blocks, up to the first that fails. -/
def State.putMasks (s : State) (c : Nat) (r : CmdRecord) (lost : List Nat) : Nat → Except (Option Cause) State
  | 0 => .ok s
  | n + 1 =>
    match s.putMasks c r lost n with
    | .error k => .error k
    | .ok s => s.putMask c r n (!lost.contains n)

/-- The trailer of a lossy transfer: STATUS 0x02 and the count of lost blocks (R254). -/
def State.putTrailer (s : State) (c : Nat) (r : CmdRecord) (lost : Nat) : Except (Option Cause) State :=
  let o := r.toff * 32
  match r.blockList[o / 64]? with
  | none => .ok s
  | some (d, _) =>
    let a := d + BitVec.ofNat 64 (o % 64)
    match s.homeCheck (s.asker c) .engWrite a.toNat 32 with
    | .ok loc _ => .ok ((s.writeLoc (loc.shift 18) (natLE 2 (min 65535 lost))).writeLoc (loc.shift 31) [2])
    | .fail k => .error (some k)
    | .retry => .error none
    | .foreign _ => .ok s

/-- The blocks that have not been delivered are written: their data, or zeros for a lost one (R81, R325). -/
def State.putBlocks (s : State) (c : Nat) (isLost : PenBlock → Bool) : List PenBlock → Except (Option Cause) State
  | [] => .ok s
  | b :: t =>
    match if isLost b then s.writeBlock c b.dst (List.replicate 64 0) none else s.writeBlock c b.dst b.data b.todo with
    | .error k => .error k
    | .ok s => s.putBlocks c isLost t

/-- SETTLEMENT of a penumbra transfer at its homes, whose blocks `gone` were not delivered: zeros, masks, the trailer
(R325). It is one request: at retry-after none of it is made, and all of it is sent again (R330).
Log 53, DESIGN CHOICE. -/
def State.settleAt (s : State) (c : Nat) (t : Started) (gone : List Nat) : Performed :=
  let r := t.cmd
  let isLost := fun (b : PenBlock) => b.bad || gone.contains b.ix
  let lost := (t.blocks.filter isLost).map (·.ix)
  let value := BitVec.ofNat 64 (64 * (t.nblocks - lost.length))
  let flags : BitVec 8 := if lost = [] then 0 else 2
  let cnt := min 65535 lost.length
  let keep := fun (s : State) => s.updStarted c t.tk fun u => { u with blocks := [], lost := lost }
  match (s.dropNear c (r.linesWritten ++ maskLines r t.nblocks)).putBlocks c isLost t.blocks with
  | .error none => .retry
  | .error (some k) => .done (keep s) k value cnt flags
  | .ok s1 =>
    match s1.putMasks c r lost t.nblocks with
    | .error none => .retry
    | .error (some k) => .done (keep s1) k value cnt flags
    | .ok s2 =>
      match if r.trl ∧ lost ≠ [] then s2.putTrailer c r lost.length else .ok s2 with
      | .error none => .retry
      | .error (some k) => .done (keep s2) k value cnt flags
      | .ok s3 => .done (keep s3) 0 value cnt flags

/-- Whether a penumbra transfer is to settle: at its deadline, or at once where its circuit has been torn down (R325, R327);
zero fills and mask writes wait for no earlier command of the handle (R81, R309). -/
def State.settleDueFor (s : State) (c : Nat) (t : Started) : Bool :=
  t.stage == .penumbra && (decide (t.startedAt + t.cmd.win ≤ s.now) || (s.ownCircuit c t.cmd.h t.circ).isNone)

/-- Whether a flit that carries block `i` of a transfer of core `c` has been sent on its circuit and is not yet acknowledged:
the block arrives with that flit, or is lost with it (R339). -/
def State.inFlit (s : State) (c : Nat) (t : Started) (i : Nat) : Bool :=
  match s.ownCircuit c t.cmd.h t.circ with
  | none => false
  | some k =>
    (s.portEnd k.sendEnd).penSent.any fun x =>
      let f := flitFields x.bytes
      f.type == 3 && f.xfer == t.tk % 2 ^ 32 && f.src == (s.ctx c).logical && decide (f.block ≤ i) && decide (i < f.block + f.nb)

/-- A block of a penumbra transfer whose flits are not told apart is delivered (R325). -/
def State.deliverBlock (s : State) (c tk i : Nat) : State :=
  match (s.ctx c).startedAt tk with
  | none => s
  | some t => if s.inFlit c t i then s else s.arriveBlock c tk i

/-- One aligned 8-byte piece of such a block is written ahead of the others (R74, R325). Log 6, DESIGN CHOICE. -/
def State.deliverPiece (s : State) (c tk i piece : Nat) : State :=
  match (s.ctx c).startedAt tk with
  | none => s
  | some t =>
    match t.blocks.find? fun b => b.ix == i && !b.bad with
    | none => s
    | some b =>
      let left := b.todo.getD (List.range 8)
      match if s.canDeliver c t && left.contains piece && !s.inFlit c t i then s.engLoc c false .engWrite b.dst else .error none with
      | .error _ => s
      | .ok loc =>
        ((s.storeOne loc b.data piece).dropNear c t.cmd.linesWritten).updStarted c tk fun t =>
          { t with blocks := t.blocks.map fun y => if y.ix = i then { y with todo := some (left.filter fun p => p != piece) } else y }

/-- The blocks that are lost where a penumbra transfer settles: those named, those whose flits have not arrived, and every one
not yet delivered where the circuit has been torn down or has no wavelength, or an earlier command of the handle has still to
write (R309, R325, R327, R339, R362). Log 53, DESIGN CHOICE. -/
def State.lostBlocks (s : State) (c : Nat) (t : Started) (named : List Nat) : List Nat :=
  let alive : Bool := match s.ownCircuit c t.cmd.h t.circ with
    | some k => !(s.circuitMap k).isEmpty
    | none => false
  let all := t.blocks.map (·.ix)
  if alive && !(s.ctx c).handleBusy t then named ++ all.filter (s.inFlit c t) else all

/-- A penumbra transfer settles: its settlement goes to the homes as a numbered request, with the blocks that are lost (R325).
Log 53, DESIGN CHOICE. -/
def execPenumbraSettle (c tk : Nat) (lost : List Nat) (s : State) : Result :=
  .next (
    match (s.ctx c).startedAt tk with
    | none => s
    | some t =>
      if !s.settleDueFor c t ∨ !(s.ctx c).canSend then s
      else
        (s.updStarted c tk fun t => { t with stage := .settling }).sendReq c tk false t.cmd.w1
          (.settle tk (s.lostBlocks c t lost)))

/-! ## Starting and completing (R304 to R308) -/

/-- Whether a started command stays within its core, and asks no home. -/
def Started.stays (t : Started) : Bool := t.cmd.localOnly && !t.cmd.hv

/-- A command that stays within its core makes the accesses that it has still to make. -/
def State.localTransfer (s : State) (c tk : Nat) : State :=
  match (s.ctx c).startedAt tk with
  | none => s
  | some t =>
    if !t.stays ∨ t.stage ≠ .running then s
    else
      match s.perform c t with
      | .retry => s
      | .done s status value cnt flags =>
        s.updStarted c tk fun u =>
          { u with stage := .ended, status := status, value := value, cnt := cnt, flags := u.flags ||| flags }

/-- The most commands that may have started and not completed (R306). -/
def maxStarted : Nat := 16

end Sys2Proof.Machine

namespace Sys2Proof

open Machine

/-- Whether a command reserves an entry of f1 (R300, R306). -/
def CmdRecord.records (r : CmdRecord) : Bool := !r.nc || !opcKnown r.opc

end Sys2Proof

namespace Sys2Proof.Machine

/-- Whether the copy engine stands at a cut (R331). -/
def Ctx.engineCut (x : Ctx) : Bool := x.trap.isSome || (x.preempt && x.lcut && x.ccut && x.scut)

/-- Whether the engine may start the record at the head of f0 (R307): every event before its PUSH has passed its
data-visible point (R214), but for what a port holds. -/
def Ctx.canStart (x : Ctx) (e : F0Entry) : Bool :=
  !x.engineCut && x.eventsDone e.tk && (x.flagAdds.all fun f => decide (e.tk ≤ f.tk)) &&
    (!e.cmd.ord || x.started.all fun t => t.stage == .ended) && x.started.length < maxStarted &&
    (!e.cmd.records || decide (x.f1.length + x.f1res < fifoDepth 1)) && (e.cmd.opc != 0x0B || x.started.isEmpty) && x.canSend

/-- The f0 entry at work. -/
def State.entryAtWork (s : State) (r : CmdRecord) : F0Entry :=
  match s.focus with
  | .engine _ e => { e with cmd := r }
  | _ => { cmd := r, scope := .quad, tk := 0 }

/-- STARTING A COMMAND of the core at work (R302, R307). A refused command ends at once; a command on the core's own
local memory stays in the core; any other goes to its homes as a numbered request (R328). An ordered command starts once the
host-bound writes of the earlier ones have been handed on (R72, R308). -/
def State.startCommand (s : State) (r : CmdRecord) : State :=
  let c := s.core
  let e := s.entryAtWork r
  let s := if r.ord then s.drainAll else s.visibleAt e.scope
  let s := s.updCtx c fun x => { x with f1res := if r.records then x.f1res + 1 else x.f1res }
  let t : Started := { tk := e.tk, cmd := r, scope := e.scope, bar := e.bar, circ := e.circ, startedAt := s.now, recAt := e.recAt,
                       queue := e.queue }
  let add := fun (s : State) (t : Started) => s.updCtx c fun x => { x with started := x.started ++ [t] }
  let k := s.startCheck c e r
  if k ≠ 0 then add s { t with stage := .ended, status := k }
  else if t.stays then add s t
  else (add s t).sendReq c e.tk false (if r.dl then r.w2 else r.w1) (.command e.tk)

/-- The second word of a completion record (R304). -/
def completionWord (r : CmdRecord) (cnt : Nat) (flags : BitVec 8) (status : Cause) : W64 :=
  fieldWord [(0, r.tag), (24, r.opc), (32, cnt), (48, flags.toNat), (56, status.toNat)]

/-- The completion record, or CESTAT, of a command (R304, R305). -/
def Ctx.recordDone (x : Ctx) (t : Started) (flags : BitVec 8) : Ctx :=
  let r := t.cmd
  let x := if r.nc ∧ r.cls then { x with clost := satAdd (2 ^ 32 - 1) x.clost t.lost.length } else x
  if r.records then
    ({ x with f1 := x.f1 ++ [(t.value, completionWord r t.cnt flags t.status)], f1res := x.f1res - 1 } : Ctx).gaveFifo 1
  else if t.status = 0 then x
  else x.ncFail t.status

/-- LATE (R315). -/
def Started.late (t : Started) (now : Nat) : Bool :=
  t.cmd.opc == 0x0A && fld t.cmd.w4 0 32 != 0 && decide (t.startedAt + fld t.cmd.w4 0 32 < now)

/-- Counted bytes leave the barrier, and a command with counted bytes that did not succeed marks its phase (R226, R227,
R300, R308). -/
def State.leaveBarrier (s : State) (fl : Nat) (t : Started) : State :=
  match t.bar with
  | none => s
  | some (key, ph) =>
    s.updBar fl key fun b =>
      (if t.status = 0 ∨ t.cmd.counted = 0 then b else b.markError ph t.status).subPending ph t.cmd.counted

/-- The prefetch that a PREF.ADAPT hints at: its lines, each dropped silently where a check would refuse it (R315). -/
def State.hint (s : State) (c : Nat) (r : CmdRecord) : State :=
  if r.opc ≠ 0x0A then s
  else
    (List.range r.toff).foldl (fun s i =>
      let a := r.w5.toNat / 256 * 256 + 256 * i
      if 2 ^ 56 ≤ a then s else s.touch (s.asker c) .load a 256) s

/-- The command that a COPY packet carried completes: its record goes to the packet's address, and is tried again at
retry-after; a failing write is dropped (R390). Log 32, DEDUCED. -/
def State.frontComplete (s : State) (c : Nat) (t : Started) (flags : BitVec 8) : State :=
  let gone := fun (s : State) => s.onCore c fun x =>
    { x with started := x.started.filter fun u => u.tk != t.tk
             f1res := if t.cmd.records then x.f1res - 1 else x.f1res }
  if t.recAt = 0 then gone s
  else
    match s.feWrite (s.partOf c) t.recAt (wordLE t.value ++ wordLE (completionWord t.cmd t.cnt flags t.status)) with
    | (_, .again) => s.feAgain (s.partOf c) t.recAt 16
    | (s, _) => gone s

/-- A command completes (R308): its host-bound writes have been handed on, its record enters f1. -/
def execCommandComplete (c tk : Nat) (s : State) : Result :=
  .next (
    match (s.ctx c).startedAt tk with
    | none => s
    | some t =>
      if t.stage ≠ .ended then s
      else
        let s := if !t.cmd.dl ∧ panelOf t.cmd.w1.toNat = 0xFF then s.drainAll else s
        let flags := if t.late s.now then t.flags ||| 1 else t.flags
        let s := if t.status = 0 then s.hint c t.cmd else s
        if frontCore ≤ c then s.frontComplete c t flags
        else
          (s.leaveBarrier ((s.ctx c).flock.getD 0) t).onCore c fun x =>
            ({ x with started := x.started.filter fun u => u.tk != tk } : Ctx).recordDone t flags)

/-- After a PUTF's data, and the writes of the earlier commands on its handle, the request to add 1 to its flag leaves, a
release at FSCOPE (R309, R312, R328). -/
def execPutfFlagAdd (c tk : Nat) (s : State) : Result :=
  .next (
    match (s.ctx c).startedAt tk with
    | none => s
    | some t =>
      if t.stage ≠ .flag ∨ (s.ctx c).handleBusy t ∨ !(s.ctx c).canSend then s
      else
        ((s.visibleAt ((scopeOf t.cmd.fscope).getD .quad)).updStarted c tk fun t => { t with stage := .flagSent }).sendReq
          c tk false t.cmd.flag (.putfAdd tk))

/-- The old value of a flag whose addition has failed: what its place holds, or a free value where it has no place
(R312). Log 23, DEDUCED. -/
def State.flagOld (s : State) (c : Nat) (a : W64) : W64 :=
  match s.homeCheck { part := s.partOf c, who := none, front := true } .engRead a.toNat 8 with
  | .ok loc _ => leWord (s.readLoc loc 8)
  | _ => Config.anyWord (s.freeIx 9)

/-- A PUTF's flag at its home: 1 is added; a failure leaves the flag as it was, with its old value as VALUE (R312).
Log 23, DEDUCED. -/
def State.putfAddAt (s : State) (c : Nat) (t : Started) : Performed :=
  let a := t.cmd.flag
  match s.homeFlag (s.asker c) a with
  | .retry => .retry
  | .done 0 _ _ (loc :: _) =>
    match (s.dropNear c [a.toNat / 256]).rmwAt loc 8 (fun old => some ((old + 1) % 2 ^ 64)) with
    | (.error k, s) => .done s k (s.flagOld c a) t.cnt 0
    | (.ok _, s) => .done s 0 t.value t.cnt 0
  | .done k _ _ _ => .done s k (s.flagOld c a) t.cnt 0

/-! ## The commands (R300) -/

/-- COPY (R311). -/
def execCopy (r : CmdRecord) (s : State) : Result := .next (s.startCommand r)
/-- COPY2 (R311). -/
def execCopy2 (r : CmdRecord) (s : State) : Result := .next (s.startCommand r)
/-- COPY3 (R311). -/
def execCopy3 (r : CmdRecord) (s : State) : Result := .next (s.startCommand r)
/-- PUT (R311). -/
def execPut (r : CmdRecord) (s : State) : Result := .next (s.startCommand r)
/-- PUTF (R312). -/
def execPutf (r : CmdRecord) (s : State) : Result := .next (s.startCommand r)
/-- GET (R311). -/
def execGet (r : CmdRecord) (s : State) : Result := .next (s.startCommand r)
/-- ACCW (R318). -/
def execAccw (r : CmdRecord) (s : State) : Result := .next (s.startCommand r)
/-- FILL (R313). -/
def execFill (r : CmdRecord) (s : State) : Result := .next (s.startCommand r)
/-- MCAST (R314). -/
def execMcast (r : CmdRecord) (s : State) : Result := .next (s.startCommand r)
/-- PREF.ADAPT (R315). -/
def execPrefAdapt (r : CmdRecord) (s : State) : Result := .next (s.startCommand r)
/-- SIGNAL (R316). -/
def execSignal (r : CmdRecord) (s : State) : Result := .next (s.startCommand r)
/-- AOW.add (R319). -/
def execAowAdd (r : CmdRecord) (s : State) : Result := .next (s.startCommand r)
/-- AOW.min (R319). -/
def execAowMin (r : CmdRecord) (s : State) : Result := .next (s.startCommand r)
/-- AOW.max (R319). -/
def execAowMax (r : CmdRecord) (s : State) : Result := .next (s.startCommand r)
/-- AOW.and (R319). -/
def execAowAnd (r : CmdRecord) (s : State) : Result := .next (s.startCommand r)
/-- AOW.or (R319). -/
def execAowOr (r : CmdRecord) (s : State) : Result := .next (s.startCommand r)
/-- AOW.xor (R319). -/
def execAowXor (r : CmdRecord) (s : State) : Result := .next (s.startCommand r)
/-- AOW.swap (R319). -/
def execAowSwap (r : CmdRecord) (s : State) : Result := .next (s.startCommand r)
/-- CAS (R320). -/
def execCas (r : CmdRecord) (s : State) : Result := .next (s.startCommand r)
/-- FLAGADD (R321). -/
def execFlagadd (r : CmdRecord) (s : State) : Result := .next (s.startCommand r)
/-- A reserved opcode: no effect but its completion with status 0x2F (R300). -/
def execReservedCommand (r : CmdRecord) (s : State) : Result := .next (s.startCommand r)

end Sys2Proof.Machine
end

