-- ==== Sys2Proof/Machine/Requests.lean ====
section
/-! DEFINITION. Requests at their homes and their replies, exactly once (R328 to R330, R366, R367), uncorrectable errors
(R78), stream deadlock (R21, R306), replays (R233, R430) and switches of variant (R427, R428). -/

namespace Sys2Proof.Machine

/-! ## The home (R329) -/

/-- The key of a source at an ingress. -/
def Request.source (r : Request) : Nat := r.panel * 2 ^ 24 + r.core

/-- The tile whose ingress takes a request. -/
def State.ingress (s : State) (r : Request) : Nat := (s.homeTile r.part r.addr.toNat).getD (r.core / 64 % 64)

/-- Whether a number lies before another, wrap-aware (R328). -/
def seqBefore (a b : W32) : Bool := (a - b).toInt < 0

/-- Notes the FLOOR of a request: replies below it are dropped (R329). -/
def State.noteFloor (s : State) (tile : Nat) (r : Request) : State :=
  s.updTile tile fun t =>
    let old := mget r.floor t.floors r.source
    let fl := if seqBefore old r.floor then r.floor else old
    { t with
      floors := mset t.floors r.source fl
      replies := t.replies.filter fun y => !(y.panel == r.panel && y.core == r.core && seqBefore y.num fl) }

/-- The saved reply to a request, if the ingress holds it. -/
def State.savedReply (s : State) (tile : Nat) (r : Request) : Option SavedReply :=
  (s.tile tile).replies.find? fun y => y.panel == r.panel && y.core == r.core && y.num == r.num

/-- Saves a reply, of each source the last 64 (R329). -/
def State.saveReply (s : State) (tile : Nat) (r : Request) (cause : Cause) (at_ : W64) (bs : List Byte) (locs : List Loc) :
    State :=
  s.updTile tile fun t =>
    let mine := fun (y : SavedReply) => y.panel == r.panel && y.core == r.core
    let own := (t.replies.filter mine) ++
      [{ panel := r.panel, core := r.core, num := r.num, cause := cause, value := leWord bs, at_ := at_, bs := bs, locs := locs }]
    { t with replies := (t.replies.filter fun y => !mine y) ++ own.drop (own.length - 64) }

/-- What a home makes of a request: nothing yet, or an answer. -/
inductive Served where
  | later
  | answer (a : Answer) (s : State)

/-- Whether a command's circuit stands but has no wavelength, so that its flits wait at the transmit end (R362). -/
def State.circuitDark (s : State) (c : Nat) (t : Started) : Bool :=
  t.cmd.hv && match s.ownCircuit c t.cmd.h t.circ with
    | some k => (s.circuitMap k).isEmpty
    | none => false

/-- The asker of a request: a core of this panel, or one of another panel, which owns no region here (R57). -/
def State.askerOf (s : State) (r : Request) : Asker :=
  match r.op with
  | .foreign _ => { part := r.part, who := none }
  | _ => s.asker r.core

/-- The bytes that a load reads; 0 for any other request. -/
def Request.loads (r : Request) : Nat :=
  match r.op with
  | .load n | .foreign (.load n) | .foreign (.engRead n) => n
  | _ => 0

/-- The kind of access of a request that reads. -/
def Request.readAcc (r : Request) : Acc :=
  match r.op with
  | .foreign (.engRead _) => .engRead
  | _ => .load

/-- Whether an earlier operation of the same L stream has still to read a piece: loads of one location are served in their
issue order (R64, R70). -/
def State.readsBefore (s : State) (r : Request) (k : Bool × Nat) : Bool :=
  r.lstream && ((s.ctx r.core).laccess.takeWhile fun a => a.tk != r.tk).any fun a => s.stillReads r.core a k

/-- Whether the loads before this one leave it to be served. -/
def State.loadTurn (s : State) (r : Request) : Bool :=
  !(piecesOf false r.addr.toNat r.loads).any (s.readsBefore r)

/-- The answer to a load, with the pieces that its home has read ahead. -/
def Answer.patched (a : Answer) (r : Request) : Answer :=
  match a with
  | .done cause at_ bs locs => .done cause at_ (patch r.got false r.addr.toNat bs) locs
  | .retry => .retry

/-- The home of a load reads one of its pieces ahead of the others (R65, R74). Log 6, DESIGN CHOICE. -/
def State.loadPiece (s : State) (ix piece : Nat) : State :=
  match s.reqs[ix]? with
  | none => s
  | some r =>
    match ((piecesOf false r.addr.toNat r.loads).filter fun k => !(r.got.any fun g => g.1 == k))[piece]? with
    | none => s
    | some k =>
      match if r.stage = .travelling && !s.readsBefore r k then s.homePiece (s.askerOf r) r.readAcc k.2 else none with
      | none => s
      | some bs => { s with reqs := s.reqs.set ix { r with got := r.got ++ [(k, bs)] } }

end Sys2Proof.Machine

namespace Sys2Proof

open Sys2Proof.Machine

/-- The bytes that another panel's store, engine write or accumulation writes, and whether they arrive poisoned. -/
def ForeignOp.writes : ForeignOp → Option (List Byte × Bool)
  | .store bs bad | .engWrite bs bad | .accw _ bs bad => some (bs, bad)
  | _ => none

/-- The kind of access with which it is checked. -/
def ForeignOp.writeAcc : ForeignOp → Acc
  | .store _ _ => .store
  | _ => .engWrite

/-- The bytes of its pieces: of an accumulation those of an element (R74, R318). -/
def ForeignOp.grain : ForeignOp → Nat
  | .accw ty _ _ => tyBytes ty
  | _ => 8

/-- The pieces of such a write of `n` bytes. -/
def ForeignOp.pieces (op : ForeignOp) (n : Nat) : List Nat := List.range ((n + op.grain - 1) / op.grain)

end Sys2Proof

namespace Sys2Proof.Machine

/-- Performs piece `i` of such a write: of an accumulation, the sum with the element there (R317). -/
def State.foreignOne (s : State) (op : ForeignOp) (loc : Loc) (bs : List Byte) (i : Nat) : State :=
  let part := (bs.drop (op.grain * i)).take op.grain
  let at_ := loc.shift (op.grain * i)
  s.writeLoc at_ (match op with
    | .accw ty _ _ => natLE op.grain (tyAdd ty (leNat (s.readLoc at_ op.grain)) (leNat part))
    | _ => part)

/-- The pieces of another panel's write that have gone ahead are kept with its request. -/
def Request.didPiece (r : Request) (i : Nat) : Bool := r.got.any fun g => g.1 == (false, i)

/-- The home of another panel's write performs one of its pieces ahead of the others (R74). Log 6, DESIGN CHOICE. -/
def State.foreignPiece (s : State) (ix piece : Nat) : State :=
  match s.reqs[ix]? with
  | none => s
  | some r =>
    match r.op with
    | .foreign op =>
      match op.writes, s.homeCheck (s.askerOf r) op.writeAcc r.addr.toNat ((op.writes.map (·.1.length)).getD 0) with
      | some (bs, _), .ok loc _ =>
        if r.stage = .travelling && (op.pieces bs.length).contains piece && !r.didPiece piece then
          { s.foreignOne op loc bs piece with reqs := s.reqs.set ix { r with got := r.got ++ [((false, piece), [])] } }
        else s
      | _, _ => s
    | _ => s

/-- Another panel's write at its place: the pieces that have not gone ahead, then its poison. -/
def State.foreignWrite (s : State) (r : Request) (op : ForeignOp) (loc : Loc) (bs : List Byte) (bad : Bool) : State :=
  let left := (op.pieces bs.length).filter fun i => !r.didPiece i
  match op with
  | .accw _ _ _ =>
    let u := left.foldl (fun s i => s.foreignOne op loc bs i) s
    if bad then u.poisonLoc loc bs.length else u
  | _ => s.writeLeft loc bs (if r.got.isEmpty then none else some left) bad

/-- A request of another panel at its home (R47, R51, R57, R375): asked by no core of the partition. -/
def State.homeForeign (s : State) (r : Request) (op : ForeignOp) : Answer × State :=
  let who := s.askerOf r
  let addr := r.addr
  let a := addr.toNat
  let check := fun (acc : Acc) (n : Nat) (act : Loc → Answer × State) =>
    match s.homeCheck who acc a n with
    | .fail c => (Answer.fail c addr, s)
    | .retry => (.retry, s)
    | .ok loc _ => act loc
    | .foreign _ => (.fail 0x27 addr, s)
  match op with
  | .load n => ((s.homeLoad who addr n).patched r, s)
  | .flagAdd v =>
    check .atomic 8 fun loc =>
      match s.addAt loc v with
      | (.error c, s) => (.fail c addr, s)
      | (.ok old, s) => (.done 0 0 (wordLE old) [], s)
  | .engRead n => check .engRead n fun loc => (Answer.patched (.done 0 0 (s.readLoc loc n) []) r, s)
  | .store bs bad | .engWrite bs bad | .accw _ bs bad =>
    check op.writeAcc bs.length fun loc => (.done 0 0 [] [], s.foreignWrite r op loc bs bad)
  | .atomic c =>
    check .atomic c.elemBytes fun loc =>
      match s.rmwAt loc c.elemBytes c.newElem with
      | (.error k, s) => (.fail k addr, s)
      | (.ok old, s) => (.done 0 0 (wordLE (BitVec.ofNat 64 old)) [], s)
  | .rgx exp new =>
    match s.homeTile r.part a with
    | none => (.fail 0x27 addr, s)
    | some t => s.rgxEntry who t frontCore (fun e => decide (2 ≤ regState e)) addr exp new
  | .waita exp =>
    let w : WaitReq := { addr := addr, exp := exp, nb := true, tk := r.num.toNat }
    s.armDo { flock := r.panel, member := r.core, tk := w.tk, nb := true, va := addr, mem := true, pa := 0, exp := exp, ext := true }
      (s.armFor who w)

/-- What a home makes of a command's accesses: an answer, and the status and counts that the command keeps. -/
def State.servePerformed (s : State) (r : Request) (tk : Nat) : Performed → Served
  | .retry => .answer .retry s
  | .done s status value cnt flags =>
    .answer (.done status 0 (wordLE value) [])
      (s.updStarted r.core tk fun t => { t with status := status, value := value, cnt := cnt, flags := t.flags ||| flags })

/-- Where a flag whose check stands lies now: its memory may have moved since (R42, R50, R310); none while its home answers
retry-after. -/
def State.flagPlace (s : State) (c : Nat) (f : FlagAdd) : Option Loc :=
  match s.homeCheck (s.asker c) .atomic f.addr.toNat 8 with
  | .ok loc _ => some loc
  | .retry => none
  | .fail _ | .foreign _ => some f.loc

/-- The addition to an STR's flag at its home: its check has been made (R213). -/
def State.serveFlag (s : State) (r : Request) (tk : Nat) : Served :=
  match (s.ctx r.core).flagAdds.find? fun f => f.tk == tk with
  | none => .answer (.done 0 0 [] []) s
  | some f =>
    match s.flagPlace r.core f with
    | none => .answer .retry s
    | some loc =>
      match (s.visibleAt f.sc).addAt loc 1 with
      | (.ok old, s) => .answer (.done 0 0 (wordLE old) []) s
      | (.error c, s) => .answer (.fail c f.addr) s

/-- The addition to the flag of a SETTLE at its home (R348). Log 30, DEDUCED. -/
def State.serveSettle (s : State) (r : Request) : Served :=
  if r.addr.toNat % 8 ≠ 0 then .answer (.fail 0x02 r.addr) s
  else
    match s.homeFlag (s.asker r.core) r.addr with
    | .done 0 _ _ (loc :: _) =>
      match s.rmwAt loc 8 fun old => some ((old + 1) % 2 ^ 64) with
      | (.error k, s) => .answer (.fail k r.addr) s
      | (.ok old, s) => .answer (.done 0 0 (wordLE (BitVec.ofNat 64 old)) []) s
    | a => .answer a s

/-- A started command at its homes; a reliable one whose circuit stands with no wavelength waits, and so does one behind an
earlier command on the same handle (R309, R362). The blocks of a penumbra transfer are sent at once. -/
def State.serveCommand (s : State) (r : Request) (t : Started) : Served :=
  if t.cmd.cls then s.servePerformed r t.tk (s.startPenumbra r.core t)
  else if (s.ctx r.core).handleBusy t || s.circuitDark r.core t then .later
  else s.servePerformed r t.tk ((s.dropNear r.core t.cmd.linesWritten).perform r.core t)

/-- A home serves a request for the first time. -/
def State.serve (s : State) (r : Request) : Served :=
  let who := s.asker r.core
  let a := r.addr.toNat
  let started := fun (tk : Nat) (f : Started → Served) =>
    match (s.ctx r.core).startedAt tk with
    | none => .answer (.done 0 0 [] []) s
    | some t => f t
  match r.op with
  | .load n => if s.loadTurn r then .answer ((s.homeLoad who r.addr n).patched r) (s.cacheAccess r.core a n) else .later
  | .store bs => .answer (s.homeStore who r.addr bs.length) (s.touch who .store a bs.length)
  | .str bs flag => .answer (s.homeStr who r.addr bs.length flag) (s.touch who .store a bs.length)
  | .rgx exp new =>
    let p := s.homeRgx r.core r.addr exp new
    .answer p.1 p.2
  | .foreign op =>
    let p := s.homeForeign r op
    .answer p.1 p.2
  | .command tk => started tk fun t => s.serveCommand r t
  | .arm tk =>
    match (s.ctx r.core).waits.find? fun w => w.tk == tk with
    | none => .answer (.done 0 0 [] []) s
    | some w =>
      let p := s.armAt r.core w
      .answer p.1 p.2
  | .strAdd tk => s.serveFlag r tk
  | .drvSettle _ _ _ => s.serveSettle r
  | .putfAdd tk => started tk fun t => s.servePerformed r tk (s.putfAddAt r.core t)
  | .settle tk lost => started tk fun t => s.servePerformed r tk (s.settleAt r.core t lost)

/-- The saved reply, sent again as it was (R329). -/
def SavedReply.again (y : SavedReply) : ReqStage := .answered y.cause y.at_ y.bs y.locs

end Sys2Proof.Machine

namespace Sys2Proof

open Machine

/-- The addresses at which a command asks for a write or a read, with the kind, in the order in which it meets them. -/
def CmdRecord.asked (r : CmdRecord) : List (Acc × W64) :=
  let atomic := isAtomic r.opc || r.opc == 0x0B
  (if r.opc = 5 then [(.atomic, r.flag)] else []) ++
    (if atomic then [(.atomic, r.w1)]
    else if r.opc = 9 then
      (((List.range r.len).map fun k => (Acc.engRead, r.w2 + BitVec.ofNat 64 k)) ++
        ((List.range 64).filter fun j => bit r.w4 j).flatMap fun j =>
          (List.range r.len).map fun k => (.engWrite, r.w1 + BitVec.ofNat 64 (j * 2 ^ 42) + BitVec.ofNat 64 k))
    else (r.rows.flatMap fun row => (List.range r.len).flatMap fun k =>
      (if r.sl || r.inl || r.opc == 8 then [] else [(Acc.engRead, row.2 + BitVec.ofNat 64 k)]) ++
        (if r.dl then [] else [(.engWrite, row.1 + BitVec.ofNat 64 k)])))

end Sys2Proof

namespace Sys2Proof.Machine

/-- The addresses that a request asks for, with the kind of access. -/
def State.askedBy (s : State) (r : Request) : List (Acc × W64) :=
  let cmd := fun (tk : Nat) (f : CmdRecord → List (Acc × W64)) =>
    (((s.ctx r.core).startedAt tk).map fun t => f t.cmd).getD []
  match r.op with
  | .str _ flag => [(.store, r.addr), (.atomic, flag)]
  | .command tk => cmd tk CmdRecord.asked
  | .settle tk _ => cmd tk fun c => c.asked ++ (List.range (c.mbit + c.blockList.length)).map fun i =>
      (.engWrite, c.maddr + BitVec.ofNat 64 (8 * (i / 64)))
  | _ => []

/-- The tile that refuses a request with retry-after: of the addresses that it asks for, the home of the first that is
refused (R367). -/
def State.refuser (s : State) (tile : Nat) (r : Request) : Nat :=
  match (s.askedBy r).find? fun e =>
      match s.homeCheck (s.askerOf r) e.1 e.2.toNat 1 with
      | .retry => true
      | _ => false with
  | none => tile
  | some e => (s.homeTile r.part e.2.toNat).getD tile

/-- Replaces a request. -/
def State.setReq (s : State) (ix : Nat) (r : Request) : State := { s with reqs := s.reqs.set ix r }

/-- Whether a request carries a number (R328): every one but an L-stream load. -/
def Request.numbered (r : Request) : Bool := !r.lstream

/-- The reply to a request is on its way; a retry-after reply carries the home tile's delay, and is not saved
(R329, R367). -/
def State.reply (s : State) (ix tile : Nat) (r : Request) (a : Answer) : State :=
  match a with
  | .retry => s.setReq ix { r with stage := .refused (s.now + 64 * (s.tile (s.refuser tile r)).migDly.toNat) }
  | .done cause at_ bs locs =>
    let s := if r.numbered then s.saveReply tile r cause at_ bs locs else s
    s.setReq ix { r with stage := .answered cause at_ bs locs }

/-- Whether a command's accesses pass to their homes, or what it writes is answered: each by the standing lattice, but those of
a command bound to a handle by its circuit; the data that it reads come back too (R25, R362). -/
def State.commandCarried (s : State) (c : Nat) (r : CmdRecord) (back : Bool) : Bool :=
  (r.hv && (r.opc != 5 || s.carries c r.flag.toNat back)) ||
    (!r.hv && r.asked.all fun e =>
      s.carries c e.2.toNat back && (e.1 != .engRead || s.carries c e.2.toNat true))

/-- Whether a request, or its reply, passes (R25, R362, R368): over the standing lattice between the tile of its source and
every home that it asks, and over the edge port where one of them is on another panel, whose own lattice is not this model's. -/
def State.joined (s : State) (r : Request) (back : Bool) : Bool :=
  match r.op with
  | .foreign _ =>
    match s.homeTile r.part r.addr.toNat with
    | none => true
    | some t => s.edgeUp r.part t r.panel (!back)
  | .command tk => ((s.ctx r.core).startedAt tk).all fun t => s.commandCarried r.core t.cmd back
  | .settle _ _ => true
  | .str _ flag => s.carries r.core r.addr.toNat back && s.carries r.core flag.toNat back
  | _ => s.carries r.core r.addr.toNat back

/-- A request in flight reaches its home (R329). -/
def execHomeRequest (ix : Nat) (s : State) : Result :=
  .next (
    match s.reqs[ix]? with
    | none => s
    | some r =>
      if r.stage ≠ .travelling ∨ s.joined r false = false then s
      else
        let tile := s.ingress r
        if r.numbered ∧ mhas (s.tile tile).floors r.source ∧ seqBefore r.num (mget 0 (s.tile tile).floors r.source) then
          { s with reqs := s.reqs.eraseIdx ix }
        else
          let s := if r.numbered then s.noteFloor tile r else s
          match if r.numbered then s.savedReply tile r else none with
          | some y => s.setReq ix { r with stage := y.again }
          | none =>
            match s.serve r with
            | .later => s
            | .answer a s => s.reply ix tile r a)

/-- One piece of a started transfer goes ahead: of one within the core, or of one whose request is at its homes and has not
been served (R74). -/
def State.transferPiece (s : State) (c tk piece : Nat) : State :=
  match (s.ctx c).startedAt tk with
  | none => s
  | some t =>
    let atHome := t.stays || s.reqs.any fun r =>
      r.core == c && r.op == .command tk && r.stage == .travelling && (s.savedReply (s.ingress r) r).isNone &&
        s.joined r false && !(s.ctx c).handleBusy t && !s.circuitDark c t
    let whole := isTransfer t.cmd.opc || t.cmd.opc == 6 || t.cmd.opc == 7 || t.cmd.opc == 8 || t.cmd.opc == 0x0A
    if t.stage = .running && whole && !t.cmd.cls && atHome then s.transferOne c t piece else s

/-! ## Replies at the source (R328, R330) -/

/-- The status that a reply gives an access. -/
def accAnswer (r : Request) (cause : Cause) (at_ : W64) (bs : List Byte) (locs : List Loc) : AccStatus :=
  if cause ≠ 0 then .fail cause at_
  else
    match r.op with
    | .store _ | .str _ _ => .held locs
    | _ => .data bs

/-- A final answer reaches a started command at the stage that asked: it goes on there, with the answer's status. -/
def Ctx.commandAnswered (x : Ctx) (tk : Nat) (at_ : CmdStage) (next : CmdRecord → CmdStage) (cause : Cause) : Ctx :=
  { x with started := x.started.map fun t =>
      if t.tk = tk ∧ t.stage = at_ then { t with stage := next t.cmd, status := cause } else t }

/-- A final answer reaches the access or command that asked. -/
def Ctx.answered (x : Ctx) (r : Request) (cause : Cause) (at_ : W64) (bs : List Byte) (locs : List Loc) : Ctx :=
  match r.op with
  | .load _ =>
    { x with laccess := x.laccess.map fun a =>
        if a.tk = r.tk ∧ a.status = .sent then { a with status := accAnswer r cause at_ bs locs } else a }
  | .store _ | .str _ _ | .rgx _ _ =>
    { x with saccess := x.saccess.map fun a =>
        if a.tk = r.tk ∧ a.status = .sent then { a with status := accAnswer r cause at_ bs locs } else a }
  | .command tk => x.commandAnswered tk .running (fun c => nextStage c cause) cause
  | .settle tk _ => x.commandAnswered tk .settling (fun c => nextStage c cause) cause
  | .putfAdd tk => x.commandAnswered tk .flagSent (fun _ => .ended) cause
  | .strAdd tk =>
    ({ x with flagAdds := x.flagAdds.filter fun f => f.tk != tk } : Ctx).flagDone
      (if cause = 0 then .ok (leWord bs) else .error cause)
  | .arm tk => x.armed tk cause bs
  | .drvSettle _ _ _ | .foreign _ => x

/-! ## Halts of a circuit program (R353) -/

/-- Changes a partition's drover. -/
def State.updDrover (s : State) (part : Nat) (f : Drover → Drover) : State :=
  s.updPart part fun p => { p with drover := f p.drover }

/-- A halted program: decoding stops. Blocks decoded before it stay, unless the halt is found while a step runs (R353). -/
def Drover.halt (d : Drover) (sub : Nat) : Drover :=
  { d with halted := true, decoding := false, ready := if sub = 8 then [] else d.ready
           settles := if sub = 8 then [] else d.settles }

/-- 0x4F is routed with the sub-code, the memory cause, the step and the index of the failing word (R353, R364). -/
def State.droverFault (s : State) (part sub step word mem : Nat) : State :=
  s.routeFault part 0x4F
    (faultBytes 0x4F sub 0xFF 0xFF 0 0 mem (s.now - (s.part part).createdAt) step word)

/-- A halt of the program that owns a partition's drover. -/
def State.droverHalt (s : State) (part sub step word mem : Nat) : State :=
  (s.updDrover part fun d => d.halt sub).droverFault part sub step word mem

/-- What the final answer to the addition of a SETTLE makes of its program: a refused flag, or one that is given up, halts it
at once; otherwise the SETTLE is done (R330, R348). -/
def Drover.settled (d : Drover) (step word : Nat) (cause : Cause) : Drover :=
  if cause ≠ 0 then d.halt 8 else { d with settles := d.settles.filter fun e => !(e.1 == step && e.2.2.1 == word) }

/-- The final answer to the addition of a SETTLE, and the fault 0x4F with 0x08 where it has failed; the program may stand with
a pre-empted flock, whose ports are given away (R40, R330, R348). Log 30, DEDUCED. -/
def State.settleAnswered (s : State) (r : Request) (cause : Cause) : State :=
  let n := r.core - droverCore
  match r.op with
  | .drvSettle fl step word =>
    let s := s.updPart n fun p => { p with drvOpen := p.drvOpen.filter fun k => k != r.num }
    let here := (s.part n).drover.owner == some fl
    if !here && ((s.flock fl).drover).isNone then s
    else
      let s := if here then s.updDrover n fun d => d.settled step word cause
        else s.updFlock fl fun f => { f with drover := f.drover.map fun d => d.settled step word cause }
      if cause = 0 then s else s.droverFault n 8 step word cause.toNat
  | _ => s

/-- A reply returns to its source; a second reply to one number is dropped (R328). Log 51, DEDUCED. -/
def execRemoteReply (ix : Nat) (s : State) : Result :=
  .next (
    match s.reqs[ix]? with
    | none => s
    | some r =>
      match r.stage with
      | .answered cause at_ bs locs =>
        if !s.joined r true then s
        else
        let s := { s with reqs := s.reqs.eraseIdx ix }
        match r.op with
        | .foreign _ => s
        | .drvSettle _ _ _ =>
          if (s.part (r.core - droverCore)).drvOpen.contains r.num then s.settleAnswered r cause else s
        | _ =>
          if r.lstream then s.onCore r.core fun x => x.answered r cause at_ bs locs
          else if (s.ctx r.core).unanswered.contains r.num then
            s.onCore r.core fun x => (x.answeredNum r.num).answered r cause at_ bs locs
          else s
      | _ => s)

/-- The VALUE of a PUTF whose flag's addition is given up: the flag's old value, which the manual does not say here
(R312, R330). Log 23, DEDUCED. -/
def State.giveUpFlag (s : State) (r : Request) : State :=
  match r.op with
  | .putfAdd tk => s.updStarted r.core tk fun t => { t with value := s.flagOld r.core t.cmd.flag }
  | _ => s

/-- A request is sent again with the same number, or given up with 0x47 after 8 sends (R330). Log 51, DEDUCED. -/
def State.resend (s : State) (ix : Nat) (r : Request) : State :=
  if r.sends < maxSends then s.setReq ix { r with sends := r.sends + 1, sentAt := s.now, stage := .travelling }
  else
    let s := { s with reqs := s.reqs.eraseIdx ix }
    match r.op with
    | .drvSettle _ _ _ => s.settleAnswered r 0x47
    | _ => (s.giveUpFlag r).onCore r.core fun x =>
        (if r.lstream then x else x.answeredNum r.num).answered r 0x47 r.addr [] []

/-- A refused request is sent again after the delay (R330, R367). -/
def execRetryAfterResend (ix : Nat) (s : State) : Result :=
  .next (
    match s.reqs[ix]? with
    | none => s
    | some r =>
      match r.stage with
      | .refused u => if u ≤ s.now then s.resend ix r else s
      | _ => s)

/-- An unanswered request of a core is sent again: it, or its reply, was lost (R330, R362). Log 51, DEDUCED. -/
def execRequestTimeoutResend (ix : Nat) (s : State) : Result :=
  .next (
    match s.reqs[ix]? with
    | none => s
    | some r =>
      let own : Bool := match r.op with | .foreign _ => false | _ => true
      let waits : Bool := match r.stage with | .refused _ => false | _ => true
      if own ∧ waits ∧ r.sentAt + replyTimeout ≤ s.now then s.resend ix r else s)

/-! ## Uncorrectable errors (R78) -/

/-- An uncorrectable error poisons a sector. -/
def execUncorrectableError (loc : MemLoc) (s : State) : Result :=
  .next (
    match loc with
    | .panel tile off => if tile < 64 ∧ off < 2 ^ 42 then s.poisonLoc (.panel tile off) 1 else s
    | .lm core off => if core < 4096 ∧ off < 2 ^ 23 then s.poisonLoc (.lm core off) 1 else s
    | .host addr => s.poisonLoc (.host 0 addr false) 1)

/-! ## Stream deadlock (R21, R306) -/

/-- A nest that waits only for a swap grant. -/
def Matrix.wantsGrant (m : Matrix) : Bool :=
  match m.running with
  | some n => n.stage == .swap && n.bank.swm && m.grants == 0
  | none => false

/-- Whether a wait is one on a queue of the core or on a section dependence (R21). -/
def Ctx.localWait (x : Ctx) (r : Option WaitReason) : Bool :=
  match r with
  | some .queueEmpty | some .queueFull | some .sectionDep => true
  | some .mxwait => x.mx.wantsGrant
  | _ => false

/-- Whether an arrival of a member is in a phase that has not completed. Log 56, DEDUCED. -/
def State.barrierOpen (s : State) (c : Nat) : Bool :=
  let x := s.ctx c
  let fl := x.flock.getD 0
  let p := partyId fl x.member
  let open_ := fun (e : Nat × BarInst) => decide (e.2.c < (e.2.party p).issued)
  !x.arrivals.isEmpty || (s.flock fl).bars.any open_ || s.dgrps.any open_

/-- Whether no engine command, access, barrier or monitor of a core is outstanding (R21). Log 56, DEDUCED. -/
def State.nothingOut (s : State) (c : Nat) : Bool :=
  let x := s.ctx c
  x.f0.isEmpty && x.started.isEmpty && x.laccess.isEmpty && x.saccess.isEmpty && x.flagAdds.isEmpty && x.waits.isEmpty &&
    x.commit.isEmpty && x.sends.isEmpty && !s.barrierOpen c && x.mx.pending.isNone && (x.mx.running.isNone || x.mx.wantsGrant)

/-- Whether the copy engine waits for an entry of f1 (R306). -/
def Ctx.engineStalled (x : Ctx) : Bool :=
  match x.f0 with
  | [] => false
  | e :: _ => e.cmd.records && decide (fifoDepth 1 ≤ x.f1.length + x.f1res)

/-- A core detects a stream deadlock: all three streams wait locally and nothing can end it, for 1 µs (R21, R306).
Log 56, DEDUCED. -/
def execStreamDeadlock (c : Nat) (s : State) : Result :=
  .next (
    let x := s.ctx c
    if x.flock.isSome && x.trap.isNone && !x.preempt && x.localWait x.l.wait && x.localWait x.c.wait &&
        x.localWait x.s.wait && (s.nothingOut c || x.engineStalled) && decide (x.waitSince + 1000 ≤ s.now) then
      takeTrap s c .c 0x13 0 0 x.c.seq x.c.pc
    else s)

/-! ## Replays (R233, R430) -/

/-- Timing-error detection replays a bundle: what it did inside the core is undone and done once, the replay is
counted, for its core and its tile (R432), and a request that it had sent may be sent twice with one number.
Log 26, DEDUCED. -/
def execBundleReplay (c : Nat) (s : State) : Result :=
  .next (
    let s := { s with
      replays := mset s.replays c (satAdd (2 ^ 32 - 1) (mget 0 s.replays c) 1)
      life := { s.life with
        replays := mset s.life.replays (c / 64) (satAdd (2 ^ 64 - 1) (mget 0 s.life.replays (c / 64)) 1) } }
    match s.reqs.reverse.find? fun r => r.core == c && r.numbered && r.stage == .travelling with
    | some r => if Config.anyBool (s.freeIx 1) then { s with reqs := s.reqs ++ [r] } else s
    | none => s)

/-! ## Variants (R427, R428) -/

/-- Whether all three streams hold at headers of record `r`. -/
def Ctx.allHold (x : Ctx) (r : Nat) : Bool := x.l.hold == some r && x.c.hold == some r && x.s.hold == some r

/-- Whether the latest stream began to hold within 2 µs of the first hold (R428). -/
def Ctx.heldInTime (x : Ctx) : Bool := decide (x.heldAt ≤ x.holdSince + 2000)

/-- Whether some stream holds at a switch point. -/
def Ctx.someHold (x : Ctx) : Bool := x.l.hold.isSome || x.c.hold.isSome || x.s.hold.isSome

/-- The conditions of a switch besides the holds (R428). -/
def Ctx.switchClear (x : Ctx) : Bool :=
  x.lq.toList.all (·.entries.isEmpty) && x.sq.toList.all (·.entries.isEmpty) && x.bq.entries.isEmpty &&
    x.mx.running.isNone && x.mx.pending.isNone && !x.preempt && x.trap.isNone

/-- A stream that held goes on at a header, which it enters without another look. -/
def StreamState.goOn (y : StreamState) (pc : Nat) : StreamState := { y with hold := none, noSwitch := true, pc := pc }

/-- The streams that hold enter their own sections, and the attempt is counted (R428). -/
def Ctx.missSwitch (x : Ctx) : Ctx :=
  let on := fun (y : StreamState) => if y.hold.isSome then y.goOn y.pc else y
  { x with l := on x.l, c := on x.c, s := on x.s, varMiss := satAdd 65535 x.varMiss 1 }

/-- The streams continue in the variant of the level that PWRLVL reads (R428). -/
def execVariantSwitch (c : Nat) (s : State) : Result :=
  .next (
    let x := s.ctx c
    match x.l.hold with
    | none => s
    | some r =>
      if !(x.allHold r && x.switchClear && x.heldInTime) then s
      else
        match s.variantTable c with
        | .error e => if e = retryCode then s else s.onCore c fun x => { x.missSwitch with varErr := true }
        | .ok (recs, s) =>
          let v := s.powerLevel c
          let rec_ := recs.getD r []
          s.onCore c fun x =>
            { x with
              l := x.l.goOn (variantOffset rec_ .l v)
              c := x.c.goOn (variantOffset rec_ .c v)
              s := x.s.goOn (variantOffset rec_ .s v)
              varSwitches := satAdd 65535 x.varSwitches 1, varRec := BitVec.ofNat 8 r, varLvl := BitVec.ofNat 8 v })

/-- A switch attempt is abandoned: where the streams do not all hold at one record within 2 µs of the first hold, or at once
where they do and another condition fails (R428). A requested cut is taken at the held headers instead. -/
def execVariantSwitchMiss (c : Nat) (s : State) : Result :=
  .next (
    let x := s.ctx c
    let all : Bool := match x.l.hold with | some r => x.allHold r | none => false
    if x.preempt || x.trap.isSome || !x.someHold then s
    else if (all && !(x.switchClear && x.heldInTime)) || (!all && decide (x.holdSince + 2000 ≤ s.now)) then
      s.onCore c Ctx.missSwitch
    else s)

end Sys2Proof.Machine
end

