-- ==== Sys2Proof/Machine/Fabric.lean ====
section
/-! DEFINITION. Port ends: flits received, refused and sent again (R336 to R340), the health of wavelengths and their
training (R357 to R362), and the port registers (R365). -/

namespace Sys2Proof

open Machine

/-! ## The layout of a flit (R336) -/

/-- LSEQ of a flit. -/
def Flit.lseq (f : Flit) : BitVec 16 := BitVec.ofNat 16 (leNat ((f.bytes.drop 2).take 2))
/-- TYPE. -/
def Flit.type (f : Flit) : Nat := (f.bytes.headD 0).toNat / 16
/-- CLS: the penumbra class. -/
def Flit.pen (f : Flit) : Bool := bit (f.bytes.headD 0) 3

/-- Whether CHECK, over bytes 0 to 1 and 4 to 215, agrees. Log 27, DEDUCED. -/
def Flit.checkOk (f : Flit) : Bool :=
  leNat ((f.bytes.drop 216).take 8) == crc64 (f.bytes.take 2 ++ (f.bytes.drop 4).take 212)

/-- Whether FEC cannot correct one of the two codewords, of 8 symbol errors at most, or TYPE is reserved, which counts
alike. Log 27, DEDUCED. -/
def Flit.uncorrectable (f : Flit) : Bool := decide (8 < f.errs0) || decide (8 < f.errs1) || decide (6 ≤ f.type)

/-- The bytes of a flit but for LSEQ and what is computed over the whole: bytes 0 to 1 and 4 to 215. -/
def FlitOut.head (f : FlitOut) : List Byte :=
  [BitVec.ofNat 8 (f.type.toNat * 16 + b2n f.pen * 8 + f.nb.toNat), 0]

/-- Bytes 4 to 215 of a flit: SSEQ, SRC, ADDR, OPX, XID and the three blocks of its payload. -/
def FlitOut.body (f : FlitOut) : List Byte :=
  natLE 4 f.sseq.toNat ++ natLE 2 f.src.toNat ++ natLE 7 f.addr.toNat ++ [f.opx] ++ natLE 6 f.xid.toNat ++
    (f.payload ++ List.replicate 192 0).take 192

/-- The 256 bytes of a flit with an LSEQ: CHECK is computed, and FEC's parity is free. Log 27, DEDUCED. -/
def FlitOut.bytes (f : FlitOut) (lseq : BitVec 16) : List Byte :=
  let data := f.head ++ natLE 2 lseq.toNat ++ f.body ++ natLE 8 (crc64 (f.head ++ f.body)).toNat
  data ++ (Config.fecParity data ++ List.replicate 32 0).take 32

end Sys2Proof

namespace Sys2Proof.Machine

/-! ## Units and rounds (R337) -/

/-- The wavelengths that `n` units go on, in unit order, from a place in the round: the wavelengths of the usable map in
ascending order, round after round. -/
def dealUnits (map : List Nat) (place n : Nat) : List Nat :=
  (List.range n).map fun i => map.getD ((place + i) % map.length) 0

/-- The units of a flit. -/
def flitUnits : Nat := 8

/-- The changes of the map in λk that stand among what an end has sent, in order: true where it is back (R358). -/
def mapChanges (q : List Sent) (k : Nat) : List Bool :=
  q.filterMap fun x => match x with
    | .lastFlit j _ back => if j = k then some back else none
    | _ => none

/-- The usable map of a joined pair under which its transmit end sends: the intersection of both ends' maps (R334), that of
the receive end as it will be once it has taken what has been sent. -/
def State.sendMap (s : State) (tx rx : PortEnd) : List Nat :=
  (s.portEnd tx).map.filter fun k =>
    let w := (s.portEnd rx).lane k
    match (mapChanges (s.portEnd tx).outbox k).getLast? with
    | some back => back && (w.up || w.state == .exchange)
    | none => w.up

/-- The usable map of a joined pair under which the next flit that its receive end takes was sent. -/
def State.takeMap (s : State) (tx rx : PortEnd) : List Nat :=
  (s.portEnd rx).map.filter fun k =>
    match (mapChanges (s.portEnd tx).outbox k).head? with
    | some back => !back
    | none => (s.portEnd tx).map.contains k

/-- The map over which an end deals the units that it sends, or takes those that it receives: of its circuit, or of the end
alone where it is joined to another panel (R334, R337). -/
def State.dealMap (s : State) (e : PortEnd) : List Nat :=
  match s.peerEnd e with
  | some r => if e.tx then s.sendMap e r else s.takeMap r e
  | none => (s.portEnd e).map

/-- Sends a flit's eight units after those sent before it, over a map. -/
def PortSt.sendUnits (p : PortSt) (map : List Nat) (x : List Nat → Sent) : PortSt :=
  { p with outbox := p.outbox ++ [x (dealUnits map p.deal flitUnits)], deal := (p.deal + flitUnits) % map.length }

/-- The wavelengths on which a receive end expects the units of the next flit, by the same rule (R337). -/
def State.expected (s : State) (e : PortEnd) : List Nat := dealUnits (s.dealMap e) (s.portEnd e).deal flitUnits

/-- A receive end has taken the units of a flit. -/
def State.tookUnits (s : State) (e : PortEnd) : State :=
  let n := (s.dealMap e).length
  s.updPort e fun p => { p with deal := (p.deal + flitUnits) % n }

/-- Ends the last round under the old map with idle units: the next flit begins on the lowest wavelength of the new one. -/
def PortSt.endRound (p : PortSt) (map : List Nat) : PortSt :=
  if p.deal = 0 then p else { p with outbox := p.outbox ++ [.idle (map.drop p.deal)], deal := 0 }

/-! ## Receiving (R338, R339) -/

/-- Delivers the held flits from the next expected LSEQ on. -/
def PortSt.release : Nat → PortSt → PortSt
  | 0, p => p
  | fuel + 1, p =>
    match p.heldFlits.find? fun e => e.1 == p.rxSeq with
    | none => p
    | some (n, d) =>
      PortSt.release fuel
        { p with
          rxSeq := p.rxSeq + 1
          heldFlits := p.heldFlits.filter fun e => e.1 != n
          delivered := p.delivered ++ d.toList
          poisoned := satAdd (2 ^ 32 - 1) p.poisoned (if (d.map (·.2)) = some true then 1 else 0) }

/-- Takes LSEQ `n` into the order of delivery, with what it has to deliver; one that has come before is dropped. -/
def PortSt.accept (p : PortSt) (n : BitVec 16) (d : Option (List Byte × Bool)) : PortSt :=
  if 2 ^ 15 ≤ (n - p.rxSeq).toNat ∨ p.heldFlits.any (fun e => e.1 == n) then p
  else
    let p := { p with heldFlits := p.heldFlits ++ [(n, d)] }
    p.release p.heldFlits.length

/-- A flit that has been received well: a skip stands for the flit that it names; idle and control flits carry no
data; a penumbra flit is delivered at once, a reliable one in LSEQ order. A peer's flits arrive in the order sent, and a
penumbra flit is sent once, so penumbra flits are delivered in LSEQ order too. Log 27, DEDUCED. -/
def PortSt.take (p : PortSt) (f : Flit) : PortSt :=
  match f.skip with
  | some n => { p with nacks := p.nacks.filter fun m => m != n }.accept n none
  | none =>
    if f.type = 0 ∨ f.type = 5 then p
    else if f.pen then
      if 2 ^ 15 ≤ (f.lseq - p.rxSeq).toNat ∨ p.heldFlits.any (fun e => e.1 == f.lseq) then p
      else { p with delivered := p.delivered ++ [(f.bytes, false)] }.accept f.lseq none
    else
      let again := p.nacks.contains f.lseq
      { p with
        resent := satAdd (2 ^ 32 - 1) p.resent (if again then 1 else 0)
        nacks := p.nacks.filter fun n => n != f.lseq }.accept f.lseq (some (f.bytes, f.poisoned))

/-- Refuses a flit: a NACK that names its LSEQ leaves for the transmit end. -/
def PortSt.refuse (p : PortSt) (n : BitVec 16) : PortSt :=
  { p with nacks := if p.nacks.contains n then p.nacks else p.nacks ++ [n], nackOut := p.nackOut ++ [n] }

/-! ## Counting windows (R357) -/

/-- Whether a wavelength is over a threshold in its current window. -/
def PortSt.over (p : PortSt) (w : Wavelength) : Bool := decide (p.cthr.toNat < w.window) || decide (2 ≤ w.uncWindow)

/-- A wavelength crosses its threshold: a hand-back is started, unless fewer than MINW wavelengths would be left. -/
def PortSt.cross (p : PortSt) (k : Nat) : PortSt :=
  let w := p.lane k
  if w.up && p.over w && !w.met then
    let left := (p.map.filter fun j => j != k && !(p.lane j).crossed).length
    p.updLane k fun w =>
      if left < p.minw.toNat then { w with met := true, crossings := w.crossings + 1 } else { w with met := true, crossed := true }
  else p

/-- Crossings of every wavelength. -/
def PortSt.crossAll (p : PortSt) : PortSt := (List.range 8).foldl PortSt.cross p

/-- The symbols of a counting window. -/
def windowSymbols : Nat := 2 ^ 24

/-- A counting window of λk ends: what crossed is dealt with, and the counts start again (R357). -/
def PortSt.endWindow (p : PortSt) (k : Nat) : PortSt :=
  (p.cross k).updLane k fun w =>
    { w with window := 0, uncWindow := 0, met := false, symbols := w.symbols - windowSymbols }

/-- Ends the windows that are full. -/
def PortSt.endWindows (p : PortSt) : PortSt :=
  (List.range 8).foldl (fun p k => if windowSymbols ≤ (p.lane k).symbols then p.endWindow k else p) p

/-- Counts the symbols of units received on these wavelengths. -/
def PortSt.countUnits (p : PortSt) (lanes : List Nat) : PortSt :=
  lanes.foldl (fun p k => p.updLane k fun w => { w with symbols := w.symbols + 32 }) p

/-- Counts a flit whose units came on these wavelengths: its symbols, those that FEC corrected, and whether it was
uncorrectable, on each wavelength that carried a unit of it (R337, R357). -/
def PortSt.count (p : PortSt) (f : Flit) (lanes : List Nat) : PortSt :=
  lanes.dedup.foldl (fun p k =>
    p.updLane k fun w =>
      let n := f.corr.getD k 0
      let u := if f.uncorrectable then 1 else 0
      { w with corr := satAdd (2 ^ 48 - 1) w.corr n, window := w.window + n, unc := satAdd (2 ^ 32 - 1) w.unc u,
               uncWindow := w.uncWindow + u }) (p.countUnits lanes)

/-- The number of a fabric port of the panel, as R432 counts them: twelve for each tile, then the edge ports. -/
def panelPort (e : PortEnd) : Nat :=
  if e.port < 12 then 12 * e.tile + e.port else 768 + (edgePorts e.tile).getD (e.port - 12) 31

/-- The first edge port of a tile. -/
def firstEdge : Nat := 12

/-- A started command of core `c` that copy data belong to: its transfer identifier is taken from the command's stamp.
Log 27, DEDUCED. -/
def Ctx.transfer (x : Ctx) (xfer : Nat) : Option Started := x.started.find? fun t => t.tk % 2 ^ 32 == xfer

/-- The core that a flit's SRC names, in the partition of a tile. -/
def State.flitCore (s : State) (tile : Nat) (f : FlitFields) : Option Nat :=
  (s.tile tile).part.map fun n => s.physCore n f.src

/-- Bytes of a SEND's stream arrive poisoned on the circuit of a receive end: ADDR of a flit of sent data is the position of
its first byte in the circuit's stream (R336, R338). Log 81, DESIGN CHOICE. -/
def State.poisonStream (s : State) (e : PortEnd) (f : FlitFields) : State :=
  match (s.tile e.tile).part with
  | none => s
  | some n => s.updDrover n fun d =>
      { d with circuits := d.circuits.map fun k =>
          if k.recvEnd == e then { k with spoilt := k.spoilt ++ [(f.addr.toNat, 64 * f.nb)] } else k }

/-- What the blocks of a poisoned flit do where they arrive (R78, R323, R338): sectors of a command's destination, of a store
and of a circuit's stream arrive poisoned, and a load, or a read of the L access queue, consumes poison. -/
def State.poisonFlit (s : State) (e : PortEnd) (f : FlitFields) : State :=
  match s.flitCore e.tile f with
  | none => s
  | some c =>
    let sectors := (List.range f.nb).map fun i => f.addr.toNat / 64 + i
    match f.type with
    | 1 =>
      let its := fun (a : SAccess) => s.reqs.any fun r => r.storeFrom c a.tk && r.num == f.sseq && r.tk == a.tk
      s.updCtx c fun x => { x with saccess := x.saccess.map fun a => if its a then { a with bad := true } else a }
    | 2 =>
      { s with reqs := s.reqs.map fun (r : Request) =>
          match r.op, r.stage with
          | .load _, .answered 0 _ _ _ =>
            if r.core == c && r.lstream && r.addr == f.addr then { r with stage := .answered 0x24 r.addr [] [] } else r
          | _, _ => r }.updCtx c fun x =>
        { x with laccess := x.laccess.map fun a => s.poisonRead c a f.addr (64 * f.nb) }
    | 3 =>
      match (s.ctx c).transfer f.xfer with
      | none => s
      | some t => s.updStarted c t.tk fun t => { t with bad := t.bad ++ sectors }
    | 4 => s.poisonStream e f
    | _ => s

/-- What a delivered flit brings: poison, or the blocks of a penumbra transfer (R325, R338). -/
def State.bring (s : State) (e : PortEnd) (d : List Byte × Bool) : State :=
  let f := flitFields d.1
  if d.2 then s.poisonFlit e f
  else if f.pen ∧ f.type = 3 then
    match s.flitCore e.tile f with
    | none => s
    | some c =>
      match (s.ctx c).transfer f.xfer with
      | none => s
      | some t => (List.range f.nb).foldl (fun s i => s.arriveBlock c t.tk (f.block + i)) s
  else s

/-- A flit at a receive end, whose units came on these wavelengths and which was sent with LSEQ `n` (R338, R339). -/
def State.receive (s : State) (e : PortEnd) (f : Flit) (n : BitVec 16) (lanes : List Nat) : State :=
  let total := (lanes.dedup.map fun k => f.corr.getD k 0).sum
  let s := { s with life := { s.life with
    corr := mset s.life.corr (panelPort e) (satAdd (2 ^ 64 - 1) (mget 0 s.life.corr (panelPort e)) total) } }
  let p := s.portEnd e
  let p' := ((p.endWindows).count f lanes).crossAll
  let p' := if f.uncorrectable || !f.checkOk then p'.refuse n else p'.take f
  (p'.delivered.drop p.delivered.length).foldl (fun s d => s.bring e d) (s.updPort e fun _ => p')

/-- Whether a flit at a receive end can be what its peer sent: with errors that FEC or CHECK finds, any bytes. -/
def Sent.arrivesAs (x : Sent) (f : Flit) : Bool :=
  match x with
  | .data _ bs bad _ => f.skip.isNone && f.poisoned == bad && (f.bytes == bs || f.uncorrectable || !f.checkOk)
  | .skip n _ => f.skip == some n
  | .idle _ | .handBack _ | .lastFlit _ _ _ => false

/-- A wavelength of an end leaves the map for retraining; the round starts afresh where it was in the map of the circuit. -/
def PortSt.leave (p : PortSt) (k now : Nat) (fresh : Bool) : PortSt :=
  ({ p with deal := if fresh then 0 else p.deal } : PortSt).updLane k fun w =>
    if w.up then
      { w with state := .retrain, excluded := false, crossed := false, attempts := 0, since := now, outSince := some now }
    else if w.state = .exchange then { w with state := .retrain, excluded := false, since := now }
    else w

/-- λk is no longer out of the map for retraining: the time is counted (R365). -/
def Wavelength.counted (w : Wavelength) (now : Nat) : Wavelength :=
  { w with rtns := satAdd (2 ^ 48 - 1) w.rtns (match w.outSince with | some t => now - t | none => 0), outSince := none }

/-- λk of an end is usable again, after its time out of the map (R358). -/
def Wavelength.back (w : Wavelength) (now : Nat) : Wavelength :=
  { w.counted now with state := .active, excluded := false, viaMesh := false }

/-- λk of an end is back in the map at the flit boundary at which it waited for it, and the round starts afresh (R337, R358). -/
def PortSt.rejoin (p : PortSt) (k now : Nat) : PortSt :=
  ({ p with deal := 0 } : PortSt).updLane k fun w => if w.state = .exchange then w.back now else w

/-- The receive end takes what its peer sent besides flits, up to the next flit: idle units, hand-backs, and the flit
boundary at which a wavelength leaves the map or is back in it (R337, R358). -/
def State.takeControl (s : State) (e r : PortEnd) : Nat → State
  | 0 => s
  | fuel + 1 =>
    let drop := fun (s : State) => s.updPort r fun p => { p with outbox := p.outbox.tail }
    match (s.portEnd r).outbox with
    | .idle lanes :: _ => (drop (s.updPort e fun p => { p.countUnits lanes with deal := 0 })).takeControl e r fuel
    | .handBack _ :: _ => (drop s).takeControl e r fuel
    | .lastFlit k _ false :: _ => (drop (s.updPort e fun p => p.leave k s.now true)).takeControl e r fuel
    | .lastFlit k _ true :: _ => (drop (s.updPort e fun p => p.rejoin k s.now)).takeControl e r fuel
    | _ => s

/-- Takes all the control that stands before the next flit. -/
def State.atBoundary (s : State) (e r : PortEnd) : State := s.takeControl e r (s.portEnd r).outbox.length

/-- The next flit that a transmit end has sent reaches its receive end, whose units came on these wavelengths. It is put
together where they are the ones that the receive end expects; otherwise units of it were on a wavelength that has left the
map since, and FEC cannot correct it (R337, R360). -/
def State.takeFlit (s : State) (e r : PortEnd) (x : Sent) (f : Flit) (n : BitVec 16) (lanes : List Nat) : State :=
  let whole := lanes == s.expected e
  if x.arrivesAs f && (whole || f.uncorrectable) then
    let s := s.updPort r fun p => { p with outbox := p.outbox.tail }
    ((if whole then s.tookUnits e else s).receive e f n lanes).atBoundary e r
  else s

/-- A receive end takes a flit: it counts what FEC found, refuses a flit that it cannot use, and delivers in order
(R338, R339). The flit is the next that its peer has sent; at an edge port it comes from another panel, and is of the
reliable class (R368). An end whose usable map is empty receives nothing (R362). -/
def execFlitReceive (e : PortEnd) (f : Flit) (s : State) : Result :=
  .next (
    if e.tx || (s.portEnd e).map.isEmpty then s
    else if firstEdge ≤ e.port then
      if f.pen && !f.uncorrectable then s
      else (s.tookUnits e).receive e f f.lseq (s.expected e)
    else
      match s.peerEnd e with
      | none => s
      | some r =>
        let s := s.atBoundary e r
        if (s.dealMap e).isEmpty then s
        else
          match (s.portEnd r).outbox with
          | .data n bs bad lanes :: _ => s.takeFlit e r (.data n bs bad lanes) f n lanes
          | .skip n lanes :: _ => s.takeFlit e r (.skip n lanes) f n lanes
          | _ => s)

/-! ## Sending again (R338, R339) -/

/-- The most sends of a reliable flit before the poisoned one. -/
def maxFlitSends : Nat := 8

/-- Answers a NACK, over a map. -/
def PortSt.nacked (p : PortSt) (map : List Nat) (n : BitVec 16) : PortSt :=
  if p.penSent.any fun x => x.lseq == n then p.sendUnits map (.skip n)
  else
    match p.replay.find? fun x => x.lseq == n with
    | none => p
    | some x =>
      if x.sends ≤ maxFlitSends then
        ({ p with replay := p.replay.map fun y => if y.lseq == n then { y with sends := y.sends + 1 } else y } : PortSt).sendUnits
          map (.data n x.bytes (x.sends == maxFlitSends))
      else p

/-- The blocks of a penumbra flit that a skip stands for count as not delivered (R339). -/
def State.loseBlocks (s : State) (e : PortEnd) (n : BitVec 16) : State :=
  match (s.portEnd e).penSent.find? fun x => x.lseq == n with
  | none => s
  | some x =>
    let f := flitFields x.bytes
    match s.flitCore e.tile f with
    | none => s
    | some c =>
      match (s.ctx c).transfer f.xfer with
      | none => s
      | some t => s.updStarted c t.tk fun t =>
          { t with blocks := t.blocks.map fun b =>
              if f.block ≤ b.ix ∧ b.ix < f.block + f.nb then { b with bad := true } else b }

/-- Whether a NACK passes from a receive end to its transmit end: against the direction of the same port on a standing link,
over the standing lattice for a scheduled circuit (R338). -/
def State.nackPasses (s : State) (r e : PortEnd) : Bool :=
  if r.port < scheduledPort then !(s.mapBetween { r with tx := true } { e with tx := false }).isEmpty
  else
    match (s.tile r.tile).part with
    | none => false
    | some n => s.pathUp n r.tile e.tile

/-- A transmit end takes a NACK that its peer has sent: a reliable flit is sent again, after the eighth send once more
marked poisoned; a penumbra flit is never sent again, and a skip answers for it. -/
def execNackReceive (e : PortEnd) (lseq : BitVec 16) (s : State) : Result :=
  .next (
    let answer := fun (s : State) => (s.loseBlocks e lseq).updPort e fun p => p.nacked (s.dealMap e) lseq
    if !e.tx || (s.dealMap e).isEmpty then s
    else if firstEdge ≤ e.port then answer s
    else
      match s.peerEnd e with
      | none => s
      | some r =>
        if (s.portEnd r).nackOut.contains lseq && s.nackPasses r e then
          answer (s.updPort r fun p => { p with nackOut := p.nackOut.erase lseq })
        else s)

/-- The reliable flits that a replay buffer holds. -/
def replayDepth : Nat := 512

/-- Whether the blocks that a flit of a penumbra transfer carries are still to be delivered, and leave by its circuit: each is
sent once (R324, R339). -/
def State.carriesBlocks (s : State) (e : PortEnd) (f : FlitOut) : Bool :=
  let g := flitFields (f.bytes 0)
  !(g.pen && g.type == 3) ||
    match s.flitCore e.tile g with
    | none => true
    | some c =>
      match (s.ctx c).transfer g.xfer with
      | none => true
      | some t => t.cmd.cls && ((s.ownCircuit c t.cmd.h t.circ).map Circuit.sendEnd) == some e &&
          (List.range g.nb).all fun i => (t.blocks.any fun b => b.ix == g.block + i) && !s.inFlit c t (g.block + i)

/-- Whether an end can send: a transmit end that is joined to another, with a wavelength (R334, R362). -/
def State.canTransmit (s : State) (e : PortEnd) : Bool :=
  e.tx && !(s.dealMap e).isEmpty && (decide (firstEdge ≤ e.port) || (s.peerEnd e).isSome)

/-- A flit is handed to a transmit end: it takes the next LSEQ; a reliable one is kept until it is acknowledged, and waits
while the replay buffer is full (R338). It waits while no wavelength is usable; an edge port carries no penumbra flit
(R362, R368). -/
def State.transmit (s : State) (e : PortEnd) (f : FlitOut) : State :=
  let p := s.portEnd e
  if !s.canTransmit e || (!f.pen && decide (replayDepth ≤ p.replay.length)) || (f.pen && decide (firstEdge ≤ e.port)) ||
      !s.carriesBlocks e f then s
  else
    s.updPort e fun p =>
      let bs := f.bytes p.txSeq
      let x : TxFlit := { lseq := p.txSeq, bytes := bs }
      ({ p with
        txSeq := p.txSeq + 1
        replay := if f.pen then p.replay else p.replay ++ [x]
        penSent := if f.pen then p.penSent ++ [x] else p.penSent } : PortSt).sendUnits (s.dealMap e) (.data p.txSeq bs false)

/-- Every flit up to `n` has arrived: the transmit end lets them go (R338). -/
def State.acknowledge (s : State) (e : PortEnd) (n : BitVec 16) : State :=
  let come : Bool := match s.peerEnd e with
    | some r => decide (2 ^ 15 ≤ (n - (s.portEnd r).rxSeq).toNat)
    | none => true
  let later := fun (x : TxFlit) => decide (2 ^ 15 ≤ (n - x.lseq).toNat)
  if e.tx && come then s.updPort e fun p => { p with replay := p.replay.filter later, penSent := p.penSent.filter later } else s

/-! ## Leaving the map and coming back (R358 to R362) -/

/-- λk leaves the maps of an end and of the end it is joined to. -/
def State.leaveBoth (s : State) (e : PortEnd) (k : Nat) : State :=
  let fresh := (s.dealMap e).contains k
  let s' := s.updPort e fun p => p.leave k s.now fresh
  match s.peerEnd e with
  | some r => s'.updPort r fun p => p.leave k s.now fresh
  | none => s'

/-- Changes an end and the end it is joined to. -/
def State.updBoth (s : State) (e : PortEnd) (f : PortSt → PortSt) : State :=
  match s.peerEnd e with
  | some r => (s.updPort e f).updPort r f
  | none => s.updPort e f

/-- The step of the program that a fault concerns: that of the running program, for a scheduled port, which it owns
(R355, R364). Log 31, DEDUCED. -/
def Partition.faultStep (p : Partition) (port : Nat) : Nat :=
  if scheduledPort ≤ port ∧ port < firstEdge ∧ p.drover.owner.isSome then p.drover.step.getD 0xFFFFFFFF else 0xFFFFFFFF

/-- The routed fault record of a port end for a cause (R364). -/
def State.portFault (s : State) (e : PortEnd) (cause : Cause) (map : Nat) : State :=
  match (s.tile e.tile).part with
  | none => s
  | some n =>
    let p := s.part n
    s.routeFault n cause
      (faultBytes cause 0 (p.logTile e.tile) e.port map 0 0 (s.now - p.createdAt) (p.faultStep e.port) 0)

/-- Routes 0x4A where a standing link has just lost its last wavelength (R362). -/
def State.emptied (s before : State) (e : PortEnd) (k : Nat) : State :=
  match s.peerEnd e with
  | none => s
  | some r =>
    let m := fun (s : State) => if e.tx then s.mapBetween e r else s.mapBetween r e
    if e.port < scheduledPort ∧ (m before).isEmpty = false ∧ (m s).isEmpty then s.portFault e 0x4A (2 ^ k) else s

/-- A counting window of 2^24 symbols ends (R357). -/
def execFecWindowEnd (e : PortEnd) (k : BitVec 3) (s : State) : Result :=
  .next (
    if e.tx || decide (((s.portEnd e).lane k.toNat).symbols < windowSymbols) then s
    else s.updPort e fun p => p.endWindow k.toNat)

/-- The transmit end of a joined pair changes its map at a flit boundary, and names the LSEQ of the last flit under the old
one; the receive end follows once it has taken that flit (R337, R358). A wavelength that was in one end's map only leaves it
without a change of the circuit's map. -/
def State.changeMap (s : State) (tx rx : PortEnd) (k : Nat) (back : Bool) : State :=
  let map := s.sendMap tx rx
  if back || map.contains k then
    (s.updPort tx fun p =>
      let p := p.endRound map
      let p : PortSt := { p with outbox := p.outbox ++ [.lastFlit k (p.txSeq - 1) back] }
      if back then p.rejoin k s.now else p.leave k s.now true).atBoundary rx tx
  else (s.updPort tx fun p => p.leave k s.now false).updPort rx fun p => p.leave k s.now false

/-- A wavelength that is back from the mesh's calibration path returns to the map at a flit boundary, if both ends of the
circuit that its end now carries have it (R337, R358). -/
def State.backFromMesh (s : State) (e : PortEnd) (k : Nat) : State :=
  let wait := s.updPort e fun p => p.updLane k fun w => if w.state = .retrain then { w with state := .exchange, viaMesh := false } else w
  match s.peerEnd e with
  | none => wait.updPort e fun p => p.updLane k fun w => if w.state = .exchange then w.back s.now else w
  | some r =>
    if ((s.portEnd r).lane k).up then if e.tx then wait.changeMap e r k true else wait.changeMap r e k true
    else wait.updPort e fun p => p.updLane k fun w => if w.state = .exchange then w.back s.now else w

/-- A wavelength that has crossed its threshold is handed back: the receive end names it, both ends switch maps at the flit
boundary that the transmit end names, and it retrains in the background (R358). -/
def execHandBack (e : PortEnd) (k : BitVec 3) (s : State) : Result :=
  .next (
    let w := (s.portEnd e).lane k.toNat
    if e.tx || !w.crossed || !w.up then s
    else
      let s' := s.updPort e fun p =>
        { p with outbox := p.outbox ++ [Sent.handBack k] }.updLane k.toNat fun w =>
          { w with hb := satAdd 65535 w.hb 1, crossed := false }
      match s.peerEnd e with
      | none => (s'.updPort e fun p => p.leave k.toNat s.now true)
      | some r => (s'.changeMap r e k.toNat false).emptied s e k.toNat)

/-! ## Training (R359) -/

/-- The wavelengths that a training event concerns: all eight at partition creation, one when it retrains. -/
def PortSt.group (p : PortSt) (k : Nat) : List Nat := if p.trained then [k] else List.range 8

/-- Changes each wavelength of a training event that is in state `st`. -/
def PortSt.inGroup (p : PortSt) (k : Nat) (st : WlState) (f : Wavelength → Wavelength) : PortSt :=
  (p.group k).foldl (fun p j => p.updLane j fun w => if w.state = st then f w else w) p

/-- Whether the laser line of a transmit end's wavelength is out (R361): line (y, k) feeds row y. -/
def State.lineOut (s : State) (e : PortEnd) (k : BitVec 3) : Bool :=
  s.lines.contains (BitVec.ofNat 3 (e.tile / 8), k)

/-- Whether no light reaches a wavelength of an end: the line of its transmit end is out. -/
def State.dark (s : State) (e : PortEnd) (k : BitVec 3) : Bool :=
  (if e.tx then s.lineOut e k else false) ||
    match s.peerEnd e with
    | some r => if r.tx then s.lineOut r k else false
    | none => false

/-- Training patterns lock at both ends: they go to exchange views (R359), each wavelength that has light. A wavelength whose
circuit was torn down while it retrained comes back through the mesh's calibration path (R358). -/
def execRetrainLock (e : PortEnd) (k : BitVec 3) (s : State) : Result :=
  .next (
    if ((s.portEnd e).lane k.toNat).viaMesh then
      if s.dark e k ∨ ((s.portEnd e).lane k.toNat).state ≠ .retrain then s else s.backFromMesh e k.toNat
    else
      ((s.portEnd e).group k.toNat).foldl (fun s' j =>
        if s.dark e (BitVec.ofNat 3 j) then s'
        else s'.updBoth e fun p => p.updLane j fun w =>
          if w.state = .retrain ∧ w.viaMesh = false then { w with state := .exchange } else w) s)

/-- The time within which training patterns lock (R359). -/
def lockTime : Nat := 64000

/-- No lock within 64 µs: this end's view excludes the wavelength (R359). Log 28, DEDUCED. -/
def execRetrainTimeout (e : PortEnd) (k : BitVec 3) (s : State) : Result :=
  .next (
    s.updPort e fun p =>
      p.updLane k.toNat fun w =>
        if w.state = .retrain ∧ w.since + lockTime ≤ s.now then { w with state := .exchange, excluded := true } else w)

/-- The view of an end: the wavelengths in use or in exchange that it does not exclude, and its speed. -/
def PortSt.view (p : PortSt) : LaneView :=
  { lanes := BitVec.ofNat 8 (laneBits ((List.range 8).filter fun k =>
      let w := p.lane k
      w.up || (w.state == .exchange && !w.excluded)))
    half := p.half }

/-- A wavelength fails: it is no longer out for retraining. -/
def Wavelength.fails (w : Wavelength) (now : Nat) : Wavelength := { w.counted now with state := .failed }

/-- Both views agree: the wavelengths that both exclude fail; the others wait for the flit boundary at which they become
active. Log 28, DEDUCED. -/
def PortSt.agree (p : PortSt) (k now : Nat) : PortSt :=
  { p.inGroup k .exchange fun w => if w.excluded then w.fails now else w with trained := true }

/-- The views differ. Before the third attempt, Retrain with the intersection of the lane maps and the lower speed; a
wavelength that retrains keeps the port's speed. At the third attempt the wavelengths on which the views differ fail: all of
them where the speeds differ (R359). Log 28, DEDUCED. -/
def PortSt.differ (p : PortSt) (k now : Nat) (peer : LaneView) : PortSt :=
  let last := 3 ≤ (p.lane k).attempts + 1
  let p' := (p.group k).foldl (fun p j => p.updLane j fun w =>
    if w.state = .exchange then
      let out := w.excluded || !bit peer.lanes j
      let w := { w with attempts := w.attempts + 1, agf := satAdd 65535 w.agf 1, since := now }
      if !last then { w with state := .retrain, excluded := out && !p.trained }
      else if p.trained || out || p.half != peer.half then w.fails now
      else w.back now
    else w) p
  { p' with half := if p.trained then p.half else p.half || peer.half, trained := p.trained || last }

/-- The wavelengths of an end that have failed since another state. -/
def State.newlyFailed (s before : State) (e : PortEnd) : List Nat :=
  (List.range 8).filter fun j => ((s.portEnd e).lane j).state == .failed && ((before.portEnd e).lane j).state != .failed

/-- Routes 0x44 where wavelengths of an end have failed, each in the map of the record (R359, R364). -/
def State.failures (s before : State) (e : PortEnd) : State :=
  match s.newlyFailed before e with
  | [] => s
  | ks => s.portFault e 0x44 (laneBits ks)

/-- Wavelengths in exchange at a joined pair become active at a flit boundary (R358, R359). -/
def State.activate (s : State) (e : PortEnd) (r : Option PortEnd) (k : Nat) : State :=
  match r with
  | none => s.updPort e fun p => p.updLane k fun w => if w.state = .exchange then w.back s.now else w
  | some r => if e.tx then s.changeMap e r k true else s.changeMap r e k true

/-- Views are exchanged at both ends, once each wavelength that trains is in exchange there: with equal views a wavelength
is active again at a flit boundary; otherwise it retrains, or after the third attempt fails, and 0x44 is routed (R359). The
view that arrives is the peer's, but for the speed at which it locked. -/
def execViewExchange (e : PortEnd) (k : BitVec 3) (peer : LaneView) (s : State) : Result :=
  .next (
    let p := s.portEnd e
    let group := p.group k.toNat
    let r := s.peerEnd e
    let ready := fun (q : PortSt) => group.all fun j => (q.lane j).state != .retrain
    let at_ : Bool := match r with
      | some r => ready (s.portEnd r) && (s.portEnd r).view.lanes == peer.lanes &&
          ((s.portEnd r).lane k.toNat).state == .exchange
      | none => true
    if (p.lane k.toNat).state ≠ .exchange ∨ !ready p ∨ !at_ then s
    else if p.view = peer then
      let s' := s.updBoth e fun p => p.agree k.toNat s.now
      let s' := (group.filter fun j => ((s'.portEnd e).lane j).state == .exchange).foldl (fun s j => s.activate e r j) s'
      s'.failures s e
    else
      let s' := s.updPort e fun p => p.differ k.toNat s.now peer
      let s' := match r with
        | some r => s'.updPort r fun q => q.differ k.toNat s.now p.view
        | none => s'
      s'.failures s e)

/-! ## Rings and laser lines (R360, R361) -/

/-- A ring resonator loses its tuning: the wavelength leaves both ends' maps at once, and 0x42 is routed (R360). -/
def execRingTuningLost (e : PortEnd) (k : BitVec 3) (s : State) : Result :=
  .next (((s.leaveBoth e k.toNat).portFault e 0x42 (2 ^ k.toNat)).emptied s e k.toNat)

/-- The transmit ends of the eight tiles of a physical row, edge ports included. -/
def rowEnds (row : BitVec 3) : List PortEnd :=
  (List.range 8).flatMap fun x => (List.range 14).map fun p => { tile := 8 * row.toNat + x, port := p, tx := true }

/-- The partitions that have a tile in a physical row. -/
def State.rowParts (s : State) (row : BitVec 3) : List Nat :=
  ((List.range 8).filterMap fun x => (s.tile (8 * row.toNat + x)).part).dedup

/-- The loss of its line takes a wavelength out, unless it had failed before (R361). -/
def Wavelength.loseLine (w : Wavelength) : Wavelength := if w.state = .failed then w else { w with lineLost := true }

/-- A laser line is lost: λk leaves every end of the row that it feeds, and 0x43 is routed once to each partition with a
tile in the row (R361). -/
def execLaserLineLost (row k : BitVec 3) (s : State) : Result :=
  .next (
    if s.lines.contains (row, k) then s
    else
      let s := { s with lines := s.lines ++ [(row, k)] }
      let s := (rowEnds row).foldl (fun s e =>
        ((s.leaveBoth e k.toNat).emptied s e k.toNat).updBoth e fun p => p.updLane k.toNat Wavelength.loseLine) s
      (s.rowParts row).foldl (fun s n =>
        s.routeFault n 0x43
          (faultBytes 0x43 0 0xFF 0xFF (2 ^ k.toNat) row.toNat 0 (s.now - (s.part n).createdAt) 0xFFFFFFFF 0)) s)

/-- Training of λk starts afresh. -/
def PortSt.restart (p : PortSt) (k now : Nat) (from_ : List WlState) : PortSt :=
  p.updLane k fun w =>
    if from_.contains w.state then
      { w with state := .retrain, excluded := false, attempts := 0, since := now, outSince := some (w.outSince.getD now) }
    else w

/-- A wavelength that the loss of its line took out retrains with the line back (R361). -/
def PortSt.relight (p : PortSt) (k now : Nat) : PortSt :=
  if (p.lane k).lineLost then
    (p.restart k now [.retrain, .exchange, .failed]).updLane k fun w => { w with lineLost := false }
  else p

/-- The bank restores a line: each of the wavelengths that its loss took out retrains (R361). -/
def execLaserLineRestored (row k : BitVec 3) (s : State) : Result :=
  .next (
    let s := { s with lines := s.lines.filter fun l => l != (row, k) }
    (rowEnds row).foldl (fun s e => s.updBoth e fun p => p.relight k.toNat s.now) s)

/-! ## Port registers (R365) -/

/-- Every Failed wavelength of one end of a port retrains, with the attempt count at 0 (R359). One that has no light retrains
again when its line is back (R361). -/
def State.retrainEnd (s : State) (e : PortEnd) : State :=
  s.updPort e fun p => (List.range 8).foldl (fun p k =>
    let out := (p.lane k).state == .failed && s.dark e (BitVec.ofNat 3 k)
    (p.restart k s.now [.failed]).updLane k fun w => { w with lineLost := w.lineLost || out }) p

/-- Both ends of a port. -/
def State.retrainPort (s : State) (e : PortEnd) : State :=
  (s.retrainEnd { e with tx := false }).retrainEnd { e with tx := true }

/-- PORT_CFG.RTRY (R359). -/
def execPortRetrain (e : PortEnd) (s : State) : Result := .next (s.retrainPort e)

/-- The counters of a port cleared; a wavelength that is out of the map counts from now (R365). -/
def PortSt.clear (p : PortSt) (now : Nat) : PortSt :=
  (List.range 8).foldl (fun p k =>
    p.updLane k fun w =>
      { w with corr := 0, hb := 0, agf := 0, unc := 0, rtns := 0, outSince := w.outSince.map fun _ => now })
    { p with resent := 0, poisoned := 0 }

/-- PORT_CFG.CLR: every counter of the port, which belongs to its receive end. -/
def execPortCounterClear (e : PortEnd) (s : State) : Result :=
  .next (s.updPort { e with tx := false } fun p => p.clear s.now)

end Sys2Proof.Machine
end

