-- ==== Sys2Proof/Machine/Drover.lean ====
section
/-! DEFINITION. The drover: circuit words as they are decoded, the plan of a block, the beginning of a step, circuits,
settles and halts (R335, R341 to R355). -/

namespace Sys2Proof.Machine

/-! ## The word at work -/

/-- The partition whose drover decodes the word at work. -/
def State.droverAtWork (s : State) : Option Nat :=
  match s.focus with
  | .drover n => some n
  | _ => none

/-- The word at work halts the program. -/
def State.wordHalt (s : State) (part sub : Nat) : State :=
  let d := (s.part part).drover
  s.droverHalt part sub d.curNo d.pc 0

/-! ## Loops and jumps (R349) -/

/-- The levels and the next word after word `i`: a body's last word goes back to its first while iterations are left. -/
def afterWord : List (Nat × Nat × Nat) → Nat → List (Nat × Nat × Nat) × Nat
  | [], i => ([], i + 1)
  | (a, b, n) :: t, i => if i = b then if 1 < n then ((a, b, n - 1) :: t, a) else afterWord t i else ((a, b, n) :: t, i + 1)

/-- Goes on to the next word. -/
def Drover.advance (d : Drover) : Drover :=
  let r := afterWord d.loops d.pc
  { d with loops := r.1, pc := r.2 }

/-! ## Words (R342, R344, R351) -/

/-- The most words of a block. -/
def blockWords : Nat := 64

/-- A word of the block at work: counted, and 0x04 where the block is too long, or where a word that an ENDC block may
not hold meets its ENDC; then its effect, and the next word. -/
def State.blockWord (s : State) (plain : Bool) (f : Nat → Drover → State → State) : Result :=
  .next (
    match s.droverAtWork with
    | none => s
    | some n =>
      let d := (s.part n).drover
      if blockWords ≤ d.cur.words ∨ (d.cur.endc ∧ plain = false) then s.wordHalt n 4
      else
        f n d (s.updDrover n fun d =>
          { d with cur := { d.cur with words := d.cur.words + 1, other := d.cur.other || !plain } }))

/-- Records something in the block at work, and goes on. -/
def State.inBlock (s : State) (n : Nat) (f : Block → Block) : State :=
  s.updDrover n fun d => { d with cur := f d.cur }.advance

/-- A replica of a CONNECT: `i` is added to the TILE field of a core, modulo the number of tiles (R345). -/
def replica (tiles : Nat) (id : BitVec 12) (i : Nat) : BitVec 12 :=
  BitVec.ofNat 12 ((fld id 6 6 + i) % tiles * 64 + fld id 0 6)

/-- The circuits of a CONNECT word; `none` where a core names no core or two replicas coincide. Log 29, DEDUCED. -/
def State.replicas (s : State) (part : Nat) (h src dst sp dp rep block word : Nat) : Option (List PlanCircuit) :=
  let tiles := (s.part part).tiles
  let a := BitVec.ofNat 12 src
  let b := BitVec.ofNat 12 dst
  let one := fun i =>
    let x := replica tiles a i
    let y := replica tiles b i
    ({ h := h, sendTile := fld x 6 6, recvTile := fld y 6 6, send := x, recv := y, sp := sp, dp := dp, block := block,
       word := word } : PlanCircuit)
  let cs := (List.range (rep + 1)).map one
  if tiles ≤ fld a 6 6 ∨ tiles ≤ fld b 6 6 ∨ tiles ≤ rep ∨
      (cs.any fun k => !s.namesCore part k.send || !s.namesCore part k.recv) then none
  else some cs

/-- CONNECT (R345); the port ends and handles it needs are checked when its block is whole. Log 29, DEDUCED. -/
def execConnect (h : BitVec 6) (src dst : BitVec 12) (sp dp : BitVec 3) (rep : BitVec 6) (s : State) : Result :=
  s.blockWord false fun n d s =>
    match s.replicas n h.toNat src.toNat dst.toNat sp.toNat dp.toNat rep.toNat d.curNo d.pc with
    | none => s.wordHalt n 7
    | some cs => s.inBlock n fun b => { b with connects := b.connects ++ cs }

/-- The circuits of the earlier blocks that a TEAR or HOLD names: sending tile and handle. -/
def Drover.named (d : Drover) (h tile : Nat) (all : Bool) : List (Nat × Nat) :=
  (d.plan.filter fun k => k.h == h && (all || k.sendTile == tile)).map fun k => (k.sendTile, k.h)

/-- TEAR (R346). -/
def execTear (h tile : BitVec 6) (all : Bool) (s : State) : Result :=
  s.blockWord true fun n d s =>
    match d.named h.toNat tile.toNat all with
    | [] => s.wordHalt n 3
    | ks => s.inBlock n fun b => { b with tears := b.tears ++ ks }

/-- HOLD (R346). -/
def execHold (h tile : BitVec 6) (all : Bool) (k : BitVec 10) (s : State) : Result :=
  s.blockWord true fun n d s =>
    match d.named h.toNat tile.toNat all with
    | [] => s.wordHalt n 3
    | ks => s.inBlock n fun b => { b with holds := b.holds ++ ks.map fun e => (e.1, e.2, k.toNat) }

/-- SETTLE (R348). -/
def execSettle (addr : BitVec 56) (s : State) : Result :=
  s.blockWord false fun n d s => s.inBlock n fun b => { b with settles := b.settles ++ [(addr, d.pc)] }

/-- MARK: the last one of a block decides (R351). -/
def execMark (value : W32) (s : State) : Result :=
  s.blockWord true fun n _ s => s.inBlock n fun b => { b with mark := some value }

/-- The deepest nesting of circuit-program loops. -/
def loopDepth : Nat := 4

/-- LOOPC (R349). -/
def execLoopc (count : BitVec 20) (body : BitVec 16) (s : State) : Result :=
  s.blockWord false fun n d s =>
    let last := d.pc + body.toNat
    let inside : Bool := match d.loops with
      | [] => true
      | t :: _ => decide (last ≤ t.2.1)
    if body = 0 then s.wordHalt n 1
    else if count = 0 ∨ loopDepth ≤ d.loops.length ∨ inside = false then s.wordHalt n 5
    else s.updDrover n fun d => { d with loops := (d.pc + 1, last, count.toNat) :: d.loops, pc := d.pc + 1 }

/-- Where a jump may go: inside the innermost active body, to the word after it, which pops the loop, or anywhere in the
image outside any body. -/
def Drover.jump (d : Drover) (t : Int) : Option Drover :=
  if t < 0 ∨ (d.prog.length : Int) ≤ t then none
  else
    match d.loops with
    | [] => some { d with pc := t.toNat }
    | (a, b, _) :: rest =>
      if (a : Int) ≤ t ∧ t ≤ b then some { d with pc := t.toNat }
      else if t = b + 1 then some { d with pc := t.toNat, loops := rest }
      else none

/-- JUMPC (R349). -/
def execJumpc (cnd : BitVec 2) (off : BitVec 16) (s : State) : Result :=
  s.blockWord false fun n d s =>
    let taken := match cnd.toNat with
      | 0 => true
      | 1 => d.cond
      | 2 => !d.cond
      | _ => false
    if cnd = 3 then s.wordHalt n 1
    else if !taken then s.inBlock n id
    else
      match (s.part n).drover.jump (d.pc + off.toInt) with
      | none => s.wordHalt n 5
      | some d => s.updDrover n fun _ => d

/-- The usable map that a QUERY asks about; none where its circuit does not exist after the earlier blocks (R350). -/
def State.queryMap (s : State) (part : Nat) (h tile kind : Nat) : Option (List Nat) :=
  let p := s.part part
  let port := scheduledPort + h % 8
  match kind with
  | 0 =>
    (p.drover.plan.find? fun k => k.h == h && k.sendTile == tile).map fun k =>
      s.mapBetween { tile := p.physTile k.sendTile, port := scheduledPort + k.sp, tx := true }
        { tile := p.physTile k.recvTile, port := scheduledPort + k.dp, tx := false }
  | 1 => some (s.portEnd { tile := p.physTile tile, port := port, tx := true }).map
  | _ => some (s.portEnd { tile := p.physTile tile, port := port, tx := false }).map

/-- QUERY (R350). -/
def execQuery (h tile : BitVec 6) (kind : BitVec 2) (minw : BitVec 4) (s : State) : Result :=
  s.blockWord false fun n _ s =>
    if (s.part n).tiles ≤ tile.toNat then s.wordHalt n 7
    else
      let c := match s.queryMap n h.toNat tile.toNat kind.toNat with
        | some m => decide (minw.toNat ≤ m.length)
        | none => false
      (s.updDrover n fun d => { d with cond := c }).inBlock n id

/-- ENDC: 0x04 where the block holds another kind of word (R351). -/
def execEndc (s : State) : Result :=
  s.blockWord true fun n d s => if d.cur.other then s.wordHalt n 4 else s.inBlock n fun b => { b with endc := true }

/-! ## A whole block (R343, R345, R346) -/

/-- Whether a new circuit needs a port end or handle of another (R345). -/
def PlanCircuit.clash (a b : PlanCircuit) : Bool :=
  (a.sendTile == b.sendTile && (a.sp == b.sp || a.h == b.h)) || (a.recvTile == b.recvTile && (a.dp == b.dp || a.h == b.h))

/-- Adds the circuits of a block's CONNECT words to a plan; the word of the first that cannot have what it needs.
Log 29, DEDUCED. -/
def addCircuits : List PlanCircuit → List PlanCircuit → Except Nat (List PlanCircuit)
  | plan, [] => .ok plan
  | plan, k :: t => if plan.any k.clash then .error k.word else addCircuits (plan ++ [k]) t

/-- A circuit's scheduled tear after the HOLD words of block `no`: N steps on, and N = 0 cancels it. -/
def PlanCircuit.held (k : PlanCircuit) (no : Nat) (holds : List (Nat × Nat × Nat)) : PlanCircuit :=
  holds.foldl (fun k e =>
    if k.sendTile = e.1 ∧ k.h = e.2.1 then { k with tearAt := if e.2.2 = 0 then none else some (no + e.2.2) } else k) k

/-- The block at work is whole: its HOLD words, its tears, TEAR words and HOLDs that end at its step, then its new circuits, 0x02 where
one needs what a circuit still holds. The next block begins with the completion of `bar`; after ENDC decoding is over. -/
def State.endBlock (s : State) (n : Nat) (bar : Option Nat) : State :=
  let d := (s.part n).drover
  let plan := d.plan.map fun k => k.held d.curNo d.cur.holds
  let due := (plan.filter fun k => k.tearAt == some d.curNo).map fun k => (k.sendTile, k.h)
  let tears := (due ++ d.cur.tears).dedup
  let kept := plan.filter fun k => !tears.contains (k.sendTile, k.h)
  match addCircuits kept d.cur.connects with
  | .error w => s.droverHalt n 2 d.curNo w 0
  | .ok plan =>
    s.updDrover n fun d =>
      { d with
        ready := d.ready ++ [{ d.cur with tears := tears }]
        plan := if d.cur.endc then [] else plan
        decoding := !d.cur.endc
        cur := { bar := bar }
        curNo := d.curNo + 1 }

/-- STEP: the block at work is whole, and the next one begins; 0x06 where its barrier is not an allocated panel barrier,
once the block before it is ready (R342, R347, R353). After ENDC the program has ended with the block. -/
def execStep (bar : BitVec 8) (s : State) : Result :=
  .next (
    match s.droverAtWork with
    | none => s
    | some n =>
      let d := (s.part n).drover
      if d.cur.endc then s.endBlock n none
      else
        let s := s.endBlock n (some bar.toNat)
        if (s.part n).drover.halted then s
        else if bar.toNat / 32 ≠ 3 ∨ (s.flock (d.owner.getD 0)).allocated bar.toNat = false then s.wordHalt n 6
        else s.updDrover n Drover.advance)

/-- The most blocks that the drover decodes ahead of the running step (R342). -/
def blocksAhead : Nat := 4

/-- What the drover of a partition decodes next: nothing, the end of the image, a reserved word, or an instruction. -/
inductive NextWord where
  | idle
  | past
  | bad
  | word (i : Instr)
deriving DecidableEq, Repr, Inhabited

/-- The next word of a partition's circuit program (R341, R342, R344). -/
def State.nextWord (s : State) (n : Nat) : NextWord :=
  let d := (s.part n).drover
  if !d.decoding || d.owner.isNone || decide (blocksAhead ≤ d.ready.length) then .idle
  else
    match d.prog[d.pc]? with
    | none => .past
    | some w =>
      match decodeCircuit w.toNat with
      | .error _ => .bad
      | .ok i => .word i

/-- Decoding past the last word of the image: the end of an ENDC block, otherwise 0x09 (R349). -/
def State.pastImage (s : State) (n : Nat) : State :=
  if (s.part n).drover.cur.endc then s.endBlock n none else s.wordHalt n 9

/-! ## Circuits -/

/-- An end whose circuit is torn down: nothing is on its way any more, and the wavelengths that retrain come back through
the mesh (R358). -/
def PortSt.toMesh (p : PortSt) : PortSt :=
  (List.range 8).foldl (fun p k => p.updLane k fun w =>
      if w.state = .retrain ∨ w.state = .exchange then { w with state := .retrain, excluded := false, viaMesh := true } else w)
    { p with outbox := [], replay := [], penSent := [], deal := 0, heldFlits := [], nacks := [], nackOut := [] }

/-- Takes the map changes that stand among a torn circuit's flits. -/
def State.lastChanges (s : State) (tx rx : PortEnd) : State :=
  (s.portEnd tx).outbox.foldl (fun s x =>
    match x with
    | .lastFlit k _ false => s.updPort rx fun p => p.leave k s.now true
    | .lastFlit k _ true => s.updPort rx fun p => p.rejoin k s.now
    | _ => s) s

/-- The two ends of a circuit that leaves them: what was on its way is gone (R354, R358). -/
def State.freeEnds (s : State) (k : Circuit) : State :=
  ((s.lastChanges k.sendEnd k.recvEnd).updPort k.sendEnd PortSt.toMesh).updPort k.recvEnd PortSt.toMesh

/-- Tears down the circuits that `f` picks: bytes that no RECV has taken are discarded and counted (R354). -/
def State.tearCircuits (s : State) (n : Nat) (f : Circuit → Bool) : State :=
  let gone := (s.part n).drover.circuits.filter f
  let bytes := (gone.map fun k => k.rx.length + k.inFlight.length).sum
  let s := gone.foldl State.freeEnds s
  (s.updPart n fun p =>
    { p with
      rxDiscarded := satAdd (2 ^ 32 - 1) p.rxDiscarded bytes
      drover := { p.drover with circuits := p.drover.circuits.filter fun k => !f k } }).wakeAll

/-- A planned circuit as it is established, its cores resolved through the placement map (R335). -/
def State.circuitOf (s : State) (n step : Nat) (k : PlanCircuit) : Circuit :=
  { h := k.h, sendTile := s.physCore n k.send / 64, recvTile := s.physCore n k.recv / 64, send := k.send, recv := k.recv,
    sp := k.sp, dp := k.dp, step := step, since := s.now }

/-! ## Settles (R348) -/

/-- Whether every circuit that a step established is live or dead. -/
def Drover.settledStep (d : Drover) (step : Nat) : Bool := d.circuits.all fun k => k.step != step || k.settled

/-- The request of a SETTLE leaves, with the drover's own number (R328, R348). -/
def State.sendSettle (s : State) (n step : Nat) (addr : BitVec 56) (word : Nat) : State :=
  let p := s.part n
  let r : Request :=
    { panel := s.glob.domid.toNat, core := droverCore + n, part := n, tk := 0, lstream := false, num := p.drvSeq,
      floor := p.drvOpen.headD p.drvSeq, addr := BitVec.ofNat 64 addr.toNat, op := .drvSettle (p.drover.owner.getD 0) step word, sends := 1,
      sentAt := s.now, stage := .travelling }
  { s with reqs := s.reqs ++ [r] }.updPart n fun p => { p with drvSeq := p.drvSeq + 1, drvOpen := p.drvOpen ++ [p.drvSeq] }

/-- Sends the settles of begun steps whose circuits are all live or dead. Log 30, DEDUCED. -/
def State.doSettles (s : State) (n : Nat) : State :=
  let due := fun (d : Drover) (e : Nat × BitVec 56 × Nat × Bool) => !e.2.2.2 && d.settledStep e.1
  let d := (s.part n).drover
  ((d.settles.filter (due d)).foldl (fun s e => s.sendSettle n e.1 e.2.1 e.2.2.1) s).updDrover n fun d =>
    { d with settles := d.settles.map fun e => if due d e then (e.1, e.2.1, e.2.2.1, true) else e }

/-! ## Steps (R342, R343) -/

/-- The receive end of a new circuit expects the number that its transmit end sends next. Log 27, DEDUCED. -/
def State.lineUp (s : State) (k : Circuit) : State :=
  s.updPort k.recvEnd fun p => { p with rxSeq := (s.portEnd k.sendEnd).txSeq }

/-- Whether a partition's program may begin its next step: its flock runs, or stands placed before step 0; the barrier
has a completion that no STEP has consumed, and 1 ns has passed since the previous step. -/
def State.stepDue (s : State) (n : Nat) (b : Block) : Bool :=
  let d := (s.part n).drover
  match d.owner with
  | none => false
  | some f =>
    let st := (s.flock f).status
    match d.step, b.bar with
    | none, _ => st == .placed
    | some _, none => false
    | some _, some bar =>
      st == .running && decide (d.stepAt + 1 ≤ s.now) && decide (mget 0 d.used bar < (s.barInst f (bar * 1024)).c)

/-- Begins a step: tears, new circuits, MARK, ENDC (R343, R351, R352). -/
def State.beginStep (s : State) (n : Nat) (b : Block) : State :=
  let d := (s.part n).drover
  let no := match d.step with | none => 0 | some k => k + 1
  let s := s.tearCircuits n fun k => b.endc || b.tears.contains (fld k.send 6 6, k.h)
  let new := b.connects.map (s.circuitOf n no)
  let s := s.updPart n fun p =>
    { p with
      markStep := if b.mark.isSome then BitVec.ofNat 32 no else p.markStep
      markVal := b.mark.getD p.markVal
      drover := { p.drover with
        ready := p.drover.ready.tail
        step := some no
        stepAt := s.now
        used := match b.bar with
          | some bar => mset p.drover.used bar (mget 0 p.drover.used bar + 1)
          | none => p.drover.used
        circuits := p.drover.circuits ++ new
        ended := p.drover.ended || b.endc
        settles := p.drover.settles ++ b.settles.map fun e => (no, e.1, e.2, false) } }
  (new.foldl State.lineUp s).doSettles n

/-- A schedule step begins (R343). -/
def execDroverStep (part : Nat) (s : State) : Result :=
  .next (
    match (s.part part).drover.ready with
    | [] => s
    | b :: _ => if s.stepDue part b then s.beginStep part b else s)

/-- The time after a step's beginning at which its circuits' maps are taken (R343). -/
def mapTime : Nat := 22

/-- The time after a step's beginning by which its circuits are live or found dead (R343). -/
def liveTime : Nat := 48

/-- The maps of circuits are taken 22 ns after their step's beginning (R343). -/
def State.takeMaps (s : State) (at_ : Nat) (n : Nat) : State :=
  s.updDrover n fun d =>
    { d with circuits := d.circuits.map fun k =>
        if k.map.isNone && decide (k.since + mapTime ≤ at_) then { k with map := some (s.circuitMap k) } else k }

/-- A new circuit becomes live, or is found dead where its usable map was empty; the settles that waited for it follow
(R334, R343, R348). Log 30, DEDUCED. A live one stays live when its map empties later (R335, R362). Log 88, DEDUCED. -/
def execCircuitLive (part ix : Nat) (s : State) : Result :=
  .next (
    match (s.part part).drover.circuits[ix]? with
    | none => s.doSettles part
    | some k =>
      if k.settled ∨ s.now < k.since + mapTime then s.doSettles part
      else
        let live := !(k.map.getD (s.circuitMap k)).isEmpty
        let s := s.updDrover part fun d =>
          { d with circuits := d.circuits.set ix { k with settled := true, live := live } }
        s.wakeAll.doSettles part)

/-! ## Placement and retirement (R341, R351, R352, R355) -/

/-- The drover as it takes over a program. -/
def newDrover (fl : Nat) (prog : List W64) : Drover := { owner := some fl, prog := prog, decoding := true }

/-- Whether every circuit is live or dead, with step 0 begun, or no step will begin: the members may be released
(R326, R342). -/
def Drover.readyToRun (d : Drover) : Bool :=
  (d.step.isSome || (d.ready.isEmpty && !d.decoding)) && d.circuits.all fun k => k.settled

/-- Takes a flock's program out of the drover: its circuits are torn down. -/
def State.dropProgram (s : State) (n fl : Nat) : State :=
  if (s.part n).drover.owner = some fl then
    (s.tearCircuits n fun _ => true).updDrover n fun _ => {}
  else s

end Sys2Proof.Machine
end

