-- ==== Sys2Proof/Machine/Front.lean ====
section
/-! DEFINITION. What the front end does to memory (R388), how a queue stops and a packet leaves its head (R383 to R385),
and interrupts (R388, R400). -/

namespace Sys2Proof.Machine

/-! ## Additions, releases and interrupts (R388) -/

/-- An addition to an 8-byte location (R388): one serialised step, sent again after a refusal (R367). -/
def State.feAdd (s : State) (part : Nat) (a v : W64) : State × FrontAns :=
  if s.fePaused part a.toNat then (s, .again)
  else s.feAnswer part a.toNat (match s.homeFlag (frontAsker part) a with
    | .retry => (s, .again)
    | .done 0 _ _ (loc :: _) =>
      match s.addAt loc v with
      | (.error c, s) => (s, .fail c)
      | (.ok _, s) => (s, .done)
    | .done c _ _ _ => (s, .fail c))

/-- A release at system scope: every write made before it has been handed on (R66, R75). -/
def State.systemRelease (s : State) : State := s.drainAll

/-- Sends an MSI-X vector on a host port (R388, R400). -/
def State.sendIrq (s : State) (port vec : Nat) : State :=
  if h : port < 4 then
    { s with ports := s.ports.set port { s.ports[port] with msix := (s.ports[port]).msix ++ [(port, vec)] } }
  else s

/-- What the shepherd core does waits while it restarts (R407, R408). Log 42, DEDUCED. -/
def State.shepherd (s : State) (f : State → State) : Result := .next (if s.glob.shr then s else f s)

/-! ## Queues (R381 to R385) -/

/-- QCTL.STATE (R383). -/
def queueDisabled : Nat := 0
/-- Running. -/
def queueRunning : Nat := 1
/-- Waiting on a packet. Log 36, DEDUCED. -/
def queueWaiting : Nat := 2
/-- Stopped. -/
def queueStopped : Nat := 3

/-- The flock number under which the monitor of a queue's WAITSIG stands at its home: above every flock's. -/
def sigKey (part q : Nat) : Nat := 2 ^ 40 + 256 * part + q

/-- Disarms the monitor of a queue's WAITSIG (R389). -/
def State.disarmSig (s : State) (part q : Nat) : State :=
  { s with tiles := s.tiles.map fun e => (e.1, { e.2 with monitors := e.2.monitors.filter fun m => m.flock != sigKey part q }) }

/-- Stops a queue with a cause; a 0x88 stop keeps the memory cause for QSTATUS (R384, R388). One that has been disabled
meanwhile stays so. -/
def State.stopQueue (s : State) (part q : Nat) (cause mem : Cause) : State :=
  (s.disarmSig part q).updQueue part q fun k =>
    { k with state := if k.en then queueStopped else queueDisabled, cause := cause, mem := mem, sig := none, armed := false
             work := none }

/-- The queue whose packet is at work. -/
def State.queueAtWork (s : State) : Option (Nat × Nat) :=
  match s.focus with
  | .packet n q => some (n, q)
  | _ => none

/-- The packet at the head leaves it: H passes its bytes, and the head is to be written back (R384, R385). -/
def CmdQueue.leaveHead (k : CmdQueue) (bytes : Nat) : CmdQueue :=
  { k with h := k.h + BitVec.ofNat 32 bytes, wbDue := true, sig := none, armed := false, work := none, atHead := none
           state := if k.state = queueWaiting then queueRunning else k.state
           ahead := k.ahead.filter fun e => decide ((BitVec.ofNat 32 e.1 - (k.h + BitVec.ofNat 32 bytes)).toNat < 2 ^ 31) }

/-- The packet at the head waits (R383). Log 36, DEDUCED. -/
def CmdQueue.waitHead (k : CmdQueue) : CmdQueue := { k with state := if k.state = queueRunning then queueWaiting else k.state }

/-- The packet at work leaves the head. -/
def State.packetDone (s : State) (p : Packet) : State :=
  match s.queueAtWork with
  | none => s
  | some (n, q) => s.updQueue n q fun k => k.leaveHead (8 * p.words.length)

/-- The packet at work waits at the head. Log 32, DEDUCED. -/
def State.packetWaits (s : State) : State :=
  match s.queueAtWork with
  | none => s
  | some (n, q) => s.updQueue n q CmdQueue.waitHead

/-- The packet at work is in process, and is gone on with before another is read (R383). -/
def State.packetKept (s : State) (p : Packet) : State :=
  match s.queueAtWork with
  | none => s
  | some (n, q) => s.updQueue n q fun k => { k.waitHead with work := some p }

/-- The packet at work stops its queue. -/
def State.packetStops (s : State) (cause mem : Cause) : State :=
  match s.queueAtWork with
  | none => s
  | some (n, q) => s.stopQueue n q cause mem

/-- What the outcome of a packet's write of `n` bytes at `a` does to its queue: it leaves, is tried again, or stops with
0x88. -/
def State.packetAfter (s : State) (r : State × FrontAns) (p : Packet) (a n : Nat) : State :=
  match r.2, s.queueAtWork with
  | .done, _ => r.1.packetDone p
  | .again, some (part, _) => (s.feAgain part a n).packetKept p
  | .again, none => s
  | .fail c, _ => r.1.packetStops 0x88 c

end Sys2Proof.Machine
end

