-- ==== Sys2Proof/Machine/Sched.lean ====
section
/-! DEFINITION. Launches and flocks as the front end schedules them: validation (R27, R28, R395, R396), dependences
(R29, R33, R397), priorities (R36, R37), what a placement needs (R30, R355, R398), pre-emption requests, kills (R392)
and completion records (R400). -/

namespace Sys2Proof.Machine

/-! ## The LAUNCH packet (R395) -/

/-- Whether a field of a word is zero. -/
def noBits (w : W64) (lo len : Nat) : Bool := fld w lo len == 0

/-- PRIO. -/
def Flock.prio (f : Flock) : Nat := fld (f.word 10) 24 8
/-- Length of the circuit program in words. -/
def Flock.circLen (f : Flock) : Nat := fld (f.word 18) 0 14
/-- Address of the circuit program. -/
def Flock.circAddr (f : Flock) : Nat := fld (f.word 17) 0 56
/-- CSIG. -/
def Flock.csig (f : Flock) : Nat := fld (f.word 1) 0 56
/-- CVAL. -/
def Flock.cval (f : Flock) : W64 := f.word 2
/-- IRQ: FLG bit 0. -/
def Flock.irq (f : Flock) : Bool := bit (f.word 0) 32
/-- NFLK. -/
def Flock.nflk (f : Flock) : Nat := fld (f.word 16) 40 8
/-- View slot j, a 32-bit value at byte 200 + 4j. -/
def Flock.view (f : Flock) (j : Nat) : W64 := BitVec.ofNat 64 (fld (f.word (25 + j / 2)) (32 * (j % 2)) 32)

/-- The dependences: queue and LNUM. -/
def Flock.deps (f : Flock) : List (Nat × W32) :=
  (([21, 22, 23, 24] : List Nat).filter fun k => bit (f.word k) 63).map fun k =>
    (fld (f.word k) 40 8, BitVec.ofNat 32 (fld (f.word k) 0 32))

/-- The member box (R27): its cores in ascending order of identifier. -/
def Flock.box (f : Flock) : List (BitVec 12) :=
  let w := f.word 10
  let first := fld w 58 6
  (List.range (fld w 52 6 + 1 - first)).flatMap fun t =>
    ((List.range 4).filter fun y => bit w (48 + y)).flatMap fun y =>
      ((List.range 16).filter fun c => bit w (32 + c)).map fun c => BitVec.ofNat 12 ((first + t) * 64 + y * 16 + c)

/-- Whether every reserved field of a LAUNCH is zero. -/
def Flock.reservedOk (f : Flock) : Bool :=
  let z := fun k lo len => noBits (f.word k) lo len
  fld (f.word 0) 33 7 == 0 && z 1 56 8 && z 3 56 8 && z 5 0 24 && z 7 0 24 && z 9 0 24 && z 10 0 24 && z 11 0 22 &&
    z 12 56 8 && z 13 56 8 && z 16 8 32 && z 17 56 8 && z 18 14 50 && z 19 56 8 && z 20 32 32 &&
    (([21, 22, 23, 24] : List Nat).all fun k => z k 48 15 && z k 32 8) && z 33 32 32 && f.word 34 == 0 && f.word 35 == 0

/-- Whether the three stream images and the addresses of a LAUNCH are valid. -/
def Flock.imagesOk (f : Flock) : Bool :=
  f.imgBase % 64 == 0 && f.csig % 16 == 0 && fld (f.word 19) 0 56 % 256 == 0 &&
    (([.l, .c, .s] : List StreamId).all fun st => f.imgOff st % 4 == 0 && f.imgLen st != 0 && decide (f.entry st < f.imgLen st)) &&
    !(f.nflk == 0 && fld (f.word 16) 0 8 != 0)

/-- Whether every declared view value is valid (R129). -/
def Flock.viewsOk (f : Flock) : Bool :=
  let units := f.ofb / 256
  viewVOk units (f.view 0) && (List.range 16).all fun j => viewOk units (f.view (1 + j))

/-- Whether no dependence names the launch's own queue with an LNUM not older than its own. -/
def Flock.depsOk (f : Flock) : Bool :=
  f.deps.all fun d => f.queue != some d.1 || (let age := (f.lnum - d.2).toNat; decide (1 ≤ age ∧ age < 2 ^ 31))

/-- The lowest resource code that a declaration exceeds (R28, R396); the masks of barriers cannot exceed R222. -/
def Flock.exceeded (f : Flock) : Option Byte :=
  let lq := (List.range 8).map f.lqd
  let sq := (List.range 8).map f.sqd
  if 524288 < f.ofb then some 0x01
  else if 8388608 < f.lmb then some 0x02
  else if 1 < f.mxe then some 0x03
  else if 16 < f.nst then some 0x04
  else if lq.any (fun d => decide (64 < d)) ∨ 128 < lq.sum then some 0x05
  else if sq.any (fun d => decide (64 < d)) ∨ 128 < sq.sum then some 0x06
  else if 64 < f.bqd then some 0x07
  else if 8192 < f.circLen then some 0x09
  else none

/-- What the validation of a LAUNCH finds: cause and resource code; cause 0 where it is accepted (R396). -/
def State.validate (s : State) (f : Flock) : Cause × Byte :=
  if !(f.reservedOk && f.imagesOk && f.depsOk && f.viewsOk) then (0x87, 0)
  else if f.box.isEmpty || f.box.any fun id => !s.namesCore f.part id then (0x83, 0)
  else
    match f.exceeded with
    | some r => (0x81, r)
    | none => (0, 0)

/-! ## The image as the LAUNCH finds it (R77) -/

/-- A piece of an image of a partition as it stood when storage was as given: read through the tables of that time, where
they let it be fetched. -/
def State.storedThen (s : State) (old : Stored) (part lo n : Nat) : Option (List Byte) :=
  let s := { s with mem := old.mem, lm := old.lm, hostMem := old.hostMem }
  match s.homeCheck { part := part, who := none } .fetch lo 4 with
  | .ok loc _ => some (s.readLoc loc n)
  | _ => none

/-- A piece of an image as the flock's streams fetch it: where a syllable has changed since the queue's last FETCHFENCE, it
is the old or the new one (R77). Log 10, DESIGN CHOICE. -/
def State.fetched (s : State) (old : Stored) (part : Nat) (loc : Loc) (lo n : Nat) : List Byte :=
  let now := s.readLoc loc n
  let then_ := (s.storedThen old part lo n).getD now
  if now = then_ then now
  else
    (List.range ((n + 3) / 4)).flatMap fun i =>
      ((if Config.anyBool (s.freeIx (lo + 4 * i)) then then_ else now).drop (4 * i)).take 4

/-- Keeps the bytes of one page of a stream's image, where the page can be read; of a page that another panel homes they are
free, and stay what they are. Log 4, DESIGN CHOICE. -/
def State.snapPage (s : State) (f : Flock) (old : Stored) (page : Nat) (st : StreamId) : Flock :=
  let a := f.sylAddr st 0
  let lo := max a (page * 2 ^ 16)
  let hi := min (a + 4 * f.imgLen st) ((page + 1) * 2 ^ 16)
  if hi ≤ lo then f
  else
    let keep := fun bs =>
      { f with image := Memory.writeN f.image lo bs
               imagePages := if f.imagePages.contains page then f.imagePages else page :: f.imagePages }
    match s.homeCheck { part := f.part, who := none } .fetch lo 4 with
    | .ok loc _ => keep (s.fetched old f.part loc lo (hi - lo))
    | .foreign _ => keep ((List.range (hi - lo)).map fun i => Config.anyByte (s.freeIx (lo + i)))
    | _ => f

/-- Keeps what lies of the three images in a page. -/
def State.snapImages (s : State) (f : Flock) (old : Stored) (page : Nat) : Flock :=
  ([.l, .c, .s] : List StreamId).foldl (fun f st => s.snapPage f old page st) f

/-- The pages of a flock's images. -/
def Flock.codePages (f : Flock) : List Nat :=
  (([.l, .c, .s] : List StreamId).flatMap fun st =>
    let a := f.sylAddr st 0
    (List.range ((a + 4 * f.imgLen st - 1) / 2 ^ 16 - a / 2 ^ 16 + 1)).map fun i => a / 2 ^ 16 + i).dedup

/-- Keeps the images of the three streams; those of a handler launch, which no queue's FETCHFENCE precedes, as they stand
(R77, R406). Log 50, DEDUCED. -/
def State.snapshot (s : State) (f : Flock) : Flock :=
  let now : Stored := { mem := s.mem, lm := s.lm, hostMem := s.hostMem }
  let old := match f.queue with
    | some q => (s.queue f.part q).fence
    | none => now
  f.codePages.foldl (fun f page => s.snapImages f old page) f

/-- A page of a flock's images that could not be read when its LAUNCH was processed is kept as its first fetch finds it: a
running flock observes no write to its own image (R77). Log 10, DESIGN CHOICE. -/
def State.keepPage (s : State) (c : Nat) (a : Nat) : State :=
  match (s.ctx c).flock with
  | none => s
  | some fl =>
    if (s.flock fl).imagePages.contains (a / 2 ^ 16) then s
    else s.updFlock fl fun f => s.snapImages f { mem := s.mem, lm := s.lm, hostMem := s.hostMem } (a / 2 ^ 16)

/-! ## Dependences (R29, R33, R397) -/

/-- Whether every member has triggered or retired (R33). -/
def Flock.triggered (f : Flock) : Bool :=
  !f.members.isEmpty && (List.range f.members.length).all fun i => f.trigMembers.contains i || f.doneMembers.contains i

/-- The flock with a queue and an LNUM, the latest parsed if the number has come round again. -/
def State.findLaunch (s : State) (part q : Nat) (ln : W32) : Option (Nat × Flock) :=
  s.flocks.reverse.find? fun e => e.2.part == part && e.2.queue == some q && e.2.lnum == ln

/-- How a dependence stands. -/
inductive DepState where
  | holds
  | waits (fl : Option Nat)
  | fails
deriving DecidableEq, Repr, Inhabited

/-- The launches of a queue whose state the front end keeps (R397). -/
def launchEntries : Nat := 256

/-- How a dependence on launch `ln` of a queue stands (R397). Log 82, DESIGN CHOICE. -/
def State.depState (s : State) (part q : Nat) (ln : W32) : DepState :=
  let age := ((s.queue part q).nextL - ln).toNat
  if age = 0 ∨ 2 ^ 31 ≤ age then .waits none
  else if launchEntries < age then .holds
  else
    match s.findLaunch part q ln with
    | none => .waits none
    | some (k, f) => if f.triggered then .holds else if f.status = .failed then .fails else .waits (some k)

/-- The dependences of a launch, as they stand; a handler launch has none (R406). -/
def State.depStates (s : State) (f : Flock) : List DepState :=
  if f.queue.isNone then [] else f.deps.map fun d => s.depState f.part d.1 d.2

/-- Whether all dependences of a launch hold. -/
def State.depsMet (s : State) (f : Flock) : Bool := (s.depStates f).all fun d => d == .holds

/-- Whether a launch has a failed dependence. -/
def State.depFailed (s : State) (f : Flock) : Bool := (s.depStates f).any fun d => d == .fails

/-- A launch leaves the head of its queue (R30). -/
def State.leaveQueue (s : State) (fl : Nat) : State :=
  let f := s.flock fl
  let s := s.updFlock fl fun f => { f with left := true, leftAt := s.now - (s.part f.part).createdAt }
  match f.queue with
  | none => s
  | some q =>
    if (s.queue f.part q).atHead = some fl then s.updQueue f.part q fun k => k.leaveHead 288 else s

/-- A launch that has not run completes with a cause; its completion record is due (R29, R396). -/
def State.endLaunch (s : State) (fl : Nat) (cause : Cause) (detail : Byte) : State :=
  (s.updFlock fl fun f => { f with status := .failed, cause := cause, detail := detail }).leaveQueue fl

/-- Waiting launches whose dependences have failed complete with 0x82, and so do their own dependants (R29). -/
def State.failDependants : Nat → State → State
  | 0, s => s
  | fuel + 1, s =>
    match s.flocks.find? fun e => e.2.status == .waiting && s.depFailed e.2 with
    | none => s
    | some (k, _) => State.failDependants fuel (s.endLaunch k 0x82 0)

/-- Every launch that now fails does so. -/
def State.settleDeps (s : State) : State := s.failDependants s.flocks.length

/-! ## Priorities (R36, R37) -/

/-- The effective priority of a flock from its launch and its tick. Log 33, DEDUCED. -/
def State.ownPriority (s : State) (f : Flock) : Nat :=
  match f.tick with
  | none => f.prio
  | some _ =>
    let t := s.now - (s.part f.part).createdAt - f.tickAt
    if f.period ≤ t then 255
    else
      let u := 32 * t / f.period
      if 16 ≤ u then max f.prio (min 255 (224 + u)) else f.prio

/-- The flocks that wait for others hand on to them the priorities that they have so far (R36). -/
def State.inherit (s : State) (m : AMap Nat) : AMap Nat :=
  (s.flocks.filter fun e => e.2.status == .waiting).foldl (fun m e =>
    (s.depStates e.2).foldl (fun m d =>
      match d with
      | .waits (some k) => mset m k (max (mget 0 m k) (mget 0 m e.1))
      | _ => m) m) m

/-- The effective priorities of all flocks: as each has them on its own, then handed on as often as the longest chain of
waiting launches can ask for. -/
def State.priorities (s : State) : AMap Nat :=
  (s.flocks.filter fun e => e.2.status == .waiting).foldl (fun m _ => s.inherit m)
    (s.flocks.map fun e => (e.1, s.ownPriority e.2))

/-- The effective priority of a flock (R36). -/
def State.priority (s : State) (fl : Nat) : Nat := mget (s.ownPriority (s.flock fl)) s.priorities fl

/-! ## Cores and other resources (R30, R355, R398) -/

/-- Whether a flock stands on cores: placed, running, being pre-empted or being killed. -/
def Flock.onCores (f : Flock) : Bool :=
  f.status == .placed || f.status == .running || f.status == .preempting || f.status == .killing

/-- Whether a flock holds barrier objects: from its placement to its retirement (R40, R392, R398). -/
def Flock.holdsObjects (f : Flock) : Bool := f.onCores || f.status == .preempted

/-- The cores a flock needs: those of its members that have not retired. -/
def Flock.needs (f : Flock) : List (BitVec 12) :=
  ((List.range f.members.length).filter fun i => !f.doneMembers.contains i).map fun i => f.members.getD i 0

/-- The flocks on cores that a flock needs. -/
def State.blockers (s : State) (fl : Nat) : List Nat :=
  let f := s.flock fl
  (s.flocks.filter fun e =>
    e.1 != fl && e.2.part == f.part && e.2.onCores && f.needs.any fun id => s.holderOf f.part id == some e.1).map (·.1)

/-- The barrier objects that a flock uses: scope and instance, with how many. -/
def Flock.objects (f : Flock) : List ((Nat × Nat) × Nat) :=
  let masks := [fld (f.word 14) 32 32, fld (f.word 14) 0 32, fld (f.word 15) 32 32, fld (f.word 15) 0 32, fld (f.word 16) 0 8]
  (List.range 5).flatMap fun sc =>
    let n := popFrom (masks.getD sc 0) 32
    if n = 0 then []
    else
      let inst := (f.members.map fun id => match scopeOf sc with | some x => scopeInstance x id | none => 0).dedup
      inst.map fun i => ((sc, i), n)

/-- The objects of a pool (R222). -/
def poolSize (sc : Nat) : Nat := if sc = 4 then 8 else 32

/-- Whether the pools of barrier objects have what a launch needs besides what other flocks hold (R222, R398). -/
def State.objectsFree (s : State) (fl : Nat) : Bool :=
  let f := s.flock fl
  let held := (s.flocks.filter fun e => e.1 != fl && e.2.part == f.part && e.2.holdsObjects).flatMap fun e => e.2.objects
  f.objects.all fun o =>
    decide (o.2 + ((held.filter fun h => h.1 == o.1).map (·.2)).sum ≤ poolSize o.1.1)

/-- Whether no other program's flock owns the ports of a flock's circuit program that runs, or that stands suspended by
PREEMPT (R355, R392). Log 39, DEDUCED. -/
def State.portsIdle (s : State) (fl : Nat) : Bool :=
  let f := s.flock fl
  f.circLen == 0 ||
    match (s.part f.part).drover.owner with
    | none => true
    | some o => o == fl || ((s.flock o).status == .preempted && !(s.flock o).suspended)

/-- Whether no tile of a flock's members is in a role change (R15, R415). -/
def State.tilesSettled (s : State) (f : Flock) : Bool :=
  f.members.all fun id => (s.tile ((s.part f.part).physTile (fld id 6 6))).rolePhase == .none

/-- Whether a flock on cores may be displaced by another: it runs, and its effective priority is lower, or equal with
its quantum over (R36). -/
def State.displaces (s : State) (fl old : Nat) : Bool :=
  let g := s.flock old
  let a := s.priority fl
  let b := s.priority old
  g.status == .preempting || g.status == .killing ||
    (g.status == .running &&
      (decide (b < a) || (a == b && decide (g.runAt + 1000 * (s.part g.part).quantum ≤ s.now))))

/-- Whether a flock has, or can get by displacing their owner, the ports for its circuit program: a launch from the flock
whose cores it takes, a resuming flock from any (R36, R355). Log 39, DEDUCED. -/
def State.portsFree (s : State) (fl : Nat) : Bool :=
  let f := s.flock fl
  s.portsIdle fl ||
    match (s.part f.part).drover.owner with
    | none => true
    | some o =>
      s.displaces fl o && (f.status == .preempted || f.needs.any fun id => s.holderOf f.part id == some o)

/-- Whether a flock wants cores and could start if it had them. -/
def State.wantsCores (s : State) (fl : Nat) : Bool :=
  let f := s.flock fl
  !f.suspended && s.tilesSettled f &&
    ((f.status == .waiting && f.released && s.depsMet f && s.objectsFree fl) || f.status == .preempted) && s.portsFree fl

/-- Whether a flock that wants cores can have them all: none is held by a flock that it may not displace (R30, R36). -/
def State.canClear (s : State) (fl : Nat) : Bool := s.wantsCores fl && (s.blockers fl).all fun o => s.displaces fl o

/-- Whether another flock that can have cores of which this one wants one goes first: a higher effective priority, or an
equal one that has waited longer (R36). -/
def State.goesAfter (s : State) (fl : Nat) : Bool :=
  let f := s.flock fl
  s.flocks.any fun e =>
    e.1 != fl && e.2.part == f.part && (e.2.needs.any fun id => f.needs.contains id) && s.canClear e.1 &&
      (let a := s.priority e.1
       let b := s.priority fl
       decide (b < a) || (a == b && decide (e.2.turn < f.turn)))

/-! ## Pre-emption requests (R38, R40, R392) -/

/-- The physical core of a member. -/
def State.memberCore (s : State) (fl i : Nat) : Nat := s.physCore (s.flock fl).part ((s.flock fl).members.getD i 0)

/-- The members that have a live context on a core. -/
def State.liveMembers (s : State) (fl : Nat) : List Nat :=
  (List.range (s.flock fl).members.length).filter fun i => (s.ctx (s.memberCore fl i)).flock == some fl

/-- Whether a stream stands at a consistent point when a cut is requested: it waits, holds, or issues no more (R39). -/
def StreamState.still (y : StreamState) : Bool := y.wait.isSome || y.hold.isSome || y.phase == .done

/-- Asks a member for a cut: a stream that waits joins it without issuing further words (R39). -/
def Ctx.askCut (x : Ctx) : Ctx :=
  if x.preempt then x
  else { x with preempt := true, lcut := x.l.still, ccut := x.c.still, scut := x.s.still, forced := false }

/-- Asks every member of a flock for a cut. -/
def State.askCuts (s : State) (fl : Nat) : State :=
  (s.liveMembers fl).foldl (fun s i => s.updCtx (s.memberCore fl i) Ctx.askCut) s

/-- A pre-emption request to a running flock (R38, R40). -/
def State.preempt (s : State) (fl : Nat) : State :=
  if (s.flock fl).status = .running then
    (s.updFlock fl fun f => { f with status := .preempting, cutAt := s.now }).askCuts fl
  else s

/-! ## Releasing cores -/

/-- A core is given back: it is recorded as held by the pre-empted flock whose local memory was moved out of it, if
there is one, otherwise by none (R15, R42, R310). Log 34, DEDUCED. -/
def State.giveBack (s : State) (part : Nat) (id : BitVec 12) : State :=
  let back := s.flocks.find? fun e =>
    e.2.part == part && e.2.status == .preempted && e.2.members.contains id && mhas e.2.lms (e.2.members.idxOf id)
  let v := match back with
    | some (k, _) => k + 1
    | none => 0
  s.updPart part fun p => { p with holder := mset p.holder id.toNat v }

/-- The flock's cores are given back, its requests dropped, its monitors disarmed (R32, R221). Log 34, DEDUCED. -/
def State.freeCores (s : State) (fl : Nat) : State :=
  let f := s.flock fl
  let cores := (s.liveMembers fl).map (s.memberCore fl)
  let s := { s with
    reqs := s.reqs.filter fun r => !(cores.contains r.core && !(match r.op with | .foreign _ => true | _ => false))
    tiles := s.tiles.map fun e => (e.1, { e.2 with monitors := e.2.monitors.filter fun m => m.flock != fl })
    cores := s.cores.map fun e => if cores.contains e.1 then (e.1, {}) else e }
  f.members.foldl (fun s id => if s.holderOf f.part id = some fl then s.giveBack f.part id else s) s

/-- The participants of a flock in every barrier no longer hold back a phase; the joined system barriers that no flock
uses any more are dropped (R223, R399). -/
def State.leaveBarriers (s : State) (fl : Nat) : State :=
  let mine := fun (p : Party) => p.member / 4096 == fl
  let left := s.dgrps.map fun e =>
    (e.1, { e.2 with parties := e.2.parties.map fun q => if mine q then { q with gone := true } else q })
  State.wakeAll { s with dgrps := left.filter fun e => e.2.parties.any fun q => !q.gone }

/-- A flock's circuit program is gone: its circuits are torn down, and the received bytes that no RECV has taken are counted,
those of a pre-empted flock whose ports were given away too (R351, R354). -/
def State.endProgram (s : State) (fl : Nat) : State :=
  let f := s.flock fl
  let lost := match f.drover with
    | some d => (d.circuits.map fun k => k.rx.length + k.inFlight.length).sum
    | none => 0
  ((s.dropProgram f.part fl).updPart f.part fun p => { p with rxDiscarded := satAdd (2 ^ 32 - 1) p.rxDiscarded lost }).updFlock fl
    fun f => { f with drover := none }

/-- The shadow store holds no context of a flock any more: they have been restored, or are discarded (R392, R405). -/
def State.dropSlots (s : State) (fl : Nat) : State :=
  { s with tiles := s.tiles.map fun e => (e.1, { e.2 with
      slots := e.2.slots.filter fun x => x.2.1 != fl, movedCtxs := e.2.movedCtxs.filter fun x => x.1 != fl }) }

/-- A flock that has been on cores is gone: killed or failed (R392, R404, R420). -/
def State.discard (s : State) (fl : Nat) : State :=
  let s := (((s.freeCores fl).leaveBarriers fl).endProgram fl).dropSlots fl
  let s := s.updFlock fl fun f => { f with status := .failed, ctxs := [], lms := [], lmsPoison := [], bars := [] }
  (s.leaveQueue fl).settleDeps

/-! ## Kills (R392, R404) -/

/-- A kill with the cause and flags of its completion record. A flock on cores is first cut as for a forced cut. -/
def State.kill (s : State) (fl : Nat) (cause : Cause) (trap host : Bool) : State :=
  let f := s.flock fl
  let mark := fun (f : Flock) => { f with cause := cause, killedTrap := trap, killedHost := host }
  match f.status with
  | .waiting | .placed | .preempted => (s.updFlock fl mark).discard fl
  | .running | .preempting =>
    let s := (s.updFlock fl fun f => { mark f with status := .killing, cutAt := s.now }).askCuts fl
    if (s.liveMembers fl).isEmpty then s.discard fl else s
  | .killing | .retired | .failed => s

/-! ## Completion (R400) -/

/-- Bytes 8 to 15 of a completion record. -/
def Flock.recordTail (f : Flock) : List Byte :=
  let bits := b2n f.killedTrap + 2 * b2n f.killedHost + 4 * b2n f.missed + 8 * b2n f.queue.isNone
  natLE 4 f.lnum.toNat ++ [f.cause, f.detail, (match f.queue with | some q => BitVec.ofNat 8 q | none => f.hid), BitVec.ofNat 8 bits]

/-- Writes the completion record: bytes 8 to 15 first, then CVAL as a release at system scope, then the interrupt; and whether
that is done: a write that met retry-after is to be tried again. Log 66, DEDUCED. -/
def State.writeRecord (s : State) (fl : Nat) : State × Bool :=
  let f := s.flock fl
  let irq := fun (s : State) =>
    match f.queue with
    | some q => if f.irq then s.sendIrq (s.queue f.part q).irqPort (s.queue f.part q).irqVec else s
    | none => s
  let s := s.systemRelease
  if f.csig = 0 then (irq s, true)
  else
    match s.feWrite f.part (f.csig + 8) f.recordTail with
    | (_, .again) => (s.feAgain f.part (f.csig + 8) 8, false)
    | (t, _) =>
      match t.systemRelease.feWrite f.part f.csig (wordLE f.cval) with
      | (_, .again) => (s.feAgain f.part f.csig 8, false)
      | (t, _) => (irq t.systemRelease, true)

/-- A flock is marked retired, its cores and objects given back, its program's circuits torn down (R32, R351, R398). -/
def State.retireFlock (s : State) (fl : Nat) : State :=
  let s := ((s.freeCores fl).leaveBarriers fl).endProgram fl
  s.updFlock fl fun f => { f with status := .retired, bars := [], lms := [], lmsPoison := [] }

/-- THE FLOCK RETIRES once its last member has, and the completion record is written; a launch that was rejected, failed
or killed writes its record too (R32, R396, R400). -/
def execFlockRetire (fl : Nat) (s : State) : Result :=
  .next (
    let f := s.flock fl
    let finished := !f.members.isEmpty && (List.range f.members.length).all fun i => f.doneMembers.contains i
    let due : Bool := match f.status with
      | .running | .preempting | .preempted => finished
      | .failed => !f.wrote
      | _ => false
    if !due then s
    else
      match s.writeRecord fl with
      | (t, false) => t
      | (t, true) =>
        let t := t.updFlock fl fun f => { f with wrote := true }
        if f.status = .failed then t else t.retireFlock fl)

end Sys2Proof.Machine
end

