-- ==== Sys2Proof/Machine/Place.lean ====
section
/-! DEFINITION. Placement, release and resumption of flocks (R30, R31, R39, R40, R42, R355, R398, R399, R405), round-robin
and cadence (R36, R37, R393). -/

namespace Sys2Proof.Machine

/-! ## Local memories move out and back (R42, R310) -/

/-- The content of a core's local memory. -/
def State.lmOf (s : State) (core : Nat) : Memory :=
  (s.lm.filter fun e => e.1 / 2 ^ 23 == core).map fun e => (e.1 % 2 ^ 23, e.2)

/-- The poisoned sectors of a core's local memory. -/
def State.lmSectors (s : State) (core : Nat) : List Nat :=
  (s.lmPoison.filter fun p => p / 2 ^ 17 == core).map fun p => p % 2 ^ 17

/-- Changes every monitor. -/
def State.mapMonitors (s : State) (f : Monitor → Monitor) : State :=
  { s with tiles := s.tiles.map fun e => (e.1, { e.2 with monitors := e.2.monitors.map f }) }

/-- The monitors on a core's local memory go with its content: `f` gives one its new place (R220). -/
def State.moveMonitors (s : State) (core : Nat) (f : Monitor → Monitor) : State :=
  s.mapMonitors fun m => if !m.mem && m.away.isNone && m.pa / 2 ^ 23 == core then f m else m

/-- Puts a content in a core's local memory. -/
def State.setLm (s : State) (core : Nat) (m : Memory) (bad : List Nat) : State :=
  { s with
    lm := m.foldl (fun acc e => Memory.write acc (lmKey core e.1) e.2) (s.lm.filter fun e => e.1 / 2 ^ 23 != core)
    lmPoison := (s.lmPoison.filter fun p => p / 2 ^ 17 != core) ++ bad.map fun p => core * 2 ^ 17 + p }

/-- Before another flock takes a core, the local memory of the pre-empted flock that it still holds moves to HBM. -/
def State.evict (s : State) (part : Nat) (id : BitVec 12) : State :=
  match s.holderOf part id with
  | none => s
  | some g =>
    let f := s.flock g
    let i := f.members.idxOf id
    if f.status = .preempted ∧ !mhas f.lms i then
      let core := s.physCore part id
      (s.updFlock g fun f =>
        { f with lms := mset f.lms i (s.lmOf core), lmsPoison := mset f.lmsPoison i (s.lmSectors core) }).moveMonitors core
          fun m => { m with away := some (g, i), pa := m.pa % 2 ^ 23 }
    else s

/-- A source of numbered requests is a core with one member's context, in which its numbers and FLOOR lie (R328, R331):
the ingresses keep no FLOOR and no reply of the member that held a core before, and no second copy of a request of it is
under way. Log 67, DEDUCED. -/
def State.newSource (s : State) (core : Nat) : State :=
  let panel := s.glob.domid.toNat
  { s with
    reqs := s.reqs.filter fun r => !(r.panel == panel && r.core == core && !(match r.op with | .foreign _ => true | _ => false))
    tiles := s.tiles.map fun e => (e.1, { e.2 with
      floors := e.2.floors.filter fun f => f.1 != panel * 2 ^ 24 + core
      replies := e.2.replies.filter fun y => !(y.panel == panel && y.core == core) }) }

/-- A flock takes a core (R15, R31). Log 34, DEDUCED. -/
def State.takeCore (s : State) (fl : Nat) (id : BitVec 12) : State :=
  let part := (s.flock fl).part
  let s := if s.holderOf part id = some fl then s else s.evict part id
  (s.updPart part fun p => { p with holder := mset p.holder id.toNat (fl + 1) }).newSource (s.physCore part id)

/-- A member's local memory is back on its core, where it had moved out. -/
def State.bringBack (s : State) (fl i : Nat) : State :=
  let f := s.flock fl
  if mhas f.lms i then
    let core := s.memberCore fl i
    let s := (s.setLm core (mget [] f.lms i) (mget [] f.lmsPoison i)).updFlock fl fun f =>
      { f with lms := mdel f.lms i, lmsPoison := mdel f.lmsPoison i }
    s.mapMonitors fun m => if m.away = some (fl, i) then { m with away := none, pa := lmKey core m.pa } else m
  else s

/-! ## A new member (R31, R395) -/

/-- A stream before its release. Log 25, DEDUCED. -/
def Flock.newStream (f : Flock) (st : StreamId) : StreamState :=
  { sect := BitVec.ofNat 32 (f.sect0 st), pc := f.entry st }

/-- The context of a new member. -/
def Flock.newCtx (f : Flock) (fl i : Nat) : Ctx :=
  { flock := some fl
    member := i
    logical := f.members.getD i 0
    l := f.newStream .l
    c := f.newStream .c
    s := f.newStream .s
    lq := Vector.ofFn fun k => { depth := f.lqd k.val }
    sq := Vector.ofFn fun k => { depth := f.sqd k.val }
    bq := { depth := f.bqd }
    viewV := f.view 0
    viewT := Vector.ofFn fun k => f.view (1 + k.val)
    viewA := Vector.ofFn fun k => f.view (9 + k.val)
    srstate := srOf (BitVec.ofNat 32 (fld (f.word 20) 0 32)) }

/-! ## Barrier objects (R222, R223, R399) -/

/-- The barriers that a LAUNCH allocates, as operand bits. -/
def Flock.barriers (f : Flock) : List Nat := (List.range 160).filter f.allocated

/-- The instances of one barrier, with their participants. -/
def Flock.instances (f : Flock) (fl bar : Nat) : AMap BarInst :=
  ((List.range f.members.length).map fun i => (barKey bar (f.members.getD i 0), i)).foldl (fun m e =>
    let b := mget {} m e.1
    mset m e.1 { b with parties := b.parties ++ [{ member := partyId fl e.2 }] }) []

/-- A flock joins a system barrier of a domain group: the participants of a late joiner start level with the instance,
and an instance that was full is to complete in error. Log 60, DEDUCED. -/
def Flock.joinGroup (f : Flock) (fl : Nat) (old : Option BarInst) : BarInst :=
  match old with
  | none => { need := f.nflk, parties := (List.range f.members.length).map fun i => { member := partyId fl i } }
  | some b =>
    { b with
      parties := b.parties ++ (List.range f.members.length).map fun i =>
        { member := partyId fl i, issued := b.c, a := b.c, w := b.c }
      crowded := b.crowded || decide (f.nflk ≤ b.joined)
      joined := b.joined + 1
      need := f.nflk }

/-- Allocates the barrier objects of a launch. -/
def State.makeBarriers (s : State) (fl : Nat) : State :=
  let f := s.flock fl
  let own := f.barriers.filter fun b => !f.joins b
  let s := s.updFlock fl fun f => { f with bars := own.foldl (fun m b => (f.instances fl b).foldl (fun m e => mset m e.1 e.2) m) [] }
  (f.barriers.filter f.joins).foldl (fun s b =>
    let k := f.dgrpKey b
    { s with dgrps := mset s.dgrps k (f.joinGroup fl (if mhas s.dgrps k then some (mget {} s.dgrps k) else none)) }) s

/-! ## Ports (R341, R352, R355) -/

/-- The drover leaves the program of a pre-empted flock for another's: what it knows stays with the flock, and the ends of its
circuits are free (R355, R358). Log 39, DEDUCED. -/
def State.givePorts (s : State) (n : Nat) : State :=
  let d := (s.part n).drover
  match d.owner with
  | none => s
  | some o =>
    ((d.circuits.foldl State.freeEnds s).updFlock o fun f => { f with drover := some { d with given := true } }).updDrover n
      fun _ => {}

/-- A launch takes the ports for its circuit program, as its image reads now; DRV_MARK reads 0 again. -/
def State.takePorts (s : State) (fl : Nat) (image : List Byte) : State :=
  let f := s.flock fl
  if f.circLen = 0 then s
  else
    let prog := (List.range f.circLen).map fun i => wordAt image i
    (s.givePorts f.part).updPart f.part fun p =>
      { p with markStep := 0, markVal := 0, drover := newDrover fl prog }

/-- A resuming flock takes its ports back: its step's circuits are established anew. -/
def State.retakePorts (s : State) (fl : Nat) : State :=
  let f := s.flock fl
  match f.drover with
  | none => s
  | some d =>
    let n := f.part
    let again := fun (k : Circuit) =>
      { k with sendTile := s.physCore n k.send / 64, recvTile := s.physCore n k.recv / 64, settled := false, live := false,
               since := s.now, map := none }
    let s := (s.givePorts n).updDrover n fun _ => { d with given := false, circuits := d.circuits.map again }
    let s := (s.part n).drover.circuits.foldl State.lineUp s
    s.updFlock fl fun f => { f with drover := none }

/-! ## Release and restore (R31, R39, R40, R187, R294, R331) -/

/-- A context as it goes on after a pre-emption: nothing is pending, the caches are empty, a drained pipelined loop
refills, and a member that TRAPCTL resumed stands at no trap. Log 62, DEDUCED. -/
def Ctx.restored (x : Ctx) : Ctx :=
  let free := fun (y : StreamState) => { y with hold := none, wait := none }
  let x := { x with
    preempt := false, lcut := false, ccut := false, scut := false, forced := false, layoutCache := [], nearCache := [],
    regionCache := [], l := free x.l, c := free x.c, s := free x.s }
  let x := if x.resumeWith then x.returnFromTrap else x
  match x.c.loops with
  | t :: _ =>
    if x.le.ns ≠ 0 ∧ x.le.drn ∧ stagesOff x.le.ns.toNat x.c.p ∧ x.c.pc = x.c.secStart + 3 * t.first then x.refill else x
  | [] => x

/-- A member's context is back on its core; a transfer that a forced cut stopped goes on, at its homes under a new number.
Log 12, DESIGN CHOICE. -/
def State.restoreMember (s : State) (fl i : Nat) : State :=
  let x := mget {} (s.flock fl).ctxs i
  let c := s.memberCore fl i
  let s := s.setCtx c x.restored
  (x.started.filter fun t => t.stage == .running && !t.stays).foldl (fun s t =>
    s.sendReq c t.tk false (if t.cmd.dl then t.cmd.w2 else t.cmd.w1) (.command t.tk)) s

/-- The three streams of a new member are released together. -/
def Ctx.release (x : Ctx) : Ctx :=
  { x with l := { x.l with phase := .header }, c := { x.c with phase := .header }, s := { x.s with phase := .header } }

/-- The members' contexts are back on their cores, and the streams go on. -/
def State.restoreFlock (s : State) (fl : Nat) : State :=
  (((s.flock fl).ctxs.foldl (fun s e => s.restoreMember fl e.1) s).dropSlots fl).updFlock fl fun f =>
    { f with status := .running, runAt := s.now, resuming := false, ctxs := [] }

/-- A placed flock's members are released once the circuits of its step are live or dead; one that has been suspended
meanwhile is pre-empted at once (R31, R40, R326, R342, R392). -/
def State.releaseFlock (s : State) (fl : Nat) : State :=
  let f := s.flock fl
  let d := (s.part f.part).drover
  let ready : Bool := f.circLen == 0 || (d.owner == some fl && d.readyToRun)
  if f.status ≠ .placed ∨ ready = false then s
  else
    let s :=
      if f.resuming then s.restoreFlock fl
      else ((s.liveMembers fl).foldl (fun s i => s.updCtx (s.memberCore fl i) Ctx.release) s).updFlock fl fun f =>
        { f with status := .running, runAt := s.now }
    if f.suspended then s.preempt fl else s

/-! ## Placement (R30, R31, R36) -/

/-- What stands between a flock and its cores: nothing; flocks that are being displaced; or flocks that keep them. -/
inductive Clearing where
  | clear
  | soon (s : State)
  | held
deriving DecidableEq, Repr

/-- Displaces the flocks that hold what a flock needs, if R36 lets it. -/
def State.clearing (s : State) (fl : Nat) (olds : List Nat) : Clearing :=
  if olds.isEmpty then .clear
  else if olds.all fun o => s.displaces fl o then .soon (olds.foldl State.preempt s)
  else .held

/-- Puts a launch on its cores. -/
def State.place (s : State) (fl : Nat) (image : List Byte) : State :=
  let f := s.flock fl
  let s := f.members.foldl (fun s id => s.takeCore fl id) s
  let s := (List.range f.members.length).foldl (fun s i => s.setCtx (s.memberCore fl i) (f.newCtx fl i)) s
  let s := (s.makeBarriers fl).takePorts fl image
  let s := s.updFlock fl fun f => { f with status := .placed }
  (s.leaveQueue fl).releaseFlock fl

/-- A waiting launch is placed if it can be (R30, R398); a cadence launch once its tick has released it (R393). -/
def State.tryPlace (s : State) (fl : Nat) : State :=
  let f := s.flock fl
  if f.status ≠ .waiting ∨ s.wantsCores fl = false ∨ s.goesAfter fl then s
  else
    match s.clearing fl (s.blockers fl) with
    | .held => s
    | .soon s => if s.portsIdle fl then s.leaveQueue fl else s
    | .clear =>
      if f.circLen = 0 then s.place fl []
      else if f.circAddr % 8 ≠ 0 then (s.endLaunch fl 0x02 0).settleDeps
      else
        match s.feRead f.part f.circAddr (8 * f.circLen) with
        | .ok image => s.place fl image
        | .error (.fail c) => (s.endLaunch fl c 0).settleDeps
        | .error _ => s

/-- A launch is placed (R30, R31), or a placed flock's members are released (R326). -/
def execLaunchPlace (fl : Nat) (s : State) : Result :=
  s.shepherd fun s => if mhas s.flocks fl then (s.tryPlace fl).releaseFlock fl else s

/-! ## Resumption (R36, R40, R355, R392) -/

/-- The other flock that owns the ports a resuming flock needs. Log 39, DEDUCED. -/
def State.portHolder (s : State) (fl : Nat) : List Nat :=
  let f := s.flock fl
  if f.circLen = 0 then []
  else
    match (s.part f.part).drover.owner with
    | some o => if o = fl ∨ ((s.flock o).status = .preempted ∧ !(s.flock o).suspended) then [] else [o]
    | none => []

/-- The cores, local memories and ports of a pre-empted flock are its own again; with ports that were never given away,
or with no circuit program, there is no further wait (R40). -/
def State.reoccupy (s : State) (fl : Nat) : State :=
  let f := s.flock fl
  let s := f.needs.foldl (fun s id => s.takeCore fl id) s
  let s := f.ctxs.foldl (fun s e => s.bringBack fl e.1) s
  match f.drover with
  | none => s.restoreFlock fl
  | some _ => (s.retakePorts fl).updFlock fl fun f => { f with status := .placed, resuming := true }

/-- A pre-empted flock gets its cores back, if it can. -/
def State.tryResume (s : State) (fl : Nat) : State :=
  let f := s.flock fl
  if f.status ≠ .preempted ∨ f.suspended ∨ s.tilesSettled f = false ∨ s.goesAfter fl then s
  else
    match s.clearing fl (s.blockers fl ++ s.portHolder fl).dedup with
    | .held => s
    | .soon s => s
    | .clear => s.reoccupy fl

/-- A pre-empted flock resumes (R40): its cores, local memories and ports are restored, then its contexts. -/
def execFlockResume (fl : Nat) (s : State) : Result := s.shepherd fun s => (s.tryResume fl).releaseFlock fl

/-! ## Quanta and cadence (R36, R37, R393) -/

/-- A round-robin quantum is over: a flock of equal priority that waits for the same cores takes its turn (R36). -/
def execQuantumExpiry (fl : Nat) (s : State) : Result :=
  s.shepherd fun s =>
    let f := s.flock fl
    let due := decide (f.runAt + 1000 * (s.part f.part).quantum ≤ s.now)
    let wanted := s.flocks.any fun e =>
      e.1 != fl && e.2.part == f.part && s.wantsCores e.1 && (e.2.needs.any fun id => s.holderOf f.part id == some fl) &&
        decide (s.priority fl ≤ s.priority e.1)
    if f.status = .running ∧ due ∧ wanted then s.preempt fl else s

/-- The cadence launch of a queue that waits outside the head for its tick. -/
def State.cadenceWaiting (s : State) (part q : Nat) : Option Nat :=
  (s.flocks.find? fun e => e.2.part == part && e.2.queue == some q && e.2.status == .waiting && e.2.left && !e.2.released).map
    (·.1)

/-- The latest tick boundary of a queue's cadence, as k, at or before now (R393). -/
def State.tickNow (s : State) (part q : Nat) : Option Nat :=
  let k := s.queue part q
  let t := s.now - (s.part part).createdAt
  if k.cadP = 0 ∨ t < k.cadPhase then none else some ((t - k.cadPhase) / k.cadP)

/-- The first tick boundary, as k, at or after time `t` of a queue's cadence clock. -/
def CmdQueue.tickFrom (k : CmdQueue) (t : Nat) : Nat :=
  if t ≤ k.cadPhase then 0 else (t - k.cadPhase + k.cadP - 1) / k.cadP

/-- Whether the latest cadence launch before a launch has missed its tick and not retired (R37). Log 40, DEDUCED. -/
def State.cadenceLate (s : State) (part q fl : Nat) : Bool :=
  s.flocks.any fun e =>
    e.1 < fl && e.2.part == part && e.2.queue == some q && e.2.tick.isSome &&
      (e.2.missed || decide (e.2.tickAt + e.2.period ≤ s.now - (s.part part).createdAt)) &&
      !(e.2.status == .retired || e.2.status == .failed)

/-- A cadence launch leaves the head, and waits for a tick (R393); where the queue has lost its cadence, it is released at once.
Log 40, DEDUCED. -/
def State.toTick (s : State) (part q fl : Nat) : State :=
  if (s.queue part q).cadP = 0 then s.updFlock fl fun f => { f with released := true } else s.leaveQueue fl

/-- The tick, as k, that releases a cadence launch outside the head: the first boundary of the clock as it now stands, at or
after the moment at which the launch left the head, or the clock was set, that no earlier launch of the queue has used (R393).
Log 40, DEDUCED. -/
def State.tickOf (s : State) (part q fl : Nat) : Nat :=
  let k := s.queue part q
  let from_ := max (s.flock fl).leftAt k.cadAt
  k.tickFrom (match k.lastTick with | some u => max from_ (u + 1) | none => from_)

/-- A cadence launch outside the head is released, if its tick has come, or its queue has lost its cadence (R37, R393). -/
def State.releaseTick (s : State) (part q fl : Nat) : State :=
  let k := s.queue part q
  let t := s.tickOf part q fl
  let at_ := k.cadPhase + t * k.cadP
  if k.cadP = 0 then s.updFlock fl fun f => { f with released := true }
  else if s.now - (s.part part).createdAt < at_ then s
  else
    (s.updFlock fl fun f => { f with tick := some t, tickAt := at_, period := k.cadP, released := true }).updQueue part q
      fun k => { k with lastTick := some at_ }

/-- The cadence launch of a queue that has been accepted and whose head the queue no longer serves: it was stopped, disabled
or reset (R383). -/
def State.strayCadence (s : State) (part q : Nat) : Option Nat :=
  let k := s.queue part q
  (s.flocks.find? fun e => e.2.part == part && e.2.queue == some q && e.2.status == .waiting && !e.2.left &&
    !e.2.released && (!k.en || k.state == queueStopped || k.atHead != some e.1)).map (·.1)

/-- Such a launch runs on: it waits for its tick as at the head. -/
def State.strayToTick (s : State) (part q : Nat) : State :=
  match s.strayCadence part q with
  | none => s
  | some fl =>
    let s := s.settleDeps
    if (s.flock fl).status = .waiting ∧ s.depsMet (s.flock fl) ∧ s.cadenceLate part q fl = false then s.toTick part q fl else s

/-- A tick boundary releases the cadence launch that waits for it, which takes its cores at its effective priority
(R37, R393). Log 40, DEDUCED. -/
def execCadenceTick (part q : Nat) (s : State) : Result :=
  s.shepherd fun s =>
    let s := s.strayToTick part q
    match s.cadenceWaiting part q with
    | none => s
    | some fl => (s.releaseTick part q fl).tryPlace fl

/-- A cadence launch enters the top band: it may now displace holders that it could not (R37). -/
def execCadenceTopBand (fl : Nat) (s : State) : Result :=
  s.shepherd fun s =>
    let f := s.flock fl
    let t := s.now - (s.part f.part).createdAt - f.tickAt
    if f.tick.isSome ∧ f.released ∧ 16 * f.period ≤ 32 * t then
      if f.status = .waiting then s.tryPlace fl else s.tryResume fl
    else s

/-- A cadence launch that has not retired by its next tick has missed it (R37). -/
def execCadenceMissedTick (fl : Nat) (s : State) : Result :=
  s.shepherd fun s =>
    let f := s.flock fl
    let over_ := decide (f.tickAt + f.period ≤ s.now - (s.part f.part).createdAt)
    let live : Bool := match f.status with | .retired | .failed => false | _ => true
    match f.queue with
    | none => s
    | some q =>
      if f.tick.isSome ∧ f.released ∧ f.missed = false ∧ over_ ∧ live then
        (s.updFlock fl fun f => { f with missed := true }).updQueue f.part q fun k =>
          { k with missed := satAdd (2 ^ 32 - 1) k.missed 1 }
      else s

end Sys2Proof.Machine
end

