-- ==== Sys2Proof/Machine/Cuts.lean ====
section
/-! DEFINITION. Cuts of a member for a pre-emption, a kill or a trap (R38 to R42, R175, R190, R221, R235, R293, R331,
R392), trap records and TRAPCTL (R401 to R404), triggers and retirement (R32, R33, R260). -/

namespace Sys2Proof.Machine

/-! ## When a cut is complete -/

/-- Whether a stream issues no further word at a pending cut. -/
def Ctx.streamCut (x : Ctx) (st : StreamId) : Bool := x.trap.isSome || x.cutAt st || (x.stream st).still

/-- Whether the accesses of the L and S streams have completed and the commit buffer is empty (R175, R235). -/
def Ctx.accessesDone (x : Ctx) : Bool := x.laccess.isEmpty && x.saccess.isEmpty && x.commit.isEmpty

/-- Whether the matrix engine stands where a cut leaves it: idle, before a pass, or done (R293). -/
def Matrix.atCut (m : Matrix) : Bool :=
  match m.running with
  | none => true
  | some n => n.stage == .swap

/-- Whether a started command is a reliable transfer that a forced cut stops at a piece boundary (R331). -/
def Started.stops (t : Started) : Bool :=
  !t.cmd.cls && (isTransfer t.cmd.opc || t.cmd.opc == 6 || t.cmd.opc == 7 || t.cmd.opc == 8 || t.cmd.opc == 0x0A)

/-- Whether a request of a core belongs to a reliable transfer that a forced cut stops: its home has pieces of it still to
perform (R331). -/
def State.stoppable (s : State) (c : Nat) (r : Request) : Bool :=
  r.core == c && r.panel == s.glob.domid.toNat &&
    (match r.op with
      | .command tk => (((s.ctx c).startedAt tk).map Started.stops).getD false
      | _ => false) &&
    (match r.stage with
      | .answered _ _ _ _ => false
      | _ => true) &&
    (s.savedReply (s.ingress r) r).isNone

/-- The stamps of the commands that a forced cut stops; a kill lets them complete (R392). -/
def State.stopped (s : State) (c : Nat) : List Nat :=
  let x := s.ctx c
  if !x.forced || (s.flock (x.flock.getD 0)).status == .killing then []
  else
    (x.started.filter fun t =>
      t.stage == .running && t.stops && (t.stays || s.reqs.any fun r => s.stoppable c r && r.tk == t.tk) &&
        s.reqs.all fun r => !(r.core == c && r.tk == t.tk) || s.stoppable c r).map (·.tk)

/-- Whether every unanswered request of a core is one of a command that a forced cut stops. -/
def State.onlyStopped (s : State) (c : Nat) (tks : List Nat) : Bool :=
  (s.ctx c).unanswered.all fun n => s.reqs.any fun r => r.core == c && r.num == n && tks.contains r.tk

/-- Whether no fired monitor of a blocking WAITA of a member has still to write its record (R221). -/
def State.noWake (s : State) (fl m : Nat) : Bool :=
  s.tiles.all fun e => e.2.monitors.all fun y => !(y.flock == fl && y.member == m && !y.nb && y.fired.isSome)

/-- Whether every WAITA.nb of a core has gone to its home (R62, R221). -/
def Ctx.waitsSent (x : Ctx) : Bool := x.waits.all fun w => !w.nb || w.sent

/-- Whether no blocking WAITA of a core has a request on its way: its reply says whether the monitor that a withdrawal
disarms has armed (R221). -/
def Ctx.waitAnswered (x : Ctx) : Bool := x.waits.all fun w => w.nb || !w.sent || w.armed || w.done

/-- Whether a member has reached its cut, and everything that must complete before it has (R175, R235, R293, R331). -/
def State.cutDone (s : State) (c : Nat) : Bool :=
  let x := s.ctx c
  let tks := s.stopped c
  x.streamCut .l && x.streamCut .c && x.streamCut .s && x.accessesDone && x.flagAdds.isEmpty && x.waitsSent &&
    (x.forced || x.arrivals.isEmpty) && x.mx.atCut && (x.started.all fun t => tks.contains t.tk) && s.onlyStopped c tks &&
    s.noWake (x.flock.getD 0) x.member

/-! ## Taking the cut -/

/-- Disarms the monitors that `f` picks. -/
def State.disarm (s : State) (f : Monitor → Bool) : State :=
  let tiles : AMap TileSt := s.tiles.map fun (e : Nat × TileSt) =>
    (e.1, { e.2 with monitors := e.2.monitors.filter fun m => !f m })
  { s with tiles := tiles }

/-- A blocking WAITA whose record is not written is withdrawn, and its monitor disarmed (R221). -/
def State.withdrawWait (s : State) (c : Nat) : State :=
  let x := s.ctx c
  match x.waits.find? fun w => !w.nb && !w.done with
  | none => s
  | some _ =>
    let fl := x.flock.getD 0
    (s.disarm fun y => y.flock == fl && y.member == x.member && !y.nb).updCtx c fun x => { x with waits := x.waits.filter (fun w => w.nb || w.done), f2res := x.f2res - 1 }

/-- The requests of the stopped commands of a core are dropped, their numbers answered. -/
def State.dropStopped (s : State) (c : Nat) (tks : List Nat) : State :=
  { s with reqs := s.reqs.filter fun r => !(r.core == c && tks.contains r.tk && s.stoppable c r) }.updCtx c fun x =>
    { x with unanswered := [] }

/-- What a cut, for a pre-emption or at a trap, leaves in a context: every issued result has landed (R133, R262), the shadow
tile is discarded (R293), and no RECV or SEND is under way: the word is issued again (R175, R235). Log 80, DEDUCED. -/
def Ctx.stands (x : Ctx) : Ctx := { x.landAll.dropShadow with recvOn := none, sendOn := none }

/-- The context that is saved. Log 12, DESIGN CHOICE. -/
def State.savedCtx (s : State) (c : Nat) : Ctx := (s.ctx c).stands.wake

/-- A context is saved to the slot of core `k` of a tile; an earlier one there moves to bytes 176 MiB to 256 MiB of the CTXOFF
area (R405). With a shade layer the slots lie in its carve-outs, else in the first 64 MiB of the area. Log 12, DESIGN CHOICE. -/
def TileSt.keepSlot (t : TileSt) (k : Nat) (who : Nat × Nat) : TileSt :=
  let old := (t.slots.filter fun e => e.1 == k && e.2 != who).map (·.2)
  let moved := if old.isEmpty then [] else [(0xB000000, 0x10000000)]
  let slot := if t.hasShade then [] else [(k * 0x100000, (k + 1) * 0x100000)]
  { t with
    slots := mset t.slots k who, movedCtxs := t.movedCtxs ++ old, ctxBytes := (moved ++ slot ++ t.ctxBytes).dedup }

/-- The member's context is saved and its core stops; of a flock that is being killed it is discarded (R42, R392, R405).
Log 12, DESIGN CHOICE. -/
def State.saveMember (s : State) (c : Nat) : State :=
  let x := s.ctx c
  let fl := x.flock.getD 0
  let s := (s.withdrawWait c).dropStopped c (s.stopped c)
  let y := s.savedCtx c
  let s := s.setCtx c {}
  if (s.flock fl).status = .killing then s
  else (s.updFlock fl fun f => { f with ctxs := mset f.ctxs x.member y }).updTile (c / 64) fun t =>
    t.keepSlot (c % 64) (fl, x.member)

/-- When the last member has been cut, the flock is pre-empted, or discarded if it is being killed (R40, R392). -/
def State.cutFlock (s : State) (fl : Nat) : State :=
  if !(s.liveMembers fl).isEmpty then s
  else
    match (s.flock fl).status with
    | .preempting =>
      { s.updFlock fl fun f => { f with status := .preempted, turn := s.nextFlock } with nextFlock := s.nextFlock + 1 }
    | .killing => s.discard fl
    | _ => s

/-- A member reaches its cut and its context is saved (R38, R39, R42). A member at a trap keeps its core until its
record is written, unless its flock is being killed. Log 41, DEDUCED. -/
def execPreemptCut (c : Nat) (s : State) : Result :=
  .next (
    let x := s.ctx c
    let fl := x.flock.getD 0
    let killing := (s.flock fl).status == .killing
    let told : Bool := match x.trap with
      | some t => t.written || killing
      | none => true
    if x.flock.isSome && x.preempt && told && s.cutDone c then (s.saveMember c).cutFlock fl else s)

/-- Forces the cut of a context: each stream at its next word boundary (R41). -/
def Ctx.forceCut (x : Ctx) : Ctx := { x with lcut := true, ccut := true, scut := true, forced := true }

/-- The front end forces a cut that a member has not reached within the partition's timeout; a kill is cut at once (R41,
R392). -/
def execForcedCut (c : Nat) (s : State) : Result :=
  .next (
    let x := s.ctx c
    let f := s.flock (x.flock.getD 0)
    let late := decide (f.cutAt + 1000 * (s.part f.part).ptimeout ≤ s.now)
    if x.flock.isNone || !x.preempt || x.forced then s
    else if f.status = .killing then s.updCtx c Ctx.forceCut
    else if f.status = .preempting ∧ late then
      (s.updCtx c Ctx.forceCut).updPart f.part fun p => { p with forcedCuts := satAdd (2 ^ 32 - 1) p.forcedCuts 1 }
    else s)

/-! ## Triggers (R33, R230) -/

/-- A trigger is recorded. -/
def State.trigger (s : State) (fl m : Nat) : State :=
  s.updFlock fl fun f => if f.trigMembers.contains m then f else { f with trigMembers := m :: f.trigMembers }

/-- Whether all that a member's TRIG covers has passed its data-visible point, but for what a port holds: the events and
commands before it, and the bytes that it sent (R33, R230). -/
def State.trigClear (s : State) (c : Nat) : Bool :=
  let x := s.ctx c
  x.quietUpTo x.trigTk && !(x.sends.any fun b => decide (b.tk ≤ x.trigTk)) &&
    !((s.circuits c).any fun k => k.send == x.logical && !k.inFlight.isEmpty)

/-- A trigger reaches the front end once all that it covers is visible at system scope (R33, R230). -/
def execTriggerArrive (c : Nat) (s : State) : Result :=
  .next (
    let x := s.ctx c
    if x.flock.isSome && x.trigPending && s.trigClear c then
      (s.drainAll.trigger (x.flock.getD 0) x.member).updCtx c fun x => { x with trigPending := false, triggered := true }
    else s)

/-! ## Retirement of a member (R32, R260) -/

/-- Whether a member may retire: its streams have executed FIN, its commands and accesses have completed, and its matrix
engine is idle. -/
def State.canRetire (s : State) (c : Nat) : Bool :=
  let x := s.ctx c
  let fin := fun (y : StreamState) => y.phase == .done
  x.flock.isSome && x.trap.isNone && fin x.l && fin x.c && fin x.s && x.f0.isEmpty && x.started.isEmpty &&
    x.accessesDone && x.flagAdds.isEmpty && x.sends.isEmpty && x.arrivals.isEmpty && x.unanswered.isEmpty && x.mx.running.isNone &&
    x.mx.pending.isNone && (s.flock (x.flock.getD 0)).status != .killing

/-- Writes the statistics of a member, one record for each identifier from `k` up: the address of a record that is refused with
retry-after and is to be sent again; otherwise the first failing cause, 0x27 beyond the global space, and 0x47 for a record that
has been sent 8 times (R46, R51, R260, R330, R367). -/
def State.writeStats (s : State) (c : Nat) (base : Nat) : List Nat → Cause → Except Nat (State × Cause)
  | [], first => .ok (s, first)
  | k :: t, first =>
    let bs := statRecord ((s.ctx c).getStats k) k 1
    if 2 ^ 56 < base + 32 * k + 32 then s.writeStats c base t (if first = 0 then 0x27 else first)
    else
    match s.homeCheck (s.asker c) .engWrite (base + 32 * k) 32 with
    | .ok loc _ =>
      if s.fePaused (s.partOf c) (base + 32 * k) then .error (base + 32 * k)
      else (s.writeLoc loc bs).writeStats c base t first
    | .retry =>
      if s.fePaused (s.partOf c) (base + 32 * k) || decide ((s.feTried (s.partOf c) (base + 32 * k)).1 + 1 < maxSends) then
        .error (base + 32 * k)
      else s.writeStats c base t (if first = 0 then 0x47 else first)
    | .fail e => s.writeStats c base t (if first = 0 then e else first)
    | .foreign _ =>
      let e := Config.foreignCause (s.freeIx k)
      s.writeStats c base t (if first = 0 then e else first)

/-- The participant of a member in every barrier has retired (R223). -/
def State.partiesGone (s : State) (fl m : Nat) : State :=
  let gone := fun (b : BarInst) => b.updParty (partyId fl m) fun p => { p with gone := true }
  let s := s.updFlock fl fun f => { f with bars := f.bars.map fun e => (e.1, gone e.2) }
  State.wakeAll { s with dgrps := s.dgrps.map fun e => (e.1, gone e.2) }

/-- A member retires (R32), a release at system scope (R33, R66): its host-bound writes have been handed on, its statistics
are written, what is left in its queues and FIFOs is discarded, its monitors are disarmed, and it has triggered. -/
def execMemberRetire (c : Nat) (s : State) : Result :=
  .next (
    if !s.canRetire c then s
    else
      let s := s.drainAll
      let x := s.ctx c
      let fl := x.flock.getD 0
      let qs := fld ((s.flock fl).word 19) 0 56
      let base := qs + 2048 * x.member
      let out := if qs = 0 then .ok (s, 0) else s.writeStats c base (List.range 64) 0
      match out with
      | .error a => s.feAgain (s.partOf c) a 32
      | .ok (s, first) =>
        let s := (List.range 64).foldl (fun s k => s.feEnded (s.partOf c) (base + 32 * k)) s
        let s := s.updFlock fl fun f =>
          { f with doneMembers := x.member :: f.doneMembers, cause := if f.cause = 0 then first else f.cause }
        let s := s.disarm fun y => y.flock == fl && y.member == x.member
        let s := (s.setCtx c {}).partiesGone fl x.member
        if (s.flock fl).status = .preempting then s.cutFlock fl else s)

/-! ## Trap records (R401, R402) -/

/-- Bytes of the record that stand for a stream: the next word's sequence number, and the section counter. -/
def StreamState.trapBytes (y : StreamState) : List Byte := natLE 4 y.seq.toNat ++ natLE 4 y.sect.toNat

/-- Head and tail of a queue. -/
def Queue.trapBytes (q : Queue) : List Byte := natLE 4 q.head.toNat ++ natLE 4 q.tail.toNat

/-- The number of a stream in a trap record. -/
def streamNo (st : StreamId) : Nat := streamIx st

/-- The 512 bytes of a trap record (R402). Log 59, DEDUCED. -/
def trapRecord (x : Ctx) (t : TrapInfo) (f : Flock) : List Byte :=
  let fields : List (List Byte) :=
    [ [t.cause, BitVec.ofNat 8 (streamNo t.stream), t.code, BitVec.ofNat 8 (b2n (t.cause == 0x21 || t.cause == 0x23))],
      natLE 2 x.logical.toNat,
      [match f.queue with | some q => BitVec.ofNat 8 q | none => f.hid, BitVec.ofNat 8 (b2n f.queue.isNone)],
      natLE 4 f.lnum.toNat, natLE 4 0,
      wordLE (if 0x20 ≤ t.cause ∧ t.cause < 0x40 then t.addr else 0),
      natLE 4 t.seq.toNat, natLE 4 t.syl,
      x.l.trapBytes ++ x.c.trapBytes ++ x.s.trapBytes, natLE 8 0,
      x.lq.toList.flatMap Queue.trapBytes, x.sq.toList.flatMap Queue.trapBytes, x.bq.trapBytes,
      (List.range 4).flatMap fun k =>
        natLE 2 (x.fifoHead.toList.getD k 0).toNat ++ natLE 2 (x.fifoTail.toList.getD k 0).toNat,
      wordLE x.leCtl, wordLE (fieldWord [(32, x.le.n.toNat), (0, x.le.k.toNat)]),
      (List.range 4).flatMap fun k => wordLE (x.leLvl k),
      wordLE x.mx.stat, wordLE (fieldWord [(8, x.awpBar.toNat), (0, b2n x.awp)]),
      List.replicate 232 0 ]
  fields.flatten

/-- TRAPCTL's resume of a member that stands at a trap: at once on its core, with its record written and no cut
pending; else with its flock, or with its record (R403). -/
def Ctx.resumeTrap (x : Ctx) : Ctx :=
  match x.trap with
  | none => x
  | some t => if t.written ∧ !x.preempt then x.returnFromTrap.wake else { x with resumeWith := true }

/-- Whether a trapped member stands at its cut: its accesses have completed, and its matrix engine is between passes (R175,
R235, R293). -/
def State.trapSettled (s : State) (c : Nat) : Bool :=
  let x := s.ctx c
  x.accessesDone && x.mx.atCut && x.waitAnswered && s.noWake (x.flock.getD 0) x.member

/-- Notes that a trap record has had to wait for space, once for each record (R394). Log 41, DEDUCED. -/
def State.recordWaits (s : State) (c part : Nat) (t : TrapInfo) : State :=
  if t.waited then s
  else
    (s.updCtx c fun x => { x with trap := some { t with waited := true } }).updPart part fun p =>
      { p with trapWaited := satAdd (2 ^ 32 - 1) p.trapWaited 1 }

/-- The front end writes a trapped member's record to TRAPQ, once its cut is complete and an entry is free (R401).
Log 41, DEDUCED. -/
def execTrapRecordWrite (c : Nat) (s : State) : Result :=
  .next (
    let x := s.ctx c
    let f := s.flock (x.flock.getD 0)
    let p := s.part f.part
    match x.trap with
    | none => s
    | some t =>
      if t.written ∨ x.flock.isNone ∨ s.trapSettled c = false then s
      else if (p.trapN - p.trapHead).toNat = p.ntrap then s.recordWaits c f.part t
      else
        let s := (s.withdrawWait c).updCtx c Ctx.stands
        let a := p.trapq.toNat + 512 * (p.trapN.toNat % p.ntrap)
        match s.feWrite f.part a (trapRecord (s.ctx c) t f) with
        | (_, .again) => s.feAgain f.part a 512
        | (s, _) =>
          (s.updPart f.part fun p => { p with trapN := p.trapN + 1 }).updCtx c fun x =>
            let x := { x with trap := some { t with written := true } }
            if x.resumeWith ∧ !x.preempt then x.returnFromTrap.wake else x)

/-! ## TRAPCTL (R403, R404) -/

/-- The member of a partition on a logical core that stands at a trap: its flock and number. -/
def State.trapped (s : State) (part : Nat) (id : BitVec 12) : Option (Nat × Nat) :=
  (s.flocks.find? fun e =>
    e.2.part == part && e.2.members.contains id &&
      (let i := e.2.members.idxOf id
       ((s.cores.any fun x => x.2.flock == some e.1 && x.2.member == i && x.2.trap.isSome) ||
         (mget {} e.2.ctxs i).trap.isSome))).map fun e => (e.1, e.2.members.idxOf id)

/-- The cause at which a member of a flock stands. -/
def State.trapCause (s : State) (fl m : Nat) : Cause :=
  let of := fun (x : Ctx) => (x.trap.map (·.cause)).getD 0
  match s.cores.find? fun e => e.2.flock == some fl && e.2.member == m with
  | some (_, x) => of x
  | none => of (mget {} (s.flock fl).ctxs m)

/-- What an action of TRAPCTL does to the member on a core that stands at a trap: 1 resumes it, 2 kills its flock with the
trap's cause; one that stands at no trap is left as it is (R403, R404). Log 35, DEDUCED. -/
def State.trapAct (s : State) (part : Nat) (act : Byte) (core : BitVec 12) : State :=
  match s.trapped part core with
  | none => s
  | some (fl, m) =>
    if act = 1 then s.updMember fl m Ctx.resumeTrap
    else if act = 2 then s.kill fl (s.trapCause fl m) true false
    else s

/-- TRAPCTL.GO: ACT and CORE keep what was written, and the action waits while the shepherd core restarts (R408). -/
def State.trapGo (s : State) (part : Nat) (act : Byte) (core : BitVec 12) : State :=
  if !(s.part part).exists_ then s
  else
    let s := s.updPart part fun p => { p with trapAct := act, trapCore := core }
    if s.glob.shr then s.updPart part fun p => { p with trapActs := p.trapActs ++ [(act, core)] }
    else s.trapAct part act core

/-- The actions of TRAPCTL that have waited are done in order. -/
def State.trapActsDone (s : State) (part : Nat) : State :=
  (s.part part).trapActs.foldl (fun s a => s.trapAct part a.1 a.2) (s.updPart part fun p => { p with trapActs := [] })

/-- TRAPCTL resume (R403). -/
def execTrapctlResume (part : Nat) (core : BitVec 12) (s : State) : Result := .next (s.trapGo part 1 core)

/-- TRAPCTL kill (R404). -/
def execTrapctlKill (part : Nat) (core : BitVec 12) (s : State) : Result := .next (s.trapGo part 2 core)

end Sys2Proof.Machine
end

