-- ==== Sys2Proof/Machine/Packets.lean ====
section
/-! DEFINITION. The packets of a queue (R384 to R397): the ring, the checks of a header, and each packet's effect. -/

namespace Sys2Proof.Machine

/-! ## The ring (R381, R384, R391) -/

/-- The bytes of a queue's ring. -/
def CmdQueue.size (k : CmdQueue) : Nat := 2 ^ k.lsz

/-- The address of the byte of count `n`. -/
def CmdQueue.at (k : CmdQueue) (n : W32) : Nat := (k.base.toNat + n.toNat % k.size) % 2 ^ 56

/-- The bytes that the host has written and the queue has not consumed. -/
def CmdQueue.avail (k : CmdQueue) : Nat := (k.t - k.h).toNat

/-- The most bytes that a queue reads beyond its head. -/
def aheadBytes : Nat := 16384

/-- Reads the unit of 32 bytes at count `n`: the bytes as they are now, or, in any 8-byte piece that was read ahead, as
they were then (R384, R391). Log 24, DESIGN CHOICE. -/
def State.ringUnit (s : State) (part q : Nat) (n : W32) : Except FrontAns (List Byte) :=
  let k := s.queue part q
  match s.feRead part (k.at n) 32, k.ahead.find? fun e => e.1 == n.toNat with
  | .ok now, none => .ok now
  | .ok now, some old => .ok ((List.range 4).flatMap fun i =>
      let pick := fun (bs : List Byte) => (bs.drop (8 * i)).take 8
      if Config.anyBool (s.freeIx (n.toNat * 4 + i)) then pick old.2 else pick now)
  | .error _, some old => .ok old.2
  | .error e, none => .error e

/-- Reads units of the ring in order. Log 24, DESIGN CHOICE. -/
def State.ringUnits (s : State) (part q : Nat) : Nat → W32 → Except FrontAns (List Byte)
  | 0, _ => .ok []
  | c + 1, n =>
    match s.ringUnit part q n with
    | .error e => .error e
    | .ok bs =>
      match s.ringUnits part q c (n + 32) with
      | .error e => .error e
      | .ok r => .ok (bs ++ r)

/-- The queue reads some of the units beyond its head that have been written. Log 24, DESIGN CHOICE. -/
def State.fetchAhead (s : State) (part q : Nat) : State :=
  let k := s.queue part q
  let units := min (min k.avail aheadBytes / 32) (Config.anyNat (s.freeIx 3) % (aheadBytes / 32 + 1))
  (List.range units).foldl (fun s i =>
    let n := k.h + BitVec.ofNat 32 (32 * i)
    if (s.queue part q).ahead.any fun e => e.1 == n.toNat then s
    else
      match s.feRead part (k.at n) 32 with
      | .ok bs => s.updQueue part q fun k => { k with ahead := k.ahead ++ [(n.toNat, bs)] }
      | .error _ => s) s

/-- The words of ring bytes. -/
def packetOf (bs : List Byte) : Packet := { words := (List.range (bs.length / 8)).map (wordAt bs) }

end Sys2Proof.Machine

namespace Sys2Proof

open Machine

/-- Word `i` of a packet. -/
def Packet.word (p : Packet) (i : Nat) : W64 := p.words.getD i 0
/-- LEN of a packet header, in units of 32 bytes (R386). -/
def Packet.len (p : Packet) : Nat := fld (p.word 0) 40 16
/-- FLG of a packet header. -/
def Packet.flg (p : Packet) : Nat := fld (p.word 0) 32 8

/-- The flags that a packet's type defines (R386, R387, R390, R395). -/
def Packet.flagBits (p : Packet) : Nat :=
  match p.type with
  | 0x01 => 1
  | 0x02 | 0x04 | 0x09 => 2
  | 0x03 => 4
  | 0x07 => 3
  | _ => 0

/-- The reserved fields of a header are zero, and so are the flags that its type does not define; in WRITE, FLG bit 0. -/
def Packet.headerOk (p : Packet) : Bool :=
  p.len != 0 && fld (p.word 0) 0 32 == 0 && p.flg / 2 ^ p.flagBits == 0 && !(p.type == 0x07 && p.flg % 2 == 1)

/-- The LEN that a packet's type asks for (R386, R390). -/
def Packet.lenOk (p : Packet) : Bool :=
  match p.type with
  | 0x01 => p.len == 9
  | 0x06 => true
  | 0x07 => p.len == 1 + (fld (p.word 2) 0 16 + 31) / 32
  | 0x08 => p.len == 3
  | _ => p.len == 1

/-- The reserved bits of words 1 to 3, and the values that R387 and R390 refuse. -/
def Packet.fieldsOk (p : Packet) : Bool :=
  let addr := fld (p.word 1) 56 8 == 0
  let none3 := p.word 3 == 0
  let cmp := p.flg % 4
  let waitfor := p.flg / 2 % 4
  match p.type with
  | 0x02 => addr && cmp != 3 && (p.word 1).toNat % 8 == 0
  | 0x03 => addr && none3 && waitfor != 3 && (p.word 1).toNat % 8 == 0
  | 0x04 => p.word 1 == 0 && p.word 2 == 0 && none3 && cmp != 3
  | 0x05 | 0x06 => p.word 1 == 0 && p.word 2 == 0 && none3
  | 0x07 => addr && fld (p.word 2) 16 48 == 0 && fld (p.word 2) 0 16 != 0 && none3 && waitfor != 3
  | 0x08 => addr && p.word 2 == 0 && none3
  | 0x09 => fld (p.word 1) 32 8 == 0 && fld (p.word 1) 48 16 == 0 && p.word 2 == 0 && none3 && cmp != 3
  | 0x0A =>
    let per := (p.word 1).toNat
    let ph := (p.word 2).toNat
    per < 2 ^ 32 && ph < 2 ^ 32 && none3 && (per == 0 || 100000 ≤ per) && ph < max per 1
  | 0x0B => addr && p.word 2 == 0 && none3 && (p.word 1).toNat % 64 == 0
  | _ => true

/-- ADDR of a packet. -/
def Packet.addr (p : Packet) : Nat := fld (p.word 1) 0 56

end Sys2Proof

namespace Sys2Proof.Machine

/-! ## A packet at the head (R384) -/

/-- What the front end makes of the head of a queue: a new state, or a packet to be processed. -/
inductive HeadFind where
  | state (s : State)
  | run (p : Packet)

/-- A failed read of the ring: retry-after is tried again, anything else stops the queue. -/
def State.ringFail (s : State) (part q : Nat) (e : FrontAns) : State :=
  match e with
  | .fail c => s.stopQueue part q 0x88 c
  | _ => s

/-- The first stop that a header's own checks find, after its type (R384, in order). Log 37, DEDUCED. -/
def CmdQueue.headerStop (k : CmdQueue) (p : Packet) : Cause :=
  if !p.headerOk then 0x86
  else if k.size < 32 * p.len then 0x8E
  else if p.type ≠ 0x05 ∧ k.size < k.h.toNat % k.size + 32 * p.len then 0x84
  else 0

/-- The bytes that a packet needs before it is processed: a WRAP the rest of the ring (R384). -/
def CmdQueue.needs (k : CmdQueue) (p : Packet) : Nat := if p.type = 0x05 then k.size - k.h.toNat % k.size else 32 * p.len

/-- The front end looks at the head of a queue (R384): a packet in process is gone on with, also where the queue has been
disabled meanwhile (R383). Log 37, DEDUCED. -/
def State.headOf (s : State) (part q : Nat) : HeadFind :=
  let k := s.queue part q
  match k.sig.orElse fun _ => k.work with
  | some p => .run p
  | none =>
    if !k.en || (k.state != queueRunning && k.state != queueWaiting) || k.avail == 0 then .state s
    else
      if k.avail < 32 then .state (s.updQueue part q CmdQueue.waitHead)
      else
        match s.ringUnits part q 1 k.h with
        | .error e => .state (s.ringFail part q e)
        | .ok bs =>
          let p := packetOf bs
          if p.type = 0 ∨ 0x0C ≤ p.type then .run p
          else
            let stop := k.headerStop p
            if stop ≠ 0 then .state (s.stopQueue part q stop 0)
            else if p.type = 0x05 ∧ !(p.lenOk && p.fieldsOk) then .state (s.stopQueue part q 0x86 0)
            else if k.avail < k.needs p then .state (s.updQueue part q CmdQueue.waitHead)
            else
              match s.ringUnits part q p.len k.h with
              | .error e => .state (s.ringFail part q e)
              | .ok bs => .run (packetOf bs)

/-- A packet's processing under the checks of its LEN and fields: 0x86 (R386, R387). Log 37, DEDUCED. -/
def State.onPacket (s : State) (p : Packet) (f : Nat → Nat → State → State) : Result :=
  .next (
    match s.queueAtWork with
    | none => s
    | some (n, q) => if p.lenOk && p.fieldsOk then f n q s else s.stopQueue n q 0x86 0)

/-- A packet whose type needs policy: it waits at the head while the shepherd core restarts (R408). Log 42, DEDUCED. -/
def State.onPolicy (s : State) (p : Packet) (f : Nat → Nat → State → State) : Result :=
  s.onPacket p fun n q s => if s.glob.shr then s.packetWaits else f n q s

/-! ## LAUNCH (R30, R393, R395 to R397) -/

/-- Whether the oldest of a queue's 256 launch entries is still in use: named by a waiting dependant, or not retired. -/
def State.entryBusy (s : State) (part q : Nat) : Bool :=
  let old := (s.queue part q).nextL - BitVec.ofNat 32 launchEntries
  match s.findLaunch part q old with
  | none => false
  | some (_, f) =>
    !(f.status == .retired || (f.status == .failed && f.wrote)) ||
      s.flocks.any fun e => e.2.part == part && e.2.status == .waiting && e.2.queue.isSome && e.2.deps.contains (q, old)

/-- A LAUNCH is parsed: it takes a number, is validated, and its image is as it stands now (R77, R395, R396). That of a
cadence queue is not to be placed before a tick releases it (R37). -/
def State.parseLaunch (s : State) (part q : Nat) (p : Packet) : State :=
  let k := s.queue part q
  let fl := s.nextFlock
  let f : Flock := { part := part, queue := some q, lnum := k.nextL, pkt := p.words, turn := fl }
  let f := { f with members := f.box }
  let v := s.validate f
  let f := if v.1 = 0 then s.snapshot f else f
  let s := { s with flocks := mset s.flocks fl { f with released := k.cadP == 0 }, nextFlock := fl + 1 }
  let s := s.updQueue part q fun k =>
    { k with nextL := k.nextL + 1, parsed := (k.parsed + 1) % 2 ^ 32, atHead := some fl }
  if v.1 = 0 then s else s.endLaunch fl v.1 v.2

/-- The launch at the head: it fails with a dependence; that of a cadence queue leaves once its dependences hold; any
other waits for its placement (R29, R30, R37). -/
def State.launchHead (s : State) (part q fl : Nat) : State :=
  let s := s.settleDeps
  let f := s.flock fl
  if (s.queue part q).atHead ≠ some fl then s
  else if (s.queue part q).cadP ≠ 0 ∧ s.depsMet f ∧ s.cadenceLate part q fl = false then s.toTick part q fl
  else s.packetWaits

/-- LAUNCH. -/
def execLaunch (p : Packet) (s : State) : Result :=
  s.onPolicy p fun n q s =>
    match (s.queue n q).atHead with
    | some fl => s.launchHead n q fl
    | none =>
      if s.entryBusy n q then s.packetWaits
      else
        let fl := s.nextFlock
        (s.parseLaunch n q p).launchHead n q fl

/-! ## WAITFOR (R387, R388) -/

/-- Whether what a WAITFOR names has come about. -/
def State.waitedFor (s : State) (part q wf : Nat) : Bool :=
  let mine := s.flocks.filter fun e => e.2.part == part && e.2.queue == some q
  match wf with
  | 1 => mine.all fun e => e.2.triggered || e.2.status == .failed
  | 2 => mine.all fun e => e.2.status == .retired || e.2.status == .failed
  | _ => true

/-- A packet that waits under WAITFOR, an acquire at system scope. -/
def State.afterWaitfor (s : State) (part q wf : Nat) (p : Packet) (f : State → State) : State :=
  if s.waitedFor part q wf then f (if wf = 0 then s else s.systemRelease) else s.packetKept p

/-! ## WAITSIG (R389) -/

/-- The condition of a WAITSIG on the 8 bytes read. Log 49, DEDUCED. -/
def sigHolds (p : Packet) (v : W64) : Bool :=
  let x := v &&& p.word 3
  let y := p.word 2 &&& p.word 3
  match p.flg % 4 with
  | 0 => x == y
  | 1 => x != y
  | _ => decide (0 ≤ (x - y).toInt)

/-- Arms the monitor of a WAITSIG with the `x` read as its expected value, unless its home's table is full: then, and for a
host-window address, the location is polled (R389). Where the location is not equal to `x`, the monitor wakes at once: no
monitor stands, and the location is read again. Log 49, DEDUCED. -/
def State.armSig (s : State) (part q a : Nat) (x : W64) : State :=
  let poll := s.updQueue part q fun k => { k with armed := false, polledAt := s.now }
  let armed := fun (s : State) => s.updQueue part q fun k => { k with armed := true }
  match s.homeCheck (frontAsker part) .waita a 8, s.homeTile part a with
  | .ok loc _, some t =>
    let add := fun (mem : Bool) (pa : Nat) =>
      let m : Monitor :=
        { flock := sigKey part q, member := 0, tk := 0, nb := true, va := BitVec.ofNat 64 a, mem := mem, pa := pa, exp := x }
      armed (s.updTile t fun y => { y with monitors := y.monitors ++ [m] })
    if 256 ≤ (s.tile t).monitors.countP (fun m => m.fired.isNone) then poll
    else if leWord (s.readLoc loc 8) ≠ x then armed s
    else
      match loc with
      | .panel tl o => add true (s.panelKey tl o)
      | .lm c o => add false (lmKey c o)
      | _ => poll
  | .fail c, some _ => s.stopQueue part q 0x88 c
  | _, _ => poll

/-- Reads the location of a WAITSIG and acts on it (R389). Log 49, DEDUCED. -/
def State.trySig (s : State) (part q : Nat) (p : Packet) : State :=
  match s.feRead part p.addr 8 with
  | .error (.fail c) => s.stopQueue part q 0x88 c
  | .error _ => s.updQueue part q CmdQueue.waitHead
  | .ok bs =>
    let s := s.disarmSig part q
    if sigHolds p (leWord bs) then s.systemRelease.updQueue part q fun k => k.leaveHead 32
    else (s.updQueue part q fun k => { k.waitHead with sig := some p }).armSig part q p.addr
      (leWord bs &&& p.word 3)

/-- Whether the monitor of a queue's WAITSIG stands armed. -/
def State.sigArmed (s : State) (part q : Nat) : Bool :=
  (s.queue part q).armed && s.tiles.any fun e => e.2.monitors.any fun m => m.flock == sigKey part q && m.fired.isNone

/-- WAITSIG: read at once, and again when its monitor has woken. -/
def execWaitsig (p : Packet) (s : State) : Result :=
  s.onPacket p fun n q s =>
    let k := s.queue n q
    if k.sig.isNone ∨ (k.armed ∧ s.sigArmed n q = false) then s.trySig n q p else s

/-- A poll of a WAITSIG location, 1 µs after the last read (R389). -/
def execWaitsigPoll (part q : Nat) (s : State) : Result :=
  .next (
    let k := s.queue part q
    match k.sig with
    | none => s
    | some p => if k.armed ∨ s.now < k.polledAt + 1000 then s else s.trySig part q p)

/-! ## SIGNAL, FETCHFENCE, WRAP, PAD, WRITE, COPY (R387 to R391) -/

/-- Sends a queue's interrupt. -/
def State.queueIrq (s : State) (part q : Nat) : State :=
  s.sendIrq (s.queue part q).irqPort (s.queue part q).irqVec

/-- Whether every COPY packet that a queue has handed to the front end's engine has completed. -/
def State.copiesDone (s : State) (part q : Nat) : Bool :=
  let x := s.ctx (frontCore + part)
  (x.f0.all fun e => e.queue != some q) && x.started.all fun t => t.queue != some q

/-- SIGNAL: a write or an addition, a release at system scope, once the writes of every earlier packet of its queue are made,
those of COPY packets among them; then the interrupt (R388). -/
def execSignalPacket (p : Packet) (s : State) : Result :=
  s.onPacket p fun n q s =>
    s.afterWaitfor n q (p.flg / 2 % 4) p fun s =>
      if !s.copiesDone n q then s.packetKept p
      else
        let t := s.systemRelease
        let r := if p.flg % 2 = 1 then t.feAdd n (p.word 1) (p.word 2) else t.feWrite n p.addr (wordLE (p.word 2))
        match r with
        | (t, .done) => (if bit (p.word 0) 35 then t.systemRelease.queueIrq n q else t).packetDone p
        | r => s.packetAfter r p p.addr 8

/-- FETCHFENCE: what has been read beyond it is discarded, and fetches of later launches see every write before it (R77,
R391). -/
def execFetchfence (p : Packet) (s : State) : Result :=
  s.onPolicy p fun n q s =>
    s.afterWaitfor n q (p.flg % 4) p fun s =>
      (s.updQueue n q fun k =>
        { k with ahead := [], fence := { mem := s.mem, lm := s.lm, hostMem := s.hostMem } }).packetDone p

/-- WRAP: the head goes to the start of the ring. -/
def execWrap (p : Packet) (s : State) : Result :=
  s.onPacket p fun n q s => s.updQueue n q fun k => k.leaveHead (k.needs p)

/-- PAD: skipped. -/
def execPad (p : Packet) (s : State) : Result := s.onPacket p fun _ _ s => s.packetDone p

/-- The bytes of a packet from byte `lo`. -/
def Packet.data (p : Sys2Proof.Packet) (lo n : Nat) : List Byte := ((wordsLE p.words).drop lo).take n

/-- WRITE. -/
def execWritePacket (p : Packet) (s : State) : Result :=
  s.onPacket p fun n q s =>
    s.afterWaitfor n q (p.flg / 2 % 4) p fun s =>
      s.packetAfter (s.feWrite n p.addr (Packet.data p 32 (fld (p.word 2) 0 16))) p p.addr (fld (p.word 2) 0 16)

/-- The command record that a COPY packet carries. -/
def Packet.record (p : Sys2Proof.Packet) : CmdRecord :=
  { w0 := p.word 4, w1 := p.word 5, w2 := p.word 6, w3 := p.word 7, w4 := p.word 8, w5 := p.word 9, w6 := p.word 10,
    w7 := p.word 11 }

/-- COPY: its record goes to the copy engine of the front end, which has as many places for records as it needs; the queue
does not wait for it (R390). Log 32, DEDUCED. -/
def execCopyPacket (p : Packet) (s : State) : Result :=
  s.onPacket p fun n q s =>
    (s.updCtx (frontCore + n) fun x =>
      { x with
        tk := x.tk + 1
        f0 := x.f0 ++ [{ cmd := Packet.record p, scope := .system, tk := x.tk, recAt := p.addr, queue := some q }] }).packetDone p

/-! ## PREEMPT (R392) -/

/-- The launch that a PREEMPT names. -/
def State.preemptTarget (s : State) (part : Nat) (p : Packet) : Option (Nat × Flock) :=
  s.findLaunch part (fld (p.word 1) 40 8) (BitVec.ofNat 32 (fld (p.word 1) 0 32))

/-- Whether a flock has neither retired nor failed, and is not being killed. -/
def Flock.live (f : Flock) : Bool :=
  match f.status with
  | .waiting | .placed | .running | .preempting | .preempted => true
  | .killing | .retired | .failed => false

/-- PREEMPT suspend: a waiting launch is not placed, a running one is pre-empted and not scheduled again. -/
def execPreemptSuspend (p : Packet) (s : State) : Result :=
  s.onPolicy p fun n _ s =>
    let s :=
      match s.preemptTarget n p with
      | none => s
      | some (fl, f) => if f.live then (s.updFlock fl fun f => { f with suspended := true }).preempt fl else s
    s.packetDone p

/-- PREEMPT resume: a suspended launch is scheduled again. -/
def execPreemptResume (p : Packet) (s : State) : Result :=
  s.onPolicy p fun n _ s =>
    let s :=
      match s.preemptTarget n p with
      | none => s
      | some (fl, _) => s.updFlock fl fun f => { f with suspended := false }
    s.packetDone p

/-- PREEMPT kill. Log 35, DEDUCED. -/
def execPreemptKill (p : Packet) (s : State) : Result :=
  s.onPolicy p fun n _ s =>
    let s :=
      match s.preemptTarget n p with
      | none => s
      | some (fl, _) => s.kill fl 0x89 false true
    s.packetDone p

/-! ## CADENCE and QSTATUS (R393, R394) -/

/-- CADENCE. -/
def execCadence (p : Packet) (s : State) : Result :=
  s.onPolicy p fun n q s =>
    (s.updQueue n q fun k =>
      { k with cadP := (p.word 1).toNat, cadPhase := (p.word 2).toNat, cadAt := s.now - (s.part n).createdAt }).packetDone p

/-- The record of QSTATUS. -/
def State.statusRecord (s : State) (part q : Nat) : List Byte :=
  let k := s.queue part q
  let p := s.part part
  natLE 4 k.h.toNat ++ natLE 4 k.t.toNat ++ natLE 4 k.parsed ++
    [BitVec.ofNat 8 queueRunning, if k.cause = 0x88 then k.mem else k.cause, 0, 0] ++
    natLE 4 k.ignored ++ natLE 4 k.missed ++ natLE 8 ((s.tickNow part q).getD 0) ++ natLE 4 p.forcedCuts ++
    natLE 4 p.rxDiscarded ++ natLE 4 p.trapWaited ++ natLE 4 p.faultDropped ++ List.replicate 16 0

/-- QSTATUS. -/
def execQstatus (p : Packet) (s : State) : Result :=
  s.onPacket p fun n q s => s.packetAfter (s.feWrite n p.addr (s.statusRecord n q)) p p.addr 64

/-- A reserved type stops the queue with 0x8F (R384, R386). -/
def execReservedPacket (_p : Packet) (s : State) : Result := .next (s.packetStops 0x8F 0)

end Sys2Proof.Machine
end

