-- ==== Sys2Proof/Machine/Registers.lean ====
section
/-! DEFINITION. What the host does through BAR0 and the HDM range: queues and doorbells (R380 to R385), partitions
(R376, R377), the registers of every block (R352, R363, R365, R367, R371 to R379, R382, R383, R403, R409, R432, R433), and
routed faults (R363, R364, R406). -/

namespace Sys2Proof.Machine

/-! ## Doorbells (R382) -/

/-- DOORBELL_q: what the fixed hardware latches. -/
def State.doorbell (s : State) (part q : Nat) (x : W32) : State :=
  let k := s.queue part q
  if !k.en then s
  else if x.toNat % 32 ≠ 0 ∨ k.size < (x - k.h).toNat then s.stopQueue part q 0x85 0
  else
    let age := (x - k.t).toNat
    if 1 ≤ age ∧ age < 2 ^ 31 then s.updQueue part q fun k => { k with t := x }
    else s.updQueue part q fun k => { k with ignored := satAdd (2 ^ 32 - 1) k.ignored 1 }

/-- Whether a partition has been created and has queue `q`. -/
def State.hasQueue (s : State) (part q : Nat) : Bool := (s.part part).exists_ && decide (q < (s.part part).nq)

/-- A host write to DOORBELL_q. -/
def execDoorbellWrite (part q : Nat) (x : W32) (s : State) : Result :=
  .next (if s.hasQueue part q then s.doorbell part q x else s)

/-! ## QCTL (R380, R383) -/

/-- Whether the eight words of a queue descriptor keep its limits (R380). -/
def descriptorOk (w : List W64) : Bool :=
  let f := fun k lo len => fld (w.getD k 0) lo len
  let lsz := f 1 24 5
  f 0 56 8 == 0 && 12 ≤ lsz && lsz ≤ 24 && f 0 0 56 % 2 ^ lsz == 0 && f 1 32 32 % 32 == 0 && f 1 29 3 == 0 && f 1 0 16 == 0 &&
    f 2 56 8 == 0 && f 2 0 56 % 8 == 0 && f 3 32 32 == 0 && (f 3 0 32 == 0 || 100000 ≤ f 3 0 32) && f 4 18 46 == 0 &&
    f 4 0 16 < 2048 && w.getD 5 0 == 0 && w.getD 6 0 == 0 && w.getD 7 0 == 0

/-- A queue as its descriptor sets it. Log 33, DEDUCED; log 38, DEDUCED. -/
def CmdQueue.enabled (k : CmdQueue) (w : List W64) : CmdQueue :=
  let f := fun i lo len => fld (w.getD i 0) lo len
  let seq0 := BitVec.ofNat 32 (f 1 32 32)
  { k with
    en := true, enabling := false, state := queueRunning, cause := 0, mem := 0, base := BitVec.ofNat 64 (f 0 0 56), lsz := f 1 24 5, prio := f 1 16 8
    headwb := BitVec.ofNat 64 (f 2 0 56), cadP := f 3 0 32, cadPhase := 0, irqPort := f 4 16 2, irqVec := f 4 0 16
    h := seq0, t := seq0, everEnabled := true, parsed := 0, ignored := 0, wbDue := false, ahead := [], sig := none
    armed := false, work := none, cadAt := 0, atHead := none }

/-- EN goes from 0 to 1: the descriptor is read; one that breaks a limit, or cannot be read, leaves the queue disabled. At
retry-after the read is made again (R388). -/
def State.enableQueue (s : State) (part q : Nat) : State :=
  let refuse := fun (c : Cause) (m : Cause) =>
    s.updQueue part q fun k => { k with en := false, enabling := false, state := queueDisabled, cause := c, mem := m }
  if (s.queue part q).en then s
  else
    match s.feRead part ((s.part part).qtab.toNat + 64 * q) 64 with
    | .error (.fail c) => refuse 0x88 c
    | .error _ => s.updQueue part q fun k => { k with enabling := true }
    | .ok bs =>
      let w := (packetOf bs).words
      if descriptorOk w then (s.disarmSig part q).updQueue part q fun k => k.enabled w else refuse 0x86 0

/-- QCTL_q.EN goes to 1. -/
def execQueueEnable (part q : Nat) (s : State) : Result := .next (if s.hasQueue part q then s.enableQueue part q else s)

/-- Whether a waiting launch depends on a launch of a queue that has not been parsed. -/
def State.dependsUnparsed (s : State) (part q : Nat) (f : Flock) : Bool :=
  f.part == part && f.status == .waiting && f.queue.isSome &&
    f.deps.any fun d => d.1 == q && (let age := ((s.queue part q).nextL - d.2).toNat; decide (age = 0 ∨ 2 ^ 31 ≤ age))

/-- Every waiting dependence on a launch of a queue that has not been parsed fails (R29, R383). -/
def State.failUnparsed (s : State) (part q : Nat) : State :=
  ((s.flocks.filter fun e => s.dependsUnparsed part q e.2).foldl (fun s e => s.endLaunch e.1 0x82 0) s).settleDeps

/-- EN goes to 0. -/
def State.disableQueue (s : State) (part q : Nat) : State :=
  if (s.queue part q).en then
    (s.updQueue part q fun k => { k with en := false, state := queueDisabled }).failUnparsed part q
  else s.updQueue part q fun k => { k with enabling := false }

/-- QCTL_q.EN goes to 0. -/
def execQueueDisable (part q : Nat) (s : State) : Result := .next (if s.hasQueue part q then s.disableQueue part q else s)

/-- RESET of a stopped queue: H := T, and it runs. Log 38, DEDUCED. -/
def State.resetQueue (s : State) (part q : Nat) : State :=
  if (s.queue part q).state = queueStopped then
    (s.updQueue part q fun k =>
      { k with h := k.t, state := queueRunning, ahead := [], atHead := none, wbDue := true }).failUnparsed part q
  else s

/-- QCTL_q.RESET. -/
def execQueueReset (part q : Nat) (s : State) : Result := .next (if s.hasQueue part q then s.resetQueue part q else s)

/-- RETRY of a stopped queue: the packet at H is read again. Log 38, DEDUCED. -/
def State.retryQueue (s : State) (part q : Nat) : State :=
  if (s.queue part q).state = queueStopped then
    s.updQueue part q fun k => { k with state := queueRunning, ahead := [] }
  else s

/-- QCTL_q.RETRY. -/
def execQueueRetry (part q : Nat) (s : State) : Result := .next (if s.hasQueue part q then s.retryQueue part q else s)

/-- The head is written back as a release at system scope (R385). -/
def execHeadWriteback (part q : Nat) (s : State) : Result :=
  .next (
    let k := s.queue part q
    if !k.wbDue then s
    else if k.headwb = 0 then s.updQueue part q fun k => { k with wbDue := false }
    else
      match s.systemRelease.feWrite part k.headwb.toNat (natLE 8 k.h.toNat) with
      | (_, .again) => s.feAgain part k.headwb.toNat 8
      | (t, _) => t.updQueue part q fun k => { k with wbDue := false })

/-! ## Partitions (R376, R377, R413, R414) -/

/-- The partition that a descriptor describes. -/
def partOfDescriptor (w : List W64) : Partition :=
  let f := fun k lo len => fld (w.getD k 0) lo len
  let a := fun k => BitVec.ofNat 64 (f k 0 56)
  { exists_ := true
    x0 := f 0 0 3, y0 := f 0 3 3, w := f 0 6 3 + 1, h := f 0 9 3 + 1, lit := f 0 12 4, carve := f 0 16 4
    asid := BitVec.ofNat 16 (f 0 48 16), dasid := BitVec.ofNat 16 (f 0 32 16)
    quantum := f 1 32 32, ptimeout := f 1 0 32, ptroot := f 2 0 42, rtbase := f 3 0 42
    qtab := a 4, nq := f 5 0 9, trapq := a 6, ntrap := f 7 0 17, faultq := a 8, nfault := f 9 0 17
    htab := a 10, nh := f 11 0 9, ctxoff := f 12 0 42 }

/-- Whether a number of entries is a power of two from 1 to 65,536. -/
def entriesOk (n : Nat) : Bool := (List.range 17).any fun k => n == 2 ^ k

/-- Whether the fields of a descriptor keep their limits. -/
def partFieldsOk (w : List W64) (p : Partition) : Bool :=
  let f := fun k lo len => fld (w.getD k 0) lo len
  f 0 20 12 == 0 && p.carve ≤ 7 && 1 ≤ p.lit && p.lit ≤ 4 && p.x0 + p.w ≤ 8 && p.y0 + p.h ≤ 8 && 250 ≤ p.quantum &&
    p.quantum ≤ 64000 && 10 ≤ p.ptimeout && p.ptimeout ≤ 10000 && f 2 42 22 == 0 && p.ptroot % 2 ^ 15 == 0 && f 3 42 22 == 0 &&
    p.rtbase % 2 ^ 23 == 0 && f 4 56 8 == 0 && f 5 9 55 == 0 && 1 ≤ p.nq && p.nq ≤ 256 && f 6 56 8 == 0 && f 7 17 47 == 0 &&
    entriesOk p.ntrap && f 8 56 8 == 0 && f 9 17 47 == 0 && entriesOk p.nfault && f 10 56 8 == 0 && f 11 9 55 == 0 &&
    p.nh ≤ 256 && f 12 42 22 == 0 && p.ctxoff % 2 ^ 28 == 0 && p.ctxoff < 2 ^ 36 &&
    (List.range 19).all fun i => w.getD (13 + i) 0 == 0

/-- The physical tiles of a partition. -/
def Partition.tileList (p : Partition) : List Nat := (List.range p.tiles).map p.physTile

/-- The working layers of a tile, in ascending order. Log 43, DEDUCED. -/
def TileSt.working (t : TileSt) : List Nat := (List.range 4).filter fun k => !(t.layers.toList.getD k {}).testFailed

/-- Whether a tile can take a number of lit layers (R414). Log 43, DEDUCED. -/
def State.litOk (s : State) (tile lit : Nat) : Bool :=
  decide (lit ≤ (s.tile tile).working.length) && (lit != 4 || s.fw.fourTiles.contains tile)

/-- A port end whose wavelengths all begin in a state, with no flit under way. -/
def PortSt.anew (st : WlState) (now : Nat) (p : PortSt) : PortSt :=
  { (List.range 8).foldl (fun p k => p.updLane k fun w =>
      { w with state := st, excluded := false, crossed := false, met := false, attempts := 0, since := now,
               outSince := none, viaMesh := false, lineLost := false }) p with
    trained := false, half := false, txSeq := 0, replay := [], penSent := [], outbox := [], deal := 0, rxSeq := 0
    heldFlits := [], delivered := [], nacks := [], nackOut := [] }

/-- A tile that no partition holds: its ports are as before their training (R376). -/
def TileSt.freed (t : TileSt) (now : Nat) : TileSt :=
  { t with
    part := none, monitors := [], replies := [], floors := [], tlb := [], slots := [], movedCtxs := [], ctxBytes := []
    rx := t.rx.map (PortSt.anew .idle now), tx := t.tx.map (PortSt.anew .idle now) }

/-- The roles of a tile's layers at a create (R413); each layer stands at level 0 until it is granted another (R414, R424).
Log 45, DEDUCED. -/
def TileSt.rolesAnew (t : TileSt) (lit : Nat) : TileSt :=
  let ok := t.working
  let layer := fun (k : Nat) (l : Layer) =>
    let i := ok.idxOf k
    let role : Role := if ok.contains k then if i < lit then .lit else if i = lit then .shade else .offline else .offline
    { l with role := role, logical := if ok.contains k ∧ i < lit then some i else none, emrgLowered := none, level := 0 }
  { t with
    layers := Vector.ofFn fun k => layer k.val t.layers[k]
    dirty := []
    noShadeBacking := decide (ok.length ≤ lit) }

/-- A tile as a new partition takes it: its ports training (R359), its ingress and its shadow store empty. -/
def TileSt.takenBy (t : TileSt) (n lit now : Nat) : TileSt :=
  { t with
    part := some n
    rx := t.rx.map (PortSt.anew .retrain now), tx := t.tx.map (PortSt.anew .retrain now)
    monitors := [], replies := [], floors := [], tlb := [], slots := [], movedCtxs := [], ctxBytes := []
    fourLit := lit == 4 }

/-- The placement map of a new partition: logical layers in ascending order of working physical layers (R15). -/
def State.newPlacement (s : State) (p : Partition) : AMap Nat :=
  (List.range p.tiles).foldl (fun m t =>
    let ok := (s.tile (p.physTile t)).working
    (List.range p.lit).foldl (fun m k => mset m (4 * t + k) (ok.getD k k)) m) []

/-- The status of a create: 0, 0x90 or 0x91 (R376). Log 43, DEDUCED. -/
def State.createStatus (s : State) (n : Nat) (w : List W64) (p : Partition) : Cause :=
  if (s.part n).exists_ || s.glob.partArg.toNat % 256 ≠ 0 || !partFieldsOk w p then 0x90
  else if (p.tileList.any fun t => (s.tile t).part.isSome) || s.parts.any (fun e => e.2.exists_ && e.2.dasid == p.dasid) then 0x90
  else if p.tileList.any fun t => !s.litOk t p.lit then 0x91
  else 0

/-- The descriptor that PART_ARG names, in host memory. -/
def State.descriptor (s : State) : List W64 :=
  (packetOf (Memory.readN s.hostMem (fld s.glob.partArg 0 48) 256)).words

/-- Notes the outcome of a partition command. -/
def State.partStatus (s : State) (n : Nat) (op : BitVec 4) (st : Cause) : State :=
  { s with glob := { s.glob with pcStatus := st, pcPart := BitVec.ofNat 4 n, pcOp := op } }

/-- A role change arrives: it is next, or waits for those before it; one that arrives during a drain shares it (R422).
Log 64, DEDUCED. -/
def TileSt.askRole (t : TileSt) (a : RoleAction) : TileSt :=
  if t.roleAction = none then { t with roleAction := some a }
  else { t with roleQueue := t.roleQueue ++ [(a, t.rolePhase == .drain)] }

/-- The role changes of a tile that are at work or wait. Log 64, DEDUCED. -/
def TileSt.roles (t : TileSt) : List RoleAction := t.roleAction.toList ++ t.roleQueue.map (·.1)

/-- Create: every tile of the rectangle is to change its roles, and the command is busy until all have (R376, R415). -/
def State.createPart (s : State) (n : Nat) : State :=
  let w := s.descriptor
  let p := partOfDescriptor w
  let st := s.createStatus n w p
  if st ≠ 0 then s.partStatus n 1 st
  else
    let s := p.tileList.foldl (fun s t => s.updTile t fun x => x.askRole (.create p.lit)) s
    { s with parts := mset s.parts n { p with exists_ := false, making := true }, glob := { s.glob with anyPart := true } }.partStatus
      n 1 0xFF

/-- Whether every tile of a partition that is being created has its roles. -/
def State.rolesSet (s : State) (n : Nat) : Bool :=
  (s.part n).tileList.all fun t => !((s.tile t).roles.contains (.create (s.part n).lit))

/-- The end of a create (R376): the partition exists, its lattice begins to train, and no queue is enabled; a tile that meanwhile
cannot take its lit layers fails it. -/
def State.finishCreate (s : State) (n : Nat) : State :=
  let p := s.part n
  if !p.making || !s.rolesSet n then s
  else if p.tileList.any fun t => !s.litOk t p.lit then { s with parts := mdel s.parts n }.partStatus n 1 0x91
  else
    let place := s.newPlacement p
    let s := p.tileList.foldl (fun s t => s.updTile t fun x => x.takenBy n p.lit s.now) s
    (s.updPart n fun p => { p with exists_ := true, making := false, createdAt := s.now, place := place }).partStatus n 1 0

/-- Whether a flock has ended, with its record written. -/
def Flock.ended (f : Flock) : Bool := f.status == .retired || (f.status == .failed && f.wrote)

/-- Remove: refused while a flock of the partition has not retired; else the partition is gone, its lattice is torn down, and
its tiles are free. -/
def State.removePart (s : State) (n : Nat) : State :=
  if !(s.part n).exists_ then s.partStatus n 2 0
  else if s.flocks.any fun e => e.2.part == n && !e.2.ended then s.partStatus n 2 0x92
  else
    let s := (s.part n).tileList.foldl (fun s t => s.updTile t fun x => x.freed s.now) s
    { s with parts := mdel s.parts n, flocks := s.flocks.filter (fun e => e.2.part != n), cores := mdel s.cores (frontCore + n)
             reqs := s.reqs.filter fun r => r.part != n }.partStatus n 2 0

/-- Kill: every flock of the partition ends (R376, R400, R404). Log 35, DEDUCED. -/
def State.killPart (s : State) (n : Nat) : State :=
  ((s.flocks.filter fun e => e.2.part == n).foldl (fun s e => s.kill e.1 0x89 false true) s).partStatus n 3 0

/-- What a command of PART_CMD does. -/
def State.partAct (s : State) (n op : Nat) : State :=
  match op with
  | 1 => s.createPart n
  | 2 => s.removePart n
  | 3 => s.killPart n
  | _ => s

/-- A write to PART_CMD (R376): ignored while STATUS is 0xFF; else PART and OP keep what was written. A command is carried out
once the front end is ready, and busy while it waits for the shepherd core to be back (R408, R409). Log 42, DEDUCED. -/
def State.partCommand (s : State) (n op : Nat) : State :=
  if s.glob.pcStatus = 0xFF then s
  else
    let s := { s with glob := { s.glob with pcPart := BitVec.ofNat 4 n, pcOp := BitVec.ofNat 4 op } }
    if op = 0 ∨ 3 < op ∨ !s.glob.rdy then s
    else if s.glob.shr then { s with glob := { s.glob with pcStatus := 0xFF } }
    else s.partAct n op

/-- PART_CMD create. -/
def execPartCreate (part : Nat) (s : State) : Result := .next (if part < 16 then s.partCommand part 1 else s)

/-- PART_CMD remove. -/
def execPartRemove (part : Nat) (s : State) : Result := .next (if part < 16 then s.partCommand part 2 else s)

/-- PART_CMD kill. -/
def execPartKill (part : Nat) (s : State) : Result := .next (if part < 16 then s.partCommand part 3 else s)

/-! ## MMU_INV, capture units, DOMID (R378, R379, R433) -/

/-- Drops the cached translations of an ASID at one logical tile, or at every tile of the partition. -/
def State.invalidate (s : State) (part : Nat) (asid : BitVec 16) (tile : Nat) (allt : Bool) : State :=
  let p := s.part part
  let drop := fun (s : State) (t : Nat) => s.updTile t fun x => { x with tlb := x.tlb.filter fun e => e.asid != asid }
  let s := s.updPart part fun p => { p with mmuAsid := asid, mmuTile := BitVec.ofNat 6 tile, mmuAll := allt }
  if allt then p.tileList.foldl drop s else if tile < p.tiles then drop s (p.physTile tile) else s

/-- MMU_INV with GO. -/
def execMmuInv (part : Nat) (asid : BitVec 16) (tile : BitVec 6) (allt : Bool) (s : State) : Result :=
  .next (if (s.part part).exists_ then s.invalidate part asid tile.toNat allt else s)

/-- Changes a capture unit of a tile. -/
def State.updCapture (s : State) (tile unit : Nat) (f : Capture → Capture) : State :=
  if h : unit < 4 then s.updTile tile fun t => { t with caps := t.caps.set unit (f t.caps[unit]) } else s

/-- The extremes, count and bins of a capture unit cleared. -/
def Capture.clear (c : Capture) : Capture := { c with mn := 0, mx := 0, cnt := 0, bins := Vector.replicate 32 0 }

/-- CAP_CFG.CLR. -/
def execCapClear (tile unit : Nat) (s : State) : Result := .next (s.updCapture tile unit Capture.clear)

/-- DOMID: written before the first partition is created; 0xFF is no domain number. -/
def State.writeDomid (s : State) (v : BitVec 8) : State :=
  if v = 0xFF ∨ s.glob.anyPart then s else { s with glob := { s.glob with domid := v, domWritten := true } }

/-- A host write to DOMID. -/
def execDomidWrite (v : BitVec 8) (s : State) : Result := .next (s.writeDomid v)

/-! ## Writes to the other registers (R371) -/

/-- A write to a global register. -/
def State.writeGlobal (s : State) (off : Nat) (v : W64) : State :=
  if off = 0x0008 then s.partCommand (fld v 4 4) (fld v 0 4)
  else if off = 0x0010 then { s with glob := { s.glob with partArg := BitVec.ofNat 64 (fld v 0 48) } }
  else if off = 0x0018 then s.writeDomid (BitVec.ofNat 8 (fld v 0 8))
  else if 0x0800 ≤ off ∧ off < 0x0800 + 8 * 255 then
    let keep := fieldWord [(7, fld v 7 1), (0, fld v 0 5)]
    { s with glob := { s.glob with domrt := mset s.glob.domrt ((off - 0x0800) / 8) keep } }
  else s

/-- A write to QCTL_q. -/
def State.writeQctl (s : State) (part q : Nat) (v : W64) : State :=
  let s := if bit v 0 then s.enableQueue part q else s.disableQueue part q
  let s := if bit v 2 then s.resetQueue part q else s
  if bit v 1 then s.retryQueue part q else s

/-- The cause of an FROUTE register of a block. -/
def frouteCause (r : Nat) : Option Nat :=
  if 0x1100 ≤ r ∧ r < 0x1200 then some (0x40 + (r - 0x1100) / 8)
  else if 0x1200 ≤ r ∧ r < 0x1300 then some (0xA0 + (r - 0x1200) / 8)
  else none

/-- A write to TRAPCTL: ACT and CORE keep what was written, and GO acts. -/
def State.writeTrapctl (s : State) (part : Nat) (v : W64) : State :=
  let act := BitVec.ofNat 8 (fld v 56 8)
  let core := BitVec.ofNat 12 (fld v 44 12)
  if bit v 0 then s.trapGo part act core else s.updPart part fun p => { p with trapAct := act, trapCore := core }

/-- A write to a register of a partition's block. -/
def State.writePart (s : State) (n r : Nat) (v : W64) : State :=
  if r < 0x0800 then if s.hasQueue n (r / 8) then s.doorbell n (r / 8) (BitVec.ofNat 32 (fld v 0 32)) else s
  else if r < 0x1000 then if s.hasQueue n ((r - 0x0800) / 8) then s.writeQctl n ((r - 0x0800) / 8) v else s
  else if r < 0x1080 then
    let keep := fieldWord [(51, fld v 51 9), (0, fld v 0 32)]
    s.updPart n fun p => { p with hwin := p.hwin.set (Fin.ofNat 16 ((r - 0x1000) / 8)) keep }
  else if r = 0x1080 then
    if bit v 0 then s.invalidate n (BitVec.ofNat 16 (fld v 48 16)) (fld v 42 6) (bit v 41)
    else s.updPart n fun p =>
      { p with mmuAsid := BitVec.ofNat 16 (fld v 48 16), mmuTile := BitVec.ofNat 6 (fld v 42 6), mmuAll := bit v 41 }
  else if r = 0x1088 then s.writeTrapctl n v
  else if r = 0x1090 then s.updPart n fun p => { p with trapHead := BitVec.ofNat 32 (fld v 0 32) }
  else if r = 0x1098 then s.updPart n fun p => { p with faultHead := BitVec.ofNat 32 (fld v 0 32) }
  else
    match frouteCause r with
    | none => s
    | some c =>
      let keep := fieldWord [(8, fld v 8 8), (0, fld v 0 2)]
      s.updPart n fun p => { p with froute := mset p.froute c keep }

/-- The fabric port of a register offset of a tile's fabric block: ports 0 to 11, then the edge ports A and B that the
tile has (R365, R368). -/
def fabricPort (tile r : Nat) : Option Nat :=
  if r < 0x3000 then some (r / 0x400)
  else if r < 0x3400 then if 1 ≤ edgeCount tile then some 12 else none
  else if r < 0x3800 then if 2 ≤ edgeCount tile then some 13 else none
  else none

/-- A write to PORT_CFG. -/
def State.writePortCfg (s : State) (e : PortEnd) (v : W64) : State :=
  let set := fun (p : PortSt) =>
    { p with
      minw := if 1 ≤ fld v 24 4 ∧ fld v 24 4 ≤ 8 then BitVec.ofNat 4 (fld v 24 4) else p.minw
      cthr := BitVec.ofNat 20 (fld v 0 20) }
  let s := (s.updPort { e with tx := false } set).updPort { e with tx := true } set
  let s := if bit v 33 then s.retrainPort e else s
  if bit v 32 then s.updPort { e with tx := false } fun p => p.clear s.now else s

/-- A write to CAP_CFG. -/
def Capture.configure (c : Capture) (v : W64) : Capture :=
  let c := { c with
    org := BitVec.ofNat 32 (fld v 32 32), shift := BitVec.ofNat 6 (min 31 (fld v 20 6)), layer := BitVec.ofNat 4 (fld v 16 4)
    src := BitVec.ofNat 8 (fld v 8 8), en := bit v 0 }
  if bit v 1 then c.clear else c

/-- A write to a register of a tile's fabric block. -/
def State.writeFabric (s : State) (t r : Nat) (v : W64) : State :=
  match fabricPort t r with
  | some p => if r % 0x400 = 0 then s.writePortCfg { tile := t, port := p, tx := false } v else s
  | none =>
    if r = 0x3800 then s.updTile t fun x => { x with migDly := if fld v 0 16 = 0 then 1 else BitVec.ofNat 16 (fld v 0 16) }
    else if 0x3900 ≤ r ∧ r < 0x3D00 ∧ r % 0x100 = 0 then s.updCapture t ((r - 0x3900) / 0x100) fun c => c.configure v
    else s

/-- A host write of an aligned 8-byte word to BAR0 (R371): unassigned offsets and any other access write nothing. -/
def execRegisterWrite (off : Nat) (v : W64) (s : State) : Result :=
  .next (
    if off % 8 ≠ 0 then s
    else if off < 0x800000 then s.writeGlobal off v
    else if off < 0x900000 then
      let n := (off - 0x800000) / 0x10000
      if (s.part n).exists_ then s.writePart n (off % 0x10000) v else s
    else if 0x1000000 ≤ off ∧ off < 0x1100000 then s.writeFabric ((off - 0x1000000) / 0x4000) (off % 0x4000) v
    else s)

/-! ## Reads of BAR0 (R371) -/

/-- FE_STATUS (R409). -/
def State.feStatus (s : State) : W64 :=
  fieldWord [(48, s.glob.restarts), (40, s.glob.layer.toNat), (32, s.glob.cfgRej), (1, b2n s.glob.shr), (0, b2n s.glob.rdy)]

/-- The mirror of the lifetime counters (R432). -/
def Lifetime.read (l : Lifetime) (r : Nat) : Nat :=
  if r = 0 then l.hours.toNat
  else if r < 0x208 then mget 0 l.thermal ((r - 0x008) / 8)
  else if r < 0x408 then mget 0 l.replays ((r - 0x208) / 8)
  else if r < 0x1D08 then mget 0 l.corr ((r - 0x408) / 8)
  else if r = 0x1D08 then l.roleChanges
  else if r = 0x1D10 then l.emergencies
  else if r = 0x1D18 then l.layersLost
  else 0

/-- A read of a global register. -/
def State.readGlobal (s : State) (off : Nat) : W64 :=
  if off = 0 then s.feStatus
  else if off = 0x0008 then fieldWord [(56, s.glob.pcStatus.toNat), (4, s.glob.pcPart.toNat), (0, s.glob.pcOp.toNat)]
  else if off = 0x0010 then s.glob.partArg
  else if off = 0x0018 then s.glob.domid.zeroExtend 64
  else if 0x0800 ≤ off ∧ off < 0x0FF8 then mget 0 s.glob.domrt ((off - 0x0800) / 8)
  else if 0x1000 ≤ off ∧ off < 0x2D20 then BitVec.ofNat 64 (s.life.read (off - 0x1000))
  else 0

/-- QCTL_q as it reads: EN as it was written, until the read of the descriptor is refused or fails (R380).
Log 36, DEDUCED. -/
def CmdQueue.qctl (k : CmdQueue) : W64 := fieldWord [(56, k.cause.toNat), (40, k.state), (0, b2n (k.en || k.enabling))]

/-- A read of a register of a partition's block. -/
def State.readPart (s : State) (n r : Nat) : W64 :=
  let p := s.part n
  if r < 0x0800 then (s.queue n (r / 8)).t.zeroExtend 64
  else if r < 0x1000 then (s.queue n ((r - 0x0800) / 8)).qctl
  else if r < 0x1080 then p.hwin.toList.getD ((r - 0x1000) / 8) 0
  else if r = 0x1080 then fieldWord [(48, p.mmuAsid.toNat), (42, p.mmuTile.toNat), (41, b2n p.mmuAll)]
  else if r = 0x1088 then fieldWord [(56, p.trapAct.toNat), (44, p.trapCore.toNat), (1, b2n (!p.trapActs.isEmpty))]
  else if r = 0x1090 then p.trapHead.zeroExtend 64
  else if r = 0x1098 then p.faultHead.zeroExtend 64
  else if r = 0x1300 then fieldWord [(32, p.markStep.toNat), (0, p.markVal.toNat)]
  else
    match frouteCause r with
    | some c => mget 0 p.froute c
    | none => 0

/-- The time a wavelength has spent out of the map, with the time of the present absence. -/
def Wavelength.outTime (w : Wavelength) (now : Nat) : Nat := (w.counted now).rtns

/-- A read of a port's registers (R365): PORT_ST belongs to the receive end. -/
def PortSt.read (p : PortSt) (now r : Nat) : W64 :=
  let ks := fun (f : WlState → Bool) => laneBits ((List.range 8).filter fun k => f (p.lane k).state)
  if r = 0 then fieldWord [(24, p.minw.toNat), (0, p.cthr.toNat)]
  else if r = 0x008 then
    fieldWord [(32, ks (· == .failed)), (24, ks fun x => x == .retrain || x == .exchange), (16, laneBits p.map),
      (12, p.map.length), (11, b2n p.half)]
  else if r = 0x010 then fieldWord [(32, p.resent), (0, p.poisoned)]
  else if 0x100 ≤ r ∧ r < 0x200 then
    let w := p.lane ((r - 0x100) / 0x20)
    match r % 0x20 with
    | 0x00 => BitVec.ofNat 64 (min (2 ^ 48 - 1) w.corr)
    | 0x08 => fieldWord [(48, w.hb), (32, w.agf), (0, w.unc)]
    | 0x10 => BitVec.ofNat 64 (w.outTime now)
    | _ => 0
  else 0

/-- A read of a capture unit (R433). -/
def Capture.read (c : Capture) (r : Nat) : W64 :=
  if r = 0 then
    fieldWord [(32, c.org.toNat), (20, c.shift.toNat), (16, c.layer.toNat), (8, c.src.toNat), (0, b2n c.en)]
  else if r = 0x08 then c.mn.zeroExtend 64
  else if r = 0x10 then c.mx.zeroExtend 64
  else if r = 0x18 then BitVec.ofNat 64 c.cnt
  else if 0x20 ≤ r ∧ r < 0xA0 then
    let k := (r - 0x20) / 4
    BitVec.ofNat 64 (c.bins.toList.getD k 0 + c.bins.toList.getD (k + 1) 0 * 2 ^ 32)
  else 0

/-- A read of a register of a tile's fabric block. -/
def State.readFabric (s : State) (t r : Nat) : W64 :=
  match fabricPort t r with
  | some p => (s.portEnd { tile := t, port := p, tx := false }).read s.now (r % 0x400)
  | none =>
    if r = 0x3800 then (s.tile t).migDly.zeroExtend 64
    else if 0x3900 ≤ r ∧ r < 0x3D00 then ((s.tile t).caps.toList.getD ((r - 0x3900) / 0x100) {}).read (r % 0x100)
    else 0

/-- What the host reads from an aligned 8-byte word of BAR0: zero where nothing is assigned, and zero for any other
access (R371). -/
def State.bar0Read (s : State) (off : Nat) : W64 :=
  if off % 8 ≠ 0 then 0
  else if off < 0x800000 then s.readGlobal off
  else if off < 0x900000 then
    if (s.part ((off - 0x800000) / 0x10000)).exists_ then s.readPart ((off - 0x800000) / 0x10000) (off % 0x10000) else 0
  else if 0x1000000 ≤ off ∧ off < 0x1100000 then s.readFabric ((off - 0x1000000) / 0x4000) (off % 0x4000)
  else 0

/-! ## The HDM range (R372) -/

/-- CTXOFF of the partition that holds a tile. -/
def State.ctxoffOf (s : State) (tile : Nat) : Nat := ((s.tile tile).part.map fun n => (s.part n).ctxoff).getD 0

/-- Whether a byte of a tile's HBM has been saved to with a context, whose layout the manual does not give (R405, R419). -/
def State.shadowByte (s : State) (tile off : Nat) : Bool :=
  (s.tile tile).ctxBytes.any fun r => decide (s.ctxoffOf tile + r.1 ≤ off ∧ off < s.ctxoffOf tile + r.2)

/-- What the host reads of a tile's HBM: a free value in every byte that a saved context may have overwritten.
Log 12, DESIGN CHOICE. -/
def State.hdmRead (s : State) (tile off n : Nat) : List Byte :=
  ((List.range n).zip (s.readLoc (.panel tile off) n)).map fun e =>
    if s.shadowByte tile (off + e.1) then Config.anyByte (s.freeIx (off + e.1)) else e.2

/-- What is left of a range when `a` to `b` is taken out of it. -/
def rangeLess (a b : Nat) (r : Nat × Nat) : List (Nat × Nat) :=
  [(r.1, min r.2 a), (max r.1 b, r.2)].filter fun x => x.1 < x.2

/-- The contexts that a write of the host to bytes `a` to `b` of a tile's CTXOFF area overwrites: of the slots, where they lie
there, the ones that it meets; of the moved contexts, whose places the manual does not give, each. -/
def TileSt.ctxsAt (t : TileSt) (a b : Nat) : List (Nat × Nat) :=
  let met := fun (lo hi : Nat) => decide (a < hi ∧ lo < b)
  (if t.hasShade then [] else (t.slots.filter fun e => met (e.1 * 0x100000) ((e.1 + 1) * 0x100000)).map (·.2)) ++
    (if met 0xB000000 0x10000000 then t.movedCtxs else [])

/-- A saved context that the host has overwritten: what a restore makes of it is open, but whose it is. Log 12,
DESIGN CHOICE. -/
def State.spoilCtx (s : State) (fl m : Nat) : State :=
  s.updFlock fl fun f =>
    if mhas f.ctxs m then
      let x := mget {} f.ctxs m
      let y := { Config.anyCtx (s.freeIx m) x with flock := x.flock, member := x.member, logical := x.logical }
      { f with ctxs := mset f.ctxs m y }
    else f

/-- A write of the host to a tile's HBM, which may meet saved contexts (R372, R405). -/
def State.hdmWrite (s : State) (tile off : Nat) (bs : List Byte) : State :=
  let base := s.ctxoffOf tile
  let hits := (s.tile tile).ctxsAt (off - base) (off + bs.length - base)
  let s := (s.writeLoc (.panel tile off) bs).updTile tile fun t =>
    { t with ctxBytes := t.ctxBytes.flatMap (rangeLess (off - base) (off + bs.length - base)) }
  hits.foldl (fun s h => s.spoilCtx h.1 h.2) s

/-- A host access through the HDM range: physical HBM offsets only, neither translated nor checked; while a tile is in the
flush of a role change the access waits (R415). -/
def execHdmAccess (tile off : Nat) (a : HdmOp) (s : State) : Result :=
  .next (
    let fits := fun n => decide (tile < 64 ∧ off + n ≤ 2 ^ 36)
    if (s.tile tile).rolePhase = .flushed then s
    else
      match a with
      | .read n =>
        if fits n then { s with hdmOut := s.hdmRead tile off n, hdmBad := s.poisonedLoc (.panel tile off) n } else s
      | .write bs => if fits bs.length then s.hdmWrite tile off bs else s)

/-! ## Routed faults (R363, R364, R406) -/

/-- Counts a fault record as dropped. -/
def State.dropFault (s : State) (part : Nat) : State :=
  s.updPart part fun p => { p with faultDropped := satAdd (2 ^ 32 - 1) p.faultDropped 1 }

/-- A handler launch: entry HID of HTAB, its dependences ignored (R406); `none` where its read is to be made again, and an
entry that cannot be read launches nothing. Log 50, DEDUCED. -/
def State.handlerLaunch (s : State) (part hid : Nat) : Option State :=
  let p := s.part part
  match s.feRead part (p.htab.toNat + 288 * hid) 288 with
  | .error .again => none
  | .error _ => some s
  | .ok bs =>
    let pk := packetOf bs
    let fl := s.nextFlock
    let f : Flock := { part := part, queue := none, hid := BitVec.ofNat 8 hid, lnum := p.handlers, pkt := pk.words, turn := fl }
    let f := { f with members := f.box }
    let v := if pk.type = 0x01 ∧ pk.lenOk ∧ pk.headerOk then s.validate f else (0x87, 0)
    let f := if v.1 = 0 then s.snapshot f else f
    let s := { s with flocks := mset s.flocks fl f, nextFlock := fl + 1 }
    let s := s.updPart part fun p => { p with handlers := p.handlers + 1 }
    some (if v.1 = 0 then s else s.endLaunch fl v.1 v.2)

/-- A handler is asked for: a HID not below NH launches nothing, and the record is counted as dropped (R406). -/
def State.wantHandler (s : State) (part hid : Nat) : State :=
  if (s.part part).nh ≤ hid then s.dropFault part
  else s.updPart part fun p => { p with handlersDue := p.handlersDue ++ [hid] }

/-- The oldest handler that is to be launched is. -/
def State.nextHandler (s : State) (part : Nat) : State :=
  match (s.part part).handlersDue with
  | [] => s
  | hid :: _ =>
    match s.handlerLaunch part hid with
    | none => s
    | some s => s.updPart part fun p => { p with handlersDue := p.handlersDue.tail }

/-- A fault that FROUTE only counts (R363). Log 50, DEDUCED. -/
def State.countFault (s : State) (part : Nat) (cause : Cause) : State :=
  s.updPart part fun p =>
    { p with faultsCounted := mset p.faultsCounted cause.toNat (mget 0 p.faultsCounted cause.toNat + 1) }

/-- The record of a routed fault goes to FAULTQ, or is dropped and counted when it is full; and whether that is done. -/
def State.writeFault (s : State) (part : Nat) (r : FaultRec) : State × Bool :=
  let p := s.part part
  let a := p.faultq.toNat + 32 * (p.faultN.toNat % p.nfault)
  if (p.faultN - p.faultHead).toNat = p.nfault then (s.dropFault part, true)
  else
    match s.feWrite part a r.bytes with
    | (_, .again) => (s.feAgain part a 32, false)
    | (s, _) => (s.updPart part fun p => { p with faultN := p.faultN + 1 }, true)

/-- The oldest routed fault of a partition is delivered: its record written, or with QOFF counted, and its handler launched
with HND; a handler that is due goes first. Log 50, DEDUCED. -/
def execFaultRoute (part : Nat) (s : State) : Result :=
  s.shepherd fun s =>
    if !(s.part part).handlersDue.isEmpty then s.nextHandler part
    else
      match (s.part part).faults with
      | [] => s
      | r :: rest =>
        let route := mget 0 (s.part part).froute r.cause.toNat
        match if bit route 0 then (s.countFault part r.cause, true) else s.writeFault part r with
        | (s, false) => s
        | (s, true) =>
          let s := s.updPart part fun p => { p with faults := rest }
          if bit route 1 then (s.wantHandler part (fld route 8 8)).nextHandler part else s

/-! ## The shepherd core (R408) -/

/-- What has waited for the shepherd core is done: TRAPCTL's actions in order, and a command of PART_CMD. -/
def State.shepherdBack (s : State) : State :=
  let s := s.parts.foldl (fun s e => s.trapActsDone e.1) s
  let n := s.glob.pcPart.toNat
  if s.glob.pcStatus = 0xFF ∧ !(s.part n).making then s.partAct n s.glob.pcOp.toNat else s

/-- The shepherd core restarts: what it does waits until it is back. -/
def execShepherdRestart (s : State) : Result :=
  .next (
    if s.glob.shr then State.shepherdBack { s with glob := { s.glob with shr := false } }
    else { s with glob := { s.glob with shr := true, restarts := satAdd 65535 s.glob.restarts 1 } })

end Sys2Proof.Machine
end

