-- ==== Sys2Proof/Machine/Boot.lean ====
section
/-! DEFINITION. Firmware boot and its measurements and keys (R410), configuration records (R431), and the SPDM responder
(R411). -/

namespace Sys2Proof.Machine

/-! ## Configuration records (R431) -/

/-- TYPE of a record. -/
def recType (r : ConfigRecord) : Nat := leNat (r.bytes.take 2)
/-- VERSION of a record. -/
def recVersion (r : ConfigRecord) : Nat := leNat ((r.bytes.drop 2).take 2)
/-- The serial number in a record's header. -/
def recSerial (r : ConfigRecord) : Nat := leNat ((r.bytes.drop 8).take 8)
/-- The payload of a record. -/
def recPayload (r : ConfigRecord) : List Byte := (r.bytes.drop 16).take (leNat ((r.bytes.drop 4).take 4))

/-- Whether 64 bytes r ‖ s are the vendor's signature of some bytes (R410, R431). -/
def vendorSigned (key : Nat × Nat) (msg sig : List Byte) : Bool :=
  sig.length == 64 && ecdsaVerify key msg (beNat (sig.take 32)) (beNat (sig.drop 32))

/-- The records that pass layer 0's check: of their length, and signed. -/
def BootInput.valid (b : Sys2Proof.BootInput) : List ConfigRecord :=
  b.records.filter fun r =>
    r.bytes.length == 16 + leNat ((r.bytes.drop 4).take 4) && vendorSigned b.vendor r.bytes r.sig

/-- Whether both images pass layer 0's check. Log 48, DESIGN CHOICE. -/
def BootInput.imagesSigned (b : Sys2Proof.BootInput) : Bool :=
  vendorSigned b.vendor b.img1 b.sig1 && vendorSigned b.vendor b.img2 b.sig2

/-- The valid record of a type with the highest version. Log 48, DESIGN CHOICE. -/
def bestRecord (rs : List ConfigRecord) (ty : Nat) : Option ConfigRecord :=
  (rs.filter fun r => recType r == ty).foldl (fun b r =>
    match b with
    | none => some r
    | some o => if recVersion o < recVersion r then some r else some o) none

/-! ## Keys (R410) -/

/-- The ASCII bytes of "Synurn key". -/
def keyLabel : List Byte := [0x53, 0x79, 0x6E, 0x75, 0x72, 0x6E, 0x20, 0x6B, 0x65, 0x79]
/-- The ASCII bytes of "Synurn identity". -/
def identityLabel : List Byte :=
  [0x53, 0x79, 0x6E, 0x75, 0x72, 0x6E, 0x20, 0x69, 0x64, 0x65, 0x6E, 0x74, 0x69, 0x74, 0x79]

/-- KeyFrom (R410). -/
def keyFrom (c : List Byte) : Nat := beNat (hmac c (0x01 :: keyLabel)) % (p256N - 1) + 1

/-! ## Certificates (R410, R411) -/

/-- A certificate of a layer's key, signed with the private key of the layer before it. -/
def certify (layer signer : Nat) (key : Option (Nat × Nat)) : Cert :=
  let body := Config.certBody layer key
  { key := key, body := body, sig := ecdsaSign signer body }

/-- The chain: the IDK certificate, whose signer the manual does not name, then that of CDI[1]'s key by IDK, then that of
CDI[2]'s key by CDI[1]'s (R410, R411). Log 48, DESIGN CHOICE. -/
def certificates (s : State) (idk key1 key2 : Nat) : List Cert :=
  [ { key := publicKey idk, body := Config.certBody 0 (publicKey idk)
      sig := (Config.anyNat (s.freeIx 5), Config.anyNat (s.freeIx 6)) },
    certify 1 idk (publicKey key1), certify 2 key1 (publicKey key2) ]

/-- The bytes of the certificate chain (R411). -/
def Firmware.chain (f : Firmware) : List Byte := f.certs.flatMap fun c => Config.certFile c.body c.sig

/-! ## Boot (R410, R431) -/

/-- The tile limits of a record; the manual does not give its payload's layout, so the values are open.
Log 48, DESIGN CHOICE. -/
def Firmware.limits (f : Firmware) (s : State) (r : Option ConfigRecord) : Firmware :=
  match r with
  | none => { f with twarn := 380, temrg := 420, ttrip := 448, fourTiles := [] }
  | some _ =>
    { f with
      twarn := Config.anyNat (s.freeIx 1), temrg := Config.anyNat (s.freeIx 2), ttrip := Config.anyNat (s.freeIx 3)
      fourTiles := (List.range 64).filter fun t => Config.anyBool (s.freeIx (16 + t)) }

/-- What firmware knows once layer 2 runs. -/
def State.booted (s : State) (b : BootInput) : Firmware :=
  let rs := BootInput.valid b
  let m1 := sha256 b.img1
  let m2 := sha256 b.img2
  let cdi1 := hmac b.uds m1
  let cdi2 := hmac cdi1 m2
  let ident := bestRecord rs 2
  let idk := keyFrom (hmac b.uds identityLabel)
  let f : Firmware :=
    { cdi2 := cdi2, idk := publicKey idk, key1 := publicKey (keyFrom cdi1), key2 := keyFrom cdi2, m1 := m1, m2 := m2
      cfgDigest := sha256 (rs.flatMap fun r => r.bytes ++ r.sig)
      certs := certificates s idk (keyFrom cdi1) (keyFrom cdi2)
      capKw := match bestRecord rs 5 with
        | none => 32
        | some _ => 8 + Config.anyNat (s.freeIx 4) % 25
      calibrated := (bestRecord rs 4).isSome
      serial := (ident.map recSerial).getD 0
      stepping := (ident.map recPayload).getD [] }
  f.limits s (bestRecord rs 3)

/-- The firmware boots: rejected records are counted, and boot stops without valid helper data, part identity or images;
else layer 2 runs, and the front end is ready for PART_CMD. -/
def execFirmwareBoot (b : BootInput) (s : State) : Result :=
  .next (
    let rs := BootInput.valid b
    let rejected := min 255 (b.records.length - rs.length)
    let go := (bestRecord rs 1).isSome && (bestRecord rs 2).isSome && BootInput.imagesSigned b
    let s := { s with glob := { s.glob with cfgRej := rejected, rdy := go, layer := if go then 2 else 0 } }
    if go then
      { s with fw := s.booted b, spdm := {} }
    else s)

/-! ## SPDM (R411) -/

/-- The bytes of a request and of its answer before its signature. -/
def spdmBytes (r : SpdmRequest) (a : SpdmAnswer) : List Byte := Config.spdmAsked r ++ Config.spdmAnswered a

/-- "dmtf-spdm-v1.2.*" in ASCII. Log 14, PRESUMED. -/
def spdmPrefix : List Byte :=
  [0x64, 0x6D, 0x74, 0x66, 0x2D, 0x73, 0x70, 0x64, 0x6D, 0x2D, 0x76, 0x31, 0x2E, 0x32, 0x2E, 0x2A]
/-- "responder-challenge_auth signing" in ASCII. -/
def challengeContext : List Byte :=
  [0x72, 0x65, 0x73, 0x70, 0x6F, 0x6E, 0x64, 0x65, 0x72, 0x2D, 0x63, 0x68, 0x61, 0x6C, 0x6C, 0x65, 0x6E, 0x67, 0x65, 0x5F, 0x61, 0x75,
    0x74, 0x68, 0x20, 0x73, 0x69, 0x67, 0x6E, 0x69, 0x6E, 0x67]
/-- "responder-measurements signing" in ASCII. -/
def measurementsContext : List Byte :=
  [0x72, 0x65, 0x73, 0x70, 0x6F, 0x6E, 0x64, 0x65, 0x72, 0x2D, 0x6D, 0x65, 0x61, 0x73, 0x75, 0x72, 0x65, 0x6D, 0x65, 0x6E, 0x74, 0x73,
    0x20, 0x73, 0x69, 0x67, 0x6E, 0x69, 0x6E, 0x67]

/-- What SPDM 1.2 signs for some bytes: the version four times, zeros, the context, 100 bytes in all, and the digest of the
bytes. Log 14, PRESUMED. -/
def spdmSigned (context bytes : List Byte) : List Byte :=
  spdmPrefix ++ spdmPrefix ++ spdmPrefix ++ spdmPrefix ++ List.replicate (36 - context.length) 0 ++ context ++ sha256 bytes

/-- Layer 2's signature over messages in a context. -/
def State.spdmSign (s : State) (context bytes : List Byte) : Nat × Nat := ecdsaSign s.fw.key2 (spdmSigned context bytes)

/-- Answers a request: what has been exchanged becomes `x`. -/
def State.spdmSay (s : State) (a : SpdmAnswer) (sig : Option (Nat × Nat)) (x : Spdm) : State :=
  { s with spdm := { x with out := s.spdm.out ++ [(a, sig)] } }

/-- Answers a request of the negotiation, whose messages every signature covers. -/
def State.spdmNegotiate (s : State) (phase : Nat) (r : SpdmRequest) (a : SpdmAnswer) : State :=
  s.spdmSay a none { s.spdm with phase := phase, vca := s.spdm.vca ++ spdmBytes r a, certMsgs := [], measMsgs := [] }

/-- Answers a request for digests or certificates, whose messages the next CHALLENGE covers; one of measurements in between ends
the run of messages that a signed MEASUREMENTS covers. Log 14, PRESUMED. -/
def State.spdmCert (s : State) (r : SpdmRequest) (a : SpdmAnswer) (afresh : Bool) : State :=
  s.spdmSay a none
    { s.spdm with certMsgs := (if afresh then [] else s.spdm.certMsgs) ++ spdmBytes r a, measMsgs := [] }

/-- A request that is not allowed yet, or that the responder refuses. -/
def State.spdmError (s : State) : State := s.spdmSay .error none { s.spdm with measMsgs := [] }

/-- A request that needs the responder to have reached a phase; the responder runs in layer 2. -/
def State.spdm_ (s : State) (phase : Nat) (f : State → State) : Result :=
  .next (if s.glob.layer ≠ 2 then s else if s.spdm.phase < phase then s.spdmError else f s)

/-- GET_VERSION: SPDM 1.2, and a new connection. -/
def execGetVersion (r : SpdmRequest) (s : State) : Result :=
  s.spdm_ 0 fun s =>
    State.spdmNegotiate { s with spdm := { s.spdm with vca := [] } } 1 r (.version 0x12)

/-- GET_CAPABILITIES: the manual gives no flags. -/
def execGetCapabilities (r : SpdmRequest) (s : State) : Result :=
  s.spdm_ 1 fun s => s.spdmNegotiate 2 r (.capabilities (Config.foreignBytes (s.freeIx 2)))

/-- NEGOTIATE_ALGORITHMS: ECDSA P-256 and SHA-256 only, each where the request offers it; with one of them missing the
responder can sign nothing, and stays where it was. Log 48, DESIGN CHOICE. -/
def execNegotiateAlgorithms (r : SpdmRequest) (s : State) : Result :=
  s.spdm_ 2 fun s => s.spdmNegotiate (if r.p256 && r.sha then 3 else 2) r (.algorithms r.p256 r.sha)

/-- GET_DIGESTS: the digest of the certificate chain, which is in slot 0. -/
def execGetDigests (r : SpdmRequest) (s : State) : Result :=
  s.spdm_ 3 fun s => s.spdmCert r (.digests (sha256 s.fw.chain)) true

/-- GET_CERTIFICATE: a portion of the chain of slot 0, the only one, and how many bytes remain. -/
def execGetCertificate (r : SpdmRequest) (s : State) : Result :=
  s.spdm_ 3 fun s =>
    if fld r.p1 0 4 ≠ 0 ∨ s.fw.chain.length < r.offset then s.spdmError
    else
      let part := (s.fw.chain.drop r.offset).take r.length
      s.spdmCert r (.certificate part (s.fw.chain.length - r.offset - part.length)) false

/-- The measurements: index 1 is M[1], 2 is M[2], 3 the SHA-256 of the configuration records. -/
def Firmware.measurements (f : Firmware) : List (Nat × List Byte) := [(1, f.m1), (2, f.m2), (3, f.cfgDigest)]

/-- The digest of the measurements that a CHALLENGE asks for: none (0), those of the trusted computing base (1), all (0xFF);
`none` for a request of another kind. Log 14, PRESUMED. -/
def Firmware.summary (f : Firmware) (kind : Nat) : Option (Option (List Byte)) :=
  let digest := fun (ms : List (Nat × List Byte)) => some (some (sha256 (ms.flatMap Config.spdmBlock)))
  match kind with
  | 0 => some none
  | 1 => digest (f.measurements.filter fun m => Config.spdmTcb m.1)
  | 0xFF => digest f.measurements
  | _ => none

/-- CHALLENGE of slot 0: the responder signs the negotiation, the digests and certificates, and this exchange with the key of
layer 2; those messages are covered once. -/
def execChallenge (r : SpdmRequest) (s : State) : Result :=
  s.spdm_ 3 fun s =>
    match s.fw.summary r.p2.toNat with
    | none => s.spdmError
    | some sum =>
      if r.p1 ≠ 0 then s.spdmError
      else
        let a := SpdmAnswer.challengeAuth (Config.foreignBytes (s.freeIx 3)) (sha256 s.fw.chain) sum
        s.spdmSay a (some (s.spdmSign challengeContext (s.spdm.vca ++ s.spdm.certMsgs ++ spdmBytes r a)))
          { s.spdm with certMsgs := [], measMsgs := [] }

/-- GET_MEASUREMENTS: one index, all of them (0xFF), or their number alone (0); where it asks for it, signed with the key of slot
0 over the negotiation and the measurement messages since the last signature. -/
def execGetMeasurements (r : SpdmRequest) (s : State) : Result :=
  s.spdm_ 3 fun s =>
    let n := r.p2.toNat
    let ms := s.fw.measurements.filter fun m => n == 0xFF || m.1 == n
    let signed := bit r.p1 0
    if (n ≠ 0 ∧ ms.isEmpty) ∨ (signed ∧ fld r.slot 0 4 ≠ 0) then s.spdmError
    else
      let a := SpdmAnswer.measurements s.fw.measurements.length ms (Config.foreignBytes (s.freeIx 4))
      let bytes := s.spdm.measMsgs ++ spdmBytes r a
      s.spdmSay a (if signed then some (s.spdmSign measurementsContext (s.spdm.vca ++ bytes)) else none)
        { s.spdm with certMsgs := [], measMsgs := if signed then [] else bytes }

end Sys2Proof.Machine
end

