-- ==== Sys2Proof/Machine/Stack.lean ====
section
/-! DEFINITION. Roles of the layers of a tile and their changes (R413 to R416, R419 to R422), temperature (R417, R418),
power levels and ballast (R423, R424, R429), capture units (R433), lifetime counters (R432) and module reset. -/

namespace Sys2Proof.Machine

/-! ## Layers -/

/-- A layer of a tile. -/
def TileSt.layer (t : TileSt) (k : Nat) : Layer := t.layers.toList.getD k {}

/-- Changes a layer of a tile. -/
def State.updLayer (s : State) (tile k : Nat) (f : Layer → Layer) : State :=
  if h : k < 4 then s.updTile tile fun t => { t with layers := t.layers.set k (f t.layers[k]) } else s

/-- The shade layer of a tile. -/
def TileSt.shadeLayer (t : TileSt) : Option Nat := (List.range 4).find? fun k => (t.layer k).role == .shade

/-- The physical layer of a logical layer of a tile. -/
def TileSt.physLayer (t : TileSt) (logical : Nat) : Option Nat :=
  (List.range 4).find? fun k => (t.layer k).role == .lit && (t.layer k).logical == some logical

/-- Reports a cause of the power and thermal band to the partition that holds a tile (R434). -/
def State.stackFault (s : State) (tile layer : Nat) (cause : Cause) : State :=
  match (s.tile tile).part with
  | none => s
  | some n =>
    let p := s.part n
    s.routeFault n cause (faultBytes cause 0 (p.logTile tile) 0xFF 0 layer 0 (s.now - p.createdAt) 0xFFFFFFFF 0)

/-! ## Flocks on a tile -/

/-- Whether a flock has a member on a logical layer of a tile that `f` picks. -/
def State.hasMember (s : State) (tile : Nat) (f : Nat → Bool) (g : Flock) : Bool :=
  g.members.any fun id => (s.part g.part).physTile (fld id 6 6) == tile && f (fld id 4 2)

/-- The flocks with a member on a tile, of the partition that holds it. -/
def State.flocksOn (s : State) (tile : Nat) (f : Nat → Bool) : List Nat :=
  (s.flocks.filter fun e => (s.tile tile).part == some e.2.part && s.hasMember tile f e.2).map (·.1)

/-- Whether no flock stands on a core of a tile: each one with a member there has been cut. -/
def State.drained (s : State) (tile : Nat) : Bool :=
  (s.flocksOn tile fun _ => true).all fun fl => !(s.flock fl).onCores

/-! ## Role changes (R415, R422) -/

/-- A role change of a tile arrives. -/
def State.askRole (s : State) (tile : Nat) (a : RoleAction) : State := s.updTile tile fun t => t.askRole a

/-- Whether a role change takes a layer offline. -/
def RoleAction.takes : RoleAction → Nat → Bool
  | .swap k _, layer | .lose k, layer => k == layer
  | _, _ => false

/-- Whether a role change takes the shade layer. -/
def RoleAction.swaps : RoleAction → Bool
  | .swap _ _ => true
  | _ => false

/-- Whether a role change brings a layer back. -/
def RoleAction.returns : RoleAction → Bool
  | .comeBack _ => true
  | _ => false

/-- Whether a tile has a shade layer that no role change is to take. -/
def TileSt.shadeFree (t : TileSt) : Bool := t.shadeLayer.isSome && !t.roles.any RoleAction.swaps

/-- The flocks that a layer's loss kills: those with a member on its logical layer or a higher one. Log 44, DEDUCED. -/
def State.lossKills (s : State) (tile layer : Nat) : List Nat :=
  match ((s.tile tile).layer layer).logical with
  | none => []
  | some k => s.flocksOn tile fun l => decide (k ≤ l)

/-- Kills the flocks of a lost layer: their records carry 0xA3, with neither kill bit (R420). Log 44, DEDUCED. -/
def State.killLost (s : State) (tile layer : Nat) : State :=
  (s.lossKills tile layer).foldl (fun s fl => s.kill fl 0xA3 false false) s

/-- The role change at the front of a tile begins with its drain: every flock with a member on the tile is pre-empted; at
a layer's loss some are killed (R415, R420). Log 31, DEDUCED. -/
def execRoleChange (tile : Nat) (s : State) : Result :=
  s.shepherd fun s =>
    let t := s.tile tile
    match t.roleAction with
    | none => s
    | some a =>
      if t.rolePhase ≠ .none then s
      else
        let s := s.updTile tile fun t => { t with rolePhase := .drain }
        let s := match a with
          | .lose l => s.killLost tile l
          | _ => s
        (s.flocksOn tile fun _ => true).foldl State.preempt s

/-! ## The flush (R415, R416, R418, R419, R421) -/

/-- Copies the local memories of a layer's 16 cores to another layer's, core to core; their monitors go with them. -/
def State.copyLayer (s : State) (tile a b : Nat) : State :=
  (List.range 16).foldl (fun s c =>
    let p := 64 * tile + 16 * a + c
    let q := 64 * tile + 16 * b + c
    (s.setLm q (s.lmOf p) (s.lmSectors p)).moveMonitors p fun m => { m with pa := lmKey q (m.pa % 2 ^ 23) }) s

/-- The contexts in the slots of a layer's 16 cores go to another layer's with their cores (R405, R415). -/
def State.moveSlots (s : State) (tile a b : Nat) : State :=
  s.updTile tile fun t =>
    { t with slots := t.slots.foldl (fun m (e : Nat × (Nat × Nat)) => mset m (if e.1 / 16 = a then 16 * b + e.1 % 16 else e.1) e.2) [] }

/-- The shadow store moves to the first 64 MiB of the CTXOFF area, with the contexts in it (R419). -/
def State.moveStore (s : State) (tile : Nat) : State :=
  s.updTile tile fun t =>
    { t with ctxBytes := ((t.slots.map fun (e : Nat × (Nat × Nat)) => (e.1 * 0x100000, (e.1 + 1) * 0x100000)) ++ t.ctxBytes).dedup }

/-- Sectors that could not be read arrive poisoned: those of the 16 local memories first, then those of the pool of
logical layer `k` (R418). -/
def State.poisonUnread (s : State) (tile to_ k : Nat) (bad : List Nat) : State :=
  bad.foldl (fun s i =>
    if i < 16 * 131072 then
      s.poisonLoc (.lm (64 * tile + 16 * to_ + i / 131072) (64 * (i % 131072))) 1
    else
      let j := i - 16 * 131072
      if j < 0x2000000 / 64 then s.poisonLoc (.panel tile (0x10000000000 + k * 0x2000000 + 64 * j)) 1 else s) s

/-- Copies a range of bytes of tile storage over another. -/
def moveBytes (m : Memory) (a b n : Nat) : Memory :=
  (m.filter fun e => decide (a ≤ e.1 ∧ e.1 < a + n)).foldl (fun m e => Memory.write m (b + (e.1 - a)) e.2)
    (m.filter fun e => !(decide (b ≤ e.1 ∧ e.1 < b + n)))

/-- Copies the poisoned sectors of a range over those of another. -/
def moveSectors (ps : List Nat) (a b n : Nat) : List Nat :=
  (ps.filter fun p => !(decide (b ≤ 64 * p ∧ 64 * p < b + n))) ++
    (ps.filter fun p => decide (a ≤ 64 * p ∧ 64 * p < a + n)).map fun p => p + b / 64 - a / 64

/-- Moves bytes of tile storage from one key to another; the monitors armed there go with them (R220). -/
def State.copyStore (s : State) (a b n : Nat) : State :=
  { s with mem := moveBytes s.mem a b n, poison := moveSectors s.poison a b n }.mapMonitors fun m =>
    if m.mem && decide (a ≤ m.pa ∧ m.pa < a + n) then { m with pa := m.pa - a + b } else m

/-- The key of the first byte of a tile's carve-outs in the shade layer, and in the CTXOFF area (R54, R419). -/
def State.carveKeys (s : State) (tile : Nat) : Nat × Nat :=
  (tile * 2 ^ 42 + 0x10100000000, tile * 2 ^ 42 + (s.part ((s.tile tile).part.getD 0)).ctxoff + 0x4000000)

/-- The bytes of a tile's carve-outs that its partition declares. -/
def State.carveBytes (s : State) (tile : Nat) : Nat := (s.part ((s.tile tile).part.getD 0)).carve * 0x1000000

/-- The flush of a role change: dirty sectors are in HBM, which the model's storage always was; carve-outs and the data of
the layers are copied as the new roles require. -/
def State.flushRole (s : State) (tile : Nat) (a : RoleAction) : State :=
  let s := s.updTile tile fun t => { t with dirty := [] }
  let keys := s.carveKeys tile
  match a with
  | .create _ => s
  | .swap hot bad =>
    match (s.tile tile).shadeLayer, ((s.tile tile).layer hot).logical with
    | some sh, some k =>
      let s := s.copyStore keys.1 keys.2 (s.carveBytes tile)
      (((s.copyLayer tile hot sh).poisonUnread tile sh k bad).moveSlots tile hot sh).moveStore tile
    | _, _ => s
  | .lose _ => s
  | .comeBack _ => if (s.tile tile).hasShade then s else s.copyStore keys.2 keys.1 (s.carveBytes tile)

/-- The flush begins once the tile is drained; a flock that has meanwhile started there is pre-empted first (R415).
Log 31, DEDUCED. -/
def execRoleChangeFlush (tile : Nat) (s : State) : Result :=
  s.shepherd fun s =>
    let t := s.tile tile
    match t.roleAction with
    | none => s
    | some a =>
      if t.rolePhase ≠ .drain then s
      else if !s.drained tile then (s.flocksOn tile fun _ => true).foldl State.preempt s
      else (s.flushRole tile a).updTile tile fun t => { t with rolePhase := .flushed }

/-! ## The re-enumeration (R15, R415, R418, R420, R421) -/

/-- A layer that goes offline: it has no logical number, and no level. Log 45, DEDUCED. -/
def Layer.off (l : Layer) : Layer := { l with role := .offline, logical := none, coolSince := none, level := 0 }

/-- The hot layer goes offline and the shade layer is lit under its logical number. -/
def State.swapRoles (s : State) (tile hot : Nat) : State :=
  let t := s.tile tile
  match t.shadeLayer, (t.layer hot).logical, t.part with
  | some sh, some k, some n =>
    let s := s.updLayer tile sh fun l => { l with role := .lit, logical := some k, level := (t.layer hot).level }
    let s := s.updLayer tile hot Layer.off
    let s := s.updTile tile fun t => { t with noShadeBacking := true }
    s.updPart n fun p => { p with place := mset p.place (4 * p.logTile tile + k) sh }
  | _, _, _ => s

/-- The key of the first byte of the pool of a logical layer (R50). -/
def poolKey (tile l : Nat) : Nat := tile * 2 ^ 42 + 0x10000000000 + l * 0x2000000

/-- The content of a pool. -/
def State.poolBytes (s : State) (tile l : Nat) : Memory :=
  let lo := poolKey tile l
  (s.mem.filter fun (e : Host.Cell) => decide (lo ≤ e.1 ∧ e.1 < lo + 0x2000000)).map fun e => (e.1 - lo, e.2)

/-- The poisoned sectors of a pool. -/
def State.poolSectors (s : State) (tile l : Nat) : List Nat :=
  let lo := poolKey tile l
  (s.poison.filter fun p => decide (lo ≤ 64 * p ∧ 64 * p < lo + 0x2000000)).map fun p => p - lo / 64

/-- Puts a content in a pool. -/
def State.setPool (s : State) (tile l : Nat) (m : Memory) (bad : List Nat) : State :=
  let lo := poolKey tile l
  let kept : Memory := s.mem.filter fun (e : Host.Cell) => !decide (lo ≤ e.1 ∧ e.1 < lo + 0x2000000)
  { s with
    mem := m.foldl (fun mm e => Memory.write mm (lo + e.1) e.2) kept
    poison := (s.poison.filter fun p => !decide (lo ≤ 64 * p ∧ 64 * p < lo + 0x2000000)) ++ bad.map fun p => p + lo / 64 }

/-- A lost layer's number: the higher logical layers are numbered from it up in ascending physical order, and their pools
go with them; the lower ones keep theirs (R15, R420). What still names the layer or a higher one, a launch parsed since the
drain began among it, is killed first. Log 44, DEDUCED. -/
def State.loseLayer (s : State) (tile layer : Nat) : State :=
  let s := s.killLost tile layer
  let t := s.tile tile
  match (t.layer layer).logical, t.part with
  | some k, some n =>
    let higher := (List.range 4).filter fun j =>
      (t.layer j).role == .lit && (match (t.layer j).logical with | some l => decide (k < l) | none => false)
    let before := s
    let moves := (List.range higher.length).map fun i => (higher.getD i 0, k + i)
    let s := s.updLayer tile layer Layer.off
    let s := moves.foldl (fun s m =>
      let old := ((t.layer m.1).logical).getD 0
      let s := s.setPool tile m.2 (before.poolBytes tile old) (before.poolSectors tile old)
      (s.updLayer tile m.1 fun l => { l with logical := some m.2 }).updPart n fun p =>
        { p with place := mset p.place (4 * p.logTile tile + m.2) m.1 }) s
    let s := s.updPart n fun p => { p with place := mdel p.place (4 * p.logTile tile + k + higher.length) }
    let s := s.updTile tile fun t => { t with tlb := [] }
    let s := { s with life := { s.life with layersLost := satAdd (2 ^ 64 - 1) s.life.layersLost 1 } }
    s.stackFault tile layer 0xA3
  | _, _ => s

/-- A cool offline layer is the shade layer of its tile, which has no other (R413). -/
def State.shadeAgain (s : State) (tile layer : Nat) : State :=
  if (s.tile tile).hasShade then s
  else
  (s.updLayer tile layer fun l => { l with role := .shade, logical := none }).updTile tile fun t =>
    { t with noShadeBacking := false }

/-- The re-enumeration of a role change. -/
def State.reenumerate (s : State) (tile : Nat) (a : RoleAction) : State :=
  match a with
  | .create lit => s.updTile tile fun t => t.rolesAnew lit
  | .swap hot _ => s.swapRoles tile hot
  | .lose l => s.loseLayer tile l
  | .comeBack l => s.shadeAgain tile l

/-- The role change at work has ended: the next one that waits begins, with the drain that it shared already past; with none
the drained flocks may resume (R415, R422). Log 64, DEDUCED. -/
def TileSt.nextRole (t : TileSt) : TileSt :=
  match t.roleQueue with
  | [] => { t with rolePhase := .none, roleAction := none }
  | (a, shares) :: rest => { t with rolePhase := if shares then .drain else .none, roleAction := some a, roleQueue := rest }

/-- The creates that have waited for the roles of a tile end (R376). -/
def State.createsDone (s : State) : State := s.parts.foldl (fun s e => s.finishCreate e.1) s

/-- The re-enumeration ends a role change, one of a create among them. Log 64, DEDUCED. -/
def execRoleChangeReenumerate (tile : Nat) (s : State) : Result :=
  s.shepherd fun s =>
    let t := s.tile tile
    match t.roleAction with
    | none => s
    | some a =>
      if t.rolePhase ≠ .flushed then s
      else
        let s := s.reenumerate tile a
        let s := { s with life := { s.life with roleChanges := satAdd (2 ^ 64 - 1) s.life.roleChanges 1 } }
        (s.updTile tile TileSt.nextRole).createsDone

/-! ## Temperature (R417, R418, R420, R421, R432) -/

/-- 20 °C and 40 °C, in units of 0.25 °C. -/
def cool20 : Int := 80
/-- 40 °C. -/
def swing40 : Int := 160

/-- A layer after a sample of `v`; a crossing of TWARN stands until the next grant has answered it (R417). Log 45, DEDUCED. -/
def Layer.sample (l : Layer) (fw : Firmware) (v : Int) (now : Nat) : Layer :=
  let keep := fun (cond : Bool) (since : Option Nat) => if cond then some (since.getD now) else none
  let swung := decide (swing40 < max l.highest v - min l.lowest v)
  { l with
    temp := v
    warned := decide (fw.twarn ≤ v)
    toLower := l.toLower || (!l.warned && decide (fw.twarn ≤ v))
    emrgSince := keep (decide (fw.temrg ≤ v)) l.emrgSince
    emrgLowered := if fw.temrg ≤ v then l.emrgLowered else none
    coolSince := keep (decide (v < fw.twarn - cool20)) l.coolSince
    tripped := decide (fw.ttrip ≤ v)
    lowest := if swung then v else min l.lowest v
    highest := if swung then v else max l.highest v }

/-- A sample of a layer's four sensors: TWARN is reported once per crossing, and a swing of more than 40 °C is a thermal
cycle of the tile. -/
def execTemperatureSample (tile layer : Nat) (r : SensorReadings) (s : State) : Result :=
  .next (
    let v := max (max r.t0 r.t1) (max r.t2 r.t3)
    let l := (s.tile tile).layer layer
    let swung := decide (swing40 < max l.highest v - min l.lowest v)
    let s := s.updLayer tile layer fun l => l.sample s.fw v s.now
    let s := if swung then
        { s with life := { s.life with
            thermal := mset s.life.thermal tile (satAdd (2 ^ 64 - 1) (mget 0 s.life.thermal tile) 1) } }
      else s
    if !l.warned ∧ s.fw.twarn ≤ v then s.stackFault tile layer 0xA0 else s)

/-- 1 ms, and 5 ms, in ns. -/
def ms : Nat := 1000000

/-- Whether TEMRG has held for 1 ms on a layer. Log 45, DEDUCED. -/
def Layer.emergency (l : Layer) (now : Nat) : Bool :=
  l.role == .lit && match l.emrgSince with
    | some t => decide (t + ms ≤ now)
    | none => false

/-- The lit layers of a tile that no role change already takes offline. -/
def TileSt.staying (t : TileSt) : List Nat :=
  (List.range 4).filter fun k => (t.layer k).role == .lit && !(t.roles.any fun a => a.takes k)

/-- The hottest of some layers. -/
def TileSt.hottest (t : TileSt) (ks : List Nat) : Option Nat :=
  ks.foldl (fun b k =>
    match b with
    | none => some k
    | some j => if (t.layer j).temp < (t.layer k).temp then some k else some j) none

/-- The layer that a thermal emergency of a tile takes: where one of its lit layers is in emergency, the hottest lit layer
(R418). -/
def State.hotLayer (s : State) (tile : Nat) : Option Nat :=
  let t := s.tile tile
  if t.staying.any fun k => (t.layer k).emergency s.now then t.hottest t.staying else none

/-- Counts an emergency and reports 0xA1. -/
def State.emergency (s : State) (tile layer : Nat) : State :=
  { s with life := { s.life with emergencies := satAdd (2 ^ 64 - 1) s.life.emergencies 1 } }.stackFault tile layer 0xA1

/-- Every lit layer of a tile stands at level 3 at most. -/
def State.dropGrant (s : State) (tile : Nat) : State :=
  (List.range 4).foldl (fun s k => s.updLayer tile k fun l =>
    if l.role = .lit ∧ 3 < l.level.toNat then { l with level := 3 } else l) s

/-- A thermal emergency of a tile: the hot layer changes places with the shade layer; without one the tile's grant drops
(R418). One that finds the shade layer about to be taken, or about to come back, waits for the end of that role change (R422).
Log 45, DEDUCED. -/
def execThermalEmergency (tile : Nat) (s : State) : Result :=
  s.shepherd fun s =>
    match s.hotLayer tile with
    | none => s
    | some hot =>
      let t := s.tile tile
      if t.shadeFree then (s.askRole tile (.swap hot [])).emergency tile hot
      else if t.roles ≠ [] ∨ (t.layer hot).emrgLowered.isSome then s
      else ((s.dropGrant tile).updLayer tile hot fun l => { l with emrgLowered := some s.now }).emergency tile hot

/-- A lit layer fails its periodic self-test: it is swapped as in an emergency, sectors that it cannot read poisoned; without a
shade layer it must be lost (R418, R420). A layer that is not lit, or that is already to go offline, is only marked (R421). -/
def execSelftestFail (tile layer : Nat) (unreadable : List Nat) (s : State) : Result :=
  s.shepherd fun s =>
    let t := s.tile tile
    let s := s.updLayer tile layer fun l => { l with testFailed := true }
    if t.staying.contains layer ∧ t.shadeFree then (s.askRole tile (.swap layer unreadable)).stackFault tile layer 0xA1 else s

/-- Whether a lit layer of a tile with no shade layer, and none on its way back, must go offline: TEMRG still holds 5 ms after
its emergency lowered the grant, or it has failed its self-test. -/
def State.mustLose (s : State) (tile layer : Nat) : Bool :=
  let t := s.tile tile
  let l := t.layer layer
  t.staying.contains layer && t.shadeLayer.isNone && !(t.roles.any RoleAction.returns) &&
    (l.testFailed || (l.emrgSince.isSome && match l.emrgLowered with
      | some u => decide (u + 5 * ms ≤ s.now)
      | none => false))

/-- A lit layer is lost (R420): its role change is next, or waits its turn. -/
def execLayerLoss (tile layer : Nat) (s : State) : Result :=
  s.shepherd fun s => if s.mustLose tile layer then s.askRole tile (.lose layer) else s

/-- Whether an offline layer may come back as its tile's shade layer, which has none and awaits none. -/
def State.mayReturn (s : State) (tile layer : Nat) : Bool :=
  let t := s.tile tile
  let l := t.layer layer
  let cool := match l.coolSince with
    | some u => decide (u + 1000 * ms ≤ s.now)
    | none => false
  t.part.isSome && l.role == .offline && !l.testFailed && cool && t.shadeLayer.isNone && !(t.roles.any RoleAction.returns)

/-- A cool offline layer comes back with a drain that happens anyway: that of a role change, which serves for it, or that of a
tile on whose cores no flock stands (R421, R422). -/
def execLayerReturn (tile layer : Nat) (s : State) : Result :=
  s.shepherd fun s =>
    let t := s.tile tile
    if !s.mayReturn tile layer then s
    else if t.rolePhase = .drain then s.askRole tile (.comeBack layer)
    else if t.roleAction = none ∧ s.drained tile then
      s.updTile tile fun t => { t with roleAction := some (.comeBack layer), rolePhase := .drain }
    else s

/-! ## Power (R417, R418, R424, R429) -/

/-- The highest level that a new grant may have: below the last one after a TWARN crossing, above TWARN, or while a ballast
charge stands, and a relaxed one on a tile with four lit layers or in an emergency. Log 46, DESIGN CHOICE. -/
def State.grantLimit (s : State) (tile layer : Nat) : Nat :=
  let t := s.tile tile
  let l := t.layer layer
  let lower := if l.warned || l.toLower || l.charge != 0 then l.level.toNat - 1 else 7
  let relaxed := if t.litCount = 4 ∨ (List.range 4).any (fun k => (t.layer k).emrgLowered.isSome && (t.layer k).emrgSince.isSome) then 3 else 7
  min lower relaxed

/-- The power of a lit layer at a level, in W (R423). -/
def levelWatts (lvl : BitVec 3) : Nat := [69, 79, 90, 96, 104, 112, 122, 130].getD lvl.toNat 0

/-- The lit layers of some tiles: tile and layer. -/
def State.litLayers (s : State) (tiles : List Nat) : List (Nat × Nat) :=
  tiles.flatMap fun t => ((List.range 4).filter fun k => ((s.tile t).layer k).role == .lit).map fun k => (t, k)

/-- The level of a layer. -/
def State.levelOf (s : State) (l : Nat × Nat) : BitVec 3 := ((s.tile l.1).layer l.2).level

/-- What a tile draws, HBM and ports included. Log 46, DESIGN CHOICE. -/
def State.tileWatts (s : State) (tile : Nat) : Nat :=
  ((s.litLayers [tile]).map fun l => levelWatts (s.levelOf l)).sum + Config.otherWatts (s.freeIx tile)

/-- The tiles of the panel. -/
def allTiles : List Nat := List.range 64

/-- Whether a tile draws its budget of 500 W or more, or the module more than its cap, which the ballast charges reduce
(R424, R429). -/
def State.overTile (s : State) (tile : Nat) : Bool := decide (500 ≤ s.tileWatts tile)
/-- The module's cap. -/
def State.overModule (s : State) : Bool :=
  let charge := ((s.litLayers allTiles).map fun l => ((s.tile l.1).layer l.2).charge).sum
  decide (1000 * s.fw.capKw < (allTiles.map s.tileWatts).sum + charge)

/-- How late a layer is lowered: by the effective priority of the flocks on it, and last where a cadence launch in the top band
runs there (R36, R37, R424). -/
def State.lowerRank (s : State) (l : Nat × Nat) : Nat :=
  let here := (s.flocksOn l.1 fun k => ((s.tile l.1).layer l.2).logical == some k).filter fun fl => (s.flock fl).onCores
  (here.map fun fl =>
    let top := (s.flock fl).tick.isSome && decide (240 ≤ s.priority fl)
    s.priority fl + (if top then 256 else 0)).foldl max 0

/-- The layer that is lowered first of those that can be. -/
def State.firstLowered (s : State) (ls : List (Nat × Nat)) : Option (Nat × Nat) :=
  (ls.filter fun l => s.levelOf l != 0).foldl (fun b l =>
    match b with
    | none => some l
    | some m => if s.lowerRank l < s.lowerRank m then some l else some m) none

/-- Lowers layers of `ls`, one level at a time, while a budget is exceeded: those of flocks with a lower effective priority first
(R424); no layer below level 0. -/
def State.keepBudget (exceeded : State → Bool) (ls : List (Nat × Nat)) : Nat → State → State
  | 0, s => s
  | n + 1, s =>
    if exceeded s then
      match s.firstLowered ls with
      | none => s
      | some l => (s.updLayer l.1 l.2 fun y => { y with level := y.level - 1 }).keepBudget exceeded ls n
    else s

/-- A level is given to a lit layer; a lowered grant repays some of the ballast charge. Log 46, DESIGN CHOICE. -/
def State.giveLevel (s : State) (tile layer : Nat) (lvl : BitVec 3) : State :=
  s.updLayer tile layer fun l =>
    { l with
      level := BitVec.ofNat 3 (min lvl.toNat (s.grantLimit tile layer)), toLower := false
      charge := l.charge - Config.anyNat (s.freeIx layer) }

/-- A level is granted to a lit layer, and the grants of its tile and of the module are kept within their budgets (R424). -/
def execPowerGrant (tile layer : Nat) (lvl : BitVec 3) (s : State) : Result :=
  s.shepherd fun s =>
    if ((s.tile tile).layer layer).role ≠ .lit then s
    else
      let s := (s.giveLevel tile layer lvl).keepBudget (fun s => s.overTile tile) (s.litLayers [tile]) 28
      s.keepBudget State.overModule (s.litLayers allTiles) 1792

/-- The ballast unit of a layer limits a fall of `drop` W to 50 W per µs, over a window of at most 2 µs; what it spends
above the module cap is charged. Log 46, DESIGN CHOICE. -/
def execBallastRamp (tile layer : Nat) (drop : Nat) (s : State) : Result :=
  .next (s.updLayer tile layer fun l =>
    { l with rampUntil := s.now + min 2000 (20 * drop), rampLen := min 2000 (20 * drop), charge := l.charge + Config.anyNat (s.freeIx layer) })

/-! ## Capture units (R433) -/

/-- Whether a source captures. -/
def Capture.live (c : Capture) : Bool := c.en && 1 ≤ c.src.toNat && c.src.toNat ≤ 5

/-- What a sample, or ORG, stands for in the source's unit: a temperature may lie below 0. Log 45, DEDUCED. -/
def Capture.value (c : Capture) (v : W32) : Int := if c.src = 3 then v.toInt else v.toNat

/-- The bin of a sample. -/
def Capture.bin (c : Capture) (v : W32) : Nat := (min 31 (max 0 ((c.value v - c.value c.org) / 2 ^ c.shift.toNat))).toNat

/-- A capture unit after a sample. -/
def Capture.add (c : Capture) (v : W32) : Capture :=
  let first := c.cnt == 0
  let k := Fin.ofNat 32 (c.bin v)
  { c with
    mn := if first || c.value v < c.value c.mn then v else c.mn
    mx := if first || c.value c.mx < c.value v then v else c.mx
    cnt := satAdd (2 ^ 64 - 1) c.cnt 1
    bins := c.bins.set k (satAdd (2 ^ 32 - 1) c.bins[k] 1) }

/-- The sample that a capture unit of a tile takes: of a layer its temperature or the length of its last ramp window, as the
state holds them; a latency or a power as it is measured, from outside the model. -/
def TileSt.sampleOf (t : TileSt) (c : Capture) (measured : W32) : W32 :=
  let l := t.layer c.layer.toNat
  if c.src = 3 then BitVec.ofInt 32 l.temp else if c.src = 5 then BitVec.ofNat 32 l.rampLen else measured

/-- A capture unit bins a sample; a source of a layer that the tile does not have gives none. -/
def execCaptureSample (tile unit : Nat) (sample : W32) (s : State) : Result :=
  .next (
    let t := s.tile tile
    s.updCapture tile unit fun c =>
      if c.live && (c.src.toNat < 3 || c.layer.toNat < 4) then c.add (t.sampleOf c sample) else c)

/-! ## Lifetime counters and module reset (R413, R432) -/

/-- The lifetime counters are written to flash. -/
def execLifetimeCounterSave (s : State) : Result := .next { s with flash := s.life }

/-- Module reset: every layer offline, every register at its reset value; flash keeps its counters, and what storage and
the host hold is left as it is. Log 47, DESIGN CHOICE. -/
def execModuleReset (s : State) : Result :=
  .next { State.reset with
    now := s.now, mem := s.mem, poison := s.poison, lm := s.lm, lmPoison := s.lmPoison, hostMem := s.hostMem
    hostPoison := s.hostPoison, ports := s.ports, life := s.flash, flash := s.flash, lines := s.lines, draws := s.draws
    agenda := s.agenda }

end Sys2Proof.Machine
end

