-- ==== Sys2Proof/Machine/Dispatch.lean ====
section
/-! DEFINITION. The dispatch: one arm for each constructor of `Instr`. -/

namespace Sys2Proof.Machine

/-- What an instruction, or a step of the table, does to the machine. -/
def exec (i : Instr) (s : State) : Host.Outcome State Fault Refusal :=
  match i with
  | .nop => Sys2Proof.Machine.execNop s
  | .movi gd d imm => Sys2Proof.Machine.execMovi gd d imm s
  | .moviWide gd d imm => Sys2Proof.Machine.execMoviWide gd d imm s
  | .movhi gd d imm => Sys2Proof.Machine.execMovhi gd d imm s
  | .movhiWide gd d imm => Sys2Proof.Machine.execMovhiWide gd d imm s
  | .mov gd d a => Sys2Proof.Machine.execMov gd d a s
  | .add gd d a b => Sys2Proof.Machine.execAdd gd d a b s
  | .addWide gd d a imm => Sys2Proof.Machine.execAddWide gd d a imm s
  | .addi gd d imm => Sys2Proof.Machine.execAddi gd d imm s
  | .addiWide gd d imm => Sys2Proof.Machine.execAddiWide gd d imm s
  | .sub gd d a b => Sys2Proof.Machine.execSub gd d a b s
  | .subWide gd d a imm => Sys2Proof.Machine.execSubWide gd d a imm s
  | .mul gd d a b => Sys2Proof.Machine.execMul gd d a b s
  | .mulWide gd d a imm => Sys2Proof.Machine.execMulWide gd d a imm s
  | .mulh gd d a b => Sys2Proof.Machine.execMulh gd d a b s
  | .mulhN gd d a b => Sys2Proof.Machine.execMulhN gd d a b s
  | .and gd d a b => Sys2Proof.Machine.execAnd gd d a b s
  | .andWide gd d a imm => Sys2Proof.Machine.execAndWide gd d a imm s
  | .andn gd d a b => Sys2Proof.Machine.execAndn gd d a b s
  | .andnWide gd d a imm => Sys2Proof.Machine.execAndnWide gd d a imm s
  | .or gd d a b => Sys2Proof.Machine.execOr gd d a b s
  | .orWide gd d a imm => Sys2Proof.Machine.execOrWide gd d a imm s
  | .xor gd d a b => Sys2Proof.Machine.execXor gd d a b s
  | .xorWide gd d a imm => Sys2Proof.Machine.execXorWide gd d a imm s
  | .shl gd d a b => Sys2Proof.Machine.execShl gd d a b s
  | .shr gd d a b => Sys2Proof.Machine.execShr gd d a b s
  | .sar gd d a b => Sys2Proof.Machine.execSar gd d a b s
  | .rot gd d a b => Sys2Proof.Machine.execRot gd d a b s
  | .clz gd d a => Sys2Proof.Machine.execClz gd d a s
  | .popc gd d a => Sys2Proof.Machine.execPopc gd d a s
  | .min gd d a b => Sys2Proof.Machine.execMin gd d a b s
  | .minWide gd d a imm => Sys2Proof.Machine.execMinWide gd d a imm s
  | .minN gd d a b => Sys2Proof.Machine.execMinN gd d a b s
  | .minNWide gd d a imm => Sys2Proof.Machine.execMinNWide gd d a imm s
  | .max gd d a b => Sys2Proof.Machine.execMax gd d a b s
  | .maxWide gd d a imm => Sys2Proof.Machine.execMaxWide gd d a imm s
  | .maxN gd d a b => Sys2Proof.Machine.execMaxN gd d a b s
  | .maxNWide gd d a imm => Sys2Proof.Machine.execMaxNWide gd d a imm s
  | .cmp gd pd cc a b => Sys2Proof.Machine.execCmp gd pd cc a b s
  | .cmpWide gd pd cc a imm => Sys2Proof.Machine.execCmpWide gd pd cc a imm s
  | .sel gd d a b ps => Sys2Proof.Machine.execSel gd d a b ps s
  | .br gd off => Sys2Proof.Machine.execBr gd off s
  | .brBq off => Sys2Proof.Machine.execBrBq off s
  | .jmp gd off => Sys2Proof.Machine.execJmp gd off s
  | .jmpReg gd a => Sys2Proof.Machine.execJmpReg gd a s
  | .call gd off => Sys2Proof.Machine.execCall gd off s
  | .callReg gd a => Sys2Proof.Machine.execCallReg gd a s
  | .ret gd => Sys2Proof.Machine.execRet gd s
  | .loop gd a body => Sys2Proof.Machine.execLoop gd a body s
  | .rdsr gd d srn => Sys2Proof.Machine.execRdsr gd d srn s
  | .wrsr gd a srn => Sys2Proof.Machine.execWrsr gd a srn s
  | .trap gd code => Sys2Proof.Machine.execTrap gd code s
  | .fin gd => Sys2Proof.Machine.execFin gd s
  | .sectionHeader h => Sys2Proof.Machine.execSectionHeader h s
  | .sectionRetire c st => Sys2Proof.Machine.execSectionRetire c st s
  | .ld gd d a sz sx => Sys2Proof.Machine.execLd gd d a sz sx s
  | .ldOffset gd d a sz sx off => Sys2Proof.Machine.execLdOffset gd d a sz sx off s
  | .ldl gd d a sz sx => Sys2Proof.Machine.execLdl gd d a sz sx s
  | .ldlQ gd q a e => Sys2Proof.Machine.execLdlQ gd q a e s
  | .ldlOffset gd f a off => Sys2Proof.Machine.execLdlOffset gd f a off s
  | .ldr gd q a e => Sys2Proof.Machine.execLdr gd q a e s
  | .ldrOffset gd q a e off => Sys2Proof.Machine.execLdrOffset gd q a e off s
  | .lds gd q st => Sys2Proof.Machine.execLds gd q st s
  | .gath gd q sp esz a b => Sys2Proof.Machine.execGath gd q sp esz a b s
  | .gathN gd q sp esz a b nm1 => Sys2Proof.Machine.execGathN gd q sp esz a b nm1 s
  | .stcfg gd st a => Sys2Proof.Machine.execStcfg gd st a s
  | .stcfgOffset gd st a off => Sys2Proof.Machine.execStcfgOffset gd st a off s
  | .stadv gd st a b => Sys2Proof.Machine.execStadv gd st a b s
  | .stadvSkip gd st a => Sys2Proof.Machine.execStadvSkip gd st a s
  | .stadvImm gd st skip b imm => Sys2Proof.Machine.execStadvImm gd st skip b imm s
  | .pref gd lvl a n => Sys2Proof.Machine.execPref gd lvl a n s
  | .prefOffset gd lvl a n off => Sys2Proof.Machine.execPrefOffset gd lvl a n off s
  | .ldlay gd d a k => Sys2Proof.Machine.execLdlay gd d a k s
  | .ldlayOffset gd d a k off => Sys2Proof.Machine.execLdlayOffset gd d a k off s
  | .fenceLayout gd => Sys2Proof.Machine.execFenceLayout gd s
  | .qpush gd q sz a => Sys2Proof.Machine.execQpush gd q sz a s
  | .bqpush gd ps inv => Sys2Proof.Machine.execBqpush gd ps inv s
  | .recv gd q h e => Sys2Proof.Machine.execRecv gd q h e s
  | .recvTry gd q h e pd => Sys2Proof.Machine.execRecvTry gd q h e pd s
  | .lAccessComplete c => Sys2Proof.Machine.execLAccessComplete c s
  | .st gd b a sz => Sys2Proof.Machine.execSt gd b a sz s
  | .stQ gd q a e => Sys2Proof.Machine.execStQ gd q a e s
  | .stOffset gd f a off => Sys2Proof.Machine.execStOffset gd f a off s
  | .stl gd b a sz => Sys2Proof.Machine.execStl gd b a sz s
  | .stlQ gd q a e => Sys2Proof.Machine.execStlQ gd q a e s
  | .stlOffset gd f a off => Sys2Proof.Machine.execStlOffset gd f a off s
  | .str gd q a f e => Sys2Proof.Machine.execStr gd q a f e s
  | .strOffset gd q a f e off sc => Sys2Proof.Machine.execStrOffset gd q a f e off sc s
  | .sAccessComplete c => Sys2Proof.Machine.execSAccessComplete c s
  | .pushReg gd sc b => Sys2Proof.Machine.execPushReg gd sc b s
  | .pushSq gd sc q => Sys2Proof.Machine.execPushSq gd sc q s
  | .pop gd f d => Sys2Proof.Machine.execPop gd f d s
  | .popTry gd f d pd => Sys2Proof.Machine.execPopTry gd f d pd s
  | .rgx gd d a b => Sys2Proof.Machine.execRgx gd d a b s
  | .rgxImm gd d a exp new => Sys2Proof.Machine.execRgxImm gd d a exp new s
  | .fence gd sc => Sys2Proof.Machine.execFence gd sc s
  | .waita gd a b => Sys2Proof.Machine.execWaita gd a b s
  | .waitaNb gd a b => Sys2Proof.Machine.execWaitaNb gd a b s
  | .waitaOffset gd nb a b off => Sys2Proof.Machine.execWaitaOffset gd nb a b off s
  | .monitorArm c => Sys2Proof.Machine.execMonitorArm c s
  | .barArrive gd bar => Sys2Proof.Machine.execBarArrive gd bar s
  | .barWait gd bar d => Sys2Proof.Machine.execBarWait gd bar d s
  | .barArwt gd bar d => Sys2Proof.Machine.execBarArwt gd bar d s
  | .barrierArrival c => Sys2Proof.Machine.execBarrierArrival c s
  | .barrierPhaseComplete fl key => Sys2Proof.Machine.execBarrierPhaseComplete fl key s
  | .trig gd => Sys2Proof.Machine.execTrig gd s
  | .send gd q h e => Sys2Proof.Machine.execSend gd q h e s
  | .sendTry gd q h e pd => Sys2Proof.Machine.execSendTry gd q h e pd s
  | .vadd gd d a b ty => Sys2Proof.Machine.execVadd gd d a b ty s
  | .vsub gd d a b ty => Sys2Proof.Machine.execVsub gd d a b ty s
  | .vmul gd d a b ty => Sys2Proof.Machine.execVmul gd d a b ty s
  | .vmulh gd d a b ty => Sys2Proof.Machine.execVmulh gd d a b ty s
  | .vmad gd d a b ty => Sys2Proof.Machine.execVmad gd d a b ty s
  | .vand gd d a b => Sys2Proof.Machine.execVand gd d a b s
  | .vor gd d a b => Sys2Proof.Machine.execVor gd d a b s
  | .vxor gd d a b => Sys2Proof.Machine.execVxor gd d a b s
  | .vlop3 gd d a b c k8 => Sys2Proof.Machine.execVlop3 gd d a b c k8 s
  | .vshl gd d a b ty => Sys2Proof.Machine.execVshl gd d a b ty s
  | .vshr gd d a b ty => Sys2Proof.Machine.execVshr gd d a b ty s
  | .vsar gd d a b ty => Sys2Proof.Machine.execVsar gd d a b ty s
  | .vfshl gd d a b amt ty => Sys2Proof.Machine.execVfshl gd d a b amt ty s
  | .vfshr gd d a b amt ty => Sys2Proof.Machine.execVfshr gd d a b amt ty s
  | .vpopc gd d a ty => Sys2Proof.Machine.execVpopc gd d a ty s
  | .vclz gd d a ty => Sys2Proof.Machine.execVclz gd d a ty s
  | .vmin gd d a b ty => Sys2Proof.Machine.execVmin gd d a b ty s
  | .vmax gd d a b ty => Sys2Proof.Machine.execVmax gd d a b ty s
  | .vabs gd d a ty => Sys2Proof.Machine.execVabs gd d a ty s
  | .vcmpEq gd d a b ty => Sys2Proof.Machine.execVcmpEq gd d a b ty s
  | .vcmpNe gd d a b ty => Sys2Proof.Machine.execVcmpNe gd d a b ty s
  | .vcmpLt gd d a b ty => Sys2Proof.Machine.execVcmpLt gd d a b ty s
  | .vcmpLe gd d a b ty => Sys2Proof.Machine.execVcmpLe gd d a b ty s
  | .vsel gd d a b c ty => Sys2Proof.Machine.execVsel gd d a b c ty s
  | .fadd gd d a b ty => Sys2Proof.Machine.execFadd gd d a b ty s
  | .fsub gd d a b ty => Sys2Proof.Machine.execFsub gd d a b ty s
  | .fmul gd d a b ty => Sys2Proof.Machine.execFmul gd d a b ty s
  | .ffma gd d a b ty => Sys2Proof.Machine.execFfma gd d a b ty s
  | .fmin gd d a b ty => Sys2Proof.Machine.execFmin gd d a b ty s
  | .fmax gd d a b ty => Sys2Proof.Machine.execFmax gd d a b ty s
  | .fabs gd d a ty => Sys2Proof.Machine.execFabs gd d a ty s
  | .fneg gd d a ty => Sys2Proof.Machine.execFneg gd d a ty s
  | .fcmpEq gd d a b ty => Sys2Proof.Machine.execFcmpEq gd d a b ty s
  | .fcmpNe gd d a b ty => Sys2Proof.Machine.execFcmpNe gd d a b ty s
  | .fcmpLt gd d a b ty => Sys2Proof.Machine.execFcmpLt gd d a b ty s
  | .fcmpLe gd d a b ty => Sys2Proof.Machine.execFcmpLe gd d a b ty s
  | .frcp gd d a ty => Sys2Proof.Machine.execFrcp gd d a ty s
  | .frsq gd d a ty => Sys2Proof.Machine.execFrsq gd d a ty s
  | .fexp2 gd d a ty => Sys2Proof.Machine.execFexp2 gd d a ty s
  | .flog2 gd d a ty => Sys2Proof.Machine.execFlog2 gd d a ty s
  | .vperm gd d a b ty => Sys2Proof.Machine.execVperm gd d a b ty s
  | .vbcast gd d a lane ty => Sys2Proof.Machine.execVbcast gd d a lane ty s
  | .vbcastG gd d c ty => Sys2Proof.Machine.execVbcastG gd d c ty s
  | .vrotl gd d a k ty => Sys2Proof.Machine.execVrotl gd d a k ty s
  | .vrotlG gd d a c ty => Sys2Proof.Machine.execVrotlG gd d a c ty s
  | .vcomp gd d a b ty => Sys2Proof.Machine.execVcomp gd d a b ty s
  | .vred gd d a op ty => Sys2Proof.Machine.execVred gd d a op ty s
  | .fred gd d a op ty => Sys2Proof.Machine.execFred gd d a op ty s
  | .vredm gd d a b ty => Sys2Proof.Machine.execVredm gd d a b ty s
  | .fredm gd d a b ty => Sys2Proof.Machine.execFredm gd d a b ty s
  | .qpop gd d q => Sys2Proof.Machine.execQpop gd d q s
  | .qput gd n8 q b => Sys2Proof.Machine.execQput gd n8 q b s
  | .view gd k n w imm => Sys2Proof.Machine.execView gd k n w imm s
  | .rotb gd => Sys2Proof.Machine.execRotb gd s
  | .loopst gd ns rt => Sys2Proof.Machine.execLoopst gd ns rt s
  | .resultLanding c ix => Sys2Proof.Machine.execResultLanding c ix s
  | .cvt gd d a cf part => Sys2Proof.Machine.execCvt gd d a cf part s
  | .qmx gd d a cf part => Sys2Proof.Machine.execQmx gd d a cf part s
  | .qtrl gd d cf => Sys2Proof.Machine.execQtrl gd d cf s
  | .qstat gd tid => Sys2Proof.Machine.execQstat gd tid s
  | .qstatClr gd tid => Sys2Proof.Machine.execQstatClr gd tid s
  | .mxsetHdr gd a => Sys2Proof.Machine.execMxsetHdr gd a s
  | .mxsetLvl gd a => Sys2Proof.Machine.execMxsetLvl gd a s
  | .mxbindG gd role b => Sys2Proof.Machine.execMxbindG gd role b s
  | .mxbindView gd role kind n => Sys2Proof.Machine.execMxbindView gd role kind n s
  | .mxgrp gd en gl gx => Sys2Proof.Machine.execMxgrp gd en gl gx s
  | .mxgo gd => Sys2Proof.Machine.execMxgo gd s
  | .mxwait gd d => Sys2Proof.Machine.execMxwait gd d s
  | .mxcommit gd => Sys2Proof.Machine.execMxcommit gd s
  | .mxcommitClr gd => Sys2Proof.Machine.execMxcommitClr gd s
  | .mxswap gd n => Sys2Proof.Machine.execMxswap gd n s
  | .nestStart c => Sys2Proof.Machine.execNestStart c s
  | .weightSwap c => Sys2Proof.Machine.execWeightSwap c s
  | .nestPass c => Sys2Proof.Machine.execNestPass c s
  | .nestDrain c => Sys2Proof.Machine.execNestDrain c s
  | .nestComplete c => Sys2Proof.Machine.execNestComplete c s
  | .copy r => Sys2Proof.Machine.execCopy r s
  | .copy2 r => Sys2Proof.Machine.execCopy2 r s
  | .copy3 r => Sys2Proof.Machine.execCopy3 r s
  | .put r => Sys2Proof.Machine.execPut r s
  | .putf r => Sys2Proof.Machine.execPutf r s
  | .get r => Sys2Proof.Machine.execGet r s
  | .accw r => Sys2Proof.Machine.execAccw r s
  | .fill r => Sys2Proof.Machine.execFill r s
  | .mcast r => Sys2Proof.Machine.execMcast r s
  | .prefAdapt r => Sys2Proof.Machine.execPrefAdapt r s
  | .signal r => Sys2Proof.Machine.execSignal r s
  | .aowAdd r => Sys2Proof.Machine.execAowAdd r s
  | .aowMin r => Sys2Proof.Machine.execAowMin r s
  | .aowMax r => Sys2Proof.Machine.execAowMax r s
  | .aowAnd r => Sys2Proof.Machine.execAowAnd r s
  | .aowOr r => Sys2Proof.Machine.execAowOr r s
  | .aowXor r => Sys2Proof.Machine.execAowXor r s
  | .aowSwap r => Sys2Proof.Machine.execAowSwap r s
  | .cas r => Sys2Proof.Machine.execCas r s
  | .flagadd r => Sys2Proof.Machine.execFlagadd r s
  | .reservedCommand r => Sys2Proof.Machine.execReservedCommand r s
  | .commandComplete c tk => Sys2Proof.Machine.execCommandComplete c tk s
  | .homeRequest ix => Sys2Proof.Machine.execHomeRequest ix s
  | .remoteReply ix => Sys2Proof.Machine.execRemoteReply ix s
  | .trapRecordWrite c => Sys2Proof.Machine.execTrapRecordWrite c s
  | .connect h src dst sp dp rep => Sys2Proof.Machine.execConnect h src dst sp dp rep s
  | .hold h tile all n => Sys2Proof.Machine.execHold h tile all n s
  | .tear h tile all => Sys2Proof.Machine.execTear h tile all s
  | .step bar => Sys2Proof.Machine.execStep bar s
  | .settle addr => Sys2Proof.Machine.execSettle addr s
  | .loopc count body => Sys2Proof.Machine.execLoopc count body s
  | .jumpc cnd off => Sys2Proof.Machine.execJumpc cnd off s
  | .mark value => Sys2Proof.Machine.execMark value s
  | .query h tile kind minw => Sys2Proof.Machine.execQuery h tile kind minw s
  | .endc => Sys2Proof.Machine.execEndc s
  | .droverStep part => Sys2Proof.Machine.execDroverStep part s
  | .circuitLive part ix => Sys2Proof.Machine.execCircuitLive part ix s
  | .doorbellWrite part q x => Sys2Proof.Machine.execDoorbellWrite part q x s
  | .queueEnable part q => Sys2Proof.Machine.execQueueEnable part q s
  | .partCreate part => Sys2Proof.Machine.execPartCreate part s
  | .launch p => Sys2Proof.Machine.execLaunch p s
  | .launchPlace fl => Sys2Proof.Machine.execLaunchPlace fl s
  | .waitsig p => Sys2Proof.Machine.execWaitsig p s
  | .signalPacket p => Sys2Proof.Machine.execSignalPacket p s
  | .fetchfence p => Sys2Proof.Machine.execFetchfence p s
  | .wrap p => Sys2Proof.Machine.execWrap p s
  | .pad p => Sys2Proof.Machine.execPad p s
  | .writePacket p => Sys2Proof.Machine.execWritePacket p s
  | .copyPacket p => Sys2Proof.Machine.execCopyPacket p s
  | .preemptSuspend p => Sys2Proof.Machine.execPreemptSuspend p s
  | .preemptResume p => Sys2Proof.Machine.execPreemptResume p s
  | .preemptKill p => Sys2Proof.Machine.execPreemptKill p s
  | .cadence p => Sys2Proof.Machine.execCadence p s
  | .qstatus p => Sys2Proof.Machine.execQstatus p s
  | .reservedPacket p => Sys2Proof.Machine.execReservedPacket p s
  | .preemptCut c => Sys2Proof.Machine.execPreemptCut c s
  | .memberRetire c => Sys2Proof.Machine.execMemberRetire c s
  | .flockRetire fl => Sys2Proof.Machine.execFlockRetire fl s
  | .firmwareBoot b => Sys2Proof.Machine.execFirmwareBoot b s
  | .strFlagAdd c => Sys2Proof.Machine.execStrFlagAdd c s
  | .monitorWake tile ix => Sys2Proof.Machine.execMonitorWake tile ix s
  | .triggerArrive c => Sys2Proof.Machine.execTriggerArrive c s
  | .commitBufferRelease c => Sys2Proof.Machine.execCommitBufferRelease c s
  | .bundleReplay c => Sys2Proof.Machine.execBundleReplay c s
  | .putfFlagAdd c tk => Sys2Proof.Machine.execPutfFlagAdd c tk s
  | .penumbraSettle c tk lost => Sys2Proof.Machine.execPenumbraSettle c tk lost s
  | .retryAfterResend ix => Sys2Proof.Machine.execRetryAfterResend ix s
  | .requestTimeoutResend ix => Sys2Proof.Machine.execRequestTimeoutResend ix s
  | .uncorrectableError loc => Sys2Proof.Machine.execUncorrectableError loc s
  | .streamDeadlock c => Sys2Proof.Machine.execStreamDeadlock c s
  | .variantSwitch c => Sys2Proof.Machine.execVariantSwitch c s
  | .variantSwitchMiss c => Sys2Proof.Machine.execVariantSwitchMiss c s
  | .flitReceive e f => Sys2Proof.Machine.execFlitReceive e f s
  | .nackReceive e lseq => Sys2Proof.Machine.execNackReceive e lseq s
  | .fecWindowEnd e k => Sys2Proof.Machine.execFecWindowEnd e k s
  | .handBack e k => Sys2Proof.Machine.execHandBack e k s
  | .retrainLock e k => Sys2Proof.Machine.execRetrainLock e k s
  | .retrainTimeout e k => Sys2Proof.Machine.execRetrainTimeout e k s
  | .viewExchange e k peer => Sys2Proof.Machine.execViewExchange e k peer s
  | .ringTuningLost e k => Sys2Proof.Machine.execRingTuningLost e k s
  | .laserLineLost row k => Sys2Proof.Machine.execLaserLineLost row k s
  | .laserLineRestored row k => Sys2Proof.Machine.execLaserLineRestored row k s
  | .faultRoute part => Sys2Proof.Machine.execFaultRoute part s
  | .queueDisable part q => Sys2Proof.Machine.execQueueDisable part q s
  | .queueReset part q => Sys2Proof.Machine.execQueueReset part q s
  | .queueRetry part q => Sys2Proof.Machine.execQueueRetry part q s
  | .partRemove part => Sys2Proof.Machine.execPartRemove part s
  | .partKill part => Sys2Proof.Machine.execPartKill part s
  | .mmuInv part asid tile allt => Sys2Proof.Machine.execMmuInv part asid tile allt s
  | .trapctlResume part core => Sys2Proof.Machine.execTrapctlResume part core s
  | .trapctlKill part core => Sys2Proof.Machine.execTrapctlKill part core s
  | .portRetrain e => Sys2Proof.Machine.execPortRetrain e s
  | .portCounterClear e => Sys2Proof.Machine.execPortCounterClear e s
  | .capClear tile unit => Sys2Proof.Machine.execCapClear tile unit s
  | .domidWrite v => Sys2Proof.Machine.execDomidWrite v s
  | .registerWrite off v => Sys2Proof.Machine.execRegisterWrite off v s
  | .hdmAccess tile off a => Sys2Proof.Machine.execHdmAccess tile off a s
  | .waitsigPoll part q => Sys2Proof.Machine.execWaitsigPoll part q s
  | .headWriteback part q => Sys2Proof.Machine.execHeadWriteback part q s
  | .cadenceTick part q => Sys2Proof.Machine.execCadenceTick part q s
  | .cadenceTopBand fl => Sys2Proof.Machine.execCadenceTopBand fl s
  | .cadenceMissedTick fl => Sys2Proof.Machine.execCadenceMissedTick fl s
  | .quantumExpiry fl => Sys2Proof.Machine.execQuantumExpiry fl s
  | .forcedCut c => Sys2Proof.Machine.execForcedCut c s
  | .flockResume fl => Sys2Proof.Machine.execFlockResume fl s
  | .shepherdRestart => Sys2Proof.Machine.execShepherdRestart s
  | .powerGrant tile layer lvl => Sys2Proof.Machine.execPowerGrant tile layer lvl s
  | .temperatureSample tile layer r => Sys2Proof.Machine.execTemperatureSample tile layer r s
  | .thermalEmergency tile => Sys2Proof.Machine.execThermalEmergency tile s
  | .selftestFail tile layer unreadable => Sys2Proof.Machine.execSelftestFail tile layer unreadable s
  | .layerLoss tile layer => Sys2Proof.Machine.execLayerLoss tile layer s
  | .roleChange tile => Sys2Proof.Machine.execRoleChange tile s
  | .roleChangeFlush tile => Sys2Proof.Machine.execRoleChangeFlush tile s
  | .roleChangeReenumerate tile => Sys2Proof.Machine.execRoleChangeReenumerate tile s
  | .layerReturn tile layer => Sys2Proof.Machine.execLayerReturn tile layer s
  | .ballastRamp tile layer drop => Sys2Proof.Machine.execBallastRamp tile layer drop s
  | .captureSample tile unit sample => Sys2Proof.Machine.execCaptureSample tile unit sample s
  | .lifetimeCounterSave => Sys2Proof.Machine.execLifetimeCounterSave s
  | .moduleReset => Sys2Proof.Machine.execModuleReset s
  | .getVersion r => Sys2Proof.Machine.execGetVersion r s
  | .getCapabilities r => Sys2Proof.Machine.execGetCapabilities r s
  | .negotiateAlgorithms r => Sys2Proof.Machine.execNegotiateAlgorithms r s
  | .getDigests r => Sys2Proof.Machine.execGetDigests r s
  | .getCertificate r => Sys2Proof.Machine.execGetCertificate r s
  | .challenge r => Sys2Proof.Machine.execChallenge r s
  | .getMeasurements r => Sys2Proof.Machine.execGetMeasurements r s

end Sys2Proof.Machine
end

