-- ==== Sys2Proof/Machine/Issue.lean ====
section
/-! DEFINITION. How a stream issues its next item: fetch, decode, waits, the operations of the word together, and the
word's commit or its precise trap (R20, R112 to R120, R138, R148, R178 to R180, R207). -/

namespace Sys2Proof.Machine

/-- Whether a stream of a core may try to issue: its member runs, no trap stands, it is released, it has not
executed FIN, does not hold at a switch point, and has not reached a cut (R31, R32, R38, R401, R427). -/
def State.canIssue (s : State) (c : Nat) (st : StreamId) : Bool :=
  let x := s.ctx c
  let y := x.stream st
  x.flock.isSome && x.trap.isNone && !x.cutAt st && y.hold.isNone &&
    match y.phase with
    | .header | .body => true
    | .off | .done => false

/-- The stream at work waits; with a pre-emption request pending it has joined the cut (R20, R39). -/
def State.waitHere (s : State) (r : WaitReason) : State := (s.waitNow r).updMe fun x => x.atCut s.stream

/-- A stream at work, with what its next item reads at issue (R120, R131). -/
def State.focusOn (s : State) (c : Nat) (st : StreamId) : State :=
  let x := s.ctx c
  let y := x.stream st
  { s with
    focus := .stream c st
    verdict := .ran
    rd := { g := y.g, p := y.p, viewV := x.viewV, viewT := x.viewT, viewA := x.viewA, old := x, pc := y.pc,
            ix := (y.pc - y.secStart) / 3 } }

/-- The syllables of the next item; a trap of the fetch: past the end of the image (0x01) or a check of R51. -/
def State.itemSyls (s : State) (n : Nat) : Except State (List Nat) :=
  if s.myFlock.imgLen s.stream < s.rd.pc + n then .error (s.trapNow 0x01)
  else
    match s.fetchSyls s.core s.stream s.rd.pc n with
    | .error e => .error (if e.1 = retryCode then s else s.trapWith e.1 0 (BitVec.ofNat 64 e.2))
    | .ok xs => .ok xs

/-- Issues a header (R113, R115). -/
def State.issueHeader (s : State) : Result :=
  match s.itemSyls 2 with
  | .error t => .next t
  | .ok xs =>
    match decodeHeader (xs.getD 0 0) (xs.getD 1 0) with
    | .error _ => .next (s.trapNow 0x01)
    | .ok i => exec i s

/-- What the operations of a word have done so far: the state, whether one has set the next item, the first wait
(with the state that its operation leaves from the word's start), and the first trap, 0x01 before any other. -/
structure WordRun where
  cur : State
  moved : Bool := false
  wait : Option (WaitReason × State) := none
  trap : Option (Instr × Cause × Byte × W64) := none
  refused : Option Refusal := none

/-- What a word leaves that waits at operation `i`: what `i` does where it waits on its own (R218, R224, R228), and
nothing where only an earlier operation of the word keeps it from running: the word has not issued (R133, R178). -/
def State.waitAlone (base : State) (i : Instr) (r : WaitReason) : State :=
  match exec i base with
  | .next t =>
    match t.verdict with
    | .waits _ => t
    | _ => base.waitNow r
  | _ => base.waitNow r

/-- Runs one operation of a word; of two that both set the next item the later does. Log 58, DEDUCED;
log 70, DESIGN CHOICE. -/
def runOp (base : State) (w : WordRun) (i : Instr) : WordRun :=
  match exec i { w.cur with verdict := .ran } with
  | .refused r => { w with refused := some r }
  | .fault _ => w
  | .next t =>
    match t.verdict with
    | .ran => { w with cur := t }
    | .moved => { w with cur := t, moved := true }
    | .waits r => { w with wait := some (w.wait.getD (r, base.waitAlone i r)) }
    | .traps cause code addr =>
      match w.trap with
      | none => { w with trap := some (i, cause, code, addr) }
      | some (_, old, _, _) => if cause = 0x01 ∧ old ≠ 0x01 then { w with trap := some (i, cause, code, addr) } else w

/-- Waits that a word meets once it has issued (R218, R224, R285, R217): a trap of the word comes before them.
Log 58, DEDUCED. -/
def WaitReason.afterIssue : WaitReason → Bool
  | .barrier | .mxwait | .waita | .fence => true
  | _ => false

/-- Keeps, in the accesses that the word has entered in an access queue, the stream as it stood before the word: what
a withdrawal restores (R155, R210). -/
def Ctx.stampAccesses (x base : Ctx) : Ctx :=
  { x with
    laccess := x.laccess.map fun a =>
      if a.tk = x.tk then { a with seq := base.l.seq, syl := base.l.pc, undo := base.l, undoSt := base.st } else a
    saccess := x.saccess.map fun a =>
      if a.tk = x.tk then { a with seq := base.s.seq, syl := base.s.pc, undo := base.s } else a }

/-- The word of stream `st` that stands at index `ix` has issued, from context `base`: its sequence number, stamp and
slot pass, results whose bound has ended land, and the next item is the next word unless an operation has set it
(R130, R148, R151). -/
def Ctx.passWord (x base : Ctx) (st : StreamId) (ix : Nat) (moved : Bool) : Ctx :=
  let x := if moved then x else x.pass st ix
  let x := (x.stampAccesses base).updStream st fun y => { y with seq := y.seq + 1 }
  let x := { x with tk := x.tk + 1 }
  let x :=
    match st with
    | .l => { x with recvOn := none }
    | .c => ({ x with slot := x.slot + 1 } : Ctx).landDue (x.slot + 1)
    | .s => ({ x with sendOn := none } : Ctx).trimLog
  x.wake

/-- Commits the word at work. -/
def State.commitWord (s base : State) (moved : Bool) : State :=
  s.updMe fun x => x.passWord base.me s.stream s.rd.ix moved

/-- Takes the trap that a word raises: the word has no effect; TRAP's own word has issued, and the trap is its only
effect (R147, R190, R207). Log 57, DEDUCED. -/
def State.wordTrap (base : State) (i : Instr) (cause : Cause) (code : Byte) (addr : W64) : Result :=
  match i with
  | .trap _ _ =>
    match exec i base with
    | .next t => .next (t.commitWord base true)
    | r => r
  | _ => .next (base.trapWith cause code addr)

/-- Ends a word: illegal encodings first, then waits, then the trap, else the commit. Log 58, DEDUCED. -/
def WordRun.finish (w : WordRun) (base : State) : Result :=
  match w.refused with
  | some r => .refused r
  | none =>
    match w.trap, w.wait with
    | some (i, cause, code, addr), none => base.wordTrap i cause code addr
    | some (i, cause, code, addr), some (r, t) =>
      if cause = 0x01 ∨ r.afterIssue then base.wordTrap i cause code addr
      else .next (t.updMe fun x => x.atCut base.stream)
    | none, some (_, t) => .next (t.updMe fun x => x.atCut base.stream)
    | none, none => .next (w.cur.commitWord base w.moved)

/-- Whether a word holds a CALL whose next item is no header: 0x03 whatever its guard (R117, R123). -/
def State.badCall (s : State) (is : List Instr) : Bool :=
  (is.any fun i =>
    match i with
    | .call .. | .callReg .. => true
    | _ => false) && !s.headerAt ((s.rd.pc : Int) + 3)

/-- Whether an executing operation of an L or S word names a g register with an outstanding write (R148), or an RGX
of the S stream has not completed (R60). -/
def State.blockedByAccess (s : State) (is : List Instr) : Bool :=
  let out := s.me.outstanding s.stream
  (s.stream = .s && s.me.saccess.any SAccess.isRgx) || is.any fun i =>
    ((guardIn i).map fun gd => guardOk gd s) != some false && (gNamed i).any fun r => out.contains r

/-- Issues the operations of a decoded word together (R120, R178). -/
def State.issueOps (s : State) (is : List Instr) : Result :=
  if sameDest is then .next (s.trapNow 0x01)
  else if s.badCall is then .next (s.trapNow 0x03)
  else if s.blockedByAccess is then .next (s.waitHere .access)
  else
    match s.me.interlocked is with
    | [] => (is.foldl (runOp s) { cur := s }).finish s
    | bs =>
      let due := bs.foldl (fun n b => max n b.due) s.me.slot
      .next ((s.updMe fun x => ({ x with slot := due } : Ctx).landDue due).waitHere .interlock)

/-- Issues a word of the section (R112, R115, R138). -/
def State.issueWord (s : State) : Result :=
  match s.itemSyls 3 with
  | .error t => .next t
  | .ok xs =>
    if xs.getD 0 0 / 2 ^ 30 % 4 = 3 then .next (s.trapNow 0x01)
    else
      match decodeWord s.stream (xs.getD 0 0) (xs.getD 1 0) (xs.getD 2 0) with
      | .error _ => .next (s.trapNow 0x01)
      | .ok is => s.issueOps is

/-- Issues the item at the pc of a stream inside a section whose dependences hold, or of one before a header. -/
def State.issueItem (s : State) : Result :=
  let y := s.me.stream s.stream
  if y.phase = .header ∨ y.pc = y.secStart + 3 * y.secLen then s.issueHeader else s.issueWord

/-- Whether an access queue of the stream at work holds operations, which can still fault before the word at work. -/
def State.accessBusy (s : State) : Bool :=
  match s.stream with
  | .l => !s.me.laccess.isEmpty
  | .c => false
  | .s => !s.me.saccess.isEmpty

/-- A trap at a word is precise: it is taken once the earlier accesses of the stream have completed without a fault
(R155, R210). -/
def State.precise (s : State) (r : Result) : Result :=
  match r with
  | .next t =>
    match t.verdict with
    | .traps _ _ _ => if s.accessBusy then .next (s.waitHere .access) else r
    | _ => r
  | r => r

/-- The pages in which a stream's next item lies are kept (R77). -/
def State.keepCode (s : State) (c : Nat) (st : StreamId) : State :=
  let f := s.flock ((s.ctx c).flock.getD 0)
  let pc := ((s.ctx c).stream st).pc
  (s.keepPage c (f.sylAddr st pc)).keepPage c (f.sylAddr st (pc + 2))

/-- Stream `st` of core `c` tries to issue its next item (R20, R114). -/
def State.issue (s : State) (c : Nat) (st : StreamId) : Result :=
  if !s.canIssue c st then .next s
  else
    let s := (s.keepCode c st).focusOn c st
    match ((s.ctx c).stream st).dep with
    | none => s.precise s.issueItem
    | some h =>
      if (s.ctx c).depsHold st h then
        let s := s.updStream fun y => { y with dep := none }
        s.precise s.issueItem
      else .next (s.waitHere .sectionDep)

end Sys2Proof.Machine
end

