-- ==== Sys2Proof/Machine/Moves.lean ====
section
/-! DEFINITION. One move of one agent: a stream's issue, the copy engine, the front end, the drover, an event of the
table, time, and what the outside world does. -/

namespace Sys2Proof.Machine

/-- The copy engine of core `c`, or that of a partition's front end, takes the record at the head of f0, if it may start it
(R306, R307, R390). -/
def State.engineMove (s : State) (c : Nat) : Result :=
  let x := s.ctx c
  match x.f0 with
  | [] => .next s
  | e :: rest =>
    if (x.flock.isSome || decide (frontCore ≤ c)) && x.canStart e then
      exec (decodeCommand e.cmd)
        { s.updCtx c (fun x => { x with f0 := rest }.tookFifo 0 |>.wake) with focus := .engine c e, verdict := .ran }
    else .next s

/-- The front end looks at the head of queue `q`, and processes the packet there (R384); or it reads again the descriptor of a
queue that is to be enabled (R380, R388). -/
def State.packetMove (s : State) (part q : Nat) : Result :=
  let s := s.fetchAhead part q
  match if (s.queue part q).enabling then .state (s.enableQueue part q) else s.headOf part q with
  | .state t => .next t
  | .run p => exec (decodePacket p) { s with focus := .packet part q, verdict := .ran }

/-- The drover decodes the next word of a partition's circuit program (R342). -/
def State.wordMove (s : State) (part : Nat) : Result :=
  match s.nextWord part with
  | .idle => .next s
  | .past => .next (s.pastImage part)
  | .bad => .next (s.wordHalt part 1)
  | .word i => exec i { s with focus := .drover part, verdict := .ran }

/-- An event of the table; a term that is an item of a program, or that names no part of the machine, is no event.
Log 65, DEDUCED. -/
def State.eventMove (s : State) (i : Instr) : Result :=
  if (encode i).isNone && i.wf then exec i { s with focus := .none, verdict := .ran } else .next s

/-- One hour in ns. -/
def hourNs : Nat := 3600000000000

/-- Bytes in flight on a circuit with a wavelength have arrived at its receive buffer (R232, R362). -/
def State.deliver (s : State) (part : Nat) : State :=
  s.updDrover part fun d =>
    { d with circuits := d.circuits.map fun k =>
        if k.live && !(s.circuitMap k).isEmpty then { k with rx := k.rx ++ k.inFlight, inFlight := [] } else k }

/-- A stream whose wait may end with time alone is to try again: a wait on the core's own queues, sections or nests
goes on, for the time of R21 to be counted. -/
def Ctx.retryTimed (x : Ctx) (y : StreamState) : StreamState := if x.localWait y.wait then y else { y with wait := none }

/-- The latest time up to which a drover leaves a partition as it stands: the circuits of a step are live or dead 48 ns after
its beginning, and a step begins 10 ns after the completion that it consumes (R326, R342, R343). -/
def State.droverLimit (s : State) (n : Nat) : Option Nat :=
  let d := (s.part n).drover
  let live := (d.circuits.filter fun k => !k.settled).map fun k => k.since + liveTime
  let next : Option Nat := match d.ready with
    | b :: _ => b.bar
    | [] => if d.decoding then d.cur.bar else none
  let step : List Nat := match d.owner, next with
    | some f, some bar =>
      let i := s.barInst f (bar * 1024)
      if (s.flock f).status = .running ∧ mget 0 d.used bar < i.c then [max i.doneAt d.stepAt + 10] else []
    | _, _ => []
  (live ++ step).min?

/-- How far time can go on: to each drover's limit at most. -/
def State.passes (s : State) (ns : Nat) : Nat :=
  s.parts.foldl (fun k e =>
    match s.droverLimit e.1 with
    | some t => min k (t - s.now)
    | none => k) ns

/-- Time passes, as far as what is due allows: the maps of new circuits are taken, bytes in flight arrive, and hours are
counted (R343, R432). Log 15, DESIGN CHOICE. -/
def State.elapse (s : State) (most : Nat) : State :=
  let ns := s.passes most
  let s := s.parts.foldl (fun s e => s.takeMaps (s.now + ns) e.1) s
  let hours := (s.now + ns) / hourNs - s.now / hourNs
  let s := { s with
    now := s.now + ns
    life := { s.life with hours := BitVec.ofNat 64 (satAdd (2 ^ 64 - 1) s.life.hours.toNat hours) } }
  let s := s.parts.foldl (fun s e => s.deliver e.1) s
  { s with cores := s.cores.map fun e =>
      (e.1, { e.2 with l := e.2.retryTimed e.2.l, c := e.2.retryTimed e.2.c, s := e.2.retryTimed e.2.s }) }

/-- The partition that holds a DASID (R379). -/
def State.byDasid (s : State) (dasid : BitVec 16) : Option Nat :=
  (s.parts.find? fun e => e.2.exists_ && e.2.dasid == dasid).map (·.1)

/-- A request of another panel arrives; with a DASID that no partition holds it fails there with 0x27 (R379), and one for
another panel is not for this one. -/
def State.foreignArrives (s : State) (panel core : Nat) (dasid : BitVec 16) (num floor : W32) (addr : W64) (op : ForeignOp) :
    State :=
  match if panelOf addr.toNat = s.glob.domid.toNat then s.byDasid dasid else none with
  | none => s
  | some part =>
    { s with reqs := s.reqs ++
        [{ panel := panel, core := core, part := part, tk := 0, lstream := false, num := num, floor := floor, addr := addr,
           op := .foreign op, sends := 1, sentAt := s.now, stage := .travelling }] }

/-- The participant number of a flock of another panel. -/
def foreignParty (n : Nat) : Nat := 2 ^ 44 + n

/-- A flock of another panel joins a system barrier of a domain group, arrives there, or, joining again, retires; an
instance that every flock has left is dropped (R399). Log 60, DEDUCED. -/
def State.foreignBar (s : State) (key party : Nat) (join : Bool) : State :=
  let id := foreignParty party
  let here := mhas s.dgrps key
  let b : BarInst := mget { joined := 0, need := 256 } s.dgrps key
  let known := b.parties.any fun p => p.member == id
  let b : BarInst :=
    if join then
      if known then b.updParty id fun p => { p with gone := true }
      else
        { b with
          parties := b.parties ++ [{ member := id, issued := b.c, a := b.c, w := b.c }]
          crowded := b.crowded || (here && decide (b.need ≤ b.joined))
          joined := b.joined + 1 }
    else b.updParty id fun p => if p.a < b.c + 2 then { p with issued := p.issued + 1, a := p.a + 1 } else p
  if !(join || known) then s
  else if b.parties.all fun p => p.gone then State.wakeAll { s with dgrps := mdel s.dgrps key }
  else State.wakeAll { s with dgrps := mset s.dgrps key b }

/-- The host writes its own memory at its ordering point (R75). -/
def State.hostWrites (s : State) (addr : Nat) (bs : List Byte) : State :=
  { s with hostMem := Memory.writeN s.hostMem addr bs, hostPoison := clearSectors s.hostPoison addr bs.length }

/-- One move. -/
def State.move (s : State) (m : Move) : Result :=
  match m with
  | .issue c st => s.issue c st
  | .engine c => s.engineMove c
  | .packet part q => s.packetMove part q
  | .circuitWord part => s.wordMove part
  | .event i => s.eventMove i
  | .elapse ns => .next (s.elapse ns)
  | .foreign panel core dasid num floor addr op => .next (s.foreignArrives panel core dasid num floor addr op)
  | .transmit e f => .next (s.transmit e f)
  | .acknowledge e n => .next (s.acknowledge e n)
  | .foreignBarrier key party join => .next (s.foreignBar key party join)
  | .readAhead c op piece => .next (s.readAhead c op piece)
  | .storePiece c piece => .next (s.storePiece c piece)
  | .loadPiece req piece => .next (s.loadPiece req piece)
  | .foreignPiece req piece => .next (s.foreignPiece req piece)
  | .transferPiece c tk piece => .next (s.transferPiece c tk piece)
  | .deliverPiece c tk block piece => .next (s.deliverPiece c tk block piece)
  | .hostPiece port piece => .next (s.hostPiece port piece)
  | .storeAhead c ix => .next (s.storeAhead c ix)
  | .localTransfer c tk => .next (s.localTransfer c tk)
  | .shadowRow c scale => .next (s.shadowRow c scale)
  | .deliverBlock c tk block => .next (s.deliverBlock c tk block)
  | .handOn port => .next (s.drainPort port 1)
  | .hostStore addr bs => .next (s.hostWrites addr bs)

/-- The move that is next: the first of the agenda, or a free choice. Log 1, DESIGN CHOICE. -/
def State.nextMove (s : State) : Move :=
  match s.agenda with
  | m :: _ => m
  | [] => Config.anyMove s.draws

/-- The state in which the next move is made: the agenda and the free values have gone on. -/
def State.advance (s : State) : State := { s with draws := s.draws + 1, agenda := s.agenda.tail }

/-! ## A machine that is about to run one given instruction -/

/-- The stream and slot at which an instruction's syllables are placed: as `decodeTableWord` reads them (log 16). -/
inductive Slot where
  | header
  | word (st : StreamId) (slot : Nat)
  | nowhere
deriving DecidableEq, Repr

/-- Where `decodeTableWord` finds its instruction. Log 16, DESIGN CHOICE. -/
def slotOf (s0 s1 s2 : Nat) : Slot :=
  if s0 / 2 ^ 30 = 3 then .header
  else
    let ok := fun (r : Except Reject Instr) => match r with | .ok _ => true | .error _ => false
    if ok (decodeOp .l 0 s0 s1 s2) then .word .l 0
    else if ok (decodeOp .s 0 s0 s1 s2) then .word .s 0
    else if ok (decodeOp .c 0 s0 s1 s2) then .word .c 0
    else if ok (decodeOp .c 1 s0 s1 s2) then .word .c 1
    else if ok (decodeOp .c 2 s0 s1 s2) then .word .c 2
    else .nowhere

/-- The three syllables of a word that holds an instruction in a slot. Log 16, DESIGN CHOICE. -/
def wordWith (slot s0 s1 s2 : Nat) : List Nat :=
  match slot with
  | 0 => [s0, s1, s2]
  | 1 => [0, s0, s1]
  | _ => [0, 0, s0]

/-- Where the image of the given instruction lies on tile 0. -/
def probeAt : Nat := 0x10000
/-- Where the page table and the region table of the probing partition lie. -/
def probeTables : Nat := 0x80000000

/-- The 36 words of a LAUNCH that declares everything one core has: all views, queues, stream registers, barriers. -/
def probePacket : List W64 :=
  [0, 0, 0, BitVec.ofNat 64 probeAt, 0x10, 0, 0x10, 0, 0x10, 0, 0, 0x8008000600000000 + 0x400000 * 64,
    0x02040810204081 * 16, 0x02040810204081 * 16, 0xFFFFFFFFFFFFFFFF, 0xFFFFFFFFFFFFFFFF, 0x00000100000000FF] ++
    List.replicate 19 0

/-- A flock of one member on core 0, running. -/
def probeFlock : Flock :=
  { part := 0, queue := some 0, pkt := probePacket, status := .running, members := [0]
    bars := ((List.range 136).map fun b => (b * 1024, { parties := [{ member := 0 }] })) }

/-- A partition of tile 0 with one lit layer, whose first GiB of addresses is mapped and private to core 0. -/
def probePart : Partition :=
  { exists_ := true, w := 1, h := 1, lit := 1, ptroot := probeTables, rtbase := probeTables + 0x800000, ctxoff := 0xF00000000
    ptimeout := 1000, quantum := 2000, holder := [(0, 1)] }

/-- Stream `st` of core 0 is to issue the item at syllable 0: a word of a section of one word, or a header. -/
def probeStream (body : Bool) : StreamState :=
  if body then { pc := 0, secStart := 0, secLen := 1, phase := .body, inSection := true, fresh := false }
  else { pc := 0, phase := .header }

/-- Puts syllables where the next step fetches its item, for a stream of core 0. -/
def State.probe (s : State) (st : StreamId) (body : Bool) (ss : List Nat) : State :=
  let x : Ctx := { (probeFlock.newCtx 0 0) with
    l := if st = .l then probeStream body else {}
    c := if st = .c then probeStream body else {}
    s := if st = .s then probeStream body else {} }
  let s := { s with
    parts := [(0, probePart)]
    flocks := [(0, probeFlock)]
    nextFlock := 1
    cores := [(0, x)]
    agenda := .issue 0 st :: s.agenda
    mem := Memory.writeN (Memory.writeN s.mem probeAt (ss.flatMap (natLE 4))) probeTables (natLE 8 0xF) }
  s.updTile 0 fun t => { t with part := some 0, layers := t.layers.set 0 { role := .lit, logical := some 0 } }

end Sys2Proof.Machine
end

