-- ==== Sys2Proof/Machine/Step.lean ====
section
/-! DEFINITION. One step of the machine. -/

namespace Sys2Proof.Machine

/-- One step: the next move of the agenda, or one that the manual leaves open, is made. -/
def step (s : State) : Host.Outcome State Fault Refusal := s.advance.move s.nextMove

/-- The state in which the very next step fetches and runs the given instruction, on core 0 of a partition of one tile:
it stands for what a LAUNCH and the host's loading of its image have done (log 1). -/
def State.withFetchWord (s : State) (nbits w : Nat) : State :=
  let v := w % 2 ^ nbits
  let s0 := v % 2 ^ 32
  let s1 := v / 2 ^ 32 % 2 ^ 32
  let s2 := v / 2 ^ 64 % 2 ^ 32
  match slotOf s0 s1 s2 with
  | .header => s.probe .c false [s0, s1]
  | .word st slot => s.probe st true (wordWith slot s0 s1 s2)
  | .nowhere => s.probe .c true [s0, s1, s2]

end Sys2Proof.Machine
end

