-- ==== Sys2Proof/Safety.lean ====
section
/-! DEFINITION. What the statements speak of: what an operation of a word reads and writes, what it leaves unchanged,
the canonical form of every byte store, and a machine that goes on. -/

namespace Sys2Proof.Machine

/-! ## What a word changes -/

/-- g[i] of the stream at work as it now stands (R18). -/
def State.gNow (s : State) (i : BitVec 5) : W64 := (s.me.stream s.stream).getG i

/-- p[i] of the stream at work as it now stands (R18). -/
def State.pNow (s : State) (i : BitVec 4) : Bool := (s.me.stream s.stream).getP i

/-- Everything outside the context of the core at work is unchanged: every byte of panel storage, local memory and host
memory, every register of every other core, every partition, tile, queue, port and counter. -/
def SameButCore (s t : State) : Prop := { t with cores := s.cores } = s ∧ ∀ c, c ≠ s.core → t.ctx c = s.ctx c

/-- Of the core at work, only g registers of the stream at work and the latency bounds of its C stream may differ. -/
def SameButG (s t : State) : Prop :=
  SameButCore s t ∧
    { t.me.updStream s.stream (fun y => { y with g := (s.me.stream s.stream).g }) with busy := s.me.busy } = s.me

/-- g[d] of the stream at work is now `v` (a write of g0 is discarded, and g0 reads as zero), and nothing else has
changed but the latency bounds of the C stream (R18, R148). -/
def WroteG (s t : State) (d : BitVec 5) (v : W64) : Prop :=
  SameButG s t ∧ t.gNow d = (if d = 0 then 0 else v) ∧ ∀ i, i ≠ d → t.gNow i = s.gNow i

/-- p[d] of the stream at work is now `v` (a write of p0 is discarded, and p0 reads as true), and nothing else has
changed (R18). -/
def WroteP (s t : State) (d : BitVec 4) (v : Bool) : Prop :=
  SameButCore s t ∧ { t.me with l := s.me.l, c := s.me.c, s := s.me.s } = s.me ∧
    t.me.updStream s.stream (fun y => { y with p := (s.me.stream s.stream).p }) = s.me ∧
    t.pNow d = (if d = 0 then true else v) ∧ ∀ i, i ≠ d → t.pNow i = s.pNow i

/-- What an operation does under its guard; without it, nothing at all (R117). -/
def Guarded (gd : Guard) (s t : State) (effect : Prop) : Prop := if guardOk gd s then effect else t = s

/-- The operation answers a next state that writes g[d] under its guard, with `v` of the operands read at issue. -/
def GivesG (i : Instr) (gd : Guard) (d : BitVec 5) (v : State → W64) : Prop :=
  ∀ s, ∃ t, exec i s = .next t ∧ Guarded gd s t (WroteG s t d (v s))

/-- The result of a C-stream operation is on its way to the operand file: bytes `bs` from offset `off`, to be read
`bound` slots on (R130, R180); what earlier operations have still to write there is theirs no more (R132). Nothing else
has changed. -/
def OnItsWay (s t : State) (off : Nat) (bs : List Byte) (bound : Nat) : Prop :=
  SameButCore s t ∧ { t.me with landings := s.me.landings } = s.me ∧
    ∃ l, t.me.landings = (s.me.landings.map fun k => k.shadow (l.cells.map (·.1))) ++ [l] ∧
      l.slot = s.me.slot ∧ l.due = s.me.slot + bound ∧ l.ghosts = [] ∧
      l.cells = (List.range bs.length).map fun i => (off + i, bs.getD i 0)

/-- The operation answers a next state in which, under its guard, v register `d` receives the bytes `bs` after
`bound` slots. -/
def GivesV (i : Instr) (gd : Guard) (d : BitVec 5) (bound : Nat) (bs : State → List Byte) : Prop :=
  ∀ s, ∃ t, exec i s = .next t ∧ Guarded gd s t (OnItsWay s t (vOffset s.rd.viewV d) (bs s) bound)

/-- Of the core at work, only what `f` names has changed, as `f` says; nothing else. -/
def OnlyMe (s t : State) (f : Ctx → Ctx) : Prop := SameButCore s t ∧ t.me = f s.me

/-- The word at work raises a cause at its own place, and has no other effect: the core stands at the trap, with the
stream, the sequence number and the syllable offset of the word (R138, R207, R401). -/
def TrapsAtWord (s t : State) (cause : Cause) (code : Byte) (addr : W64) : Prop :=
  t.verdict = .traps cause code addr ∧ { t with cores := s.cores, verdict := s.verdict } = s ∧
    (∀ c, c ≠ s.core → t.ctx c = s.ctx c) ∧ { t.me with trap := s.me.trap } = s.me ∧
    t.me.trap = some (s.me.trap.getD
      { cause := cause, stream := s.stream, code := code, addr := addr,
        seq := (s.me.stream s.stream).seq, syl := s.rd.pc })

/-- w[l][i] of R110: at level 0 element i, at each further level the operation on an adjacent pair of the level before. -/
def treeLevel (f : Nat → Nat → Nat) (xs : List Nat) : Nat → Nat → Nat
  | 0, i => xs.getD i 0
  | l + 1, i => f (treeLevel f xs l (2 * i)) (treeLevel f xs l (2 * i + 1))

/-- An integer nearest to x / n, the even one of two (RNE, R95). -/
def NearestEven (x : Int) (n : Nat) (r : Int) : Prop :=
  2 * (x - r * n).natAbs ≤ n ∧ (2 * (x - r * n).natAbs = n → r % 2 = 0)

/-! ## Requests at their homes -/

/-- A numbered request that passes to its home and arrives there for the first time: it does not lie below its source's FLOOR,
and the ingress holds no reply to it (R328, R329). -/
def State.Arrives (s : State) (ix : Nat) (r : Request) : Prop :=
  s.reqs[ix]? = some r ∧ r.stage = .travelling ∧ s.joined r false = true ∧ r.lstream = false ∧
    (mhas (s.tile (s.ingress r)).floors r.source = true →
      seqBefore r.num (mget 0 (s.tile (s.ingress r)).floors r.source) = false) ∧
    (s.noteFloor (s.ingress r) r).savedReply (s.ingress r) r = none

/-- The reply to a numbered request, on its way back over links that are up, to a source that has not had it (R328). -/
def State.Returns (s : State) (ix : Nat) (r : Request) : Prop :=
  s.reqs[ix]? = some r ∧ s.joined r true = true ∧ r.lstream = false ∧ (∀ op, r.op ≠ .foreign op) ∧
    (∀ fl step word, r.op ≠ .drvSettle fl step word) ∧ r.num ∈ (s.ctx r.core).unanswered

/-- A core's own request that travels: its place, what it asks, and its number, the next of its source (R328). -/
def Request.sentBy (r : Request) (s : State) (c : Nat) (addr : W64) (op : ReqOp) : Prop :=
  r.core = c ∧ r.addr = addr ∧ r.op = op ∧ r.num = (s.ctx c).seqno ∧ r.lstream = false ∧ r.stage = .travelling ∧ r.sends = 1

/-! ## Canonical byte stores -/

/-- Every byte store of a flock is canonical. -/
def Flock.canonical (f : Flock) : Prop := Memory.wf f.image = true ∧ ∀ e ∈ f.lms, Memory.wf e.2 = true

/-- Panel storage, the local memories and host memory hold no address twice, in rising order, and list no byte that an
unlisted address reads as. -/
def State.canonical (s : State) : Prop :=
  Memory.wf s.mem = true ∧ Memory.wf s.lm = true ∧ Memory.wf s.hostMem = true

/-! ## A machine that goes on -/

/-- The machine goes on from a state: its step answers a next state. -/
def State.goesOn (s : State) : Prop := ∃ t, step s = .next t

/-- A meaning answers a next state. -/
def Answers (r : Result) : Prop := ∃ t, r = .next t

end Sys2Proof.Machine
end

