-- ==== Sys2Proof/Certificates/Slice0/Obligations.lean ====
section
/-! DEFINITION. The statements about this model for the provers: each one formalises numbered rules of spec/, or says in
its docstring what it is derived from. -/

open Sys2Proof Sys2Proof.Machine

/-! ## Decoding and encoding -/

/-- Words written out bit by bit from the encodings of R113, R116, R121 and R124 decode to what they stand for. -/
def Obligations.KnownWordsDecode : Prop :=
  -- L or S word: ADDI g3, −1; NOP; NOP. LEN 00, OP 0000101, PG 0000, PN 0, D 00011, IMM13 all ones.
  decodeWord .l 0x02807FFF 0 0 = .ok [.addi { p := 0, neg := false } 3 0x1FFF, .nop, .nop] ∧
  -- ADD g1, g2, g3 under p5: OP 0000100, PG 0101, D 00001, A 00010, BI 0, B 00011.
  decodeOp .s 0 0x0228220C 0 0 = .ok (.add { p := 5, neg := false } 1 2 (.reg 3)) ∧
  -- LD g4 from [g5], 8 bytes: OP 0110000, D 00100, A 00101, SZ 11.
  decodeOp .l 0 0x180085C0 0 0 = .ok (.ld { p := 0, neg := false } 4 5 3 false) ∧
  -- ST g4 to [g5], 8 bytes, in the S stream: OP 0110000, B 00100, A 00101, IQ 0, SZ 11.
  decodeOp .s 0 0x18008560 0 0 = .ok (.st { p := 0, neg := false } 4 5 3) ∧
  -- C word: NOP; VADD.i16 v1, v2, v3; MXGO. OP 0110000 in slot 1, 1101100 in slot 2.
  decodeWord .c 0 0x18002219 0x36000000 =
    .ok [.nop, .vadd { p := 0, neg := false } 1 2 3 .i16, .mxgo { p := 0, neg := false }] ∧
  -- A header: tag 11, PP, LEN 3, NA 1, NB 0.
  decodeHeader 0xD0000003 0x00010000 =
    .ok (.sectionHeader { sp := false, pp := true, ma := false, mb := false, len := 3, na := 1, nb := 0 }) ∧
  -- PG = 0 with PN = 1 is illegal (R116), and so is an unassigned major (R134).
  decodeOp .l 0 0x02847FFF 0 0 = .error .guard ∧ decodeOp .l 0 0x11800000 0 0 = .error .major

/-- DECODE AND ENCODE AGREE for every well-formed operation of the three streams: an operation's syllables are those that
the decoder reads as that operation, in the stream and slot where it may stand, whatever follows it. -/
def Obligations.OperationRoundTrip : Prop :=
  ∀ (i : Instr) (ss : List Nat) (st : StreamId) (slot x y : Nat),
    i.wf = true → encodeOp i = some ss → i.standsIn st slot = true →
      decodeOp st slot (ss.getD 0 0) (ss.getD 1 x) (ss.getD 2 y) = .ok i

/-- DECODE AND ENCODE AGREE for headers, circuit words, command records and packets. -/
def Obligations.ItemRoundTrip : Prop :=
  (∀ h : Header, (Instr.sectionHeader h).wf = true →
    decodeHeader ((encodeHeader h).getD 0 0) ((encodeHeader h).getD 1 0) = .ok (.sectionHeader h)) ∧
  (∀ (i : Instr) (w : Nat), i.wf = true → encodeCircuit i = some w → w < 2 ^ 64 ∧ decodeCircuit w = .ok i) ∧
  (∀ r : CmdRecord, encodeCommand (decodeCommand r) = some r) ∧
  (∀ p : Packet, encodePacket (decodePacket p) = some p)

/-- A word of the L or S stream holds at most one operation of a stream-specific major, and a word that decodes holds at
most three operations (R118). -/
def Obligations.WordsHoldOneSpecificOperation : Prop :=
  ∀ (st : StreamId) (a b c : Nat) (is : List Instr), decodeWord st a b c = .ok is →
    is.length ≤ 3 ∧ (st ≠ .c → (is.filter fun i => i.place == .l || i.place == .s).length ≤ 1)

/-! ## The common scalar subset -/

/-- Moves, sums and products: each writes g[D], under its guard, with the value that R145 gives, from operands read at
issue (R120); without its guard it changes nothing (R117). IMM13 is sign-extended for MOVI and ADDI. -/
def Obligations.ScalarSumsGiveTheirValue : Prop :=
  ∀ (gd : Guard) (d a : BitVec 5) (b : SrcB) (k : BitVec 13) (w : Wide) (h : W32),
    GivesG (.movi gd d k) gd d (fun _ => k.signExtend 64) ∧
    GivesG (.moviWide gd d w) gd d (fun _ => wideVal w) ∧
    GivesG (.movhi gd d k) gd d (fun s => k.setWidth 32 ++ (s.rg d).setWidth 32) ∧
    GivesG (.movhiWide gd d h) gd d (fun s => h ++ (s.rg d).setWidth 32) ∧
    GivesG (.mov gd d a) gd d (fun s => s.rg a) ∧
    GivesG (.add gd d a b) gd d (fun s => s.rg a + s.srcB b) ∧
    GivesG (.addWide gd d a w) gd d (fun s => s.rg a + wideVal w) ∧
    GivesG (.addi gd d k) gd d (fun s => s.rg d + k.signExtend 64) ∧
    GivesG (.addiWide gd d w) gd d (fun s => s.rg d + wideVal w) ∧
    GivesG (.sub gd d a b) gd d (fun s => s.rg a - s.srcB b) ∧
    GivesG (.subWide gd d a w) gd d (fun s => s.rg a - wideVal w) ∧
    GivesG (.mul gd d a b) gd d (fun s => BitVec.ofInt 64 ((s.rg a).toInt * (s.srcB b).toInt)) ∧
    GivesG (.mulWide gd d a w) gd d (fun s => BitVec.ofInt 64 ((s.rg a).toInt * (wideVal w).toInt)) ∧
    GivesG (.mulh gd d a b) gd d (fun s => BitVec.ofInt 64 ((s.rg a).toInt * (s.srcB b).toInt / 2 ^ 64)) ∧
    GivesG (.mulhN gd d a b) gd d (fun s => BitVec.ofNat 64 ((s.rg a).toNat * (s.srcB b).toNat / 2 ^ 64))

/-- Logic, shifts and counts (R145): shift amounts are bits [5:0] of the second source; CLZ counts leading zero bits (64
for zero) and POPC one bits. -/
def Obligations.ScalarLogicAndShiftsGiveTheirValue : Prop :=
  ∀ (gd : Guard) (d a : BitVec 5) (b : SrcB) (w : Wide),
    GivesG (.and gd d a b) gd d (fun s => s.rg a &&& s.srcB b) ∧
    GivesG (.andWide gd d a w) gd d (fun s => s.rg a &&& wideVal w) ∧
    GivesG (.andn gd d a b) gd d (fun s => s.rg a &&& ~~~(s.srcB b)) ∧
    GivesG (.andnWide gd d a w) gd d (fun s => s.rg a &&& ~~~(wideVal w)) ∧
    GivesG (.or gd d a b) gd d (fun s => s.rg a ||| s.srcB b) ∧
    GivesG (.orWide gd d a w) gd d (fun s => s.rg a ||| wideVal w) ∧
    GivesG (.xor gd d a b) gd d (fun s => s.rg a ^^^ s.srcB b) ∧
    GivesG (.xorWide gd d a w) gd d (fun s => s.rg a ^^^ wideVal w) ∧
    GivesG (.shl gd d a b) gd d (fun s => s.rg a <<< ((s.srcB b).setWidth 6).toNat) ∧
    GivesG (.shr gd d a b) gd d (fun s => s.rg a >>> ((s.srcB b).setWidth 6).toNat) ∧
    GivesG (.sar gd d a b) gd d (fun s => (s.rg a).sshiftRight ((s.srcB b).setWidth 6).toNat) ∧
    GivesG (.rot gd d a b) gd d (fun s => (s.rg a).rotateLeft ((s.srcB b).setWidth 6).toNat) ∧
    GivesG (.clz gd d a) gd d
      (fun s => if s.rg a = 0 then 64 else BitVec.ofNat 64 (63 - (s.rg a).toNat.log2)) ∧
    GivesG (.popc gd d a) gd d
      (fun s => BitVec.ofNat 64 ((List.range 64).countP fun i => (s.rg a).getLsbD i))

/-- The selections (R145): the smaller or the larger of two values, signed or, with .n, unsigned; SEL takes g[A] where
p[PS] is true. -/
def Obligations.ScalarSelectionsGiveTheirValue : Prop :=
  ∀ (gd : Guard) (d a c : BitVec 5) (b : SrcB) (w : Wide) (ps : BitVec 3),
    GivesG (.min gd d a b) gd d (fun s => BitVec.ofInt 64 (min (s.rg a).toInt (s.srcB b).toInt)) ∧
    GivesG (.minWide gd d a w) gd d (fun s => BitVec.ofInt 64 (min (s.rg a).toInt (wideVal w).toInt)) ∧
    GivesG (.minN gd d a b) gd d (fun s => BitVec.ofNat 64 (min (s.rg a).toNat (s.srcB b).toNat)) ∧
    GivesG (.minNWide gd d a w) gd d (fun s => BitVec.ofNat 64 (min (s.rg a).toNat (wideVal w).toNat)) ∧
    GivesG (.max gd d a b) gd d (fun s => BitVec.ofInt 64 (max (s.rg a).toInt (s.srcB b).toInt)) ∧
    GivesG (.maxWide gd d a w) gd d (fun s => BitVec.ofInt 64 (max (s.rg a).toInt (wideVal w).toInt)) ∧
    GivesG (.maxN gd d a b) gd d (fun s => BitVec.ofNat 64 (max (s.rg a).toNat (s.srcB b).toNat)) ∧
    GivesG (.maxNWide gd d a w) gd d (fun s => BitVec.ofNat 64 (max (s.rg a).toNat (wideVal w).toNat)) ∧
    GivesG (.sel gd d a c ps) gd d (fun s => if s.rp (ps.setWidth 4) then s.rg a else s.rg c)

/-- CMP writes p[PD] with its condition on two 64-bit values, signed or, for ltn and len, unsigned (R121, R146); on a
stage predicate of the C stream's active pipelined level it raises 0x05 instead (R184). -/
def Obligations.CompareWritesItsPredicate : Prop :=
  ∀ (gd : Guard) (pd : BitVec 4) (cc : Cond) (a : BitVec 5) (b : SrcC) (w : Wide) (s : State),
    let truth := fun (x y : W64) => match cc with
      | .eq => x == y
      | .ne => x != y
      | .lt => decide (x.toInt < y.toInt)
      | .le => decide (x.toInt ≤ y.toInt)
      | .gt => decide (y.toInt < x.toInt)
      | .ge => decide (y.toInt ≤ x.toInt)
      | .ltn => decide (x.toNat < y.toNat)
      | .len => decide (x.toNat ≤ y.toNat)
    let stage := s.stream = .c ∧ s.me.le.ns ≠ 0 ∧ 8 ≤ pd.toNat ∧ pd.toNat ≤ 7 + s.me.le.ns.toNat
    (∃ t, exec (.cmp gd pd cc a b) s = .next t ∧
      Guarded gd s t (if stage then TrapsAtWord s t 0x05 0 0 else WroteP s t pd (truth (s.rg a) (s.srcC b)))) ∧
    (∃ t, exec (.cmpWide gd pd cc a w) s = .next t ∧
      Guarded gd s t (if stage then TrapsAtWord s t 0x05 0 0 else WroteP s t pd (truth (s.rg a) (wideVal w))))

/-! ## Control flow -/

/-- NOP has no effect (R147). A taken BR goes to word IX + OFF of the section where that word lies in it and no loop is
active, or in the innermost active body; to the word after that body it goes with the loop popped; a word out of the body raises
0x05, and one out of the section 0x03, at the BR word (R123, R149, R152). The C stream's BR with Q = 1 takes the head of bq and
goes where it is 1, and raises 0x01 where bq has declared depth 0 (R19, R149). -/
def Obligations.BranchesGoToTheirWord : Prop :=
  (∀ s, exec .nop s = .next s) ∧
  (∀ (off : BitVec 17) (s : State), s.me.bq.depth = 0 → ∃ t, exec (.brBq off) s = .next t ∧ TrapsAtWord s t 0x01 0 0) ∧
  (∀ (gd : Guard) (off : BitVec 17) (s : State), 
    let y := s.me.stream s.stream
    let w : Int := (s.rd.ix : Int) + off.toInt
    let moves := fun (t : State) (loops : List LoopLevel) => t.verdict = .moved ∧
      { t with verdict := s.verdict, cores := s.cores } = s ∧ (∀ c, c ≠ s.core → t.ctx c = s.ctx c) ∧
      { t.me with le := s.me.le } = s.me.updStream s.stream fun y => { y with pc := y.secStart + 3 * w.toNat, loops := loops }
    let gives := fun (effect : State → Prop) => ∃ t, exec (.br gd off) s = .next t ∧ Guarded gd s t (effect t)
    ((w < 0 ∨ (y.secLen : Int) ≤ w) → gives fun t => TrapsAtWord s t 0x03 0 0) ∧
    (0 ≤ w → w < (y.secLen : Int) → ∀ l rest, y.loops = l :: rest →
      ((l.first : Int) ≤ w → w ≤ (l.last : Int) → gives fun t => moves t y.loops ∧ t.me.le = s.me.le) ∧
      (w = (l.last : Int) + 1 → (l.first : Int) ≤ (l.last : Int) → gives fun t => moves t rest) ∧
      ((w < (l.first : Int) ∨ (l.last : Int) + 1 < w) → (l.first : Int) ≤ (l.last : Int) →
        gives fun t => TrapsAtWord s t 0x05 0 0))) ∧
  (∀ (off : BitVec 17) (s : State) (e : QEntry) (rest : List QEntry), s.stream = .c → s.me.bq.depth ≠ 0 →
    s.me.bq.entries = e :: rest → e.ready = true → (∀ a ∈ s.me.laccess, e.tk ≤ a.tk) → e.data.headD 0 = 1 →
    ((s.rd.ix : Int) + off.toInt < 0 ∨ (s.me.c.secLen : Int) ≤ (s.rd.ix : Int) + off.toInt) →
    ∃ t, exec (.brBq off) s = .next t ∧ t.verdict = .traps 0x03 0 0) ∧
  ∀ (gd : Guard) (off : BitVec 17) (s : State) (w : Nat),
    (s.rd.ix : Int) + off.toInt = w → w < (s.me.stream s.stream).secLen → (s.me.stream s.stream).loops = [] →
    (∃ t, exec (.br gd off) s = .next t ∧
      Guarded gd s t (t.verdict = .moved ∧ { t with verdict := s.verdict, cores := s.cores } = s ∧
        (∀ c, c ≠ s.core → t.ctx c = s.ctx c) ∧
        t.me = s.me.updStream s.stream fun y => { y with pc := y.secStart + 3 * w })) ∧
    (∀ e rest, s.stream = .c → s.me.bq.depth ≠ 0 → s.me.bq.entries = e :: rest → e.ready = true →
      (∀ a ∈ s.me.laccess, e.tk ≤ a.tk) →
      ∃ t, exec (.brBq off) s = .next t ∧
        t.me.bq = { s.me.bq with entries := rest, head := s.me.bq.head + 1 } ∧
        t.me.c.pc = (if e.data.headD 0 = 1 then s.me.c.secStart + 3 * w else s.me.c.pc) ∧
        { t.me with bq := s.me.bq, c := { t.me.c with pc := s.me.c.pc } } = s.me ∧
        { t with verdict := s.verdict, cores := s.cores } = s)

/-- JMP, CALL and RET go to the header at their target, in syllables from their own word or in a register, leave the
section, and CALL saves the offset of the item after its word in g31 (R123, R150). A target that is no header of the
stream's image raises 0x03 at the word; with a loop active a transfer raises 0x05 (R123, R152). A word with a CALL after which
no header follows raises 0x03 whatever the guard (R117, R123). -/
def Obligations.TransfersGoToTheirHeader : Prop :=
  (∀ (gd : Guard) (off : BitVec 17) (a : BitVec 5) (is : List Instr) (s : State),
    (Instr.call gd off ∈ is ∨ Instr.callReg gd a ∈ is) → sameDest is = false → s.headerAt ((s.rd.pc : Int) + 3) = false →
    ∃ t, s.issueOps is = .next t ∧ TrapsAtWord s t 0x03 0 0) ∧
  ∀ (gd : Guard) (off : BitVec 17) (a : BitVec 5) (s : State), guardOk gd s = true →
    let near : Int := (s.rd.pc : Int) + off.toInt
    let goes := fun (i : Instr) (target : Int) (g31 : Option W64) =>
      (s.headerAt target = true → (s.me.stream s.stream).loops = [] → ∃ t, exec i s = .next t ∧ t.verdict = .moved ∧
        (t.me.stream s.stream).pc = target.toNat ∧ (t.me.stream s.stream).phase = (if (s.me.stream s.stream).phase = .done then .done else .header) ∧
        (t.me.stream s.stream).inSection = false ∧
        (∀ r, t.gNow r = if r = 31 then g31.getD (s.gNow 31) else s.gNow r) ∧
        { t with verdict := s.verdict, cores := s.cores } = s ∧ ∀ c, c ≠ s.core → t.ctx c = s.ctx c) ∧
      (s.headerAt target = false → ∃ t, exec i s = .next t ∧ TrapsAtWord s t 0x03 0 0) ∧
      (s.headerAt target = true → (s.me.stream s.stream).loops ≠ [] → ∃ t, exec i s = .next t ∧ TrapsAtWord s t 0x05 0 0)
    goes (.jmp gd off) near none ∧ goes (.jmpReg gd a) ((s.rg a).toNat : Int) none ∧
      (goes (.call gd off) near (some (BitVec.ofNat 64 (s.rd.pc + 3)))) ∧
      (goes (.callReg gd a) ((s.rg a).toNat : Int) (some (BitVec.ofNat 64 (s.rd.pc + 3)))) ∧
      goes (.ret gd) ((s.rg 31).toNat : Int) none

/-- LOOP under its guard (R151, R182, R183): a body of no word, or one that leaves the section, raises 0x03; a count of 2^32 or
more, a fifth level, a body that leaves the innermost active one, or, in the C stream, a LOOP in the body of a pipelined level,
raises 0x05; a count of 0 passes over the body, with no level pushed; any other count pushes the level over the BODY words after
its own and starts its first word, in the C stream as a pipelined level where the pending stages are not 0. In the C stream the
pending configuration is cleared. Without its guard a LOOP does nothing else. -/
def Obligations.LoopStartsItsLevel : Prop :=
  ∀ (gd : Guard) (a : BitVec 5) (body : BitVec 13) (s : State),
    let y := s.me.stream s.stream
    let last := s.rd.ix + body.toNat
    let ns : BitVec 4 := if s.stream = .c then s.me.le.pns else 0
    let rot := decide (s.stream = .c) && s.me.le.prt
    let cleared := fun (t : State) => s.stream = .c → t.me.le.pns = 0 ∧ t.me.le.prt = false
    let inner := ∀ l ∈ y.loops.head?, last ≤ l.last
    let plain := ¬(s.stream = .c ∧ s.me.le.ns ≠ 0)
    let keeps := fun (t : State) => (∀ i, t.gNow i = s.gNow i) ∧ { t with verdict := s.verdict, cores := s.cores } = s ∧
      ∀ c, c ≠ s.core → t.ctx c = s.ctx c
    (guardOk gd s = false → ∃ t, exec (.loop gd a body) s = .next t ∧ t.verdict = s.verdict ∧ cleared t ∧ keeps t ∧
      t.me.stream s.stream = y) ∧
    (guardOk gd s = true → (body = 0 ∨ y.secLen ≤ last) → ∃ t, exec (.loop gd a body) s = .next t ∧
      t.verdict = .traps 0x03 0 0 ∧ keeps t) ∧
    (guardOk gd s = true → body ≠ 0 → last < y.secLen →
      (2 ^ 32 ≤ (s.rg a).toNat ∨ y.loops.length = 4 ∨ ¬inner ∨ ¬plain) →
      ∃ t, exec (.loop gd a body) s = .next t ∧ t.verdict = .traps 0x05 0 0 ∧ keeps t) ∧
    (guardOk gd s = true → body ≠ 0 → last < y.secLen → (s.rg a).toNat < 2 ^ 32 → y.loops.length ≠ 4 → inner → plain →
      (s.rg a = 0 → ∃ t, exec (.loop gd a body) s = .next t ∧ t.verdict = .moved ∧ cleared t ∧ keeps t ∧
        t.me = (if s.stream = .c then { s.me with le := { s.me.le with pns := 0, prt := false } } else s.me).pass s.stream last ∧
        (y.loops = [] → (t.me.stream s.stream).loops = [] ∧ (t.me.stream s.stream).pc = y.secStart + 3 * (last + 1))) ∧
      (s.rg a ≠ 0 → ∃ t, exec (.loop gd a body) s = .next t ∧ t.verdict = .moved ∧ cleared t ∧ keeps t ∧
        (t.me.stream s.stream).loops =
          ({ first := s.rd.ix + 1, last := last, left := if ns = 0 then (s.rg a).toNat else 0, rot := rot } : LoopLevel) :: y.loops ∧
        (t.me.stream s.stream).pc = y.secStart + 3 * (s.rd.ix + 1) ∧
        (ns = 0 → ∀ i, t.pNow i = s.pNow i) ∧
        (ns ≠ 0 → t.me.le.ns = ns ∧ t.me.le.n = (s.rg a).setWidth 32 ∧ t.me.le.k = 1 ∧ t.me.le.drn = false ∧
          t.pNow 8 = true ∧ ∀ i : BitVec 4, 8 < i.toNat → i.toNat ≤ 7 + ns.toNat → t.pNow i = false)))

/-- TRAP stands the core at cause 0x14 with CODE (R147, R401); FIN ends the stream: it issues no further word, and its
loops are discarded (R147, R152). -/
def Obligations.TrapAndFinEndTheirStream : Prop :=
  ∀ (gd : Guard) (code : BitVec 8) (s : State), guardOk gd s = true →
    (s.me.trap = none → ∃ t, exec (.trap gd code) s = .next t ∧ t.verdict = .traps 0x14 code 0 ∧
      t.me.trap =
        some { cause := 0x14, stream := s.stream, code := code, addr := 0, seq := (s.me.stream s.stream).seq, syl := s.rd.pc } ∧
      (∀ i, t.gNow i = s.gNow i) ∧ { t with verdict := s.verdict, cores := s.cores } = s) ∧
    (∃ t, exec (.fin gd) s = .next t ∧ t.verdict = .moved ∧ (t.me.stream s.stream).phase = .done ∧
      (t.me.stream s.stream).loops = [] ∧ (t.me.stream s.stream).inSection = false ∧
      (∀ i, t.gNow i = s.gNow i) ∧ (∀ i, t.pNow i = s.pNow i) ∧ { t with verdict := s.verdict, cores := s.cores } = s)

/-- A stream at a header with SP = 0, and none of its pre-emption points due, enters the section: the section counter
advances but into the entry section, and the words stand after the header's two syllables (R113, R114). At a header with
SP = 1 it does the same where VARTAB is 0, ERR is set, no record of the table names the header, or the target is the header
itself; where the table is invalid it sets ERR and enters; otherwise it holds at the header for its record (R426, R427). A left
section retires once what it issued is done (R114). A dependence holds as R114 says: counted from the section's own number where
the mode is paced, else when the other stream has retired that many sections. That a section with an outstanding access has not issued every
word, and that one which a transfer leaves has, is the model's reading (log 63, DEDUCED). -/
def Obligations.SectionsAreEnteredAndRetire : Prop :=
  (∀ (h : Header) (s : State), h.sp = false → (h.pp = true → s.me.preempt = false) →
    let y := s.me.stream s.stream
    ∃ t, exec (.sectionHeader h) s = .next t ∧ t.verdict = .moved ∧
      (t.me.stream s.stream).sect = (if y.fresh then y.sect else y.sect + 1) ∧
      (t.me.stream s.stream).secStart = y.pc + 2 ∧ (t.me.stream s.stream).pc = y.pc + 2 ∧
      (t.me.stream s.stream).secLen = h.len.toNat ∧ (t.me.stream s.stream).inSection = true ∧
      (t.me.stream s.stream).dep = some h ∧ (∀ i, t.gNow i = s.gNow i) ∧ { t with verdict := s.verdict, cores := s.cores } = s) ∧
  (∀ (h : Header) (s : State), h.sp = true → (h.pp = true → s.me.preempt = false) →
    (s.me.stream s.stream).noSwitch = false →
    let y := s.me.stream s.stream
    let v := s.updMe fun x => x.updStream s.stream fun y => y.leaveSection (x.stamp s.stream)
    let enters := fun (err : Bool) => ∃ t, exec (.sectionHeader h) s = .next t ∧ t.verdict = .moved ∧
      (t.me.stream s.stream).sect = (if y.fresh then y.sect else y.sect + 1) ∧
      (t.me.stream s.stream).secStart = y.pc + 2 ∧ (t.me.stream s.stream).pc = y.pc + 2 ∧
      (t.me.stream s.stream).dep = some h ∧ t.me.varErr = err ∧ { t with verdict := s.verdict, cores := s.cores } = s
    ((s.me.vartab = 0 ∨ s.me.varErr = true) → enters s.me.varErr) ∧
    (s.me.vartab ≠ 0 → s.me.varErr = false →
      (∀ k, v.variantTable s.core = .error k → k ≠ retryCode → enters true) ∧
      ∀ recs u, v.variantTable s.core = .ok (recs, u) →
        (findRecord s.stream y.pc recs = none → enters false) ∧
        ∀ r, findRecord s.stream y.pc recs = some r →
          (variantOffset (recs.getD r []) s.stream (s.powerLevel s.core) = y.pc → enters false) ∧
          (variantOffset (recs.getD r []) s.stream (s.powerLevel s.core) ≠ y.pc →
            ∃ t, exec (.sectionHeader h) s = .next t ∧ t.verdict = .waits .hold ∧ (t.me.stream s.stream).hold = some r ∧
              (t.me.stream s.stream).pc = y.pc ∧ (t.me.stream s.stream).sect = y.sect ∧
              { t with verdict := s.verdict, cores := s.cores } = s))) ∧
  (∀ (c : Nat) (st : StreamId) (s : State) (stamp : Nat) (rest : List Nat),
    ((s.ctx c).stream st).left = stamp :: rest → (s.ctx c).sectionDone st stamp = true →
    ∃ t, exec (.sectionRetire c st) s = .next t ∧ ((t.ctx c).stream st).retired = ((s.ctx c).stream st).retired + 1 ∧
      ((t.ctx c).stream st).left = rest ∧ { t with cores := s.cores } = s) ∧
  ∀ (n : BitVec 16) (k : W32) (retired : Nat),
    (depHolds false n k retired = true ↔ n.toNat ≤ retired) ∧
    (depHolds true n k retired = true ↔ (k.toNat : Int) + n.toInt ≤ 0 ∨ (k.toNat : Int) + n.toInt ≤ retired)

/-! ## System registers -/

/-- RDSR writes g[D] with the register's content; WRSR of SRSTATE keeps the generator off 0, and writes LOSTCNT, the
views, QCFG and, in the S stream, VARTAB where the value is valid; a value that is not raises 0x04 for a view and 0x01 for any
other register, which keeps its content; a number that the stream may not read or write raises 0x01 (R139, R140, R96). CYCLES reads as a count that does not fall. The identities, the counters, SRSTATE, LOSTCNT and VIEW_V read
as the word found them at issue (R120). -/
def Obligations.SystemRegistersReadAndWrite : Prop :=
  ∀ (gd : Guard) (d a : BitVec 5) (n : BitVec 13) (s : State),
    (sysReadable s.stream n.toNat = true → n ≠ 0x08 →
      ∃ t, exec (.rdsr gd d n) s = .next t ∧ Guarded gd s t (WroteG s t d (s.sysRead n.toNat))) ∧
    (∃ t, exec (.rdsr gd d 0x08) s = .next t ∧ Guarded gd s t
      (t.gNow d = (if d = 0 then 0 else BitVec.ofNat 64 t.me.cycles) ∧ s.me.cycles ≤ t.me.cycles ∧
        ∀ i, i ≠ d → t.gNow i = s.gNow i)) ∧
    (sysReadable s.stream n.toNat = false → ∃ t, exec (.rdsr gd d n) s = .next t ∧ TrapsAtWord s t 0x01 0 0) ∧
    (sysWritable s.stream n.toNat = false → ∃ t, exec (.wrsr gd a n) s = .next t ∧ TrapsAtWord s t 0x01 0 0) ∧
    (s.stream = .c → guardOk gd s = true →
      (s.rg a).toNat < 2 ^ 32 →
      (∃ t, exec (.wrsr gd a 0x20) s = .next t ∧
        OnlyMe s t fun x => { x with srstate := if (s.rg a).setWidth 32 = (0 : W32) then 1 else (s.rg a).setWidth 32 }) ∧
      (∃ t, exec (.wrsr gd a 0x21) s = .next t ∧ OnlyMe s t fun x => { x with lostcnt := (s.rg a).setWidth 32 })) ∧
    (s.stream = .c → guardOk gd s = true → viewVOk s.units (s.rg a) = true →
      ∃ t, exec (.wrsr gd a 0x40) s = .next t ∧ OnlyMe s t fun x => { x with viewV := s.rg a }) ∧
    (s.stream = .c → guardOk gd s = true → viewVOk s.units (s.rg a) = false →
      ∃ t, exec (.wrsr gd a 0x40) s = .next t ∧ TrapsAtWord s t 0x04 0 0) ∧
    (∀ k : Fin 8, s.stream = .c → guardOk gd s = true →
      (viewOk s.units (s.rg a) = true →
        (∃ t, exec (.wrsr gd a (BitVec.ofNat 13 (0x48 + k.val))) s = .next t ∧
          OnlyMe s t fun x => { x with viewT := x.viewT.set k.val (s.rg a) k.isLt }) ∧
        (∃ t, exec (.wrsr gd a (BitVec.ofNat 13 (0x50 + k.val))) s = .next t ∧
          OnlyMe s t fun x => { x with viewA := x.viewA.set k.val (s.rg a) k.isLt })) ∧
      (viewOk s.units (s.rg a) = false → ∀ r ∈ [0x48 + k.val, 0x50 + k.val],
        ∃ t, exec (.wrsr gd a (BitVec.ofNat 13 r)) s = .next t ∧ TrapsAtWord s t 0x04 0 0)) ∧
    (s.stream = .c → guardOk gd s = true → 2 ^ 32 ≤ (s.rg a).toNat → ∀ r ∈ [(0x20 : BitVec 13), 0x21],
      ∃ t, exec (.wrsr gd a r) s = .next t ∧ TrapsAtWord s t 0x01 0 0) ∧
    (∀ k : Fin 4, s.stream = .c → guardOk gd s = true → qcfgOk (s.rg a) = false →
      ∃ t, exec (.wrsr gd a (BitVec.ofNat 13 (0x70 + k.val))) s = .next t ∧ TrapsAtWord s t 0x01 0 0) ∧
    (s.stream = .s → guardOk gd s = true → (2 ^ 56 ≤ (s.rg a).toNat ∨ (s.rg a).toNat % 64 ≠ 0) →
      ∃ t, exec (.wrsr gd a 0x0B) s = .next t ∧ TrapsAtWord s t 0x01 0 0) ∧
    (∀ k : Fin 4, s.stream = .c → guardOk gd s = true → qcfgOk (s.rg a) = true →
      ∃ t, exec (.wrsr gd a (BitVec.ofNat 13 (0x70 + k.val))) s = .next t ∧
        OnlyMe s t fun x => { x with qcfg := x.qcfg.set k.val (s.rg a) k.isLt }) ∧
    (s.stream = .s → guardOk gd s = true → (s.rg a).toNat < 2 ^ 56 → (s.rg a).toNat % 64 = 0 →
      ∃ t, exec (.wrsr gd a 0x0B) s = .next t ∧ SameButCore s t ∧ t.me.vartab = s.rg a ∧ t.me.varErr = false ∧
        { t.me with vartab := s.me.vartab, varErr := s.me.varErr, slog := s.me.slog } = s.me) ∧
    s.sysRead 0x00 = s.rd.old.logical.setWidth 64 ∧ s.sysRead 0x01 = BitVec.ofNat 64 s.rd.old.member ∧
    s.sysRead 0x02 = BitVec.ofNat 64 s.myFlock.members.length ∧
    s.sysRead 0x10 = (s.rd.old.stream s.stream).sect.setWidth 64 ∧ s.sysRead 0x11 = (s.rd.old.stream s.stream).seq.setWidth 64 ∧
    s.sysRead 0x20 = s.rd.old.srstate.setWidth 64 ∧ s.sysRead 0x21 = s.rd.old.lostcnt.setWidth 64 ∧ s.sysRead 0x40 = s.rd.old.viewV

/-- VIEW replaces one field of a view register and raises 0x04 where the result is not valid; ROTB turns VIEW_V's
rotation base by one step; LOOPST sets the pending configuration of the next loop (R182, R205, R206). -/
def Obligations.ViewsAndLoopStages : Prop :=
  ∀ (gd : Guard) (n : BitVec 3) (w : BitVec 2) (imm : BitVec 11) (ns : BitVec 4) (rt : Bool) (s : State),
    guardOk gd s = true →
    (viewVOk s.units (viewEdit s.me.viewV w imm) = true → ∃ t, exec (.view gd 0 n w imm) s = .next t ∧
      OnlyMe s t fun x => { x with viewV := viewEdit x.viewV w imm }) ∧
    (viewVOk s.units (viewEdit s.me.viewV w imm) = false → ∃ t, exec (.view gd 0 n w imm) s = .next t ∧
      TrapsAtWord s t 0x04 0 0) ∧
    (viewOk s.units (viewEdit (s.me.viewT.toList.getD n.toNat 0) w imm) = true →
      ∃ t, exec (.view gd 1 n w imm) s = .next t ∧
        t.me.viewT.toList = s.me.viewT.toList.set n.toNat (viewEdit (s.me.viewT.toList.getD n.toNat 0) w imm) ∧
        { t.me with viewT := s.me.viewT } = s.me ∧ SameButCore s t) ∧
    (viewOk s.units (viewEdit (s.me.viewT.toList.getD n.toNat 0) w imm) = false →
      ∃ t, exec (.view gd 1 n w imm) s = .next t ∧ TrapsAtWord s t 0x04 0 0) ∧
    (viewOk s.units (viewEdit (s.me.viewA.toList.getD n.toNat 0) w imm) = true →
      ∃ t, exec (.view gd 2 n w imm) s = .next t ∧
        t.me.viewA.toList = s.me.viewA.toList.set n.toNat (viewEdit (s.me.viewA.toList.getD n.toNat 0) w imm) ∧
        { t.me with viewA := s.me.viewA } = s.me ∧ SameButCore s t) ∧
    (viewOk s.units (viewEdit (s.me.viewA.toList.getD n.toNat 0) w imm) = false →
      ∃ t, exec (.view gd 2 n w imm) s = .next t ∧ TrapsAtWord s t 0x04 0 0) ∧
    (∃ t, exec (.rotb gd) s = .next t ∧ OnlyMe s t fun x => { x with viewV := rotate x.viewV }) ∧
    (∃ t, exec (.loopst gd ns rt) s = .next t ∧
      OnlyMe s t fun x => { x with le := { x.le with pns := ns, prt := rt } })

/-! ## The L stream -/

/-- The L access queue takes an operation at its end, with its kind, its status and the stamp of its word; nothing else
of the core changes (R153, R154); the operation waits while the queue is full. A misaligned address enters as one that fails
with 0x02, an LDL's too, a global one of 2^56 or more as one that fails with 0x27 (R155, R158, R168, R172); neither sends a
request. Any other load of a register from the global space sends its own, under no number of its source (R328). A layout
record is aligned to 64 bytes (R168). -/
def Obligations.LoadsEnterTheAccessQueue : Prop :=
  ∀ (gd : Guard) (d a : BitVec 5) (sz : BitVec 2) (sx : Bool) (w : Wide) (lvl : BitVec 2) (n : BitVec 8) (k : BitVec 3)
    (s : State), guardOk gd s = true →
    let status := fun (lm : Bool) (at_ : W64) (unit : Nat) =>
      if at_.toNat % unit ≠ 0 then AccStatus.fail 0x02 at_ else if lm = false ∧ 2 ^ 56 ≤ at_.toNat then .fail 0x27 at_ else .sent
    let enters := fun (i : Instr) (kind : LKind) (st : AccStatus) (sends : Option (W64 × Nat)) =>
      (s.me.laccess.length < 32 → ∃ t, exec i s = .next t ∧ t.verdict = s.verdict ∧
        t.me.laccess = s.me.laccess ++ [({ tk := s.me.tk, kind := kind, status := st } : LAccess)] ∧
        { t.me with laccess := s.me.laccess } = s.me ∧ { t with cores := s.cores, reqs := s.reqs } = s ∧
        (match sends with
          | none => t.reqs = s.reqs
          | some (addr, n) => if st = .sent then ∃ r, t.reqs = s.reqs ++ [r] ∧ r.addr = addr ∧ r.op = .load n ∧
              r.core = s.core ∧ r.tk = s.me.tk ∧ r.lstream = true else t.reqs = s.reqs) ∧
        (∀ c, c ≠ s.core → t.ctx c = s.ctx c)) ∧
      (32 ≤ s.me.laccess.length → ∃ t, exec i s = .next t ∧ t.verdict = .waits .access)
    let at0 := s.rg a
    let at1 := s.rg a + wideVal w
    let bytes := 2 ^ sz.toNat
    enters (.ld gd d a sz sx) (.reg false at0 bytes d sx) (status false at0 bytes) (some (at0, bytes)) ∧
    enters (.ldOffset gd d a sz sx w) (.reg false at1 bytes d sx) (status false at1 bytes) (some (at1, bytes)) ∧
    enters (.ldl gd d a sz sx) (.reg true at0 bytes d sx) (status true at0 bytes) none ∧
    enters (.ldlOffset gd (.reg d sz sx) a w) (.reg true at1 bytes d sx) (status true at1 bytes) none ∧
    enters (.pref gd lvl a n) (.pref lvl at0 (n.toNat + 1)) .sent none ∧
    enters (.prefOffset gd lvl a n w) (.pref lvl at1 (n.toNat + 1)) .sent none ∧
    enters (.ldlay gd d a k) (.ldlay d at0 k) (status false at0 64) none ∧
    enters (.ldlayOffset gd d a k w) (.ldlay d at1 k) (status false at1 64) none ∧
    (∀ r : BitVec 4, r.toNat < s.myFlock.nst →
      enters (.stcfg gd r a) (.stcfg r at0) (status false at0 64) none ∧
      enters (.stcfgOffset gd r a w) (.stcfg r at1) (status false at1 64) none) ∧
    (∀ r : BitVec 4, s.myFlock.nst ≤ r.toNat →
      (∃ t, exec (.stcfg gd r a) s = .next t ∧ TrapsAtWord s t 0x01 0 0) ∧
      (∃ t, exec (.stcfgOffset gd r a w) s = .next t ∧ TrapsAtWord s t 0x01 0 0))

/-- The loads into queues (R19, R51, R153, R154, R158 to R160, R169, R170): each raises 0x01 on a queue of declared depth 0,
whatever its guard; without its guard it does nothing; under it, with room in the access queue and in its lq, it allocates an
empty entry at the tail of the lq and enters the access queue, as one that has failed with 0x02 where its address is misaligned
or its data leave one aligned 256-byte block, and with 0x27 where a global address is 2^56 or more; an LDR that has not failed
sends its request. LDS takes the address of its stream register's position, allocates a second entry for its scale group, enters
the read of the trailer behind itself at the end of a checked tile, and moves the position on; spent, it enters as one that has
failed with 0x06 and allocates nothing. -/
def Obligations.QueueLoadsAllocateTheirEntry : Prop :=
  ∀ (gd : Guard) (q : BitVec 3) (a b e : BitVec 5) (sp : Bool) (esz : BitVec 2) (nm1 : BitVec 8) (w : Wide) (s : State),
    let empty : QEntry := { data := [], ready := false, tk := s.me.tk }
    let adds := fun (t : State) (q q2 : BitVec 3) (scaled : Bool) =>
      ∀ k, (t.me.getLq k).entries =
        (s.me.getLq k).entries ++ List.replicate ((if k = q then 1 else 0) + (if scaled ∧ k = q2 then 1 else 0)) empty
    let status := fun (lm : Bool) (at_ : W64) (ok : Bool) =>
      if ok = false then AccStatus.fail 0x02 at_ else if lm = false ∧ 2 ^ 56 ≤ at_.toNat then .fail 0x27 at_ else .sent
    let enters := fun (i : Instr) (kind : LKind) (st : AccStatus) (sends : Option (W64 × Nat)) =>
      ((s.me.getLq q).depth = 0 → ∃ t, exec i s = .next t ∧ TrapsAtWord s t 0x01 0 0) ∧
      ((s.me.getLq q).depth ≠ 0 → guardOk gd s = false → exec i s = .next s) ∧
      (guardOk gd s = true → s.me.laccess.length < 32 → (s.me.getLq q).entries.length + 1 ≤ (s.me.getLq q).depth →
        ∃ t, exec i s = .next t ∧ t.verdict = s.verdict ∧ adds t q q false ∧
          t.me.laccess = s.me.laccess ++ [({ tk := s.me.tk, kind := kind, status := st } : LAccess)] ∧
          { t.me with laccess := s.me.laccess, lq := s.me.lq } = s.me ∧ { t with cores := s.cores, reqs := s.reqs } = s ∧
          (match sends with
            | none => t.reqs = s.reqs
            | some (addr, n) => if st = .sent then ∃ r, t.reqs = s.reqs ++ [r] ∧ r.addr = addr ∧ r.op = .load n ∧
                r.core = s.core ∧ r.tk = s.me.tk ∧ r.lstream = true else t.reqs = s.reqs) ∧
          ∀ c, c ≠ s.core → t.ctx c = s.ctx c)
    let at0 := s.rg a
    let at1 := s.rg a + wideVal w
    let n := 8 * (e.toNat + 1)
    let fits := fun (x : W64) (n : Nat) => decide (x.toNat % 8 = 0 ∧ x.toNat / 256 = (x.toNat + n - 1) / 256)
    enters (.ldlQ gd q a e) (.entry true at0 n q) (status true at0 (fits at0 n)) none ∧
    enters (.ldlOffset gd (.queue q e) a w) (.entry true at1 n q) (status true at1 (fits at1 n)) none ∧
    enters (.ldr gd q a e) (.entry false at0 n q) (status false at0 (fits at0 n)) (some (at0, n)) ∧
    enters (.ldrOffset gd q a e w) (.entry false at1 n q) (status false at1 (fits at1 n)) (some (at1, n)) ∧
    (let gathers := if at0.toNat % 2 ^ esz.toNat ≠ 0 then AccStatus.fail 0x02 at0
       else if (s.rg b).toNat % 4 ≠ 0 then .fail 0x02 (s.rg b) else .sent
     enters (.gath gd q sp esz a b) (.gath q sp (2 ^ esz.toNat) (256 / 2 ^ esz.toNat) at0 (s.rg b)) gathers none ∧
     enters (.gathN gd q sp esz a b nm1) (.gath q sp (2 ^ esz.toNat) (nm1.toNat + 1) at0 (s.rg b)) gathers none) ∧
    (∀ r : BitVec 4,
      let u := s.me.getSt r
      let sq := u.lay.sq
      let scaled := decide (u.lay.gbytes ≠ 0)
      let found := if fits u.ent u.lay.bytes = false then AccStatus.fail 0x02 u.ent
        else if scaled ∧ u.grp.toNat / 256 ≠ (u.grp.toNat + u.lay.gbytes - 1) / 256 then .fail 0x02 u.grp else .sent
      let lds := exec (.lds gd q r) s
      ((s.me.getLq q).depth = 0 ∨ s.myFlock.nst ≤ r.toNat → ∃ t, lds = .next t ∧ TrapsAtWord s t 0x01 0 0) ∧
      ((s.me.getLq q).depth ≠ 0 → r.toNat < s.myFlock.nst → guardOk gd s = false → lds = .next s) ∧
      ((s.me.getLq q).depth ≠ 0 → r.toNat < s.myFlock.nst → guardOk gd s = true → s.me.stPending r = false →
        s.me.laccess.length < 32 →
        (u.spent = true → ∃ t, lds = .next t ∧ t.verdict = s.verdict ∧
          t.me.laccess = s.me.laccess ++ [({ tk := s.me.tk, kind := .lds r u q, status := .fail 0x06 0 } : LAccess)] ∧
          { t.me with laccess := s.me.laccess } = s.me ∧ SameButCore s t) ∧
        (u.spent = false → scaled → (s.me.getLq sq).depth = 0 → ∃ t, lds = .next t ∧ TrapsAtWord s t 0x01 0 0) ∧
        (u.spent = false → (scaled → (s.me.getLq sq).depth ≠ 0) → (u.endsTile = true → s.me.laccess.length + 2 ≤ 32) →
          (∀ k, (s.me.getLq k).entries.length + (if k = q then 1 else 0) + (if scaled ∧ k = sq then 1 else 0) ≤ (s.me.getLq k).depth) →
          ∃ t, lds = .next t ∧ t.verdict = s.verdict ∧ adds t q sq scaled ∧ t.me.getSt r = u.at (u.j + 1) ∧
            (∀ k, k ≠ r → t.me.getSt k = s.me.getSt k) ∧
            t.me.laccess = s.me.laccess ++ ({ tk := s.me.tk, kind := .lds r u q, status := found } : LAccess) ::
              (if u.endsTile then [({ tk := s.me.tk, kind := .trailer u.lay.sp u.lay.tbase } : LAccess)] else []) ∧
            { t.me with laccess := s.me.laccess, lq := s.me.lq, st := s.me.st } = s.me ∧ SameButCore s t)))

/-- STADV moves a configured stream register, while no access is outstanding: it starts its walk again from moved bases, or
skips entries; a skip past the end or of a checked tile, or an unconfigured register, raises 0x06 (R171). Immediate and register
forms do the same. -/
def Obligations.StreamRegistersAdvance : Prop :=
  ∀ (gd : Guard) (r : BitVec 4) (a b : BitVec 5) (imm : W32) (s : State), guardOk gd s = true →
    r.toNat < s.myFlock.nst → s.me.laccess = [] →
    let u := s.me.getSt r
    let again := fun (da db : W64) (v : StreamReg) =>
      v.lay.base = u.lay.base + da ∧ v.lay.sbase = u.lay.sbase + db ∧ v.j = 0 ∧ v.i0 = 0 ∧ v.i1 = 0 ∧ v.i2 = 0 ∧ v.i3 = 0 ∧
        v.crc = 0xFFFFFFFF ∧ { v.lay with base := u.lay.base, sbase := u.lay.sbase } = u.lay
    (u.conf = false → ∃ t, exec (.stadv gd r a b) s = .next t ∧ TrapsAtWord s t 0x06 0 0) ∧
    (u.conf = true →
      (∃ t, exec (.stadv gd r a b) s = .next t ∧ again (s.rg a) (s.rg b) (t.me.getSt r) ∧
        { t.me with st := s.me.st } = s.me ∧ SameButCore s t) ∧
      (∃ t, exec (.stadvImm gd r false b imm) s = .next t ∧ again (imm.signExtend 64) (s.rg b) (t.me.getSt r) ∧
        { t.me with st := s.me.st } = s.me ∧ SameButCore s t) ∧
      (u.lay.tc = false → u.j + (s.rg a).toNat ≤ u.lay.total →
        ∃ t, exec (.stadvSkip gd r a) s = .next t ∧ (t.me.getSt r).j = u.j + (s.rg a).toNat ∧
          (t.me.getSt r).lay = u.lay ∧ { t.me with st := s.me.st } = s.me ∧ SameButCore s t) ∧
      (u.lay.tc = false → u.j + (imm.signExtend 64 : W64).toNat ≤ u.lay.total →
        ∃ t, exec (.stadvImm gd r true b imm) s = .next t ∧ (t.me.getSt r).j = u.j + (imm.signExtend 64 : W64).toNat ∧
          (t.me.getSt r).lay = u.lay ∧ { t.me with st := s.me.st } = s.me ∧ SameButCore s t) ∧
      (u.lay.tc = true ∨ u.lay.total < u.j + (s.rg a).toNat →
        ∃ t, exec (.stadvSkip gd r a) s = .next t ∧ TrapsAtWord s t 0x06 0 0) ∧
      (u.lay.tc = true ∨ u.lay.total < u.j + (imm.signExtend 64 : W64).toNat →
        ∃ t, exec (.stadvImm gd r true b imm) s = .next t ∧ TrapsAtWord s t 0x06 0 0))

/-- Each under its guard, on an lq, or bq, of a depth other than 0. QPUSH and BQPUSH append an entry that is ready at once,
and wait while their queue is full (R161). RECV takes the first bytes that the live circuit of its handle has received into an
entry, and RECV.try writes its predicate with whether it did: the bytes leave the circuit's receive buffer, and nothing else of
the core, of the circuits and of the machine changes (R163). Where too few have come RECV waits and RECV.try answers false; both
wait behind an earlier access, and where the bytes have come, while the queue is full; a handle with no inbound circuit raises
0x41; bytes that arrived poisoned raise 0x24 and stay (R79, and the model's choice of log entry 81; that the circuit is looked at
before the room is that of log entry 58). FENCE.LAYOUT waits for the earlier reads of layout records and empties the layout
cache (R173). -/
def Obligations.PushesAndReceives : Prop :=
  ∀ (gd : Guard) (q : BitVec 3) (sz : BitVec 2) (a e : BitVec 5) (ps pd : BitVec 4) (inv : Bool) (h : BitVec 6)
    (s : State), guardOk gd s = true →
    let lq := s.me.getLq q
    let appends := fun (t : State) (x : QEntry) =>
      t.me.getLq q = { lq with entries := lq.entries ++ [x], tail := lq.tail + 1 } ∧ ∀ k, k ≠ q → t.me.getLq k = s.me.getLq k
    let n := 8 * (e.toNat + 1)
    (lq.depth ≠ 0 →
      (lq.entries.length + 1 ≤ lq.depth → ∃ t, exec (.qpush gd q sz a) s = .next t ∧ t.verdict = s.verdict ∧
        SameButCore s t ∧ { t.me with lq := s.me.lq } = s.me ∧
        appends t { data := (wordLE (s.rg a)).take (2 ^ sz.toNat), ready := true, tk := s.me.tk }) ∧
      (lq.depth ≤ lq.entries.length → ∃ t, exec (.qpush gd q sz a) s = .next t ∧ t.verdict = .waits .queueFull) ∧
      (s.me.laccess ≠ [] → ∀ i ∈ [Instr.recv gd q h e, .recvTry gd q h e pd],
        ∃ t, exec i s = .next t ∧ t.verdict = .waits .access) ∧
      (s.me.laccess = [] → ((s.circuits s.core).find? fun k => k.inbound h s.me.logical) = none →
        (∀ w, s.me.recvOn = some w → w.1 ≠ h) → ∀ i ∈ [Instr.recv gd q h e, .recvTry gd q h e pd],
          ∃ t, exec i s = .next t ∧ TrapsAtWord s t 0x41 0 0) ∧
      ∀ k, s.me.laccess = [] → ((s.circuits s.core).find? fun k => k.inbound h s.me.logical) = some k → k.live = true →
        (∀ w, s.me.recvOn = some w → w.1 = h → w.2 = k.step) →
        (n ≤ k.rx.length → lq.entries.length + 1 ≤ lq.depth →
          (k.rxBad n = false →
            let entry : QEntry := { data := k.rx.take n, ready := true, tk := s.me.tk }
            let takes := fun (t : State) =>
              t.verdict = s.verdict ∧ appends t entry ∧
                t.circuits s.core = (s.circuits s.core).map (fun j => if j.inbound h s.me.logical then j.took n else j) ∧
                (k.took n).rx = k.rx.drop n ∧ { k.took n with rx := k.rx, taken := k.taken } = k ∧
                { t with cores := s.cores, parts := s.parts } = s ∧ (∀ c, c ≠ s.core → t.ctx c = s.ctx c) ∧
                (∀ m, m ≠ s.partOf s.core → t.part m = s.part m) ∧
                { t.part (s.partOf s.core) with
                    drover := { (t.part (s.partOf s.core)).drover with circuits := s.circuits s.core } } =
                  s.part (s.partOf s.core)
            (∃ t, exec (.recv gd q h e) s = .next t ∧ takes t ∧ { t.me with lq := s.me.lq } = s.me) ∧
            (∃ t, exec (.recvTry gd q h e pd) s = .next t ∧ takes t ∧ t.pNow pd = true ∧
              (∀ i, i ≠ pd → t.pNow i = s.pNow i) ∧
              { t.me.updStream s.stream (fun y => { y with p := (s.me.stream s.stream).p }) with lq := s.me.lq } = s.me)) ∧
          (k.rxBad n = true → ∀ i ∈ [Instr.recv gd q h e, .recvTry gd q h e pd],
            ∃ t, exec i s = .next t ∧ TrapsAtWord s t 0x24 0 0)) ∧
        (n ≤ k.rx.length → lq.depth ≤ lq.entries.length → ∀ i ∈ [Instr.recv gd q h e, .recvTry gd q h e pd],
          ∃ t, exec i s = .next t ∧ t.verdict = .waits .queueFull) ∧
        (k.rx.length < n →
          (∃ t, exec (.recvTry gd q h e pd) s = .next t ∧ WroteP s t pd false) ∧
          (∃ t, exec (.recv gd q h e) s = .next t ∧ t.verdict = .waits .recvBytes))) ∧
    (s.me.bq.depth ≠ 0 →
      (s.me.bq.entries.length + 1 ≤ s.me.bq.depth →
        ∃ t, exec (.bqpush gd ps inv) s = .next t ∧ t.verdict = s.verdict ∧ SameButCore s t ∧
          t.me.bq = { s.me.bq with
            entries := s.me.bq.entries ++ [{ data := [if s.rp ps != inv then 1 else 0], ready := true, tk := s.me.tk }]
            tail := s.me.bq.tail + 1 } ∧ { t.me with bq := s.me.bq } = s.me) ∧
      (s.me.bq.depth ≤ s.me.bq.entries.length →
        ∃ t, exec (.bqpush gd ps inv) s = .next t ∧ t.verdict = .waits .queueFull)) ∧
    ((∀ x ∈ s.me.laccess, x.readsLayout = false) →
      ∃ t, exec (.fenceLayout gd) s = .next t ∧ t.verdict = s.verdict ∧ OnlyMe s t fun x => { x with layoutCache := [] }) ∧
    ((∃ x ∈ s.me.laccess, x.readsLayout = true) → ∃ t, exec (.fenceLayout gd) s = .next t ∧ t.verdict = .waits .access)

/-- The head of the L access queue completes in order: a load whose data has come writes its register, sign- or
zero-extended, or its queue entry (R153, R154, R159); one that failed is cut before its word with its cause and address,
its word and every later one are withdrawn, and the queue is empty (R155). The head does not wait to send a read again (R330). -/
def Obligations.LoadsCompleteInOrder : Prop :=
  ∀ (c : Nat) (s : State) (e : LAccess) (rest : List LAccess), (s.ctx c).laccess = e :: rest → e.resendAt = none →
    (∀ lm addr n d sx bs, e.kind = .reg lm addr n d sx → e.status = .data bs →
      ∃ t, exec (.lAccessComplete c) s = .next t ∧ { t with cores := s.cores } = s ∧ (t.ctx c).laccess.length = rest.length ∧
        (t.ctx c).l.getG d = (if d = 0 then 0 else if sx then BitVec.ofInt 64 (signed (8 * n) (leNat (bs.take n)))
          else BitVec.ofNat 64 (leNat (bs.take n))) ∧
        (∀ i, i ≠ d → (t.ctx c).l.getG i = (s.ctx c).l.getG i) ∧ (∀ i, (t.ctx c).l.getP i = (s.ctx c).l.getP i)) ∧
    (∀ lm addr n q bs, e.kind = .entry lm addr n q → e.status = .data bs →
      ∃ t, exec (.lAccessComplete c) s = .next t ∧ { t with cores := s.cores } = s ∧ (t.ctx c).laccess = rest ∧
        (t.ctx c).getLq q = ((s.ctx c).getLq q).fill e.tk bs) ∧
    (∀ cause addr, e.status = .fail cause addr → cause ≠ retryCode → (s.ctx c).lcut = false → (s.ctx c).trap = none →
      ∃ t, exec (.lAccessComplete c) s = .next t ∧ (t.ctx c).laccess = [] ∧
        (t.ctx c).trap = some { cause := cause, stream := .l, code := 0, addr := addr, seq := e.seq, syl := e.syl } ∧
        (t.ctx c).l.g = e.undo.g ∧ (t.ctx c).l.pc = e.undo.pc ∧ (t.ctx c).l.retired = (s.ctx c).l.retired ∧
        t.mem = s.mem ∧ t.lm = s.lm ∧ t.hostMem = s.hostMem)

/-! ## The S stream -/

/-- A store enters the S access queue with its bytes and sends its request to its home; the queue form takes its entry
(R208, R209, R212, R213). A misaligned store raises 0x02 at its word, with its address, an STR whose flag is misaligned with the
flag's, and the queue form raises 0x07 for an entry of another size, before 0x02, 0x01 on a queue of declared depth 0 whatever
its guard, and waits while its queue is empty (R19, R117, R212, R213). A global address of 2^56 or more enters as a store that
has failed with 0x27 and sends nothing. The access queue has room, fewer than 64 requests are unanswered, and a store to the host
window has room in the commit buffer. -/
def Obligations.StoresEnterTheAccessQueue : Prop :=
  ∀ (gd : Guard) (b a f e : BitVec 5) (q : BitVec 3) (sz : BitVec 2) (w : Wide) (o : W32) (sc : Option Scope)
    (s : State), guardOk gd s = true → s.me.saccess.length < 32 → s.me.unanswered.length < 64 →
    let n := 2 ^ sz.toNat
    let m := 8 * (e.toNat + 1)
    let datum := (wordLE (s.rg b)).take n
    let sent := fun (i : Instr) (kind : SKind) (op : Option (W64 × ReqOp)) =>
      ∃ t, exec i s = .next t ∧ t.verdict = s.verdict ∧
        (∃ x, t.me.saccess = s.me.saccess ++ [x] ∧ x.kind = kind ∧ x.status = .sent ∧ x.tk = s.me.tk) ∧
        (match op with
          | none => t.reqs = s.reqs
          | some (addr, op) => ∃ r, t.reqs = s.reqs ++ [r] ∧ r.addr = addr ∧ r.op = op ∧ r.num = s.me.seqno ∧ r.core = s.core) ∧
        { t with cores := s.cores, reqs := s.reqs } = s ∧ (∀ c, c ≠ s.core → t.ctx c = s.ctx c) ∧
        (∀ i, t.gNow i = s.gNow i) ∧ (∀ i, t.pNow i = s.pNow i)
    let taken := fun (i : Instr) (rest : List QEntry) => ∃ t, exec i s = .next t ∧ (t.me.getSq q).entries = rest
    let home := fun (x : W64) => x.toNat < 2 ^ 56 ∧
      (panelOf x.toNat = 0xFF → s.me.commit.length + (s.me.saccess.map SAccess.hostBound).sum + 2 ≤ 8)
    let at0 := s.rg a
    let at1 := s.rg a + wideVal w
    let at2 := s.rg a + o.signExtend 64
    (at0.toNat % n = 0 →
      (home at0 → sent (.st gd b a sz) (.glob at0 datum) (some (at0, .store datum))) ∧
      sent (.stl gd b a sz) (.loc at0 datum) none) ∧
    (at0.toNat % n ≠ 0 → ∀ i ∈ [Instr.st gd b a sz, .stl gd b a sz], ∃ t, exec i s = .next t ∧ TrapsAtWord s t 0x02 0 at0) ∧
    (at1.toNat % n ≠ 0 → ∀ i ∈ [Instr.stOffset gd (.reg b sz) a w, .stlOffset gd (.reg b sz) a w],
      ∃ t, exec i s = .next t ∧ TrapsAtWord s t 0x02 0 at1) ∧
    (let beyond := fun (i : Instr) (kind : SKind) (y : W64) => ∃ t, exec i s = .next t ∧ t.verdict = s.verdict ∧
       t.me.saccess = s.me.saccess ++ [({ tk := s.me.tk, kind := kind, status := .fail 0x27 y } : SAccess)] ∧ t.reqs = s.reqs
     (at0.toNat % n = 0 → 2 ^ 56 ≤ at0.toNat → beyond (.st gd b a sz) (.glob at0 datum) at0) ∧
       (at1.toNat % n = 0 → 2 ^ 56 ≤ at1.toNat → beyond (.stOffset gd (.reg b sz) a w) (.glob at1 datum) at1) ∧
       ∀ x rest, (s.me.getSq q).depth ≠ 0 → (s.me.getSq q).entries = x :: rest → x.data.length = m →
         at0.toNat % 8 = 0 → at0.toNat / 256 = (at0.toNat + m - 1) / 256 → 2 ^ 56 ≤ at0.toNat →
           beyond (.stQ gd q a e) (.glob at0 x.data) at0) ∧
    (∀ p ∈ [(Instr.stlQ gd q a e, at0), (.stQ gd q a e, at0), (.stlOffset gd (.queue q e) a w, at1),
        (.stOffset gd (.queue q e) a w, at1), (.str gd q a f e, at0), (.strOffset gd q a f e o sc, at2)],
      ((s.me.getSq q).depth = 0 → ∃ t, exec p.1 s = .next t ∧ TrapsAtWord s t 0x01 0 0) ∧
      ((s.me.getSq q).depth ≠ 0 → (s.me.getSq q).entries = [] → ∃ t, exec p.1 s = .next t ∧ t.verdict = .waits .queueEmpty) ∧
      ∀ x rest, (s.me.getSq q).depth ≠ 0 → (s.me.getSq q).entries = x :: rest →
        (x.data.length ≠ m → ∃ t, exec p.1 s = .next t ∧ TrapsAtWord s t 0x07 0 0) ∧
        (x.data.length = m → (p.2.toNat % 8 ≠ 0 ∨ p.2.toNat / 256 ≠ (p.2.toNat + m - 1) / 256) →
          ∃ t, exec p.1 s = .next t ∧ TrapsAtWord s t 0x02 0 p.2)) ∧
    (at1.toNat % n = 0 →
      (home at1 → sent (.stOffset gd (.reg b sz) a w) (.glob at1 datum) (some (at1, .store datum))) ∧
      sent (.stlOffset gd (.reg b sz) a w) (.loc at1 datum) none) ∧
    (∀ x rest, (s.me.getSq q).depth ≠ 0 → (s.me.getSq q).entries = x :: rest → x.data.length = m →
      let fits := fun (y : W64) => y.toNat % 8 = 0 ∧ y.toNat / 256 = (y.toNat + m - 1) / 256
      (fits at0 → sent (.stlQ gd q a e) (.loc at0 x.data) none ∧ taken (.stlQ gd q a e) rest) ∧
      (fits at0 → home at0 → sent (.stQ gd q a e) (.glob at0 x.data) (some (at0, .store x.data)) ∧ taken (.stQ gd q a e) rest) ∧
      (fits at1 → sent (.stlOffset gd (.queue q e) a w) (.loc at1 x.data) none) ∧
      (fits at1 → home at1 → sent (.stOffset gd (.queue q e) a w) (.glob at1 x.data) (some (at1, .store x.data))) ∧
      (fits at0 → home at0 → f ≠ 0 → (s.rg f).toNat % 8 = 0 → home (s.rg f) →
        sent (.str gd q a f e) (.str at0 x.data (s.rg f) .system) (some (at0, .str x.data (s.rg f))) ∧
          taken (.str gd q a f e) rest) ∧
      (fits at2 → home at2 → f ≠ 0 → (s.rg f).toNat % 8 = 0 → home (s.rg f) →
        sent (.strOffset gd q a f e o sc) (.str at2 x.data (s.rg f) (sc.getD .system)) (some (at2, .str x.data (s.rg f)))) ∧
      (f ≠ 0 → (s.rg f).toNat % 8 ≠ 0 →
        (fits at0 → ∃ t, exec (.str gd q a f e) s = .next t ∧ TrapsAtWord s t 0x02 0 (s.rg f)) ∧
        (fits at2 → ∃ t, exec (.strOffset gd q a f e o sc) s = .next t ∧ TrapsAtWord s t 0x02 0 (s.rg f))) ∧
      (fits at0 → home at0 → sent (.str gd q a 0 e) (.glob at0 x.data) (some (at0, .store x.data))))

/-- THE FRAME OF A STORE: when the store at the head of the S access queue is performed, the bytes at its place become its
bytes, and every other byte of panel storage, local memory and host memory reads as before (R208, R209); of a store some of
whose 8-byte pieces have gone ahead, only bytes of the pieces that are left change (R74). A local store beyond the declared
bytes changes none and raises 0x22 at its word. No earlier WAITA of the stream has still to arm on the place (R64). -/
def Obligations.StoresWriteTheirBytesAndNoOther : Prop :=
  ∀ (c : Nat) (s : State) (e : SAccess) (rest : List SAccess), (s.ctx c).saccess = e :: rest →
    (∀ addr bs tile off, e.kind = .glob addr bs → e.status = .held [.panel tile off] →
      s.armBefore c e.tk (.panel tile off) bs.length = false →
      (e.todo = none → ∃ t, exec (.sAccessComplete c) s = .next t ∧ (t.ctx c).saccess = rest ∧
        Memory.readN t.mem (s.panelKey tile off) bs.length = bs ∧
        (∀ a, (a < s.panelKey tile off ∨ s.panelKey tile off + bs.length ≤ a) → Memory.read t.mem a = Memory.read s.mem a) ∧
        t.lm = s.lm ∧ t.hostMem = s.hostMem) ∧
      (∀ is, e.todo = some is → ∃ t, exec (.sAccessComplete c) s = .next t ∧ (t.ctx c).saccess = rest ∧
        (∀ a, (∀ i ∈ is, a < s.panelKey tile (off + 8 * i) ∨ s.panelKey tile (off + 8 * i) + 8 ≤ a) →
          Memory.read t.mem a = Memory.read s.mem a) ∧
        t.lm = s.lm ∧ t.hostMem = s.hostMem)) ∧
    (∀ addr bs, e.kind = .loc addr bs → e.status = .sent → s.lmOk c addr.toNat bs.length = true →
      s.armBefore c e.tk (.lm c addr.toNat) bs.length = false →
      (e.todo = none → ∃ t, exec (.sAccessComplete c) s = .next t ∧ (t.ctx c).saccess = rest ∧
        Memory.readN t.lm (c * 2 ^ 23 + addr.toNat) bs.length = bs ∧
        (∀ a, (a < c * 2 ^ 23 + addr.toNat ∨ c * 2 ^ 23 + addr.toNat + bs.length ≤ a) →
          Memory.read t.lm a = Memory.read s.lm a) ∧
        t.mem = s.mem ∧ t.hostMem = s.hostMem) ∧
      (∀ is, e.todo = some is → ∃ t, exec (.sAccessComplete c) s = .next t ∧ (t.ctx c).saccess = rest ∧
        (∀ a, (∀ i ∈ is, a < c * 2 ^ 23 + addr.toNat + 8 * i ∨ c * 2 ^ 23 + addr.toNat + 8 * i + 8 ≤ a) →
          Memory.read t.lm a = Memory.read s.lm a) ∧
        t.mem = s.mem ∧ t.hostMem = s.hostMem)) ∧
    (∀ addr bs, e.kind = .loc addr bs → e.status = .sent → s.lmOk c addr.toNat bs.length = false → (s.ctx c).scut = false →
      (s.ctx c).trap = none →
      ∃ t, exec (.sAccessComplete c) s = .next t ∧ (t.ctx c).saccess = [] ∧ t.mem = s.mem ∧ t.lm = s.lm ∧ t.hostMem = s.hostMem ∧
        (t.ctx c).trap = some { cause := 0x22, stream := .s, code := 0, addr := addr, seq := e.seq, syl := e.syl })

/-- PUSH under its guard (R214, R301): a record that counts in a barrier the LAUNCH did not allocate raises 0x01, and one
bound to a handle with no live circuit 0x41; any other is appended to f0, of g[B] to g[B + 7] or of a 64-byte sq entry, which it
takes, with its scope and the barrier phase in which it counts; it waits while f0 is full. POP takes the head entry of f1, f2 or
f3 into two, two or four registers, waiting while it is empty, and POP.try says in its predicate whether there was one (R215). -/
def Obligations.FifosPushAndPop : Prop :=
  ∀ (gd : Guard) (sc : Scope) (b d : BitVec 5) (q : BitVec 3) (pd : BitVec 4) (s : State), guardOk gd s = true →
    let pushes := fun (i : Instr) (r : CmdRecord) (more : State → Prop) =>
      (r.be = true → s.myFlock.barOk r.bar = false → ∃ t, exec i s = .next t ∧ t.verdict = .traps 0x01 0 0) ∧
      ((r.be = true → s.myFlock.barOk r.bar = true) → r.bound = true → (s.outbound s.core r.h).map (·.live) ≠ some true →
        ∃ t, exec i s = .next t ∧ t.verdict = .traps 0x41 0 0) ∧
      ((r.be = true → s.myFlock.barOk r.bar = true) → (r.bound = true → (s.outbound s.core r.h).map (·.live) = some true) →
        ∃ t, exec i s = .next t ∧ t.verdict = s.verdict ∧
          t.me.f0 = s.me.f0 ++ [({ cmd := r, scope := sc, tk := s.me.tk, bar := (s.countBytes r).1, circ := s.stepOf s.core r } : F0Entry)] ∧
          { t with cores := s.cores, flocks := s.flocks, dgrps := s.dgrps } = s ∧
          (r.be = false → s.me.overs = [] → SameButCore s t) ∧
          (∀ i, t.gNow i = s.gNow i) ∧ (∀ i, t.pNow i = s.pNow i) ∧ more t)
    let regs := recordOf ((List.range 8).map fun k => s.rg (b + BitVec.ofNat 5 k))
    (s.me.f0.length < 32 →
      pushes (.pushReg gd sc b) regs (fun t => { t.me with f0 := s.me.f0, fifoTail := s.me.fifoTail, overs := s.me.overs } = s.me) ∧
      (∀ e rest, (s.me.getSq q).depth ≠ 0 → (s.me.getSq q).entries = e :: rest → e.data.length = 64 →
        pushes (.pushSq gd sc q) (recordOf ((List.range 8).map fun k => wordAt e.data k)) fun t =>
          (t.me.getSq q).entries = rest) ∧
      (∀ e rest, (s.me.getSq q).depth ≠ 0 → (s.me.getSq q).entries = e :: rest → e.data.length ≠ 64 →
        ∃ t, exec (.pushSq gd sc q) s = .next t ∧ TrapsAtWord s t 0x07 0 0)) ∧
    (32 ≤ s.me.f0.length → ∃ t, exec (.pushReg gd sc b) s = .next t ∧ t.verdict = .waits .queueFull) ∧
    (let takes := fun (f : BitVec 4) (ws : List W64) (left : Ctx → Prop) =>
       d.toNat + ws.length ≤ 32 →
       let at_ := fun (k : Nat) => d + BitVec.ofNat 5 k
       let got := fun (t : State) =>
         (∀ k, k < ws.length → t.gNow (at_ k) = if at_ k = 0 then 0 else ws.getD k 0) ∧
           (∀ i, (∀ k, k < ws.length → i ≠ at_ k) → t.gNow i = s.gNow i) ∧ left t.me ∧ SameButCore s t
       (∃ t, exec (.pop gd f d) s = .next t ∧ t.verdict = s.verdict ∧ got t ∧ ∀ i, t.pNow i = s.pNow i) ∧
         (∃ t, exec (.popTry gd f d pd) s = .next t ∧ t.verdict = s.verdict ∧ got t ∧ t.pNow pd = true ∧
           ∀ i, i ≠ pd → t.pNow i = s.pNow i)
     (∀ e rest, s.me.f1 = e :: rest → takes 1 [e.1, e.2] fun x => x.f1 = rest ∧ x.f2 = s.me.f2 ∧ x.f3 = s.me.f3) ∧
       (∀ e rest, s.me.f2 = e :: rest → takes 2 [e.1, e.2] fun x => x.f2 = rest ∧ x.f1 = s.me.f1 ∧ x.f3 = s.me.f3) ∧
       (∀ e rest, s.me.f3 = e :: rest → takes 3 ((List.range 4).map fun k => wordAt e k) fun x =>
         x.f3 = rest ∧ x.f1 = s.me.f1 ∧ x.f2 = s.me.f2)) ∧
    (let empty := fun (f : BitVec 4) =>
       (∃ t, exec (.pop gd f d) s = .next t ∧ t.verdict = .waits .queueEmpty) ∧
         (∃ t, exec (.popTry gd f d pd) s = .next t ∧ WroteP s t pd false)
     (s.me.f1 = [] → empty 1) ∧ (s.me.f2 = [] → empty 2) ∧ (s.me.f3 = [] → empty 3))

/-- RGX goes to its home as a numbered request with the entry expected and the new one, once the core's earlier accesses
have completed and its commit buffer is empty, and, where the region is on another panel, once the host ports have handed on what
they hold (R60, R216); before that it waits, and an address of 2^56 or more enters as one that has failed with 0x27. FENCE waits
until all of the core is visible, then completes, at system scope with the host ports drained (R217). TRIG makes the member's
trigger pending, once, and does not wait (R230). What RGX waits for is the model's choice of log entry 61, and that FENCE waits for
the same at every scope that of log entry 6. -/
def Obligations.RegionExchangeFenceAndTrigger : Prop :=
  ∀ (gd : Guard) (d a b : BitVec 5) (x n : BitVec 14) (sc : Scope) (s : State), guardOk gd s = true →
    let asks := fun (i : Instr) (old new : W32) =>
      (s.me.saccess = [] → s.me.commit = [] → s.me.unanswered.length < 64 → (s.rg a).toNat < 2 ^ 56 →
        ∃ t r y, exec i s = .next t ∧ t.verdict = s.verdict ∧ t.reqs = s.reqs ++ [r] ∧ r.sentBy s s.core (s.rg a) (.rgx old new) ∧
          t.me.saccess = [y] ∧ y.kind = .rgx d (s.rg a) old new ∧ y.status = .sent ∧
          t.me.seqno = s.me.seqno + 1 ∧ t.me.unanswered = s.me.unanswered ++ [s.me.seqno] ∧
          { t with cores := s.cores, reqs := s.reqs } =
            if panelOf (s.rg a).toNat = s.glob.domid.toNat then s else s.drainAll) ∧
      (s.me.saccess = [] → s.me.commit = [] → s.me.unanswered.length < 64 → 2 ^ 56 ≤ (s.rg a).toNat →
        ∃ t y, exec i s = .next t ∧ t.verdict = s.verdict ∧ t.me.saccess = [y] ∧ y.status = .fail 0x27 (s.rg a) ∧ t.reqs = s.reqs) ∧
      (s.me.saccess ≠ [] ∨ s.me.commit ≠ [] ∨ 64 ≤ s.me.unanswered.length →
        ∃ t, exec i s = .next t ∧ t.verdict = .waits .access)
    asks (.rgx gd d a b) ((s.rg b) >>> 32 |>.setWidth 32) ((s.rg b).setWidth 32) ∧
    asks (.rgxImm gd d a x n) (x ++ (0 : BitVec 18)) (n ++ (0 : BitVec 18)) ∧
    (s.quietCore s.core = true → (∃ t, exec (.fence gd sc) s = .next t ∧ t.verdict = s.verdict ∧
        t = if sc = .system then s.drainAll else s)) ∧
    (s.quietCore s.core = false → ∃ t, exec (.fence gd sc) s = .next t ∧ t.verdict = .waits .fence) ∧
    (∃ t, exec (.trig gd) s = .next t ∧ t.verdict = s.verdict ∧
      OnlyMe s t fun x => if x.triggered || x.trigPending then x else { x with trigPending := true, trigTk := x.tk })

/-- WAITA.nb reserves an entry of f2 for its request and goes on; WAITA reserves one and waits, and goes on once its record
has been written (R218); both wait while f2 has no room. The request leaves for its home under the next request number, once no
earlier access can still fault (R210, R219, R328). There it is answered with the wake record that the home's checks and the value give, or
arms a monitor and is answered with none (R219); the reply writes the wake record to f2, or leaves the wait armed. A monitor that
fired writes its wake record, with the value written or status 3, and is released (R220). -/
def Obligations.WaitsOnAddresses : Prop :=
  (∀ (gd : Guard) (a b : BitVec 5) (w : Wide) (s : State), guardOk gd s = true →
    let asks := fun (i : Instr) (at_ : W64) (nb : Bool) =>
      ((∀ w ∈ s.me.waits, w.nb = true) → s.me.f2.length + s.me.f2res < 16 →
        ∃ t, exec i s = .next t ∧ t.me.f2res = s.me.f2res + 1 ∧
          t.me.waits = s.me.waits ++ [({ addr := at_, exp := s.rg b, nb := nb, tk := s.me.tk } : WaitReq)] ∧
          t.verdict = (if nb then s.verdict else .waits .waita) ∧ { t with cores := s.cores, verdict := s.verdict } = s ∧
          (∀ i, t.gNow i = s.gNow i) ∧ ∀ c, c ≠ s.core → t.ctx c = s.ctx c) ∧
      (∀ y, s.me.waits.find? (fun w => !w.nb) = some y →
        (y.done = true → ∃ t, exec i s = .next t ∧ t.verdict = s.verdict ∧
          OnlyMe s t fun x => { x with waits := x.waits.filter fun w => w.nb }) ∧
        (y.done = false → ∃ t, exec i s = .next t ∧ t.verdict = .waits .waita)) ∧
      ((∀ w ∈ s.me.waits, w.nb = true) → 16 ≤ s.me.f2.length + s.me.f2res →
        ∃ t, exec i s = .next t ∧ t.verdict = .waits .queueFull)
    asks (.waita gd a b) (s.rg a) false ∧ asks (.waitaNb gd a b) (s.rg a) true ∧
      asks (.waitaOffset gd false a b w) (s.rg a + wideVal w) false ∧
      asks (.waitaOffset gd true a b w) (s.rg a + wideVal w) true) ∧
  (∀ (c : Nat) (w : WaitReq) (s : State),
    (s.ctx c).waits.find? (fun w => !w.sent && !w.armed && !w.done) = some w → (s.ctx c).unanswered.length < 64 →
    (∀ a ∈ (s.ctx c).saccess, w.tk < a.tk) →
    ∃ t r, exec (.monitorArm c) s = .next t ∧ t.reqs = s.reqs ++ [r] ∧ r.sentBy s c w.addr (.arm w.tk) ∧
      (t.ctx c).waits = (s.ctx c).waits.map (fun y => if y.tk = w.tk then { y with sent := true } else y) ∧
      (t.ctx c).seqno = (s.ctx c).seqno + 1 ∧ (t.ctx c).unanswered = (s.ctx c).unanswered ++ [(s.ctx c).seqno] ∧
      { t with cores := s.cores, reqs := s.reqs } = s) ∧
  (∀ (ix tk : Nat) (r : Request) (w : WaitReq) (s : State), s.Arrives ix r → r.op = .arm tk →
    (s.ctx r.core).waits.find? (fun w => w.tk == tk) = some w →
    let u := s.noteFloor (s.ingress r) r
    (∀ v st miss, u.armFind r.core w = .record v st miss →
      ∃ t, exec (.homeRequest ix) s = .next t ∧ t.mem = s.mem ∧ t.lm = s.lm ∧ t.cores = s.cores ∧
        t.reqs = s.reqs.set ix { r with stage := .answered 0 0 (wordLE v ++ [BitVec.ofNat 8 st, if miss then 1 else 0]) [] }) ∧
    (∀ tile mem pa, u.armFind r.core w = .arm tile mem pa →
      ∃ t m, exec (.homeRequest ix) s = .next t ∧ (t.tile tile).monitors = (s.tile tile).monitors ++ [m] ∧
        m.pa = pa ∧ m.mem = mem ∧ m.exp = w.exp ∧ m.va = w.addr ∧ m.tk = w.tk ∧ m.nb = w.nb ∧ m.fired = none ∧
        t.mem = s.mem ∧ t.lm = s.lm ∧ t.cores = s.cores ∧
        t.reqs = s.reqs.set ix { r with stage := .answered 0 0 [] [] })) ∧
  (∀ (ix tk : Nat) (r : Request) (w : WaitReq) (at_ : W64) (bs : List Byte) (locs : List Loc) (s : State), s.Returns ix r →
    r.op = .arm tk → r.stage = .answered 0 at_ bs locs → (s.ctx r.core).waits.find? (fun w => w.tk == tk) = some w →
    (bs = [] → ∃ t, exec (.remoteReply ix) s = .next t ∧ (t.ctx r.core).f2 = (s.ctx r.core).f2 ∧
      (t.ctx r.core).waits = (s.ctx r.core).waits.map fun y => if y.tk = tk then { y with armed := true } else y) ∧
    (bs ≠ [] → ∃ t, exec (.remoteReply ix) s = .next t ∧ (t.ctx r.core).f2res = (s.ctx r.core).f2res - 1 ∧
      (t.ctx r.core).f2 = (s.ctx r.core).f2 ++ [(wordAt bs 0, wakeWord w.addr (bs.getD 8 0).toNat)])) ∧
  (∀ (tile ix : Nat) (m : Monitor) (v : W64) (bad : Bool) (c : Nat) (x : Ctx) (s : State),
    (s.tile tile).monitors[ix]? = some m → m.fired = some (v, bad) → m.ext = false →
    s.wakePasses tile m.flock m.member = true →
    (s.cores.find? fun e => e.2.flock == some m.flock && e.2.member == m.member) = some (c, x) → s.ctx c = x →
    ∃ t, exec (.monitorWake tile ix) s = .next t ∧ (t.tile tile).monitors = (s.tile tile).monitors.eraseIdx ix ∧
      (t.ctx c).f2 = (s.ctx c).f2 ++ [if bad then (0, wakeWord m.va 3) else (v, wakeWord m.va 0)])

/-- Barriers (R223, R224, R228, R399): an arrival is counted at its issue and goes to the object, and one that is two phases
ahead raises 0x15; a wait with no arrival answers NOARR, one whose phase is complete answers its result, and any other waits;
BAR.ARWT arrives and waits, and does not arrive again when it goes on; the object counts an arrival once every earlier access,
host-bound write and sent byte of its core has gone; a phase completes once enough flocks have joined, every participant has
arrived or retired, one at least has arrived, and no byte is pending. -/
def Obligations.BarriersCountAndComplete : Prop :=
  (∀ (gd : Guard) (bar : BarOp) (d : BitVec 5) (s : State) (fl : Nat), guardOk gd s = true →
    s.me.flock = some fl → s.myFlock.allocated (barNo bar) = true →
    let i := s.barInst fl (s.myBar bar)
    let p := i.party s.myParty
    (p ∈ i.parties → p.issued ≠ i.c + 2 →
      ∃ t, exec (.barArrive gd bar) s = .next t ∧ t.verdict = s.verdict ∧
        ((t.barInst fl (s.myBar bar)).party s.myParty).issued = p.issued + 1 ∧
        t.me.arrivals = s.me.arrivals ++ [(s.myBar bar, s.me.tk)] ∧ t.mem = s.mem ∧ t.lm = s.lm) ∧
    (p.issued = i.c + 2 → ∃ t, exec (.barArrive gd bar) s = .next t ∧ TrapsAtWord s t 0x15 0 0) ∧
    (p.issued = p.w → ∃ t, exec (.barWait gd bar d) s = .next t ∧ WroteG s t d 2) ∧
    (p.issued ≠ p.w → p.issued ≤ i.c → ∃ t, exec (.barWait gd bar d) s = .next t ∧ t.verdict = s.verdict ∧
      t.gNow d = (if d = 0 then 0 else i.waitResult p.w p.issued) ∧ ∀ r, r ≠ d → t.gNow r = s.gNow r) ∧
    (p.issued ≠ p.w → i.c < p.issued → ∃ t, exec (.barWait gd bar d) s = .next t ∧ t.verdict = .waits .barrier) ∧
    (s.me.awp = true → s.me.awpBar.toNat = barNo bar → s.verdict = .ran → p.issued ≠ p.w → p.issued ≤ i.c →
      ∃ t, exec (.barArwt gd bar d) s = .next t ∧ t.verdict = .ran ∧ t.me.awp = false ∧
        t.gNow d = (if d = 0 then 0 else i.waitResult p.w p.issued)) ∧
    (s.me.awp = false → s.verdict = .ran → p ∈ i.parties → p.issued = i.c → p.w = p.issued →
      ∃ t, exec (.barArwt gd bar d) s = .next t ∧ t.verdict = .waits .barrier ∧ t.me.awp = true ∧
        t.me.awpBar = BitVec.ofNat 8 (barNo bar) ∧ t.me.arrivals = s.me.arrivals ++ [(s.myBar bar, s.me.tk)])) ∧
  (∀ (c key tk : Nat) (rest : List (Nat × Nat)) (s : State) (fl : Nat), (s.ctx c).flock = some fl →
    (s.ctx c).arrivals = (key, tk) :: rest → (∀ a ∈ (s.ctx c).saccess, tk < a.tk) → (∀ w ∈ (s.ctx c).commit, tk < w.tk) →
    (∀ b ∈ (s.ctx c).sends, tk < b.tk) → (∀ k ∈ s.circuits c, k.send = (s.ctx c).logical → k.inFlight = []) →
    ∃ t, exec (.barrierArrival c) s = .next t ∧ (t.ctx c).arrivals = rest ∧
      (∀ p ∈ (s.barInst fl key).parties, p.member = partyId fl (s.ctx c).member →
        { p with a := p.a + 1 } ∈ (t.barInst fl key).parties)) ∧
  (∀ (fl key : Nat) (s : State), let i := s.barInst fl key
    i.need ≤ i.joined → (∀ p ∈ i.parties, i.c < p.a ∨ p.gone = true) → (∃ p ∈ i.parties, i.c < p.a) → i.pend.getD 0 0 = 0 →
    ∃ t, exec (.barrierPhaseComplete fl key) s = .next t ∧ (t.barInst fl key).c = i.c + 1 ∧ (t.barInst fl key).parties = i.parties ∧
      t.mem = s.mem ∧ t.lm = s.lm)

/-- SEND puts an sq entry of its stated size on the live circuit of its handle, while the 4,096 bytes of the receiver's
buffer have room, and behind an access that can still fault keeps its bytes back; it waits for room, and SEND.try says in its
predicate whether it sent (R210, R232). Both raise 0x41 on a handle with no live circuit, 0x46 where the one on which a SEND has
waited was torn down, and 0x07 for an entry of another size (R232); 0x01 on a queue of declared depth 0 (R19). The oldest host-bound write leaves the commit buffer, and changes neither tile storage nor
local memory (R234). The addition to an STR's flag leaves for its home once the data is visible, and there the flag gets its 1,
and no other byte of tile storage changes (R213, R328). -/
def Obligations.SendsAndDrains : Prop :=
  (∀ (gd : Guard) (q : BitVec 3) (h : BitVec 6) (e : BitVec 5) (pd : BitVec 4) (s : State) (k : Circuit) (x : QEntry)
    (rest : List QEntry), guardOk gd s = true → (s.me.getSq q).depth ≠ 0 →
    s.outbound s.core h.toNat = some k → k.live = true → (∀ w, s.me.sendOn = some w → w.1 = h → w.2 = k.step) →
    (s.me.getSq q).entries = x :: rest → x.data.length = 8 * (e.toNat + 1) →
    let held := ((s.me.sends.filter fun b => b.h == h.toNat).map fun b => b.bs.length).sum
    let both := fun (sent : State → Prop) =>
      (∃ t, exec (.send gd q h e) s = .next t ∧ t.verdict = s.verdict ∧ (t.me.getSq q).entries = rest ∧ sent t) ∧
      (∃ t, exec (.sendTry gd q h e pd) s = .next t ∧ t.verdict = s.verdict ∧ (t.me.getSq q).entries = rest ∧ sent t ∧
        t.pNow pd = true)
    (k.rx.length + k.inFlight.length + held + x.data.length ≤ 4096 →
      (s.me.saccess = [] → s.me.sends = [] →
        both fun t => t.circuits s.core = (s.circuits s.core).map fun j =>
          if j.h == h.toNat && j.send == s.me.logical then { j with inFlight := j.inFlight ++ x.data } else j) ∧
      ((∃ a ∈ s.me.saccess, a.tk ≤ s.me.tk) →
        both fun t => ({ tk := s.me.tk, h := h.toNat, bs := x.data } : SentBytes) ∈ t.me.sends)) ∧
    (4096 < k.rx.length + k.inFlight.length + held + x.data.length →
      (∃ t, exec (.send gd q h e) s = .next t ∧ t.verdict = .waits .credit) ∧
      (∃ t, exec (.sendTry gd q h e pd) s = .next t ∧ WroteP s t pd false))) ∧
  (∀ (gd : Guard) (q : BitVec 3) (h : BitVec 6) (e : BitVec 5) (pd : BitVec 4) (s : State), guardOk gd s = true →
    let raises := fun (cause : Cause) => ∀ i ∈ [Instr.send gd q h e, .sendTry gd q h e pd],
      ∃ t, exec i s = .next t ∧ TrapsAtWord s t cause 0 0
    let waited := fun (step : Option Nat) =>
      ∃ w, s.me.sendOn = some w ∧ w.1 = h ∧ ∀ k, step = some k → w.2 ≠ k
    let found := s.outbound s.core h.toNat
    ((s.me.getSq q).depth = 0 → raises 0x01) ∧
    ((s.me.getSq q).depth ≠ 0 →
      (found = none → ¬waited none → raises 0x41) ∧ (found = none → waited none → raises 0x46) ∧
      ∀ k, found = some k → (waited (some k.step) → raises 0x46) ∧
        (¬waited (some k.step) →
          (k.live = false → raises 0x41) ∧
          (k.live = true →
            (∀ x rest, (s.me.getSq q).entries = x :: rest → x.data.length ≠ 8 * (e.toNat + 1) → raises 0x07) ∧
            ((s.me.getSq q).entries = [] → (∃ t, exec (.send gd q h e) s = .next t ∧ t.verdict = .waits .queueEmpty) ∧
              ∃ t, exec (.sendTry gd q h e pd) s = .next t ∧ WroteP s t pd false))))) ∧
  (∀ (c : Nat) (s : State) (w : HostWrite) (rest : List HostWrite), (s.ctx c).commit = w :: rest →
    (∀ f, w.flag = some f → ∃ port a x, f.loc = .host port a x) →
    ∃ t, exec (.commitBufferRelease c) s = .next t ∧ (t.ctx c).commit = rest ∧ t.mem = s.mem ∧ t.lm = s.lm) ∧
  (∀ (c : Nat) (s : State) (f : FlagAdd), (s.ctx c).flagAdds.find? (fun f => !f.sent) = some f →
    (∀ w ∈ (s.ctx c).commit, f.tk < w.tk) → (s.ctx c).unanswered.length < 64 →
    s.armBefore c f.tk f.loc 8 = false →
    ∃ t r, exec (.strFlagAdd c) s = .next t ∧ t.reqs = s.reqs ++ [r] ∧ r.sentBy s c f.addr (.strAdd f.tk) ∧
      (t.ctx c).flagAdds = (s.ctx c).flagAdds.map (fun g => if g.tk = f.tk then { g with sent := true } else g) ∧
      t.mem = s.mem ∧ t.lm = s.lm) ∧
  (∀ (ix tk tile off : Nat) (r : Request) (f : FlagAdd) (s : State), s.Arrives ix r → r.op = .strAdd tk →
    (s.ctx r.core).flagAdds.find? (fun f => f.tk == tk) = some f →
    (s.noteFloor (s.ingress r) r).flagPlace r.core f = some (.panel tile off) → s.poisonedLoc (.panel tile off) 8 = false →
    ∃ t, exec (.homeRequest ix) s = .next t ∧ t.lm = s.lm ∧
      t.reqs = s.reqs.set ix { r with stage := .answered 0 0 (wordLE (leWord (s.readLoc (.panel tile off) 8))) [] } ∧
      leWord (Memory.readN t.mem (s.panelKey tile off) 8) = leWord (s.readLoc (.panel tile off) 8) + 1 ∧
      ∀ a, (a < s.panelKey tile off ∨ s.panelKey tile off + 8 ≤ a) → Memory.read t.mem a = Memory.read s.mem a)

/-! ## The C stream: vectors -/

/-- The 2^w bits of an element's integer value, and back: the integer operations of R193 compute on the values of their
elements, exactly, and wrap the result into the element. Results are readable 2 slots on, products 4 (R180). -/
def Obligations.IntegerElementsCompute : Prop :=
  ∀ (gd : Guard) (d a b : BitVec 5) (ty : IntTy),
    let w := intBits ty
    let val := fun (x : Nat) => intVal ty x
    let two := fun (f : Int → Int → Int) (s : State) =>
      unchunks (intBytes ty) (List.zipWith (fun x y => (f (val x) (val y) % 2 ^ w).toNat) (s.elems ty a) (s.elems ty b))
    let test := fun (f : Int → Int → Bool) (s : State) =>
      unchunks (intBytes ty) (List.zipWith (fun x y => if f (val x) (val y) then 2 ^ w - 1 else 0) (s.elems ty a) (s.elems ty b))
    let each := fun (f : Nat → Nat) (s : State) => unchunks (intBytes ty) ((s.elems ty a).map f)
    GivesV (.vadd gd d a b ty) gd d 2 (two (· + ·)) ∧ GivesV (.vsub gd d a b ty) gd d 2 (two (· - ·)) ∧
    GivesV (.vmul gd d a b ty) gd d 4 (two (· * ·)) ∧
    GivesV (.vmulh gd d a b ty) gd d 4 (two fun x y => x * y / 2 ^ w) ∧
    GivesV (.vmad gd d a b ty) gd d 4 (fun s => unchunks (intBytes ty)
      (zipWith3 (fun x y z => ((val z + val x * val y) % 2 ^ w).toNat) (s.elems ty a) (s.elems ty b) (s.elems ty d))) ∧
    GivesV (.vmin gd d a b ty) gd d 2 (two min) ∧ GivesV (.vmax gd d a b ty) gd d 2 (two max) ∧
    GivesV (.vabs gd d a ty) gd d 2 (each fun x => (((val x).natAbs : Int) % 2 ^ w).toNat) ∧
    GivesV (.vpopc gd d a ty) gd d 2 (each fun x => (List.range w).countP fun i => x.testBit i) ∧
    GivesV (.vclz gd d a ty) gd d 2 (each fun x => w - (List.range w).foldl (fun n i => if x.testBit i then i + 1 else n) 0) ∧
    GivesV (.vcmpEq gd d a b ty) gd d 2 (test fun x y => x == y) ∧ GivesV (.vcmpNe gd d a b ty) gd d 2 (test fun x y => x != y) ∧
    GivesV (.vcmpLt gd d a b ty) gd d 2 (test fun x y => x < y) ∧ GivesV (.vcmpLe gd d a b ty) gd d 2 (test fun x y => x ≤ y)

/-- The bit operations take the 2,048 bits of their registers, and VLOP3 the bit of its truth table that the three bits
name (R194); a shift by the width or more gives 0, or the sign (R195); a funnel shift takes its upper or lower half, by an
amount modulo the width (R196); VSEL chooses by a mask that is not 0 (R197). -/
def Obligations.BitsShiftsAndSelections : Prop :=
  ∀ (gd : Guard) (d a b c : BitVec 5) (ty : IntTy) (k : BitVec 7) (k8 : BitVec 8),
    let w := intBits ty
    let two := fun (f : Nat → Nat → Nat) (s : State) => unchunks (intBytes ty) (List.zipWith f (s.elems ty a) (s.elems ty b))
    let three := fun (f : Nat → Nat → Nat → Nat) (s : State) =>
      unchunks (intBytes ty) (zipWith3 f (s.elems ty a) (s.elems ty b) (s.elems ty c))
    let bits := fun (f : BitVec 2048 → BitVec 2048 → BitVec 2048) (s : State) => natLE 256 (f (s.vBits a) (s.vBits b)).toNat
    GivesV (.vand gd d a b) gd d 1 (bits fun x y => x &&& y) ∧ GivesV (.vor gd d a b) gd d 1 (bits fun x y => x ||| y) ∧
    GivesV (.vxor gd d a b) gd d 1 (bits fun x y => x ^^^ y) ∧
    (∃ f : BitVec 2048 → BitVec 2048 → BitVec 2048 → BitVec 2048,
      (∀ x y z i, i < 2048 → (f x y z).getLsbD i =
        k8.getLsbD (4 * (x.getLsbD i).toNat + 2 * (y.getLsbD i).toNat + (z.getLsbD i).toNat)) ∧
      GivesV (.vlop3 gd d a b c k8) gd d 1 (fun s => natLE 256 (f (s.vBits a) (s.vBits b) (s.vBits c)).toNat)) ∧
    GivesV (.vshl gd d a b ty) gd d 2 (two fun x y => if y < w then x * 2 ^ y % 2 ^ w else 0) ∧
    GivesV (.vshr gd d a b ty) gd d 2 (two fun x y => if y < w then x / 2 ^ y else 0) ∧
    GivesV (.vsar gd d a b ty) gd d 2 (two fun x y => (signed w x / ((2 ^ min y (w - 1) : Nat) : Int) % ((2 ^ w : Nat) : Int)).toNat) ∧
    GivesV (.vfshl gd d a b (.imm k) ty) gd d 2 (two fun x y => (x * 2 ^ w + y) * 2 ^ (k.toNat % w) / 2 ^ w % 2 ^ w) ∧
    GivesV (.vfshr gd d a b (.imm k) ty) gd d 2 (two fun x y => (x * 2 ^ w + y) / 2 ^ (k.toNat % w) % 2 ^ w) ∧
    GivesV (.vfshl gd d a b (.reg c) ty) gd d 2 (three fun x y z => (x * 2 ^ w + y) * 2 ^ (z % w) / 2 ^ w % 2 ^ w) ∧
    GivesV (.vfshr gd d a b (.reg c) ty) gd d 2 (three fun x y z => (x * 2 ^ w + y) / 2 ^ (z % w) % 2 ^ w) ∧
    GivesV (.vsel gd d a b c ty) gd d 2 (three fun x y z => if z ≠ 0 then x else y)

/-- The lane operations (R200): VPERM takes element b_j mod n, VBCAST one value everywhere, VROTL turns the lanes, and
VCOMP packs the elements whose mask is not 0 and fills with zeros. -/
def Obligations.LanesMove : Prop :=
  ∀ (gd : Guard) (d a b c : BitVec 5) (ty : IntTy) (k : BitVec 8),
    let n := ty.lanes
    let out := fun (f : State → Nat → Nat) (s : State) => unchunks (intBytes ty) ((List.range n).map (f s))
    GivesV (.vperm gd d a b ty) gd d 3 (out fun s j => (s.elems ty a).getD ((s.elems ty b).getD j 0 % n) 0) ∧
    GivesV (.vbcast gd d a k ty) gd d 2 (out fun s _ => (s.elems ty a).getD k.toNat 0) ∧
    GivesV (.vbcastG gd d c ty) gd d 2 (out fun s _ => (s.rg c).toNat % 2 ^ intBits ty) ∧
    GivesV (.vrotl gd d a k ty) gd d 3 (out fun s j => (s.elems ty a).getD ((j + k.toNat) % n) 0) ∧
    GivesV (.vrotlG gd d a c ty) gd d 3 (out fun s j => (s.elems ty a).getD ((j + (s.rg c).toNat) % n) 0) ∧
    GivesV (.vcomp gd d a b ty) gd d 4 (out fun s j =>
      (((List.zip (s.elems ty a) (s.elems ty b)).filter fun e => e.2 != 0).map (·.1)).getD j 0)

/-- The floating-point operations compute on the values of their elements and round once to the nearest, ties to even
(R98 to R101, R198, R199); FABS and FNEG change the sign alone. Results are readable after the bounds of R180. Of FEXP2 and
FLOG2 the exact value is taken to a fixed number of working bits, and then rounded: the model's choice of log entry 13. -/
def Obligations.FloatElementsCompute : Prop :=
  ∀ (gd : Guard) (d a b : BitVec 5) (ty : FpTy),
    let dec := fun (x : Nat) => fdecode (fpFmt ty) x
    let enc := fun (v : FVal) => fencode (fpFmt ty) .rne v
    let one := fun (f : FVal → FVal) (s : State) => unchunks (fpBytes ty) ((s.felems ty a).map fun x => enc (f (dec x)))
    let two := fun (f : FVal → FVal → FVal) (s : State) =>
      unchunks (fpBytes ty) (List.zipWith (fun x y => enc (f (dec x) (dec y))) (s.felems ty a) (s.felems ty b))
    let test := fun (f : FVal → FVal → Bool) (s : State) => unchunks (fpBytes ty)
      (List.zipWith (fun x y => if f (dec x) (dec y) then 2 ^ (8 * fpBytes ty) - 1 else 0) (s.felems ty a) (s.felems ty b))
    GivesV (.fadd gd d a b ty) gd d 4 (two FVal.add) ∧ GivesV (.fsub gd d a b ty) gd d 4 (two fun x y => x.add y.flip) ∧
    GivesV (.fmul gd d a b ty) gd d 4 (two FVal.mul) ∧
    GivesV (.ffma gd d a b ty) gd d 4 (fun s => unchunks (fpBytes ty)
      (zipWith3 (fun x y z => enc (((dec x).mul (dec y)).add (dec z))) (s.felems ty a) (s.felems ty b) (s.felems ty d))) ∧
    GivesV (.fmin gd d a b ty) gd d 2 (two FVal.lower) ∧ GivesV (.fmax gd d a b ty) gd d 2 (two FVal.upper) ∧
    GivesV (.fabs gd d a ty) gd d 1 (one FVal.abs) ∧ GivesV (.fneg gd d a ty) gd d 1 (one FVal.flip) ∧
    GivesV (.fcmpEq gd d a b ty) gd d 2 (test FVal.eq) ∧ GivesV (.fcmpNe gd d a b ty) gd d 2 (test fun x y => !(x.eq y)) ∧
    GivesV (.fcmpLt gd d a b ty) gd d 2 (test FVal.lt) ∧ GivesV (.fcmpLe gd d a b ty) gd d 2 (test fun x y => x.lt y || x.eq y) ∧
    GivesV (.frcp gd d a ty) gd d 8 (one FVal.rcp) ∧ GivesV (.frsq gd d a ty) gd d 8 (one FVal.rsq) ∧
    GivesV (.fexp2 gd d a ty) gd d 10 (one FVal.exp2) ∧ GivesV (.flog2 gd d a ty) gd d 10 (one FVal.log2)

/-- Reductions write their result to the first bytes of vD and zeros to the rest (R201, R202): the value of the fixed tree of
R110, for VRED of its operation on the integer values, wrapped in the element, for FRED of its operation on FP32 values, each
rounded once, with the elements widened exactly. A masked reduction takes +0 for every element of a block whose bit is clear, runs
the same tree, and scales the sum by all positions over the valid ones: VREDM's value is the nearest integer, ties to even,
wrapped, and FREDM's is rounded once (R111); with every block lost it lands zeros and counts in LOSTCNT. -/
def Obligations.ReductionsGiveTheirValue : Prop :=
  ∀ (gd : Guard) (d a b : BitVec 5) (ty : IntTy) (op : RedOp) (ft : FpTy) (s : State),
    let first := fun (n : Nat) (v : Nat) => natLE n v ++ List.replicate (256 - n) 0
    let at_ := vOffset s.rd.viewV d
    let w := intBits ty
    let val := fun (x : Nat) => intVal ty x
    let wrapped := fun (x : Int) => (x % 2 ^ w).toNat
    let iop := fun (op : RedOp) (x y : Nat) => match op with
      | .add => wrapped (val x + val y)
      | .min => wrapped (min (val x) (val y))
      | .max => wrapped (max (val x) (val y))
      | .and => x &&& y
      | .or => x ||| y
      | .xor => x ^^^ y
    let f32 := fun (v : FVal) => fencode fmtFP32 .rne v
    let fop := fun (f : FVal → FVal → FVal) (x y : Nat) => f32 (f (fdecode fmtFP32 x) (fdecode fmtFP32 y))
    let levels := if fpBytes ft = 4 then 6 else 7
    let wide := fun (xs : List Nat) => xs.map fun x => f32 (fdecode (fpFmt ft) x)
    -- The elements with those of the lost blocks replaced by +0, the valid blocks, and the sums of what is left.
    let kept := fun (bytes : Nat) (xs : List Nat) =>
      (List.range xs.length).map fun i => if (s.rg b).getLsbD (i * bytes / 64) then xs.getD i 0 else 0
    let valid := (List.range 4).countP fun i => (s.rg b).getLsbD i
    let isum := treeLevel (iop .add) (kept (intBytes ty) (s.elems ty a)) ty.lanes.log2 0
    let fsum := treeLevel (fop FVal.add) (wide (kept (fpBytes ft) (s.felems ft a))) levels 0
    let fscaled := if valid = 4 then fsum else f32 ((fdecode fmtFP32 fsum).mul (.fin false 4 valid))
    let lost := s.updMe fun x => { x with lostcnt := BitVec.ofNat 32 (min (2 ^ 32 - 1) (x.lostcnt.toNat + 1)) }
    (∃ t, exec (.vred gd d a op ty) s = .next t ∧ Guarded gd s t
      (OnItsWay s t at_ (first (intBytes ty) (treeLevel (iop op) (s.elems ty a) ty.lanes.log2 0)) 6)) ∧
    (∀ f, (op = .add ∧ f = FVal.add ∨ op = .min ∧ f = FVal.lower ∨ op = .max ∧ f = FVal.upper) →
      ∃ t, exec (.fred gd d a op ft) s = .next t ∧ Guarded gd s t
        (OnItsWay s t at_ (first 4 (treeLevel (fop f) (wide (s.felems ft a)) levels 0)) 12)) ∧
    (valid ≠ 0 →
      (∃ t r, NearestEven (val isum * 4) valid r ∧ exec (.vredm gd d a b ty) s = .next t ∧ Guarded gd s t
        (OnItsWay s t at_ (first (intBytes ty) (wrapped r)) 8)) ∧
      (∃ t, exec (.fredm gd d a b ft) s = .next t ∧ Guarded gd s t (OnItsWay s t at_ (first 4 fscaled) 16))) ∧
    (valid = 0 →
      (∃ t, exec (.vredm gd d a b ty) s = .next t ∧ Guarded gd s t (OnItsWay lost t at_ (List.replicate 256 0) 8)) ∧
      (∃ t, exec (.fredm gd d a b ft) s = .next t ∧ Guarded gd s t (OnItsWay lost t at_ (List.replicate 256 0) 16)))

/-- QPOP takes the head entry of an lq, once no earlier access can still fault, into vD, the rest of its bytes zero, and changes
nothing else; it waits until then (R203). QPUT makes an entry of an sq from the first bytes of vB, and waits while it is full
(R204). Both raise 0x01 on a queue of declared depth 0 (R19). A result lands on its bytes of the operand file and on no other
(R130). -/
def Obligations.VectorQueuesAndLanding : Prop :=
  (∀ (gd : Guard) (d b n8 : BitVec 5) (q : BitVec 3) (s : State), guardOk gd s = true →
    let lq := s.me.getLq q
    let sq := s.me.getSq q
    (∀ e rest, lq.depth ≠ 0 → lq.entries = e :: rest → e.ready = true → (∀ x ∈ s.me.laccess, e.tk ≤ x.tk) →
      let u := s.updMe fun x => x.updLq q fun y => { y with entries := rest, head := y.head + 1 }
      ∃ t, exec (.qpop gd d q) s = .next t ∧ t.verdict = s.verdict ∧
        OnItsWay u t (vOffset s.rd.viewV d) (e.data ++ List.replicate (256 - e.data.length) 0) 2) ∧
    (lq.depth ≠ 0 →
      (∀ e rest, lq.entries = e :: rest → e.ready = false ∨ ∃ x ∈ s.me.laccess, x.tk < e.tk) →
      ∃ t, exec (.qpop gd d q) s = .next t ∧ t.verdict = .waits .queueEmpty) ∧
    (lq.depth = 0 → ∃ t, exec (.qpop gd d q) s = .next t ∧ TrapsAtWord s t 0x01 0 0) ∧
    (sq.entries.length + 1 ≤ sq.depth →
      ∃ t, exec (.qput gd n8 q b) s = .next t ∧ t.verdict = s.verdict ∧ SameButCore s t ∧ { t.me with sq := s.me.sq } = s.me ∧
        (∀ k, k ≠ q → t.me.getSq k = s.me.getSq k) ∧
        t.me.getSq q = { sq with
          entries := sq.entries ++ [{ data := (s.vRead b).take (8 * (n8.toNat + 1)), ready := true, tk := s.me.tk }]
          tail := sq.tail + 1 }) ∧
    (sq.depth ≠ 0 → sq.depth ≤ sq.entries.length → ∃ t, exec (.qput gd n8 q b) s = .next t ∧ t.verdict = .waits .queueFull) ∧
    (sq.depth = 0 → ∃ t, exec (.qput gd n8 q b) s = .next t ∧ TrapsAtWord s t 0x01 0 0)) ∧
  (∀ (c ix : Nat) (l : Landing) (s : State), (s.ctx c).landings[ix]? = some l → (l.cells.map (·.1)).Nodup →
    ∃ t, exec (.resultLanding c ix) s = .next t ∧ { t with cores := s.cores } = s ∧
      (∀ d, d ≠ c → t.ctx d = s.ctx d) ∧
      { t.ctx c with landings := (s.ctx c).landings, opfile := (s.ctx c).opfile } = s.ctx c ∧
      (t.ctx c).landings = (s.ctx c).landings.eraseIdx ix ∧
      (∀ e ∈ l.cells, Memory.read (t.ctx c).opfile e.1 = e.2) ∧
      (∀ o, o ∉ l.cells.map (·.1) → Memory.read (t.ctx c).opfile o = Memory.read (s.ctx c).opfile o))

/-- A READ BEFORE ITS BOUND IS UNSPECIFIED, AND AFTER IT IS THE RESULT (R130, R132, R291): in the words after a result was sent
its bytes read as a free value until the slot of its bound, from which on they read as the result, where no nest that has not
been waited for drains to them; a byte to which one drains reads as a free value. -/
def Obligations.ResultsAreReadAtTheirBound : Prop :=
  ∀ (s : State) (off : Nat) (bs : List Byte) (bound k i : Nat), i < bs.length → 1 ≤ bound → 1 ≤ k →
    s.me.landings = [] → s.focus = .stream s.core .c →
    (∀ o, s.me.mx.drains o = true → s.opByte o = Config.anyByte (s.freeIx o)) ∧
    let t := s.opWrite off bs bound
    let u := t.updMe fun x => ({ x with slot := x.slot + k } : Ctx).landDue (x.slot + k)
    ((∀ o, s.me.mx.drains o = false) →
    (k < bound → u.opByte (off + i) = Config.anyByte (u.freeIx (off + i))) ∧
    (bound ≤ k → u.opByte (off + i) = bs.getD i 0) ∧
    (∀ o, (o < off ∨ off + bs.length ≤ o) → u.opByte o = Memory.read s.me.opfile o))

/-! ## The quantiser and the matrix engine -/

/-- The quantiser under its guard, with the configuration as its word found it at issue (R120, R244, R251). QTRL writes the
trailer of its accumulator to bytes 0 to 31 of vD and leaves it empty (R251, R252); QSTAT appends the record of an identifier to
f3 and, with .clr, resets its counters, and waits while f3 is full (R257, R258). CVT and QMX raise 0x17 where the configuration
has no such conversion, and 0x11 where an element meets a trap (R240, R242 to R246). Else CVT writes to its side of vD, after 4 slots,
the element codes that the down-conversion gives in ascending order, the exact value where the target holds every value, and QMX
to its segments of vD and vD+1, after 6, those of each block over its scale, and the scales (R243 to R248). Stochastic rounding
alone moves SRSTATE, one step for an element (R96, R244, R248); the statistics and the accumulator change only with STE and TRE:
there the elements are counted, and the element bytes folded (R250, R256). QMX to an odd vD raises 0x01. -/
def Obligations.QuantiserWritesItsResults : Prop :=
  ∀ (gd : Guard) (d a : BitVec 5) (cf : BitVec 2) (part : BitVec 3) (tid : BitVec 6) (s : State), guardOk gd s = true →
    let q := s.rd.old.qcfg.toList.getD cf.toNat 0
    let src := cfgSfmt q
    let dst := cfgDfmt q
    let acc := s.me.acc.toList.getD cf.toNat {}
    (∃ t, exec (.qtrl gd d cf) s = .next t ∧ t.verdict = s.verdict ∧
      OnItsWay (s.updMe fun x => { x with acc := x.acc.set cf.toFin {} }) t (vOffset s.rd.viewV d)
        (natLE 4 acc.amax.toNat ++ natLE 4 acc.sat ++ natLE 4 (crcOut acc.crc).toNat ++ natLE 4 acc.bytes ++
          [BitVec.ofNat 8 dst, BitVec.ofNat 8 (cfgTid q), 0, 0] ++ List.replicate 11 0 ++ [1]) 2) ∧
    (s.me.f3.length < 16 →
      (∃ t, exec (.qstat gd tid) s = .next t ∧ SameButCore s t ∧ t.me.stats = s.me.stats ∧
        t.me.f3 = s.me.f3 ++ [statRecord (s.me.getStats tid.toNat) tid.toNat 0]) ∧
      (∃ t, exec (.qstatClr gd tid) s = .next t ∧ SameButCore s t ∧ t.me.getStats tid.toNat = {} ∧
        t.me.f3 = s.me.f3 ++ [statRecord (s.me.getStats tid.toNat) tid.toNat 0])) ∧
    (16 ≤ s.me.f3.length → (∃ t, exec (.qstat gd tid) s = .next t ∧ t.verdict = .waits .queueFull) ∧
      ∃ t, exec (.qstatClr gd tid) s = .next t ∧ t.verdict = .waits .queueFull) ∧
    (let sr := fun (j : Nat) => srNext^[j + 1] s.rd.old.srstate
     -- What a conversion leaves besides its bytes: `n` elements with these outcomes, and the bytes that are folded.
     let keeps := fun (u : State) (n : Nat) (steps : Bool) (code : Nat → Conv) (bs : List Byte) =>
       SameButCore s u ∧
         { u.me with srstate := s.me.srstate, stats := s.me.stats, acc := s.me.acc, busy := s.me.busy } = s.me ∧
         u.me.srstate = (if steps then sr (n - 1) else s.me.srstate) ∧
         (cfgSte q = false → u.me.stats = s.me.stats) ∧
         (cfgSte q = true → (∀ k, k < 64 → k ≠ cfgTid q → u.me.getStats k = s.me.getStats k) ∧
           let old := s.me.getStats (cfgTid q)
           let new := u.me.getStats (cfgTid q)
           let counts := fun (f : Conv → Bool) (m : Nat) => min (2 ^ 32 - 1) (m + (List.range n).countP fun j => f (code j))
           new.elems = min (2 ^ 64 - 1) (old.elems + n) ∧ new.sat = counts (·.sat) old.sat ∧
             new.flush = counts (·.flush) old.flush ∧ new.nan = counts (·.nan) old.nan) ∧
         (cfgTre q = false → u.me.acc = s.me.acc) ∧
         (cfgTre q = true → let new := u.me.acc.toList.getD cf.toNat {}
           new.crc = crcFold acc.crc bs ∧ new.bytes = min (2 ^ 32 - 1) (acc.bytes + bs.length) ∧
             ∀ k, k ≠ cf.toNat → u.me.acc.toList[k]? = s.me.acc.toList[k]?)
     let ws := fmtBits src
     let wd := fmtBits dst
     let mode := fun (j : Nat) => rmodeOf (cfgRm q) (if cfgRm q = 4 then sr j else s.rd.old.srstate)
     (let n := cvtCount ws wd
      let bS := n * ws / 8
      let bD := n * wd / 8
      let ok := cvtFmt src && cvtFmt dst && partOk bS bD part.toNat
      let exact_ := convExact (numFmt src) (numFmt dst)
      let xs := unpackElems ws (((s.vRead a).drop (if bS = 256 then 0 else part.toNat * bS)).take bS)
      let code := fun (j : Nat) =>
        let x := readNum (numFmt src) (xs.getD j 0)
        if exact_ then downConv (numFmt dst) .rne 0 x else downConv (numFmt dst) (mode j) (cfgOvp q) x
      let bs := packElems wd ((List.range n).map fun j => (code j).bits)
      (ok = false → ∃ t, exec (.cvt gd d a cf part) s = .next t ∧ TrapsAtWord s t 0x17 0 0) ∧
      (ok = true → (∃ j, j < n ∧ (code j).trap = true) →
        ∃ t, exec (.cvt gd d a cf part) s = .next t ∧ TrapsAtWord s t 0x11 0 0) ∧
      (ok = true → (∀ j, j < n → (code j).trap = false) →
        ∃ t u, exec (.cvt gd d a cf part) s = .next t ∧ t.verdict = s.verdict ∧
          keeps u n (cfgRm q == 4 && !exact_) code bs ∧
          OnItsWay u t (vOffset s.rd.viewV d + (if bD = 256 then 0 else part.toNat * bD)) bs 4)) ∧
     (d.toNat % 2 = 1 → ∃ t, exec (.qmx gd d a cf part) s = .next t ∧ TrapsAtWord s t 0x01 0 0) ∧
     (d.toNat % 2 = 0 →
      let n := 2048 / ws
      let blk := blockLen dst
      let bD := n * wd / 8
      let ok := (src == 0 || src == 2 || src == 3) && decide (0x11 ≤ dst ∧ dst ≤ 0x19) && partOk 256 bD part.toNat
      let xs := (unpackElems ws (s.vRead a)).map (readNum (numFmt src))
      let scale := fun (k : Nat) => blockScale dst ((xs.drop (blk * k)).take blk)
      let code := fun (j : Nat) => match scaleVal dst (scale (j / blk)) with
        | .fin _ num den => downConv (numFmt dst) (mode j) (cfgOvp q) ((xs.getD j .nan).divPos num (den * 2 ^ mxQ dst))
        | _ => { bits := 0, nan := true, trap := cfgOvp q == 3 }
      let bs := packElems wd ((List.range n).map fun j => (code j).bits)
      (ok = false → ∃ t, exec (.qmx gd d a cf part) s = .next t ∧ TrapsAtWord s t 0x17 0 0) ∧
      (ok = true → (∃ j, j < n ∧ (code j).trap = true) →
        ∃ t, exec (.qmx gd d a cf part) s = .next t ∧ TrapsAtWord s t 0x11 0 0) ∧
      (ok = true → (∀ j, j < n → (code j).trap = false) →
        ∃ t u v, exec (.qmx gd d a cf part) s = .next t ∧ t.verdict = s.verdict ∧ keeps u n (cfgRm q == 4) code bs ∧
          OnItsWay u v (vOffset s.rd.viewV d + part.toNat * bD) bs 6 ∧
          OnItsWay v t (vOffset s.rd.viewV (d + 1) + part.toNat * (n / blk))
            ((List.range (n / blk)).map fun k => BitVec.ofNat 8 (scale k)) 6)))

/-- The matrix instructions raise 0x01 in a flock with no matrix engine, whatever their guard (R280). Under it, those that
write the staging bank change it alone, and wait while a nest is pending; a base of 2^23 or more raises 0x63, and a view that is
absent 0x04 (R129, R270, R281 to R283). MXSWAP adds its grants, or raises 0x63 where they would pass 65,535; MXWAIT takes the
oldest result into two registers, answers NONE where no nest is outstanding, and else waits (R285, R287). -/
def Obligations.MatrixStagingAndWaits : Prop :=
  ∀ (gd : Guard) (a b d : BitVec 5) (role : BitVec 4) (kind : BitVec 2) (n gl : BitVec 3) (en gx : Bool) (k : BitVec 10)
    (s : State),
    (s.myFlock.mxe = 0 → ∀ i ∈ ([.mxsetHdr gd a, .mxsetLvl gd a, .mxbindG gd role b, .mxbindView gd role kind n, .mxgrp gd en gl gx,
        .mxgo gd, .mxwait gd d, .mxcommit gd, .mxcommitClr gd, .mxswap gd k] : List Instr),
      ∃ t, exec i s = .next t ∧ TrapsAtWord s t 0x01 0 0) ∧
    (s.myFlock.mxe ≠ 0 → guardOk gd s = true →
      let full := fun (i : Instr) => s.me.mx.pending ≠ none → ∃ t, exec i s = .next t ∧ t.verdict = .waits .queueFull
      let stages := fun (i : Instr) (ok : Prop) (f : Bank → Bank) =>
        (s.me.mx.pending = none → ok → ∃ t, exec i s = .next t ∧ t.verdict = s.verdict ∧ SameButCore s t ∧
          { t.me with mx := s.me.mx } = s.me ∧ t.me.mx.stagingBank = f s.me.mx.stagingBank ∧
          t.me.mx = s.me.mx.setStaging (f s.me.mx.stagingBank)) ∧ full i
      let v := if kind = 0 then s.rd.viewT.toList.getD n.toNat 0 else s.rd.viewA.toList.getD n.toNat 0
      stages (.mxsetHdr gd a) True (fun x =>
        { x with hdr := (chunks 8 (s.vRead a)).map (BitVec.ofNat 64), gen := false, gl := 0, gx := false }) ∧
      stages (.mxsetLvl gd a) True (fun x => { x with lvl := (chunks 4 (s.vRead a)).map (BitVec.ofNat 32) }) ∧
      stages (.mxbindG gd role b) ((s.rg b).toNat < 2 ^ 23) (fun x => { x with hdr := x.hdr.set (6 + role.toNat) (s.rg b) }) ∧
      (s.me.mx.pending = none → 2 ^ 23 ≤ (s.rg b).toNat → ∃ t, exec (.mxbindG gd role b) s = .next t ∧ TrapsAtWord s t 0x63 0 0) ∧
      stages (.mxbindView gd role kind n) (fld v 16 12 ≠ 0) (fun x =>
        { x with hdr := x.hdr.set (6 + role.toNat) (BitVec.ofNat 64 (2 ^ 63 + kind.toNat * 2 ^ 62 + n.toNat * 2 ^ 59)) }) ∧
      (s.me.mx.pending = none → fld v 16 12 = 0 →
        ∃ t, exec (.mxbindView gd role kind n) s = .next t ∧ TrapsAtWord s t 0x04 0 0) ∧
      stages (.mxgrp gd en gl gx) True (fun x => { x with gen := en, gl := gl, gx := gx }) ∧
      (k ≠ 0 → s.me.mx.grants + k.toNat ≤ 65535 → ∃ t, exec (.mxswap gd k) s = .next t ∧ t.verdict = s.verdict ∧
        OnlyMe s t fun x => { x with mx := { x.mx with grants := x.mx.grants + k.toNat } }) ∧
      (k ≠ 0 → 65535 < s.me.mx.grants + k.toNat → ∃ t, exec (.mxswap gd k) s = .next t ∧ TrapsAtWord s t 0x63 0 0) ∧
      (let gives := fun (t : State) (v w : W64) =>
         t.gNow d = (if d = 0 then 0 else v) ∧ t.gNow (d + 1) = w ∧ (∀ i, i ≠ d → i ≠ d + 1 → t.gNow i = s.gNow i) ∧
           SameButCore s t ∧ t.verdict = s.verdict
       (d ≠ 31 → s.me.mx.outst = 0 → ∃ t, exec (.mxwait gd d) s = .next t ∧ gives t 2 0) ∧
       (∀ r rest, d ≠ 31 → s.me.mx.outst ≠ 0 → s.me.mx.results = r :: rest →
         ∃ t, exec (.mxwait gd d) s = .next t ∧ gives t r.r0 r.r1 ∧ t.me.mx.results = rest ∧
           t.me.mx.outst = s.me.mx.outst - 1) ∧
       (d ≠ 31 → s.me.mx.outst ≠ 0 → s.me.mx.results = [] → ∃ t, exec (.mxwait gd d) s = .next t ∧ t.verdict = .waits .mxwait)))

/-- A nest from its hand-over to its result (R266, R270, R274, R277, R284, R286, R288 to R290). With no nest pending and fewer
than eight not waited for, a staging bank that the checks pass becomes the pending nest, and starts at once where none runs; else
the first failing cause is raised. A pending nest starts once none runs. A swap waits for all that the nest follows and, where SWM
is 1, takes a grant; the weights that it has read are active. A pass leaves its landing tile and goes on to the next pass or to the
drain, or holds the tile; one that cannot read what it needs ends the nest with its cause. A drain writes its tile and goes on; a
nest that has ended leaves its result. That OUTST and NGO count at the hand-over is the model's choice (log 75, DESIGN CHOICE), and
so is that MXCOMMIT.clr discards a held tile of any ACCF (log 76, DESIGN CHOICE). -/
def Obligations.NestsRunToTheirResult : Prop :=
  (∀ (gd : Guard) (s : State), s.myFlock.mxe ≠ 0 → guardOk gd s = true → s.me.mx.pending = none → s.me.mx.outst < 8 →
    let hands := fun (i : Instr) (commit : Option Bool) =>
      ∃ t ne, exec i s = .next t ∧ t.verdict = s.verdict ∧ SameButCore s t ∧ { t.me with mx := s.me.mx } = s.me ∧
        t.me.mx.outst = s.me.mx.outst + 1 ∧ t.me.mx.ngo = s.me.mx.ngo + 1 ∧ ne.bank = s.me.mx.stagingBank ∧ ne.commit = commit ∧
        ne.num = s.me.mx.ngo ∧
        (if s.me.mx.running = none then t.me.mx.running.map (·.num) = some ne.num ∧ t.me.mx.pending = none
          else t.me.mx.pending = some ne ∧ t.me.mx.running = s.me.mx.running)
    let bank := s.me.mx.stagingBank
    let check := bank.check s.myFlock s.rd.viewT.toList s.rd.viewA.toList
    let checkCommit := bank.checkCommit s.rd.viewT.toList s.rd.viewA.toList
    (check = none → hands (.mxgo gd) none) ∧
    (∀ cause, check = some cause → ∃ t, exec (.mxgo gd) s = .next t ∧ TrapsAtWord s t cause 0 0) ∧
    (checkCommit = none → hands (.mxcommit gd) (some false) ∧ hands (.mxcommitClr gd) (some true)) ∧
    (∀ cause, checkCommit = some cause → (∃ t, exec (.mxcommit gd) s = .next t ∧ TrapsAtWord s t cause 0 0) ∧
      ∃ t, exec (.mxcommitClr gd) s = .next t ∧ TrapsAtWord s t cause 0 0)) ∧
  (∀ (c : Nat) (s : State) (ne : Nest),
    let mx := fun (t : State) => (t.ctx c).mx
    let ends := fun (t : State) (e : NestErr) =>
      (mx t).running = some { ne with stage := .ended, cause := e.cause, sub := e.sub, row := e.row, role := e.role } ∧
        (mx t).land = none
    ((s.ctx c).mxCut = false → (mx s).running = none → (mx s).pending = some ne →
      ∃ t, exec (.nestStart c) s = .next t ∧ (mx t).pending = none ∧ (mx t).running.map (·.num) = some ne.num ∧
        { t with cores := s.cores } = s) ∧
    (∀ w tile, (s.ctx c).mxCut = false → s.nestAt c .swap = some ne → (s.ctx c).nestClear ne = true →
      (ne.bank.swm = true → (mx s).grants ≠ 0) → s.readWeights c ne (mx s).shadow = .ok w → s.passStart c ne = .ok tile →
      ∃ t, exec (.weightSwap c) s = .next t ∧ (mx t).running = some { ne with stage := .pass } ∧ (mx t).active = w ∧
        (mx t).grants = (mx s).grants - (if ne.bank.swm then 1 else 0) ∧ { t with cores := s.cores } = s) ∧
    (s.nestAt c .pass = some ne →
      (∀ e, s.runPass c ne = .error e → ∃ t, exec (.nestPass c) s = .next t ∧ ends t e) ∧
      ∀ tile, s.runPass c ne = .ok tile →
        ∃ t, exec (.nestPass c) s = .next t ∧ { t with cores := s.cores } = s ∧
          (ne.endsRun = false → (mx t).land = some tile ∧ (mx t).running = some ne.advance) ∧
          (ne.endsRun = true → ne.bank.hold = true → (mx t).held = some tile ∧ (mx t).running = some ne.advance) ∧
          (ne.endsRun = true → ne.bank.hold = false →
            (mx t).land = some tile ∧ (mx t).running = some { ne with stage := .drain })) ∧
    (∀ tile, s.nestAt c .drain = some ne →
      (ne.commit = none → (mx s).land = some tile →
        (∀ u, s.drainTile c ne tile = (u, none) → ∃ t, exec (.nestDrain c) s = .next t ∧ (mx t).land = none ∧
          (mx t).running = some ne.advance ∧ t.mem = u.mem ∧ t.lm = u.lm) ∧
        (∀ u e, s.drainTile c ne tile = (u, some e) → ∃ t, exec (.nestDrain c) s = .next t ∧ ends t e)) ∧
      (ne.commit = some true → (s.ctx c).nestClear ne = true → (mx s).held = some tile →
        ∃ t, exec (.nestDrain c) s = .next t ∧ (mx t).held = none ∧ (mx t).running = some { ne with stage := .ended } ∧
          t.mem = s.mem ∧ t.lm = s.lm) ∧
      (∀ u, ne.commit = some false → (s.ctx c).nestClear ne = true → (mx s).held = some tile → tile.accf = ne.bank.accf →
        s.drainTile c ne tile = (u, none) → ∃ t, exec (.nestDrain c) s = .next t ∧ (mx t).held = none ∧
          (mx t).running = some { ne with stage := .ended } ∧ t.mem = u.mem ∧ t.lm = u.lm)) ∧
    (s.nestAt c .ended = some ne →
      ∃ t, exec (.nestComplete c) s = .next t ∧ (mx t).running = none ∧
        (mx t).results = (mx s).results ++ [ne.result] ∧ { t with cores := s.cores } = s))

/-! ## The copy engine -/

/-- Starting a command that the engine of a core, or of a front end, has taken from f0 (R300, R302, R307, R328). One that
the checks refuse, with 0x2F where its opcode is reserved, ends at once with their status and sends nothing. One that they
admit and that stays within the core's own local memory is started, and sends nothing. Any other is started, and goes to its
homes under the next request number of its source. In each case the command is the last of the started ones and, where it is
to leave a record, reserves its place in f1; nothing else of any core changes, nor anything else of the machine but what the
host ports hold and host memory, which the command's scope, or its ORD bit, may cause to be handed on. -/
def Obligations.CommandsStart : Prop :=
  ∀ (c : Nat) (e : F0Entry) (r : CmdRecord) (i : Instr) (s : State), s.focus = .engine c e →
    i ∈ ([.copy r, .copy2 r, .copy3 r, .put r, .putf r, .get r, .accw r, .fill r, .mcast r, .prefAdapt r, .signal r,
      .aowAdd r, .aowMin r, .aowMax r, .aowAnd r, .aowOr r, .aowXor r, .aowSwap r, .cas r, .flagadd r,
      .reservedCommand r] : List Instr) →
    let status := s.startCheck c { e with cmd := r } r
    let fresh : Started :=
      { tk := e.tk, cmd := r, scope := e.scope, bar := e.bar, startedAt := s.now, circ := e.circ, recAt := e.recAt
        queue := e.queue }
    let stays := r.localOnly = true ∧ r.hv = false
    let res := if r.records then (s.ctx c).f1res + 1 else (s.ctx c).f1res
    (opcKnown r.opc = false → status = 0x2F) ∧
    (status ≠ 0 → ∃ t, exec i s = .next t ∧ (∀ d, d ≠ c → t.ctx d = s.ctx d) ∧
      t.ctx c = { s.ctx c with
        f1res := res, started := (s.ctx c).started ++ [{ fresh with stage := .ended, status := status }] } ∧
      { t with cores := s.cores, ports := s.ports, hostMem := s.hostMem, hostPoison := s.hostPoison } = s) ∧
    (status = 0 → stays → ∃ t, exec i s = .next t ∧ (∀ d, d ≠ c → t.ctx d = s.ctx d) ∧
      t.ctx c = { s.ctx c with f1res := res, started := (s.ctx c).started ++ [fresh] } ∧
      { t with cores := s.cores, ports := s.ports, hostMem := s.hostMem, hostPoison := s.hostPoison } = s) ∧
    (status = 0 → ¬stays → ∃ t q, exec i s = .next t ∧ (∀ d, d ≠ c → t.ctx d = s.ctx d) ∧
      t.ctx c = { s.ctx c with
        f1res := res, started := (s.ctx c).started ++ [fresh], seqno := (s.ctx c).seqno + 1
        unanswered := (s.ctx c).unanswered ++ [(s.ctx c).seqno] } ∧
      t.reqs = s.reqs ++ [q] ∧ q.sentBy s c (if r.dl then r.w2 else r.w1) (.command e.tk) ∧
      { t with cores := s.cores, reqs := s.reqs, ports := s.ports, hostMem := s.hostMem, hostPoison := s.hostPoison } = s)

/-- A started COPY or FILL within the core's own local memory, of which no piece has gone ahead and no flit been lost,
between ranges that do not overlap: it ends with status 0 and the number of bytes as its value (R304), every byte of the
destination is the source's, or the pattern's byte by its address (R311, R313), and no other byte of any local memory, and no
byte of panel storage, changes. -/
def Obligations.LocalTransfersMoveTheirBytes : Prop :=
  ∀ (c tk : Nat) (u : Started) (s : State), (s.ctx c).startedAt tk = some u → u.stage = .running → u.value = 0 →
    u.todo = none → u.bad = [] → u.cmd.hv = false → u.cmd.dl = true →
    let r := u.cmd
    let limit := (s.flock ((s.ctx c).flock.getD 0)).lmb
    r.w1.toNat + r.len ≤ limit →
    let moves := fun (v : Nat → Byte) =>
      ∃ t w, t = s.localTransfer c tk ∧ (t.ctx c).startedAt tk = some w ∧ w.status = 0 ∧ w.stage = .ended ∧
        w.value = BitVec.ofNat 64 r.len ∧
        (∀ k, k < r.len → Memory.read t.lm (lmKey c (r.w1.toNat + k)) = v k) ∧
        (∀ a, (a < lmKey c r.w1.toNat ∨ lmKey c r.w1.toNat + r.len ≤ a) → Memory.read t.lm a = Memory.read s.lm a) ∧
        t.mem = s.mem
    (r.opc = 0x01 → r.sl = true → r.inl = false → r.w2.toNat + r.len ≤ limit →
      (r.w1.toNat + r.len ≤ r.w2.toNat ∨ r.w2.toNat + r.len ≤ r.w1.toNat) →
      moves fun k => Memory.read s.lm (lmKey c (r.w2.toNat + k))) ∧
    (r.opc = 0x08 → moves fun k => (wordLE r.w4).getD ((r.w1.toNat + k) % 8) 0)

/-- A command that has ended leaves the started ones of its core: its completion record enters f1, at the place reserved for
it, where it is to leave one, else a failure sets FCAUSE if that is 0 (R304, R305, R308); a COPY packet's goes to the packet's
address, unless that write is to be tried again (R390). After its data, a PUTF sends the addition to its flag, a numbered
request, whose home adds 1 and changes no other byte (R312, R328). SIGNAL and the commands on one element, at a home that
admits them, write their new element, where they have one, over the old, answer with the old, and change no other byte of storage (R316, R319 to
R321). A penumbra transfer at its deadline, or whose circuit has been torn down, sends its settlement, a numbered request
(R325, R328): its blocks lost are those named and those whose flits have not arrived, or, behind an earlier command of its
handle, or on a circuit without a wavelength, all that it has not delivered. Its home counts the blocks lost, and answers with the
bytes of the others (R304, R325). Which blocks are lost is the model's choice (log 53, DESIGN CHOICE), and so is the way in which a
record of a front end is tried again at retry-after and dropped at another failure (logs 32 and 66). -/
def Obligations.CommandsComplete : Prop :=
  (∀ (c tk : Nat) (s : State) (u : Started), (s.ctx c).startedAt tk = some u → u.stage = .ended → c < frontCore →
    ∃ t, exec (.commandComplete c tk) s = .next t ∧
      (t.ctx c).started = (s.ctx c).started.filter (fun w => w.tk != tk) ∧
      (u.cmd.records = true →
        (t.ctx c).f1 = (s.ctx c).f1 ++
          [(u.value, completionWord u.cmd u.cnt (if u.late s.now then u.flags ||| 1 else u.flags) u.status)] ∧
        (t.ctx c).f1res = (s.ctx c).f1res - 1) ∧
      (u.cmd.records = false → (t.ctx c).f1 = (s.ctx c).f1 ∧ (t.ctx c).fcause =
        if u.status ≠ 0 ∧ (s.ctx c).fcause = 0 then u.status else (s.ctx c).fcause) ∧
      (t.ctx c).l.g = (s.ctx c).l.g ∧ (t.ctx c).c.g = (s.ctx c).c.g ∧ (t.ctx c).s.g = (s.ctx c).s.g ∧
      t.mem = s.mem ∧ t.lm = s.lm ∧ ∀ d, d ≠ c → t.ctx d = s.ctx d) ∧
  (∀ (c tk : Nat) (s : State) (u : Started), (s.ctx c).startedAt tk = some u → u.stage = .ended → frontCore ≤ c →
    let v := if !u.cmd.dl ∧ panelOf u.cmd.w1.toNat = 0xFF then s.drainAll else s
    let v := if u.status = 0 then v.hint c u.cmd else v
    let w := v.feWrite (v.partOf c) u.recAt (wordLE u.value ++
      wordLE (completionWord u.cmd u.cnt (if u.late s.now then u.flags ||| 1 else u.flags) u.status))
    (u.recAt = 0 ∨ w.2 ≠ .again) →
    ∃ t, exec (.commandComplete c tk) s = .next t ∧
      (t.ctx c).started = (s.ctx c).started.filter (fun w => w.tk != tk) ∧
      t.mem = (if u.recAt = 0 then v else w.1).mem ∧ t.hostMem = (if u.recAt = 0 then v else w.1).hostMem) ∧
  (∀ (c tk : Nat) (s : State) (u : Started), (s.ctx c).startedAt tk = some u → u.stage = .flag →
    (s.ctx c).handleBusy u = false → (s.ctx c).unanswered.length < 64 →
    ∃ t q, exec (.putfFlagAdd c tk) s = .next t ∧ (t.ctx c).startedAt tk = some { u with stage := .flagSent } ∧
      t.reqs = s.reqs ++ [q] ∧ q.sentBy s c u.cmd.flag (.putfAdd tk) ∧ t.mem = s.mem ∧ t.lm = s.lm) ∧
  (∀ (ix tk tile off : Nat) (s : State) (r : Request) (u : Started), s.Arrives ix r → r.op = .putfAdd tk →
    (s.ctx r.core).startedAt tk = some u →
    let v := s.noteFloor (s.ingress r) r
    v.homeFlag (v.asker r.core) u.cmd.flag = .done 0 0 [] [.panel tile off] →
    v.poisonedLoc (.panel tile off) 8 = false →
    ∃ t, exec (.homeRequest ix) s = .next t ∧
      t.reqs = s.reqs.set ix { r with stage := .answered 0 0 (wordLE u.value) [] } ∧
      leWord (Memory.readN t.mem (s.panelKey tile off) 8) = leWord (Memory.readN s.mem (s.panelKey tile off) 8) + 1 ∧
      (∀ a, (a < s.panelKey tile off ∨ s.panelKey tile off + 8 ≤ a) → Memory.read t.mem a = Memory.read s.mem a) ∧
      t.lm = s.lm) ∧
  (∀ (ix tk tile off : Nat) (tlb : Option TlbEntry) (s : State) (r : Request) (u : Started), s.Arrives ix r →
    r.op = .command tk → (s.ctx r.core).startedAt tk = some u → u.cmd.hv = false → u.cmd.cls = false →
    (isAtomic u.cmd.opc = true ∨ u.cmd.opc = 0x0B) →
    let n := u.cmd.elemBytes
    let v := (s.noteFloor (s.ingress r) r).dropNear r.core u.cmd.linesWritten
    let v := if u.cmd.opc = 0x0B then v.visibleAt ((scopeOf u.cmd.fscope).getD .quad) else v
    v.homeCheck (v.asker r.core) .atomic u.cmd.w1.toNat n = .ok (.panel tile off) tlb →
    v.poisonedLoc (.panel tile off) n = false →
    let k := s.panelKey tile off
    let old := leNat (Memory.readN s.mem k n)
    ∃ t, exec (.homeRequest ix) s = .next t ∧
      t.reqs = s.reqs.set ix { r with stage := .answered 0 0 (wordLE (BitVec.ofNat 64 old)) [] } ∧
      Memory.readN t.mem k n = (match u.cmd.newElem old with | some e => natLE n e | none => Memory.readN s.mem k n) ∧
      (∀ a, (a < k ∨ k + n ≤ a) → Memory.read t.mem a = Memory.read s.mem a) ∧ t.lm = s.lm) ∧
  (∀ (c tk : Nat) (gone : List Nat) (s : State) (u : Started), (s.ctx c).startedAt tk = some u → u.stage = .penumbra →
    (s.ctx c).unanswered.length < 64 →
    (u.startedAt + u.cmd.win ≤ s.now ∨ s.ownCircuit c u.cmd.h u.circ = none) →
    ∃ t q lost, exec (.penumbraSettle c tk gone) s = .next t ∧ (t.ctx c).startedAt tk = some { u with stage := .settling } ∧
      t.reqs = s.reqs ++ [q] ∧ q.sentBy s c u.cmd.w1 (.settle tk lost) ∧ t.mem = s.mem ∧ t.lm = s.lm ∧
      let all := u.blocks.map (·.ix)
      (∀ k, s.ownCircuit c u.cmd.h u.circ = some k → s.circuitMap k ≠ [] → (s.ctx c).handleBusy u = false →
        lost = gone ++ all.filter (s.inFlit c u)) ∧
      (s.ownCircuit c u.cmd.h u.circ = none ∨ (∃ k, s.ownCircuit c u.cmd.h u.circ = some k ∧ s.circuitMap k = []) ∨
        (s.ctx c).handleBusy u = true → lost = all)) ∧
  (∀ (ix tk : Nat) (gone : List Nat) (s : State) (r : Request) (u : Started), s.Arrives ix r → r.op = .settle tk gone →
    (s.ctx r.core).startedAt tk = some u →
    let v := s.noteFloor (s.ingress r) r
    let lost := (u.blocks.filter fun b => b.bad || gone.contains b.ix).map (·.ix)
    let value := BitVec.ofNat 64 (64 * (u.nblocks - lost.length))
    ∀ w k x cnt flags, v.settleAt r.core u gone = .done w k x cnt flags →
      ∃ t, exec (.homeRequest ix) s = .next t ∧
        t.reqs = s.reqs.set ix { r with stage := .answered k 0 (wordLE value) [] } ∧
        (t.ctx r.core).startedAt tk = some { u with
          blocks := [], lost := lost, status := k, value := value, cnt := min 65535 lost.length
          flags := u.flags ||| (if lost = [] then 0 else 2) })

/-! ## Requests, errors and events of a core -/

/-- A request at its home and at its source (R328 to R330, R367). A load of the L stream, once no earlier load has still to
read one of its pieces, is answered with its bytes, its cause, or retry-after, and changes no byte of storage; a numbered
request below its source's FLOOR is dropped; one whose reply is held is answered with that reply, and is not performed again.
A reply to a number that is still open closes it, and gives a command its answer; a reply to a number that is closed is
dropped. A refused request after its delay, and one unanswered for 20 µs, is sent again under the same number; after eight
sends the number is closed and its command given 0x47. That a request unanswered for 20 µs is sent again although its reply is
under way, which is then lost, is the model's choice (log 51, DEDUCED). -/
def Obligations.RequestsAreAnsweredOnce : Prop :=
  ∀ (ix : Nat) (s : State) (r : Request), s.reqs[ix]? = some r →
    let tile := s.ingress r
    let keeps := fun (t : State) => t.mem = s.mem ∧ t.lm = s.lm ∧ t.hostMem = s.hostMem
    let own := (∀ op, r.op ≠ .foreign op) ∧ ∀ fl step word, r.op ≠ .drvSettle fl step word
    let answered := fun (t : State) (k : Cause) (next : CmdRecord → CmdStage) =>
      ∀ tk, r.op = .command tk → ∀ u, (s.ctx r.core).startedAt tk = some u → u.stage = .running →
        (t.ctx r.core).startedAt tk = some { u with stage := next u.cmd, status := k }
    (∀ n, r.stage = .travelling → s.joined r false = true → r.op = .load n → r.lstream = true → s.loadTurn r = true →
      let stage : ReqStage :=
        match s.homeRead (s.asker r.core) .load r.addr.toNat n with
        | .ok bs => .answered 0 0 (patch r.got false r.addr.toNat bs) []
        | .error k =>
          if k = retryCode then .refused (s.now + 64 * (s.tile tile).migDly.toNat) else .answered k r.addr [] []
      ∃ t, exec (.homeRequest ix) s = .next t ∧ keeps t ∧ t.reqs = s.reqs.set ix { r with stage := stage }) ∧
    (r.stage = .travelling → s.joined r false = true → r.lstream = false → mhas (s.tile tile).floors r.source = true →
      seqBefore r.num (mget 0 (s.tile tile).floors r.source) = true →
      ∃ t, exec (.homeRequest ix) s = .next t ∧ t = { s with reqs := s.reqs.eraseIdx ix }) ∧
    (∀ y, r.stage = .travelling → s.joined r false = true → r.lstream = false →
      (mhas (s.tile tile).floors r.source = true →
        seqBefore r.num (mget 0 (s.tile tile).floors r.source) = false) →
      (s.noteFloor tile r).savedReply tile r = some y →
      ∃ t, exec (.homeRequest ix) s = .next t ∧ keeps t ∧ t.cores = s.cores ∧ t.ports = s.ports ∧ t.parts = s.parts ∧
        t.reqs = s.reqs.set ix { r with stage := .answered y.cause y.at_ y.bs y.locs }) ∧
    (∀ k at_ bs locs, r.stage = .answered k at_ bs locs → s.joined r true = true → r.lstream = false → own →
      ∃ t, exec (.remoteReply ix) s = .next t ∧ keeps t ∧ t.reqs = s.reqs.eraseIdx ix ∧
        (r.num ∉ (s.ctx r.core).unanswered → t = { s with reqs := s.reqs.eraseIdx ix }) ∧
        (r.num ∈ (s.ctx r.core).unanswered →
          (t.ctx r.core).unanswered = (s.ctx r.core).unanswered.filter (fun n => n != r.num) ∧
          answered t k fun cmd => nextStage cmd k)) ∧
    (∀ u, r.stage = .refused u → u ≤ s.now →
      (r.sends < 8 → ∃ t, exec (.retryAfterResend ix) s = .next t ∧
        t = { s with reqs := s.reqs.set ix { r with sends := r.sends + 1, sentAt := s.now, stage := .travelling } }) ∧
      (8 ≤ r.sends → own → r.lstream = false → ∃ t, exec (.retryAfterResend ix) s = .next t ∧ keeps t ∧ t.reqs = s.reqs.eraseIdx ix ∧
        (t.ctx r.core).unanswered = (s.ctx r.core).unanswered.filter (fun n => n != r.num) ∧
        answered t 0x47 fun _ => .ended)) ∧
    ((∀ op, r.op ≠ .foreign op) → r.lstream = false → (∀ u, r.stage ≠ .refused u) → r.sentAt + 20000 ≤ s.now →
      (r.sends < 8 → ∃ t, exec (.requestTimeoutResend ix) s = .next t ∧
        t = { s with reqs := s.reqs.set ix { r with sends := r.sends + 1, sentAt := s.now, stage := .travelling } }) ∧
      (8 ≤ r.sends → own → ∃ t, exec (.requestTimeoutResend ix) s = .next t ∧ keeps t ∧ t.reqs = s.reqs.eraseIdx ix ∧
        (t.ctx r.core).unanswered = (s.ctx r.core).unanswered.filter (fun n => n != r.num) ∧
        answered t 0x47 fun _ => .ended))

/-- What happens to a core from outside its words. An uncorrectable error poisons its sector of tile storage, of a local
memory or of the host, and changes no byte (R78). A core whose three streams wait on its own queues, on sections or on a swap
grant, with nothing outstanding or with the copy engine waiting for an entry of f1, stands at 0x13 of its C stream after 1 µs
(R21, R306). A replay is counted, for its core and its tile, and beside those counts only a request
already sent may be sent again (R233, R430, R432): what a replay leaves of a bundle is the model's choice (log 26, DEDUCED). Streams that all
hold at one record, with the conditions of a switch, go on in the variant of the level, and the switch is counted; streams
that hold go on where they are, and the miss is counted, where a condition fails or 2 µs have passed since the first hold
(R428). A trigger, once all that it covers is visible, reaches the front end (R33). -/
def Obligations.CoreEventsHappen : Prop :=
  (∀ (tile off core a : Nat) (s : State),
    let poisons := fun (loc : MemLoc) (at_ : Loc) =>
      ∃ t, exec (.uncorrectableError loc) s = .next t ∧ t.mem = s.mem ∧ t.lm = s.lm ∧ t.hostMem = s.hostMem ∧
        t.cores = s.cores ∧ t.poisonedLoc at_ 1 = true
    (tile < 64 → off < 2 ^ 42 → poisons (.panel tile off) (.panel tile off)) ∧
    (core < 4096 → off < 2 ^ 23 → poisons (.lm core off) (.lm core off)) ∧
    poisons (.host a) (.host 0 a false)) ∧
  (∀ (c : Nat) (s : State), (s.ctx c).flock.isSome = true → (s.ctx c).trap = none → (s.ctx c).preempt = false →
    (s.nothingOut c = true ∨ (s.ctx c).engineStalled = true) → (s.ctx c).waitSince + 1000 ≤ s.now →
    (∀ w ∈ [(s.ctx c).l.wait, (s.ctx c).c.wait, (s.ctx c).s.wait],
      w = some .queueEmpty ∨ w = some .queueFull ∨ w = some .sectionDep ∨
        (w = some .mxwait ∧ (s.ctx c).mx.wantsGrant = true)) →
    let trap : TrapInfo := { cause := 0x13, stream := .c, code := 0, addr := 0, seq := (s.ctx c).c.seq, syl := (s.ctx c).c.pc }
    ∃ t, exec (.streamDeadlock c) s = .next t ∧ { t with cores := s.cores } = s ∧ (∀ d, d ≠ c → t.ctx d = s.ctx d) ∧
      t.ctx c = { s.ctx c with trap := some trap }) ∧
  (∀ (c : Nat) (s : State), ∃ t, exec (.bundleReplay c) s = .next t ∧
    { t with replays := s.replays, life := s.life, reqs := s.reqs } = s ∧
    mget 0 t.replays c = min (2 ^ 32 - 1) (mget 0 s.replays c + 1) ∧
    mget 0 t.life.replays (c / 64) = min (2 ^ 64 - 1) (mget 0 s.life.replays (c / 64) + 1) ∧
    { t.life with replays := s.life.replays } = s.life ∧ ∀ q ∈ t.reqs, q ∈ s.reqs) ∧
  (∀ (c n : Nat) (recs : List (List Byte)) (s u : State), (s.ctx c).allHold n = true → (s.ctx c).switchClear = true →
    (s.ctx c).heldInTime = true → s.variantTable c = .ok (recs, u) →
    ∃ t, exec (.variantSwitch c) s = .next t ∧ (t.ctx c).l.hold = none ∧ (t.ctx c).c.hold = none ∧ (t.ctx c).s.hold = none ∧
      (t.ctx c).l.pc = variantOffset (recs.getD n []) .l (u.powerLevel c) ∧
      (t.ctx c).c.pc = variantOffset (recs.getD n []) .c (u.powerLevel c) ∧
      (t.ctx c).s.pc = variantOffset (recs.getD n []) .s (u.powerLevel c) ∧ (t.ctx c).varRec = BitVec.ofNat 8 n ∧
      (t.ctx c).varSwitches = min 65535 ((u.ctx c).varSwitches + 1)) ∧
  (∀ (c : Nat) (s : State), (s.ctx c).preempt = false → (s.ctx c).trap = none → (s.ctx c).someHold = true →
    (((∃ n, (s.ctx c).allHold n = true) ∧ ((s.ctx c).switchClear = false ∨ (s.ctx c).heldInTime = false)) ∨
      ((∀ n, (s.ctx c).allHold n = false) ∧ (s.ctx c).holdSince + 2000 ≤ s.now)) →
    ∃ t, exec (.variantSwitchMiss c) s = .next t ∧ (t.ctx c).someHold = false ∧ (t.ctx c).l.pc = (s.ctx c).l.pc ∧
      (t.ctx c).c.pc = (s.ctx c).c.pc ∧ (t.ctx c).s.pc = (s.ctx c).s.pc ∧
      (t.ctx c).varMiss = min 65535 ((s.ctx c).varMiss + 1) ∧ { t with cores := s.cores } = s) ∧
  (∀ (c fl : Nat) (s : State), (s.ctx c).flock = some fl → (s.ctx c).trigPending = true → s.trigClear c = true →
    ∃ t, exec (.triggerArrive c) s = .next t ∧ (s.ctx c).member ∈ (t.flock fl).trigMembers ∧ (t.ctx c).triggered = true ∧
      (t.ctx c).trigPending = false ∧ t.mem = s.mem ∧ t.lm = s.lm)

/-! ## Port ends and wavelengths -/

/-- A receive end whose circuit has a usable map takes the next flit that its peer has sent, or at an edge port one of another panel
(R338, R339, R368), put together from the units of the wavelengths over which the dealing rule gives them (R337). The flit that it
expects is delivered with its bytes; one that comes before an earlier one is held; one
whose codewords cannot be corrected, or whose CHECK disagrees, is refused by its number, which a NACK names, and delivers
nothing; a skip lets the flits after it pass. A transmit end whose circuit has a usable map answers a NACK of a reliable flit, which
passes back to it, by sending the flit again, the ninth time marked poisoned, and that of a penumbra flit with a skip. -/
def Obligations.FlitsAreDeliveredInOrder : Prop :=
  ∀ (e : PortEnd) (f : Flit) (n : BitVec 16) (s : State), e.port < 14 → s.dealMap e ≠ [] →
    let p := s.portEnd e
    let good := f.uncorrectable = false ∧ f.checkOk = true
    let comes := (12 ≤ e.port ∧ n = f.lseq ∧ (f.pen = false ∨ f.uncorrectable = true)) ∨
      (e.port < 12 ∧ ∃ r bs lanes rest, s.peerEnd e = some r ∧
        (s.portEnd r).outbox = .data n bs f.poisoned lanes :: rest ∧ (good → f.bytes = bs) ∧
        (f.uncorrectable = true ∨ lanes = s.expected e))
    let skips := e.port < 12 ∧ ∃ r rest, s.peerEnd e = some r ∧
      (s.portEnd r).outbox = .skip n (s.expected e) :: rest
    let nacked := 12 ≤ e.port ∨ ∃ r, s.peerEnd e = some r ∧ n ∈ (s.portEnd r).nackOut ∧ s.nackPasses r e = true
    let lanes := dealUnits (s.dealMap e) p.deal 8
    (e.tx = false → f.skip = none → comes →
      (good → f.type ≠ 0 → f.type ≠ 5 → p.heldFlits = [] →
        (f.lseq = p.rxSeq → ∃ t, exec (.flitReceive e f) s = .next t ∧ (t.portEnd e).rxSeq = p.rxSeq + 1 ∧
          (t.portEnd e).heldFlits = [] ∧
          (t.portEnd e).delivered = p.delivered ++ [(f.bytes, if f.pen then false else f.poisoned)] ∧
          (f.pen = false → f.poisoned = false → t.cores = s.cores ∧ t.mem = s.mem ∧ t.reqs = s.reqs)) ∧
        (f.lseq ≠ p.rxSeq → (f.lseq - p.rxSeq).toNat < 2 ^ 15 → f.pen = false →
          ∃ t, exec (.flitReceive e f) s = .next t ∧ (t.portEnd e).rxSeq = p.rxSeq ∧
            (t.portEnd e).heldFlits = [(f.lseq, some (f.bytes, f.poisoned))] ∧ (t.portEnd e).delivered = p.delivered)) ∧
      (¬good → (12 ≤ e.port → f.pen = false) → ∃ t, exec (.flitReceive e f) s = .next t ∧ (t.portEnd e).rxSeq = p.rxSeq ∧
        (t.portEnd e).delivered = p.delivered ∧ n ∈ (t.portEnd e).nacks ∧ n ∈ (t.portEnd e).nackOut ∧
        t.cores = s.cores ∧ t.mem = s.mem ∧ t.reqs = s.reqs)) ∧
    (e.tx = false → f.skip = some n → skips → good → p.heldFlits = [] → n = p.rxSeq →
      ∃ t, exec (.flitReceive e f) s = .next t ∧ (t.portEnd e).rxSeq = p.rxSeq + 1 ∧
        (t.portEnd e).delivered = p.delivered) ∧
    (e.tx = true → nacked →
      (∀ x, (∀ y ∈ p.penSent, y.lseq ≠ n) → p.replay.find? (fun y => y.lseq == n) = some x → x.sends ≤ 8 →
        ∃ t, exec (.nackReceive e n) s = .next t ∧
          (t.portEnd e).outbox = p.outbox ++ [.data n x.bytes (x.sends == 8) lanes] ∧
          (t.portEnd e).replay = p.replay.map (fun y => if y.lseq == n then { y with sends := y.sends + 1 } else y)) ∧
      ((∃ y ∈ p.penSent, y.lseq = n) →
        ∃ t, exec (.nackReceive e n) s = .next t ∧ (t.portEnd e).outbox = p.outbox ++ [.skip n lanes]))

/-- The wavelengths of a port end (R357 to R361, R365). A full counting window ends with its counts at 0, and a wavelength
over its threshold crosses it, unless fewer than MINW wavelengths would be left. One that has crossed is handed back: it is
counted, leaves the transmit end's map, and with no flit under way the receive end's too. Training with light locks; without
a lock for 64 µs the view excludes the wavelength. Views that agree put it in use, at a receive end once no flit is under way,
or fail it where it is excluded; views that differ are counted, and make it retrain, or after the third attempt fail where the
port was trained before, a view excludes it or the speeds differ, and else put it in use; a failure routes 0x44. A lost ring takes it
out of use at both ends, and routes 0x42; a lost laser line takes it out of use at the transmit ends of the row, and routes 0x43 to the
partitions there; a restored line makes the wavelengths retrain that its loss took out, and no other of its row; RTRY makes the
failed ones retrain; CLR clears the counters. That agreed views which exclude a wavelength fail it with 0x44, and which
wavelengths fail after the third attempt, is the model's choice (log 28, DEDUCED). -/
def Obligations.WavelengthsLeaveAndReturn : Prop :=
  ∀ (e : PortEnd) (k row : BitVec 3) (peer : LaneView) (s : State), e.port < 14 →
    let p := s.portEnd e
    let w := p.lane k.toNat
    let after := fun (t : State) => (t.portEnd e).lane k.toNat
    let routed := fun (t : State) (cause : Cause) =>
      ∀ n, (s.tile e.tile).part = some n → ∃ x ∈ (t.part n).faults, x.cause = cause
    let left := (p.map.filter fun j => j != k.toNat && !(p.lane j).crossed).length
    let ready := fun (q : PortSt) => ∀ j ∈ p.group k.toNat, (q.lane j).state ≠ .retrain
    (e.tx = false →
      (2 ^ 24 ≤ w.symbols → ∃ t, exec (.fecWindowEnd e k) s = .next t ∧ (after t).window = 0 ∧ (after t).uncWindow = 0 ∧
        (after t).met = false ∧ (after t).symbols = w.symbols - 2 ^ 24 ∧ (after t).state = w.state ∧
        (w.up = true → w.met = false → (p.cthr.toNat < w.window ∨ 2 ≤ w.uncWindow) →
          (p.minw.toNat ≤ left → (after t).crossed = true) ∧
          (left < p.minw.toNat → (after t).crossed = w.crossed ∧ (after t).crossings = w.crossings + 1))) ∧
      (w.crossed = true → w.up = true → ∃ t, exec (.handBack e k) s = .next t ∧ (after t).hb = min 65535 (w.hb + 1) ∧
        (s.peerEnd e = none → (after t).state = .retrain) ∧
        ∀ r, s.peerEnd e = some r → r.port < 14 → ((t.portEnd r).lane k.toNat).up = false ∧
          ((s.portEnd r).outbox = [] → (after t).state = .retrain))) ∧
    (w.state = .retrain → s.dark e k = false →
      ∃ t, exec (.retrainLock e k) s = .next t ∧ (w.viaMesh = false → (after t).state = .exchange) ∧
        (w.viaMesh = true → (e.tx = true ∨ ∀ r, s.peerEnd e = some r → (s.portEnd r).outbox = []) →
          (after t).state = .active)) ∧
    (w.state = .retrain → w.since + 64000 ≤ s.now →
      ∃ t, exec (.retrainTimeout e k) s = .next t ∧ (after t).state = .exchange ∧ (after t).excluded = true) ∧
    (w.state = .exchange → ready p →
      (∀ r, s.peerEnd e = some r → r.port < 14 ∧ ready (s.portEnd r) ∧ (s.portEnd r).view.lanes = peer.lanes ∧
        ((s.portEnd r).lane k.toNat).state = .exchange) →
      (p.view = peer →
        (w.excluded = false → (e.tx = true ∨ ∀ r, s.peerEnd e = some r → (s.portEnd r).outbox = []) →
          ∃ t, exec (.viewExchange e k peer) s = .next t ∧ (after t).state = .active) ∧
        (w.excluded = true →
          ∃ t, exec (.viewExchange e k peer) s = .next t ∧ (after t).state = .failed ∧ routed t 0x44)) ∧
      (p.view ≠ peer → ∃ t, exec (.viewExchange e k peer) s = .next t ∧ (after t).agf = min 65535 (w.agf + 1) ∧
        (w.attempts < 2 → (after t).state = .retrain ∧ (after t).attempts = w.attempts + 1) ∧
        (2 ≤ w.attempts → (p.trained = true ∨ w.excluded = true ∨ bit peer.lanes k.toNat = false ∨
          p.half ≠ peer.half) →
          (after t).state = .failed ∧ routed t 0x44) ∧
        (2 ≤ w.attempts → p.trained = false → w.excluded = false → bit peer.lanes k.toNat = true →
          p.half = peer.half → (after t).state = .active))) ∧
    (∃ t, exec (.ringTuningLost e k) s = .next t ∧ (after t).up = false ∧
      (∀ r, s.peerEnd e = some r → r.port < 14 → ((t.portEnd r).lane k.toNat).up = false) ∧ routed t 0x42) ∧
    ((row, k) ∉ s.lines → ∃ t, exec (.laserLineLost row k) s = .next t ∧ (row, k) ∈ t.lines ∧
      (∀ x p, x < 8 → p < 14 →
        ((t.portEnd { tile := 8 * row.toNat + x, port := p, tx := true }).lane k.toNat).up = false) ∧
      ∀ x n, x < 8 → (s.tile (8 * row.toNat + x)).part = some n → ∃ f ∈ (t.part n).faults, f.cause = 0x43) ∧
    (∃ t, exec (.laserLineRestored row k) s = .next t ∧ (row, k) ∉ t.lines ∧
      ∀ x p, x < 8 → p < 14 → let d : PortEnd := { tile := 8 * row.toNat + x, port := p, tx := true }
        let v := (s.portEnd d).lane k.toNat
        (v.lineLost = true → v.state ∈ [WlState.retrain, .exchange, .failed] → ((t.portEnd d).lane k.toNat).state = .retrain) ∧
        (v.lineLost = false → (t.portEnd d).lane k.toNat = v)) ∧
    (∃ t, exec (.portRetrain e) s = .next t ∧ ∀ b j, j < 8 → ((s.portEnd { e with tx := b }).lane j).state = .failed →
      ((t.portEnd { e with tx := b }).lane j).state = .retrain) ∧
    (∃ t, exec (.portCounterClear e) s = .next t ∧ (t.portEnd { e with tx := false }).resent = 0 ∧
      (t.portEnd { e with tx := false }).poisoned = 0 ∧
      ∀ j, j < 8 → let v := (t.portEnd { e with tx := false }).lane j
        v.corr = 0 ∧ v.hb = 0 ∧ v.agf = 0 ∧ v.unc = 0 ∧ v.rtns = 0)

/-! ## The drover -/

/-- A circuit word of a block that has room adds what it says to the block at work, and the next word follows, over the loops'
bodies (R344 to R351). A halt has the sub-code of R353: 0x03 for a TEAR or HOLD of no circuit, 0x04 for a word beyond the
64th of its block, for another kind of word in a block that an ENDC ends, and for an ENDC beside one, 0x07 for a CONNECT or
QUERY of what is not there, 0x05 for a loop or jump that its nesting forbids, 0x01 for a reserved form. -/
def Obligations.CircuitWordsFillTheirBlock : Prop :=
  ∀ (n : Nat) (s : State), s.focus = .drover n →
    let d := (s.part n).drover
    let then_ := fun (i : Instr) (plain : Bool) (f : Block → Block) (cond : Bool) =>
      ∃ t, exec i s = .next t ∧
        (t.part n).drover =
          { d with cur := f { d.cur with words := d.cur.words + 1, other := d.cur.other || !plain }, cond := cond,
                   loops := (afterWord d.loops d.pc).1, pc := (afterWord d.loops d.pc).2 } ∧
        { t with parts := s.parts } = s ∧ ∀ m, m ≠ n → t.part m = s.part m
    let goes := fun (i : Instr) (pc : Nat) (loops : List (Nat × Nat × Nat)) =>
      ∃ t, exec i s = .next t ∧ (t.part n).drover =
        { d with cur := { d.cur with words := d.cur.words + 1, other := true }, pc := pc, loops := loops } ∧
        { t with parts := s.parts } = s
    let halts := fun (i : Instr) (sub : Byte) =>
      ∃ t, exec i s = .next t ∧ (t.part n).drover.halted = true ∧ (t.part n).drover.decoding = false ∧
        { t with parts := s.parts } = s ∧ ∃ x ∈ (t.part n).faults, x.cause = 0x4F ∧ x.bytes.getD 1 0 = sub
    (∀ (v : W32) (h tile rep : BitVec 6) (all : Bool) (k : BitVec 10) (addr : BitVec 56) (src dst : BitVec 12)
      (sp dp : BitVec 3) (kind c : BitVec 2) (minw : BitVec 4) (count : BitVec 20) (body off : BitVec 16),
      let others : List Instr :=
        [.settle addr, .connect h src dst sp dp rep, .query h tile kind minw, .loopc count body, .jumpc c off]
      (64 ≤ d.cur.words → ∀ i ∈ [.mark v, .tear h tile all, .hold h tile all k, .endc] ++ others, halts i 4) ∧
      (d.cur.endc = true → ∀ i ∈ others, halts i 4)) ∧
    (d.cur.words < 64 →
      (∀ v, then_ (.mark v) true (fun b => { b with mark := some v }) d.cond) ∧
      (∀ (h tile : BitVec 6) (all : Bool) (k : BitVec 10),
        (d.named h.toNat tile.toNat all ≠ [] →
          then_ (.tear h tile all) true (fun b => { b with tears := b.tears ++ d.named h.toNat tile.toNat all }) d.cond ∧
          then_ (.hold h tile all k) true (fun b =>
            { b with holds := b.holds ++ (d.named h.toNat tile.toNat all).map fun e => (e.1, e.2, k.toNat) }) d.cond) ∧
        (d.named h.toNat tile.toNat all = [] → halts (.tear h tile all) 3 ∧ halts (.hold h tile all k) 3)) ∧
      (d.cur.other = false → then_ .endc true (fun b => { b with endc := true }) d.cond) ∧
      (d.cur.other = true → halts .endc 4) ∧
      (d.cur.endc = false →
        (∀ addr, then_ (.settle addr) false (fun b => { b with settles := b.settles ++ [(addr, d.pc)] }) d.cond) ∧
        (∀ (h : BitVec 6) (src dst : BitVec 12) (sp dp : BitVec 3) (rep : BitVec 6),
          (∀ cs, s.replicas n h.toNat src.toNat dst.toNat sp.toNat dp.toNat rep.toNat d.curNo d.pc = some cs →
            then_ (.connect h src dst sp dp rep) false (fun b => { b with connects := b.connects ++ cs }) d.cond) ∧
          (s.replicas n h.toNat src.toNat dst.toNat sp.toNat dp.toNat rep.toNat d.curNo d.pc = none →
            halts (.connect h src dst sp dp rep) 7)) ∧
        (∀ (h tile : BitVec 6) (kind : BitVec 2) (minw : BitVec 4),
          (tile.toNat < (s.part n).tiles →
            then_ (.query h tile kind minw) false id
              (match s.queryMap n h.toNat tile.toNat kind.toNat with
                | some m => decide (minw.toNat ≤ m.length)
                | none => false)) ∧
          ((s.part n).tiles ≤ tile.toNat → halts (.query h tile kind minw) 7)) ∧
        (∀ (count : BitVec 20) (body : BitVec 16),
          let last := d.pc + body.toNat
          (body = 0 → halts (.loopc count body) 1) ∧
          (body ≠ 0 → (count = 0 ∨ 4 ≤ d.loops.length ∨ ∃ a b m rest, d.loops = (a, b, m) :: rest ∧ b < last) →
            halts (.loopc count body) 5) ∧
          (body ≠ 0 → count ≠ 0 → d.loops.length < 4 → (∀ a b m rest, d.loops = (a, b, m) :: rest → last ≤ b) →
            goes (.loopc count body) (d.pc + 1) ((d.pc + 1, last, count.toNat) :: d.loops))) ∧
        (∀ (c : BitVec 2) (off : BitVec 16), (c = 0 ∨ (c = 1 ∧ d.cond = true) ∨ (c = 2 ∧ d.cond = false)) →
          let dest := (d.pc : Int) + off.toInt
          let there := 0 ≤ dest ∧ dest < d.prog.length
          (¬there → halts (.jumpc c off) 5) ∧
          (there → d.loops = [] → goes (.jumpc c off) dest.toNat []) ∧
          (there → ∀ a b m rest, d.loops = (a, b, m) :: rest →
            ((a : Int) ≤ dest → dest ≤ b → goes (.jumpc c off) dest.toNat d.loops) ∧
            ((dest < a ∨ (b : Int) < dest) → dest = b + 1 → goes (.jumpc c off) dest.toNat rest) ∧
            ((dest < a ∨ (b : Int) < dest) → dest ≠ b + 1 → halts (.jumpc c off) 5))) ∧
        (∀ off : BitVec 16, d.cond = false → then_ (.jumpc 1 off) false id d.cond) ∧
        (∀ off : BitVec 16, d.cond = true → then_ (.jumpc 2 off) false id d.cond) ∧
        (∀ off : BitVec 16, halts (.jumpc 3 off) 1)))

/-- STEP closes the block at work (R342, R347, R353): where its circuits have what they need, the block is ready, and the next
one begins at the barrier that the STEP names, or, where that is not an allocated panel barrier, the program halts with 0x06;
where a circuit needs what another holds, it halts with 0x02; after ENDC decoding is over. A step that is due begins once: its
number and time, its barrier's completion, its MARK, its new circuits, not yet live, and those that it does not tear down
(R343, R351). A new circuit whose map was taken, at 22 ns at the earliest, becomes live, or dead with an empty map (R334,
R343). That 0x02 is found when the block is whole, at its STEP, is the model's choice (log 29, DEDUCED). -/
def Obligations.CircuitStepsBegin : Prop :=
  (∀ (n : Nat) (bar : BitVec 8) (s : State), s.focus = .drover n →
    let d := (s.part n).drover
    let held := d.plan.map fun k => k.held d.curNo d.cur.holds
    let due := (held.filter fun k => k.tearAt == some d.curNo).map fun k => (k.sendTile, k.h)
    let tears := (due ++ d.cur.tears).dedup
    let plan := addCircuits (held.filter fun k => !tears.contains (k.sendTile, k.h)) d.cur.connects
    let named := bar.toNat / 32 = 3 ∧ (s.flock (d.owner.getD 0)).allocated bar.toNat = true
    let closed := fun (t : State) => exec (.step bar) s = .next t ∧
      (t.part n).drover.ready = d.ready ++ [{ d.cur with tears := tears }] ∧ (t.part n).drover.curNo = d.curNo + 1 ∧
      { t with parts := s.parts } = s
    let halts := fun (t : State) (sub : Byte) => (t.part n).drover.halted = true ∧ (t.part n).drover.decoding = false ∧
      ∃ x ∈ (t.part n).faults, x.cause = 0x4F ∧ x.bytes.getD 1 0 = sub
    (∀ w, plan = .error w → ∃ t, exec (.step bar) s = .next t ∧ halts t 2 ∧ (t.part n).drover.ready = d.ready) ∧
    (∀ ks, plan = .ok ks → d.cur.endc = false → d.halted = false →
      (named → ∃ t, closed t ∧ (t.part n).drover.cur = { bar := some bar.toNat } ∧ (t.part n).drover.plan = ks ∧
        (t.part n).drover.decoding = true) ∧
      (¬named → ∃ t, closed t ∧ halts t 6)) ∧
    (∀ ks, plan = .ok ks → d.cur.endc = true → ∃ t, closed t ∧ (t.part n).drover.plan = [] ∧
      (t.part n).drover.decoding = false)) ∧
  (∀ (n : Nat) (b : Block) (rest : List Block) (s : State), (s.part n).drover.ready = b :: rest → s.stepDue n b = true →
    let d := (s.part n).drover
    let no := match d.step with
      | none => 0
      | some k => k + 1
    ∃ t, exec (.droverStep n) s = .next t ∧ (t.part n).drover.ready = rest ∧ (t.part n).drover.step = some no ∧
      (t.part n).drover.stepAt = s.now ∧ (t.part n).markVal = b.mark.getD (s.part n).markVal ∧
      (b.mark.isSome = true → (t.part n).markStep = BitVec.ofNat 32 no) ∧
      (∀ bar, b.bar = some bar → mget 0 (t.part n).drover.used bar = mget 0 d.used bar + 1) ∧
      (∀ k ∈ b.connects, ∃ q ∈ (t.part n).drover.circuits, q.h = k.h ∧ q.send = k.send ∧ q.recv = k.recv ∧ q.sp = k.sp ∧
        q.dp = k.dp ∧ q.settled = false ∧ q.live = false ∧ q.step = no ∧ q.since = s.now) ∧
      (∀ q ∈ d.circuits, b.endc = false → b.tears.contains (fld q.send 6 6, q.h) = false →
        q ∈ (t.part n).drover.circuits) ∧
      ∀ q ∈ (t.part n).drover.circuits,
        (q ∈ d.circuits ∧ b.endc = false ∧ b.tears.contains (fld q.send 6 6, q.h) = false) ∨
          (q.step = no ∧ q.since = s.now)) ∧
  (∀ (n ix : Nat) (k : Circuit) (s : State), (s.part n).drover.circuits[ix]? = some k → k.settled = false →
    k.since + 22 ≤ s.now →
    ∃ t, exec (.circuitLive n ix) s = .next t ∧
      (t.part n).drover.circuits = (s.part n).drover.circuits.set ix
        { k with settled := true, live := !(k.map.getD (s.circuitMap k)).isEmpty })

/-! ## The front end -/

/-- A packet at the head of its queue (R384 to R397, R408). A reserved type stops the queue with 0x8F, and any packet whose
LEN or fields are wrong with 0x86; a queue disabled meanwhile stays so. PAD and WRAP leave the head, H passing their bytes, or the rest of the ring. While the
shepherd core restarts, a packet that needs policy waits, and changes no flock; otherwise CADENCE sets the period and phase
and leaves; FETCHFENCE, once what it waits for has come about, drops what was read ahead, keeps storage as it then stands,
and leaves; PREEMPT suspends, resumes or kills the launch that it names, and leaves, and so it does where it names none; a
LAUNCH takes the next number, and one that its validation refuses fails with the validation's cause. -/
def Obligations.PacketsActAtTheHead : Prop :=
  ∀ (n q : Nat) (p : Packet) (s : State), s.focus = .packet n q →
    let k := s.queue n q
    let left := fun (k' : CmdQueue) (bytes : Nat) =>
      k'.h = k.h + BitVec.ofNat 32 bytes ∧ k'.wbDue = true ∧ k'.sig = none ∧ k'.armed = false ∧ k'.work = none ∧ k'.atHead = none ∧
        k'.t = k.t ∧ k'.en = k.en
    let keeps := fun (t : State) => t.mem = s.mem ∧ t.lm = s.lm ∧ t.flocks = s.flocks ∧ t.cores = s.cores
    let preempts : List Instr := [.preemptSuspend p, .preemptResume p, .preemptKill p]
    let policy : List Instr := [.launch p, .fetchfence p, .cadence p] ++ preempts
    let stopped := if k.en then 3 else 0
    (∃ t, exec (.reservedPacket p) s = .next t ∧ (t.queue n q).state = stopped ∧ (t.queue n q).cause = 0x8F ∧
      (t.queue n q).h = k.h ∧ keeps t) ∧
    ((p.lenOk && p.fieldsOk) = false →
      ∀ i ∈ policy ++ [.waitsig p, .signalPacket p, .wrap p, .pad p, .writePacket p, .copyPacket p, .qstatus p],
        ∃ t, exec i s = .next t ∧ (t.queue n q).state = stopped ∧ (t.queue n q).cause = 0x86 ∧ (t.queue n q).h = k.h ∧ keeps t) ∧
    ((p.lenOk && p.fieldsOk) = true → p.words.length = 4 * p.len →
      (∃ t, exec (.pad p) s = .next t ∧ left (t.queue n q) (32 * p.len) ∧ keeps t) ∧
      (p.type = 0x05 → ∃ t, exec (.wrap p) s = .next t ∧
        left (t.queue n q) (2 ^ k.lsz - k.h.toNat % 2 ^ k.lsz) ∧ keeps t) ∧
      (s.glob.shr = true → ∀ i ∈ policy, ∃ t, exec i s = .next t ∧ (t.queue n q).h = k.h ∧ keeps t) ∧
      (s.glob.shr = false →
        (∃ t, exec (.cadence p) s = .next t ∧ left (t.queue n q) (32 * p.len) ∧
          (t.queue n q).cadP = (p.word 1).toNat ∧ (t.queue n q).cadPhase = (p.word 2).toNat ∧ keeps t) ∧
        (s.waitedFor n q (p.flg % 4) = true → ∃ t, exec (.fetchfence p) s = .next t ∧ left (t.queue n q) (32 * p.len) ∧
          (t.queue n q).ahead = [] ∧ (t.queue n q).fence = { mem := t.mem, lm := t.lm, hostMem := t.hostMem } ∧ keeps t) ∧
        (s.preemptTarget n p = none → ∀ i ∈ preempts,
          ∃ t, exec i s = .next t ∧ left (t.queue n q) (32 * p.len) ∧ keeps t) ∧
        (∀ fl f, s.preemptTarget n p = some (fl, f) → s.flock fl = f →
          (f.live = true → ∃ t, exec (.preemptSuspend p) s = .next t ∧ (t.flock fl).suspended = true ∧
            (t.flock fl).status = (if f.status = .running then .preempting else f.status) ∧
            left (t.queue n q) (32 * p.len)) ∧
          (∃ t, exec (.preemptResume p) s = .next t ∧ (t.flock fl).suspended = false ∧ left (t.queue n q) (32 * p.len)) ∧
          (f.status = .running → s.liveMembers fl ≠ [] →
            ∃ t, exec (.preemptKill p) s = .next t ∧ (t.flock fl).status = .killing ∧ (t.flock fl).cause = 0x89 ∧
              (t.flock fl).killedHost = true ∧ left (t.queue n q) (32 * p.len)) ∧
          (f.status = .waiting → (s.flocks.map (·.1)).Pairwise (· < ·) →
            ∃ t, exec (.preemptKill p) s = .next t ∧ (t.flock fl).status = .failed ∧ (t.flock fl).cause = 0x89 ∧
              (t.flock fl).killedHost = true)) ∧
        (k.atHead = none → s.entryBusy n q = false →
          let f : Flock := { part := n, queue := some q, lnum := k.nextL, pkt := p.words, turn := s.nextFlock }
          let v := s.validate { f with members := f.box }
          ∃ t, exec (.launch p) s = .next t ∧ (t.queue n q).nextL = k.nextL + 1 ∧ t.nextFlock = s.nextFlock + 1 ∧
            (t.queue n q).parsed = (k.parsed + 1) % 2 ^ 32 ∧ (t.flock s.nextFlock).lnum = k.nextL ∧
            (t.flock s.nextFlock).pkt = p.words ∧ (t.flock s.nextFlock).members = f.box ∧
            (v.1 ≠ 0 → mhas s.flocks s.nextFlock = false → (t.flock s.nextFlock).status = .failed ∧
              (t.flock s.nextFlock).cause = v.1 ∧ (t.flock s.nextFlock).detail = v.2))))

/-- The packets that access memory (R387 to R391). WRITE stores its bytes, and SIGNAL stores or adds its value at an 8-byte
location of tile storage, once what they wait for has come about, a SIGNAL once the COPY
packets before it in its queue have completed too, and neither within the delay after a refusal (R367), changing no other byte of storage, and leave the head, H
passing their bytes; a WRITE that fails stops its queue with 0x88. QSTATUS writes its record and leaves. COPY leaves at once, its
command record going to the copy engine of the front end. WAITSIG leaves once its comparison holds, and stays while it does
not, at its first read and at a poll. The head written back is H. That a write whose home answers retry-after keeps its place
in the queue is the model's reading (log 66, DEDUCED). -/
def Obligations.PacketsWriteMemory : Prop :=
  ∀ (n q tile off : Nat) (tlb : Option TlbEntry) (s : State),
    let k := s.queue n q
    let key := s.panelKey tile off
    let stored := fun (t : State) (v : W64) =>
      leWord (Memory.readN t.mem key 8) = v ∧ t.lm = s.lm ∧
        ∀ a, (a < key ∨ key + 8 ≤ a) → Memory.read t.mem a = Memory.read s.mem a
    (∀ p : Packet, s.focus = .packet n q → (p.lenOk && p.fieldsOk) = true → p.words.length = 4 * p.len →
      let left := fun (t : State) => (t.queue n q).h = k.h + BitVec.ofNat 32 (32 * p.len)
      let w := p.flg / 2 % 4
      let v := if w = 0 then s else s.drainAll
      let data := Packet.data p 32 (fld (p.word 2) 0 16)
      (s.waitedFor n q w = true →
        (s.homeCheck (frontAsker n) .engWrite p.addr 8 = .ok (.panel tile off) tlb → p.addr % 8 = 0 →
          s.fePaused n p.addr = false →
          (fld (p.word 2) 0 16 = 8 → p.type = 0x07 →
            ∃ t, exec (.writePacket p) s = .next t ∧ stored t (p.word 4) ∧ left t) ∧
          (s.copiesDone n q = true → p.flg % 2 = 0 → ∃ t, exec (.signalPacket p) s = .next t ∧ stored t (p.word 2) ∧ left t)) ∧
        (s.homeCheck (frontAsker n) .atomic (p.word 1).toNat 8 = .ok (.panel tile off) tlb →
          s.poisonedLoc (.panel tile off) 8 = false → p.flg % 2 = 1 → s.copiesDone n q = true →
          s.fePaused n (p.word 1).toNat = false → ∃ t, exec (.signalPacket p) s = .next t ∧ left t ∧ stored t (leWord (Memory.readN s.mem key 8) + p.word 2)) ∧
        (∀ u, v.feWrite n p.addr data = (u, .done) → ∃ t, exec (.writePacket p) s = .next t ∧ t.mem = u.mem ∧ t.lm = u.lm ∧
          t.hostMem = u.hostMem ∧ left t) ∧
        (∀ u c, v.feWrite n p.addr data = (u, .fail c) → ∃ t, exec (.writePacket p) s = .next t ∧
          (t.queue n q).state = (if k.en then 3 else 0) ∧ (t.queue n q).cause = 0x88 ∧ (t.queue n q).mem = c ∧ (t.queue n q).h = k.h)) ∧
      (∀ u, s.feWrite n p.addr (s.statusRecord n q) = (u, .done) → ∃ t, exec (.qstatus p) s = .next t ∧ t.mem = u.mem ∧
        t.hostMem = u.hostMem ∧ left t) ∧
      (∃ t e, exec (.copyPacket p) s = .next t ∧ left t ∧ t.mem = s.mem ∧ t.lm = s.lm ∧
        (t.ctx (frontCore + n)).f0 = (s.ctx (frontCore + n)).f0 ++ [e] ∧ e.cmd = Packet.record p ∧ e.recAt = p.addr ∧
        e.queue = some q ∧ e.scope = .system)) ∧
    (∀ (p : Packet) (bs : List Byte), s.feRead n p.addr 8 = .ok bs →
      let left := fun (t : State) => if sigHolds p (leWord bs) then (t.queue n q).h = k.h + 32 ∧ (t.queue n q).sig = none
        else (t.queue n q).h = k.h
      (s.focus = .packet n q → (p.lenOk && p.fieldsOk) = true → k.sig = none →
        ∃ t, exec (.waitsig p) s = .next t ∧ left t ∧ t.mem = s.mem ∧ t.lm = s.lm) ∧
      (k.sig = some p → k.armed = false → k.polledAt + 1000 ≤ s.now →
        ∃ t, exec (.waitsigPoll n q) s = .next t ∧ left t ∧ t.mem = s.mem ∧ t.lm = s.lm)) ∧
    (k.wbDue = true → k.headwb ≠ 0 → k.headwb.toNat % 8 = 0 → s.fePaused n k.headwb.toNat = false →
      s.homeCheck (frontAsker n) .engWrite k.headwb.toNat 8 = .ok (.panel tile off) tlb →
      ∃ t, exec (.headWriteback n q) s = .next t ∧ stored t (k.h.setWidth 64) ∧ (t.queue n q).wbDue = false ∧
        (t.queue n q).h = k.h)

/-! ## Flocks: placement, cuts, retirement -/

/-- A waiting launch whose dependences hold, whose cores are free and before which no other goes, is placed (R30): with no
circuit program its members' three streams are released together at once (R31); with one the drover takes its program, and
its streams are released once the circuits of its first step are live or dead, or no step will come (R326, R342). A pre-empted
flock whose cores and ports are free resumes (R40). A quantum that is over, with a flock of at least equal priority that waits
for the same cores, asks the running flock for a cut (R36, R38). A tick of the clock as it then stands releases the cadence launch that waits for it, which may
be placed in the top band of its period, and which misses the next tick unless it has retired or failed by then, and the miss
is counted (R37, R393). While the shepherd core restarts, none of these does anything (R408). Which tick releases a
cadence launch is the model's reading (log 40, DEDUCED). -/
def Obligations.FlocksAreScheduled : Prop :=
  ∀ (fl : Nat) (s : State), mhas s.flocks fl = true →
    let f := s.flock fl
    let part := f.part
    let clear := s.goesAfter fl = false ∧ s.blockers fl = []
    let atHeaders := fun (t : State) => ∀ j ∈ s.liveMembers fl, (t.ctx (s.memberCore fl j)).l.phase = .header ∧
      (t.ctx (s.memberCore fl j)).c.phase = .header ∧ (t.ctx (s.memberCore fl j)).s.phase = .header
    let runs := fun (i : Instr) =>
      ∃ t, exec i s = .next t ∧ (t.flock fl).status = .running ∧ (t.flock fl).runAt = s.now ∧ t.hostMem = s.hostMem ∧
        (t.flock fl).left = true ∧
        ∀ j, j < f.members.length → (t.ctx (s.memberCore fl j)).flock = some fl ∧
          (t.ctx (s.memberCore fl j)).l.phase = .header ∧ (t.ctx (s.memberCore fl j)).c.phase = .header ∧
          (t.ctx (s.memberCore fl j)).s.phase = .header
    (s.glob.shr = true → ∀ n q, ∀ i ∈ ([.launchPlace fl, .cadenceTopBand fl, .flockResume fl, .quantumExpiry fl,
      .cadenceTick n q, .cadenceMissedTick fl] : List Instr), exec i s = .next s) ∧
    (s.glob.shr = false →
      (f.status = .waiting → f.resuming = false → s.wantsCores fl = true → clear →
        (f.circLen = 0 → runs (.launchPlace fl) ∧
          (f.tick.isSome = true → f.released = true →
            16 * f.period ≤ 32 * (s.now - (s.part part).createdAt - f.tickAt) → runs (.cadenceTopBand fl))) ∧
        (f.circLen ≠ 0 → f.circAddr % 8 = 0 → ∀ image, s.feRead part f.circAddr (8 * f.circLen) = .ok image →
          ∃ t, exec (.launchPlace fl) s = .next t ∧ (t.flock fl).status = .placed ∧ (t.flock fl).left = true ∧
            (t.part part).drover.owner = some fl ∧ (t.part part).drover.decoding = true ∧
            (t.part part).drover.prog.length = f.circLen)) ∧
      (f.status = .placed → f.resuming = false → f.suspended = false → f.circLen ≠ 0 →
        (s.part part).drover.owner = some fl → (s.part part).drover.readyToRun = true →
        ∃ t, exec (.launchPlace fl) s = .next t ∧ (t.flock fl).status = .running ∧ (t.flock fl).runAt = s.now ∧
          atHeaders t) ∧
      (f.status = .preempted → f.suspended = false → s.tilesSettled f = true → clear → s.portHolder fl = [] →
        f.drover = none → ∃ t, exec (.flockResume fl) s = .next t ∧ (t.flock fl).status = .running ∧
          (t.flock fl).runAt = s.now ∧ (t.flock fl).ctxs = [] ∧ (t.flock fl).members = f.members) ∧
      (f.status = .running → f.runAt + 1000 * (s.part part).quantum ≤ s.now →
        (∃ e ∈ s.flocks, e.1 ≠ fl ∧ e.2.part = part ∧ s.wantsCores e.1 = true ∧
          (∃ id ∈ e.2.needs, s.holderOf part id = some fl) ∧ s.priority fl ≤ s.priority e.1) →
        ∃ t, exec (.quantumExpiry fl) s = .next t ∧ (t.flock fl).status = .preempting ∧ t.mem = s.mem ∧ t.lm = s.lm ∧
          ∀ j ∈ s.liveMembers fl, (t.ctx (s.memberCore fl j)).preempt = true) ∧
      (∀ n q, s.strayCadence n q = none → s.cadenceWaiting n q = some fl →
        let k := s.queue n q
        let at_ := k.cadPhase + s.tickOf n q fl * k.cadP
        (k.cadP = 0 ∨ at_ ≤ s.now - (s.part n).createdAt) →
        ∃ t, exec (.cadenceTick n q) s = .next t ∧ (t.flock fl).released = true ∧
          (k.cadP ≠ 0 → (t.flock fl).tickAt = at_ ∧ (t.flock fl).period = k.cadP)) ∧
      (∀ q, f.queue = some q → f.tick.isSome = true → f.released = true → f.missed = false →
        f.tickAt + f.period ≤ s.now - (s.part part).createdAt → f.status ≠ .retired → f.status ≠ .failed →
        ∃ t, exec (.cadenceMissedTick fl) s = .next t ∧ (t.flock fl).missed = true ∧
          (t.queue part q).missed = min (2 ^ 32 - 1) ((s.queue part q).missed + 1) ∧ t.mem = s.mem ∧ t.cores = s.cores))

/-- A member at its cut gives up its core, and its context is kept with its registers, its issued results landed, the
matrix engine's shadow tile dropped and no RECV or SEND under way, in the slot of its core, unless its flock is being killed (R38,
R39, R42, R133, R175, R235, R293, R392, R405). A cut that is late is
forced and counted, and that of a killed flock is forced at once (R41, R392). A member that may retire gives up its core, once
its host-bound writes have been handed on and its statistics written, and with the last one the flock retires and gives up its
cores, once its completion record is written; a failed launch writes its record too (R32, R66, R260, R396, R400). That
a cut forgets the circuit on which a RECV or SEND has waited is the model's reading (log 80, DEDUCED). -/
def Obligations.CutsAndRetirement : Prop :=
  (∀ (c fl : Nat) (s : State), (s.ctx c).flock = some fl → (s.ctx c).preempt = true → s.cutDone c = true →
    let x := s.ctx c
    ((∀ t, x.trap = some t → t.written = true) → (s.flock fl).status = .preempting →
      ∃ t, exec (.preemptCut c) s = .next t ∧ t.ctx c = {} ∧ (∀ d, d ≠ c → t.ctx d = s.ctx d) ∧ t.mem = s.mem ∧
        t.lm = s.lm ∧
        (let y := mget {} (t.flock fl).ctxs x.member
         y.l.g = x.l.g ∧ y.c.g = x.c.g ∧ y.s.g = x.s.g ∧ y.l.p = x.l.p ∧ y.c.p = x.c.p ∧ y.s.p = x.s.p ∧ y.lq = x.lq ∧
           y.sq = x.sq ∧ y.bq = x.bq ∧ y.st = x.st ∧ y.landings = [] ∧ y.opfile = x.landings.foldl landOne x.opfile ∧
           y.viewV = x.viewV ∧ y.viewT = x.viewT ∧ y.viewA = x.viewA ∧ y.mx = { x.mx with shadow := {} } ∧
           y.recvOn = none ∧ y.sendOn = none) ∧
        mget (0, 0) (t.tile (c / 64)).slots (c % 64) = (fl, x.member) ∧
        ((t.flock fl).status = .preempted ∨ (t.flock fl).status = .preempting)) ∧
    ((s.flock fl).status = .killing → ∃ t, exec (.preemptCut c) s = .next t ∧ t.ctx c = {} ∧ t.mem = s.mem ∧ t.lm = s.lm ∧
      ((t.flock fl).status = .killing ∨ ((t.flock fl).status = .failed ∧ (t.flock fl).ctxs = [])))) ∧
  (∀ (c fl : Nat) (s : State), (s.ctx c).flock = some fl → (s.ctx c).preempt = true → (s.ctx c).forced = false →
    let cut := fun (t : State) => t.ctx c = { s.ctx c with lcut := true, ccut := true, scut := true, forced := true } ∧
      ∀ d, d ≠ c → t.ctx d = s.ctx d
    ((s.flock fl).status = .killing → ∃ t, exec (.forcedCut c) s = .next t ∧ cut t ∧ { t with cores := s.cores } = s) ∧
    ((s.flock fl).status = .preempting → (s.flock fl).cutAt + 1000 * (s.part (s.flock fl).part).ptimeout ≤ s.now →
      ∃ t, exec (.forcedCut c) s = .next t ∧ cut t ∧ (t.part (s.flock fl).part).forcedCuts =
          min (2 ^ 32 - 1) ((s.part (s.flock fl).part).forcedCuts + 1) ∧
        { t with cores := s.cores, parts := s.parts } = s)) ∧
  (∀ (c fl : Nat) (s : State), (s.ctx c).flock = some fl → s.canRetire c = true →
    let qs := fld ((s.flock fl).word 19) 0 56
    let v := s.drainAll
    ∀ u first, (if qs = 0 then .ok (v, 0) else v.writeStats c (qs + 2048 * (s.ctx c).member) (List.range 64) 0) =
        .ok (u, first) →
      ∃ t, exec (.memberRetire c) s = .next t ∧ t.ctx c = {} ∧ t.mem = u.mem ∧ t.lm = u.lm ∧ t.hostMem = u.hostMem ∧
        (t.flock fl).doneMembers = (s.ctx c).member :: (s.flock fl).doneMembers ∧
        (t.flock fl).cause = if (s.flock fl).cause = 0 then first else (s.flock fl).cause) ∧
  (∀ (fl : Nat) (s u : State), s.writeRecord fl = (u, true) →
    let f := s.flock fl
    ((f.status = .running ∨ f.status = .preempting ∨ f.status = .preempted) → f.members ≠ [] →
      (∀ j, j < f.members.length → j ∈ f.doneMembers) →
      ∃ t, exec (.flockRetire fl) s = .next t ∧ (t.flock fl).status = .retired ∧ (t.flock fl).wrote = true ∧
        t.mem = u.mem ∧ t.lm = u.lm ∧ t.hostMem = u.hostMem ∧
        ∀ j ∈ s.liveMembers fl, t.ctx (s.memberCore fl j) = {}) ∧
    (f.status = .failed → f.wrote = false → ∃ t, exec (.flockRetire fl) s = .next t ∧ (t.flock fl).status = .failed ∧
      (t.flock fl).wrote = true ∧ t.mem = u.mem ∧ t.lm = u.lm ∧ t.hostMem = u.hostMem))

/-! ## What the host writes -/

/-- Queues and partitions (R376, R380 to R383, R409). A doorbell moves T of an enabled queue forward, is counted where it
would not, and stops the queue with 0x85 where it is no multiple of 32 or passes the ring; a disabled queue takes none. EN :=
1 enables a disabled queue at SEQ0 of a valid descriptor, leaves it disabled with 0x86 at an invalid one and with 0x88 at one
that cannot be read, and is due again at retry-after; EN := 0 disables the queue or withdraws what is due; RESET and RETRY run
a stopped queue from T and from H. A create asks for the roles of free tiles and is busy, or reports why not; with the roles of
its last tile the partition is there, with no queue enabled; a remove frees its tiles, unless a flock has not ended; a kill ends
every flock, or is cutting it. A command is busy while the shepherd core restarts, keeps PART and OP alone before the front end is
ready, and is ignored while another is busy. That PART and OP are kept before RDY, and that a command is busy while SHR is 1, is
the model's choice (log 42, DEDUCED), and so is that the descriptor read stays due at retry-after, with EN reading 1
(log 36, DEDUCED). -/
def Obligations.QueuesAndPartitionsObeyTheHost : Prop :=
  (∀ (n q : Nat) (x : W32) (s : State), s.hasQueue n q = true →
    let k := s.queue n q
    let keeps := fun (t : State) => t.mem = s.mem ∧ t.lm = s.lm ∧ t.hostMem = s.hostMem ∧ t.cores = s.cores
    (k.en = false → ∃ t, exec (.doorbellWrite n q x) s = .next t ∧ t = s) ∧
    (k.en = true →
      (x.toNat % 32 = 0 → (x - k.h).toNat ≤ 2 ^ k.lsz →
        (1 ≤ (x - k.t).toNat → (x - k.t).toNat < 2 ^ 31 →
          ∃ t, exec (.doorbellWrite n q x) s = .next t ∧ t.queue n q = { k with t := x } ∧ keeps t) ∧
        ((x - k.t).toNat = 0 ∨ 2 ^ 31 ≤ (x - k.t).toNat →
          ∃ t, exec (.doorbellWrite n q x) s = .next t ∧
            t.queue n q = { k with ignored := min (2 ^ 32 - 1) (k.ignored + 1) } ∧ keeps t)) ∧
      (x.toNat % 32 ≠ 0 ∨ 2 ^ k.lsz < (x - k.h).toNat →
        ∃ t, exec (.doorbellWrite n q x) s = .next t ∧ (t.queue n q).state = 3 ∧ (t.queue n q).cause = 0x85 ∧
          (t.queue n q).t = k.t ∧ keeps t) ∧
      (∃ t, exec (.queueEnable n q) s = .next t ∧ t = s) ∧
      (∃ t, exec (.queueDisable n q) s = .next t ∧ (t.queue n q).en = false ∧ (t.queue n q).state = 0 ∧ keeps t)) ∧
    (k.en = false →
      (∃ t, exec (.queueDisable n q) s = .next t ∧ t.queue n q = { k with enabling := false } ∧ keeps t) ∧
      (∀ r, s.feRead n ((s.part n).qtab.toNat + 64 * q) 64 = .error r →
        (r = .again → ∃ t, exec (.queueEnable n q) s = .next t ∧ t.queue n q = { k with enabling := true } ∧ keeps t) ∧
        (∀ c, r = .fail c → ∃ t, exec (.queueEnable n q) s = .next t ∧ (t.queue n q).en = false ∧
          (t.queue n q).enabling = false ∧ (t.queue n q).cause = 0x88 ∧ (t.queue n q).mem = c ∧ keeps t)) ∧
      (∀ bs, s.feRead n ((s.part n).qtab.toNat + 64 * q) 64 = .ok bs →
        let w := (packetOf bs).words
        (descriptorOk w = true → ∃ t, exec (.queueEnable n q) s = .next t ∧ (t.queue n q).en = true ∧
          (t.queue n q).state = 1 ∧ (t.queue n q).cause = 0 ∧ (t.queue n q).h = BitVec.ofNat 32 (fld (w.getD 1 0) 32 32) ∧
          (t.queue n q).t = (t.queue n q).h ∧ (t.queue n q).nextL = k.nextL ∧ keeps t) ∧
        (descriptorOk w = false → ∃ t, exec (.queueEnable n q) s = .next t ∧ (t.queue n q).en = false ∧
          (t.queue n q).cause = 0x86 ∧ keeps t))) ∧
    (k.state = 3 →
      (∃ t, exec (.queueRetry n q) s = .next t ∧ (t.queue n q).state = 1 ∧ (t.queue n q).h = k.h ∧ keeps t) ∧
      (∃ t, exec (.queueReset n q) s = .next t ∧ (t.queue n q).state = 1 ∧ (t.queue n q).h = k.t ∧ keeps t)) ∧
    (k.state ≠ 3 →
      (∃ t, exec (.queueRetry n q) s = .next t ∧ t = s) ∧ ∃ t, exec (.queueReset n q) s = .next t ∧ t = s)) ∧
  (∀ (n : Nat) (s : State), n < 16 →
    (∀ i ∈ [Instr.partCreate n, .partRemove n, .partKill n],
      (s.glob.pcStatus = 0xFF → ∃ t, exec i s = .next t ∧ t = s) ∧
      (s.glob.pcStatus ≠ 0xFF → s.glob.rdy = false →
        ∃ t, exec i s = .next t ∧ t.glob.pcStatus = s.glob.pcStatus ∧ t.glob.pcPart.toNat = n ∧ { t with glob := s.glob } = s) ∧
      (s.glob.pcStatus ≠ 0xFF → s.glob.rdy = true → s.glob.shr = true →
        ∃ t, exec i s = .next t ∧ t.glob.pcStatus = 0xFF ∧ t.glob.pcPart.toNat = n ∧ { t with glob := s.glob } = s)) ∧
    (s.glob.pcStatus ≠ 0xFF → s.glob.rdy = true → s.glob.shr = false →
      let p := partOfDescriptor s.descriptor
      let status := s.createStatus n s.descriptor p
      (status = 0 → ∃ t, exec (.partCreate n) s = .next t ∧ (t.part n).making = true ∧ (t.part n).exists_ = false ∧
        (t.part n).queues = [] ∧ (t.part n).w = p.w ∧ (t.part n).h = p.h ∧ t.glob.pcStatus = 0xFF ∧
        (∀ tile ∈ p.tileList, RoleAction.create p.lit ∈ (t.tile tile).roles ∧ (t.tile tile).part = none) ∧
        (∀ m, m ≠ n → t.part m = s.part m) ∧ { t with parts := s.parts, tiles := s.tiles, glob := s.glob } = s) ∧
      (status ≠ 0 → ∃ t, exec (.partCreate n) s = .next t ∧ t.glob.pcStatus = status ∧ { t with glob := s.glob } = s) ∧
      ((s.part n).exists_ = false →
        ∃ t, exec (.partRemove n) s = .next t ∧ t.glob.pcStatus = 0 ∧ { t with glob := s.glob } = s) ∧
      ((s.part n).exists_ = true →
        ((∀ e ∈ s.flocks, e.2.part = n → e.2.ended = true) →
          ∃ t, exec (.partRemove n) s = .next t ∧ (t.part n).exists_ = false ∧ t.glob.pcStatus = 0 ∧
            (∀ tile ∈ (s.part n).tileList, (t.tile tile).part = none) ∧ (∀ m, m ≠ n → t.part m = s.part m)) ∧
        ((∃ e ∈ s.flocks, e.2.part = n ∧ e.2.ended = false) →
          ∃ t, exec (.partRemove n) s = .next t ∧ t.glob.pcStatus = 0x92 ∧ { t with glob := s.glob } = s)) ∧
      (∃ t, exec (.partKill n) s = .next t ∧ t.glob.pcStatus = 0 ∧
        ∀ e ∈ s.flocks, e.2.part = n →
          (t.flock e.1).status = .killing ∨ (t.flock e.1).status = .failed ∨ (t.flock e.1).status = .retired))) ∧
  (∀ (n tile : Nat) (s : State), s.glob.shr = false → (s.part n).making = true →
    (∀ m, m ≠ n → (s.part m).making = false) →
    let p := s.part n
    let q := s.tile tile
    tile ∈ p.tileList → q.roleAction = some (.create p.lit) → q.rolePhase = .flushed → q.roleQueue = [] →
    (∀ k ∈ p.tileList, s.litOk k p.lit = true ∧ (k ≠ tile → RoleAction.create p.lit ∉ (s.tile k).roles)) →
    ∃ t, exec (.roleChangeReenumerate tile) s = .next t ∧ (t.part n).exists_ = true ∧ (t.part n).making = false ∧
      (t.part n).queues = p.queues ∧ (t.part n).createdAt = s.now ∧ t.glob.pcStatus = 0 ∧
      (∀ k ∈ p.tileList, (t.tile k).part = some n) ∧ ∀ m, m ≠ n → t.part m = s.part m)

/-- The other registers and records of the host (R363, R364, R371, R372, R378, R379, R401, R403, R404, R406, R408, R433):
what each write here changes, what the HDM range reads of bytes that hold no saved context and what it writes, what becomes of
a routed fault and of the handler it asks for, of a trap record, and of a member at a trap; and what waits for the shepherd
core. The model's choices here are that an HDM access is not taken during a flush (log 31, DEDUCED), that a record whose write
fails is dropped with its counters advanced (log 41, DEDUCED), that TRAPCTL's actions are kept while SHR is 1 (log 42, DEDUCED),
and that faults are counted by cause (log 50, DEDUCED). -/
def Obligations.RegistersAndRecordsAtTheHost : Prop :=
  (∀ (n tile unit off : Nat) (asid : BitVec 16) (lt : BitVec 6) (v : W64) (d : BitVec 8) (s : State),
    ((s.part n).exists_ = false → ∀ b, ∃ t, exec (.mmuInv n asid lt b) s = .next t ∧ t = s) ∧
    ((s.part n).exists_ = true →
      (∀ b, ∃ t, exec (.mmuInv n asid lt b) s = .next t ∧ (t.part n).mmuAsid = asid ∧ (t.part n).mmuTile = lt ∧
        (t.part n).mmuAll = b ∧ { t with parts := s.parts, tiles := s.tiles } = s ∧
        (b = false → lt.toNat < (s.part n).tiles →
          ∀ e ∈ (t.tile ((s.part n).physTile lt.toNat)).tlb, e.asid ≠ asid) ∧
        (b = false → (s.part n).tiles ≤ lt.toNat → t.tiles = s.tiles) ∧
        (b = true → ∀ k ∈ (s.part n).tileList, ∀ e ∈ (t.tile k).tlb, e.asid ≠ asid))) ∧
    (unit < 4 → ∃ t, exec (.capClear tile unit) s = .next t ∧
      (t.tile tile).caps.toList[unit]? = ((s.tile tile).caps.toList[unit]?).map Capture.clear ∧ t.mem = s.mem) ∧
    (∃ t, exec (.domidWrite d) s = .next t ∧
      t.glob.domid = (if d = 0xFF ∨ s.glob.anyPart then s.glob.domid else d) ∧ { t with glob := s.glob } = s) ∧
    (off % 8 ≠ 0 → ∃ t, exec (.registerWrite off v) s = .next t ∧ t = s) ∧
    (∃ t, exec (.registerWrite 0x0010 v) s = .next t ∧ t.bar0Read 0x0010 = BitVec.ofNat 64 (fld v 0 48) ∧
      { t with glob := s.glob } = s) ∧
    (n < 16 → ∃ t, exec (.registerWrite (0x800000 + 0x10000 * n + 0x1090) v) s = .next t ∧
      t.bar0Read (0x800000 + 0x10000 * n + 0x1090) =
        (if (s.part n).exists_ then BitVec.ofNat 64 (fld v 0 32) else 0)) ∧
    (s.glob.shr = false → ∃ t, exec .shepherdRestart s = .next t ∧ t.glob.shr = true ∧
      t.glob.restarts = min 65535 (s.glob.restarts + 1) ∧ { t with glob := s.glob } = s) ∧
    (s.glob.shr = true → ∃ t, exec .shepherdRestart s = .next t ∧ t.glob.shr = false ∧
      (∀ m, (t.part m).trapActs = []) ∧
      (s.glob.pcStatus = 0xFF → (s.part s.glob.pcPart.toNat).making = false →
        (s.glob.pcOp = 2 ∨ s.glob.pcOp = 3 → t.glob.pcStatus ≠ 0xFF) ∧
        (s.glob.pcOp = 1 → t.glob.pcStatus ≠ 0xFF ∨ (t.part s.glob.pcPart.toNat).making = true)) ∧
      (s.glob.pcStatus = 0xFF → (s.part s.glob.pcPart.toNat).making = true → t.glob.pcStatus = 0xFF))) ∧
  (∀ (tile off n : Nat) (bs : List Byte) (s : State),
    ((s.tile tile).rolePhase = .flushed → ∀ a, ∃ t, exec (.hdmAccess tile off a) s = .next t ∧ t = s) ∧
    ((s.tile tile).rolePhase ≠ .flushed → tile < 64 →
      (off + n ≤ 2 ^ 36 → ∃ t, exec (.hdmAccess tile off (.read n)) s = .next t ∧ t.hdmOut.length = n ∧
        (∀ i, i < n → s.shadowByte tile (off + i) = false →
          t.hdmOut[i]? = some (Memory.read s.mem (tile * 2 ^ 42 + off + i))) ∧
        { t with hdmOut := s.hdmOut, hdmBad := s.hdmBad } = s) ∧
      (off + bs.length ≤ 2 ^ 36 → ∃ t, exec (.hdmAccess tile off (.write bs)) s = .next t ∧
        Memory.readN t.mem (tile * 2 ^ 42 + off) bs.length = bs ∧ t.lm = s.lm ∧ t.hostMem = s.hostMem ∧
        ∀ a, (a < tile * 2 ^ 42 + off ∨ tile * 2 ^ 42 + off + bs.length ≤ a) →
          Memory.read t.mem a = Memory.read s.mem a))) ∧
  (∀ (n : Nat) (r : FaultRec) (rest : List FaultRec) (s : State), s.glob.shr = false → (s.part n).handlersDue = [] →
    (s.part n).faults = r :: rest →
    let p := s.part n
    let route := mget 0 p.froute r.cause.toNat
    bit route 1 = false →
    (bit route 0 = true → ∃ t, exec (.faultRoute n) s = .next t ∧ (t.part n).faults = rest ∧ (t.part n).faultN = p.faultN ∧
      mget 0 (t.part n).faultsCounted r.cause.toNat = mget 0 p.faultsCounted r.cause.toNat + 1 ∧ t.mem = s.mem) ∧
    (bit route 0 = false → (p.faultN - p.faultHead).toNat = p.nfault →
      ∃ t, exec (.faultRoute n) s = .next t ∧ (t.part n).faults = rest ∧
        (t.part n).faultDropped = min (2 ^ 32 - 1) (p.faultDropped + 1) ∧ t.mem = s.mem) ∧
    (∀ u a, bit route 0 = false → (p.faultN - p.faultHead).toNat ≠ p.nfault →
      s.feWrite n (p.faultq.toNat + 32 * (p.faultN.toNat % p.nfault)) r.bytes = (u, a) →
      (a = .again → ∃ t, exec (.faultRoute n) s = .next t ∧ (t.part n).faults = r :: rest ∧
        (t.part n).faultN = p.faultN ∧ (t.part n).faultDropped = p.faultDropped ∧ { t with parts := s.parts } = s) ∧
      (a ≠ .again →
        ∃ t, exec (.faultRoute n) s = .next t ∧ (t.part n).faults = rest ∧ (t.part n).faultN = p.faultN + 1 ∧
          t.mem = u.mem))) ∧
  (∀ (n hid : Nat) (more : List Nat) (s : State), s.glob.shr = false → (s.part n).handlersDue = hid :: more →
    (s.feRead n ((s.part n).htab.toNat + 288 * hid) 288 = .error .again →
      ∃ t, exec (.faultRoute n) s = .next t ∧ t = s) ∧
    (∀ bs, s.feRead n ((s.part n).htab.toNat + 288 * hid) 288 = .ok bs →
      ∃ t, exec (.faultRoute n) s = .next t ∧ (t.part n).handlersDue = more ∧ t.nextFlock = s.nextFlock + 1 ∧
        (t.flock s.nextFlock).part = n ∧ (t.flock s.nextFlock).queue = none ∧
        (t.flock s.nextFlock).hid = BitVec.ofNat 8 hid ∧ (t.flock s.nextFlock).pkt = (packetOf bs).words ∧ t.mem = s.mem)) ∧
  (∀ (c fl : Nat) (tr : TrapInfo) (s : State), (s.ctx c).trap = some tr → (s.ctx c).flock = some fl → tr.written = false →
    s.trapSettled c = true →
    let f := s.flock fl
    let p := s.part f.part
    ((p.trapN - p.trapHead).toNat = p.ntrap →
      (tr.waited = false →
        ∃ t, exec (.trapRecordWrite c) s = .next t ∧ (t.part f.part).trapWaited = min (2 ^ 32 - 1) (p.trapWaited + 1) ∧
          (t.ctx c).trap = some { tr with waited := true } ∧ t.mem = s.mem) ∧
      (tr.waited = true → ∃ t, exec (.trapRecordWrite c) s = .next t ∧ t = s)) ∧
    (∀ u a, (p.trapN - p.trapHead).toNat ≠ p.ntrap → (s.ctx c).resumeWith = false →
      let v := (s.withdrawWait c).updCtx c Ctx.stands
      v.feWrite f.part (p.trapq.toNat + 512 * (p.trapN.toNat % p.ntrap)) (trapRecord (v.ctx c) tr f) = (u, a) → a ≠ .again →
      ∃ t, exec (.trapRecordWrite c) s = .next t ∧ (t.part f.part).trapN = p.trapN + 1 ∧
        (t.ctx c).trap = some { tr with written := true } ∧ t.mem = u.mem)) ∧
  (∀ (n : Nat) (id : BitVec 12) (s : State), (s.part n).exists_ = true →
    (s.glob.shr = true →
      (∃ t, exec (.trapctlResume n id) s = .next t ∧ (t.part n).trapActs = (s.part n).trapActs ++ [(1, id)] ∧
        (n < 16 → bit (t.bar0Read (0x800000 + 0x10000 * n + 0x1088)) 1 = true) ∧ { t with parts := s.parts } = s) ∧
      (∃ t, exec (.trapctlKill n id) s = .next t ∧ (t.part n).trapActs = (s.part n).trapActs ++ [(2, id)] ∧
        { t with parts := s.parts } = s)) ∧
    (s.glob.shr = false →
      (s.trapped n id = none →
        (∃ t, exec (.trapctlResume n id) s = .next t ∧ { t with parts := s.parts } = s) ∧
        (∃ t, exec (.trapctlKill n id) s = .next t ∧ { t with parts := s.parts } = s)) ∧
      (∀ (fl m c : Nat) (x : Ctx) (tr : TrapInfo), s.trapped n id = some (fl, m) →
        ((s.cores.find? fun e => e.2.flock == some fl && e.2.member == m) = some (c, x) → (s.ctx c).trap = some tr →
          tr.written = true → (s.ctx c).preempt = false →
          ∃ t, exec (.trapctlResume n id) s = .next t ∧ (t.ctx c).trap = none ∧ (t.ctx c).lcut = false ∧
            (t.ctx c).ccut = false ∧ (t.ctx c).scut = false ∧ (t.ctx c).l.pc = (s.ctx c).l.pc ∧
            (t.ctx c).c.pc = (s.ctx c).c.pc ∧ (t.ctx c).s.pc = (s.ctx c).s.pc ∧
            { t with cores := s.cores, parts := s.parts } = s) ∧
        ((s.flock fl).status = .running → s.liveMembers fl ≠ [] →
          ∃ t, exec (.trapctlKill n id) s = .next t ∧ (t.flock fl).status = .killing ∧
            (t.flock fl).cause = s.trapCause fl m ∧ (t.flock fl).killedTrap = true ∧ t.mem = s.mem))))

/-! ## Layers, power and firmware -/

/-- Roles, temperature and power of the layers (R415, R417, R418, R420, R421, R424, R429, R432, R433): a sample is the hottest
of its sensors, and crossing TWARN is reported; a hot, failed or lost layer asks for its role change, and so does one that
comes back, which shares the drain of the change at work, and on a drained tile needs none; a role change drains, flushes and
re-enumerates, that of a create giving each layer its role; a grant of a lit layer is bounded, and leaves the tile and the module
within their budgets or all their layers at level 0; the ballast ramp lasts 2 µs at most; a capture unit that captures counts its
samples in their bins, a layer's temperature and ramp window as the state holds them; the lifetime counters are kept in flash,
which a module reset does not clear. While the shepherd core restarts the roles and grants wait. The model's choices here are that
a sample at a threshold counts as above it (log 45, DEDUCED), what bounds a grant and what a tile draws beside its layers
(log 46, DESIGN CHOICE), that a module reset keeps storage (log 47, DESIGN CHOICE), and the order of role changes that wait
(log 64, DEDUCED). -/
def Obligations.LayersPowerAndCounters : Prop :=
  ∀ (tile layer : Nat) (r : SensorReadings) (lvl : BitVec 3) (s : State), layer < 4 →
    let t0 := s.tile tile
    let l := t0.layer layer
    let v := max (max r.t0 r.t1) (max r.t2 r.t3)
    let lay := fun (t : State) => (t.tile tile).layer layer
    let asks := fun (t : State) (a : RoleAction) =>
      a ∈ (t.tile tile).roles ∧ (∀ b ∈ t0.roles, b ∈ (t.tile tile).roles) ∧ (t.tile tile).roles.length = t0.roles.length + 1
    (∃ t, exec (.temperatureSample tile layer r) s = .next t ∧ (lay t).temp = v ∧ (lay t).warned = decide (s.fw.twarn ≤ v) ∧
      (lay t).toLower = (l.toLower || (!l.warned && decide (s.fw.twarn ≤ v))) ∧
      (lay t).role = l.role ∧ t.mem = s.mem ∧ t.cores = s.cores ∧
      ∀ n, t0.part = some n → l.warned = false → s.fw.twarn ≤ v → ∃ x ∈ (t.part n).faults, x.cause = 0xA0) ∧
    (∀ drop, ∃ t, exec (.ballastRamp tile layer drop) s = .next t ∧ (lay t).rampUntil = s.now + min 2000 (20 * drop) ∧
      (lay t).level = l.level) ∧
    (∀ c sample, t0.caps.toList[layer]? = some c → c.live = true →
      (3 ≤ c.src.toNat → 4 ≤ c.layer.toNat → ∃ t, exec (.captureSample tile layer sample) s = .next t ∧
        (t.tile tile).caps.toList[layer]? = some c) ∧
      (c.src.toNat < 3 ∨ c.layer.toNat < 4 →
        let of := t0.layer c.layer.toNat
        let w := if c.src = 3 then BitVec.ofInt 32 of.temp else if c.src = 5 then BitVec.ofNat 32 of.rampLen else sample
        ∃ t u, exec (.captureSample tile layer sample) s = .next t ∧ (t.tile tile).caps.toList[layer]? = some u ∧
          u.cnt = min (2 ^ 64 - 1) (c.cnt + 1) ∧
          (∀ k, k < 32 → u.bins.toList.getD k 0 =
            if k = c.bin w then min (2 ^ 32 - 1) (c.bins.toList.getD k 0 + 1) else c.bins.toList.getD k 0) ∧
          (c.cnt ≠ 0 → c.value u.mx = max (c.value c.mx) (c.value w) ∧ c.value u.mn = min (c.value c.mn) (c.value w)) ∧
          (c.cnt = 0 → u.mx = w ∧ u.mn = w))) ∧
    (∃ t, exec .lifetimeCounterSave s = .next t ∧ t = { s with flash := s.life }) ∧
    (∃ t, exec .moduleReset s = .next t ∧ t.tiles = [] ∧ t.parts = [] ∧ t.cores = [] ∧ t.flocks = [] ∧ t.mem = s.mem ∧
      t.flash = s.flash ∧ t.life = s.flash ∧ t.glob = {}) ∧
    (s.glob.shr = false →
      (l.role = .lit →
        let given := s.giveLevel tile layer lvl
        ∃ t, exec (.powerGrant tile layer lvl) s = .next t ∧ (lay t).role = .lit ∧
          (lay given).level.toNat = min lvl.toNat (s.grantLimit tile layer) ∧
          (lay t).level.toNat ≤ min lvl.toNat (s.grantLimit tile layer) ∧
          (given.overTile tile = false → given.overModule = false → t = given) ∧
          (t.overTile tile = false ∨ ∀ e ∈ s.litLayers [tile], t.levelOf e = 0) ∧
          (t.overModule = false ∨ ∀ e ∈ s.litLayers allTiles, t.levelOf e = 0)) ∧
      (∀ bad, t0.staying.contains layer = true → t0.shadeFree = true →
        ∃ t, exec (.selftestFail tile layer bad) s = .next t ∧ (lay t).testFailed = true ∧
          asks t (.swap layer bad)) ∧
      (s.hotLayer tile = some layer →
        (t0.shadeFree = true → ∃ t, exec (.thermalEmergency tile) s = .next t ∧
          asks t (.swap layer []) ∧
          t.life.emergencies = min (2 ^ 64 - 1) (s.life.emergencies + 1)) ∧
        (t0.shadeFree = false → t0.roles ≠ [] → ∃ t, exec (.thermalEmergency tile) s = .next t ∧ t = s) ∧
        (t0.shadeFree = false → t0.roles = [] → l.emrgLowered = none → ∃ t, exec (.thermalEmergency tile) s = .next t ∧
          (t.tile tile).roles = t0.roles ∧ ∀ j, j < 4 → (t0.layer j).role = .lit → ((t.tile tile).layer j).level.toNat ≤ 3)) ∧
      (s.mustLose tile layer = true → ∃ t, exec (.layerLoss tile layer) s = .next t ∧
        asks t (.lose layer)) ∧
      (∀ u, t0.part.isSome = true → l.role = .offline → l.testFailed = false → l.coolSince = some u →
        u + 1000 * ms ≤ s.now → t0.shadeLayer = none → t0.roles.any RoleAction.returns = false →
        (t0.rolePhase = .drain → ∃ t, exec (.layerReturn tile layer) s = .next t ∧ asks t (.comeBack layer) ∧
          (t0.roleAction ≠ none → (t.tile tile).roleQueue = t0.roleQueue ++ [(.comeBack layer, true)])) ∧
        (t0.rolePhase ≠ .drain → t0.roleAction = none → s.drained tile = true →
          ∃ t, exec (.layerReturn tile layer) s = .next t ∧ (t.tile tile).roleAction = some (.comeBack layer) ∧
            (t.tile tile).rolePhase = .drain)) ∧
      (∀ a, t0.roleAction = some a →
        (t0.rolePhase = .none → ∃ t, exec (.roleChange tile) s = .next t ∧ (t.tile tile).rolePhase = .drain ∧
          (t.tile tile).roles = t0.roles) ∧
        (t0.rolePhase = .drain → s.drained tile = true → ∃ t, exec (.roleChangeFlush tile) s = .next t ∧
          (t.tile tile).rolePhase = .flushed ∧ (t.tile tile).dirty = [] ∧ (t.tile tile).roles = t0.roles) ∧
        (t0.rolePhase = .flushed → ∃ t, exec (.roleChangeReenumerate tile) s = .next t ∧
          (t.tile tile).rolePhase = (match t0.roleQueue with
            | [] => .none
            | e :: _ => if e.2 then .drain else .none) ∧
          (t.tile tile).roles = t0.roleQueue.map (·.1) ∧
          t.life.roleChanges = min (2 ^ 64 - 1) (s.life.roleChanges + 1) ∧
          (∀ lit, a = .create lit → l.testFailed = false →
            let i := t0.working.idxOf layer
            (lay t).role = (if i < lit then .lit else if i = lit then .shade else .offline) ∧ (lay t).level = 0) ∧
          (∀ lit, a = .create lit → l.testFailed = true → (lay t).role = .offline) ∧
          (a = .comeBack layer → t0.shadeLayer = none → (lay t).role = .shade ∧ (t.tile tile).noShadeBacking = false) ∧
          (∀ k n, a = .lose layer → l.logical = some k → t0.part = some n → (lay t).role = .offline) ∧
          (∀ bad sh k n, a = .swap layer bad → t0.shadeLayer = some sh → l.logical = some k → t0.part = some n →
            sh ≠ layer → (lay t).role = .offline ∧ ((t.tile tile).layer sh).role = .lit ∧
              ((t.tile tile).layer sh).logical = some k)))) ∧
    (s.glob.shr = true → ∀ i ∈ [Instr.powerGrant tile layer lvl, .thermalEmergency tile, .selftestFail tile layer [],
        .layerLoss tile layer, .layerReturn tile layer, .roleChange tile, .roleChangeFlush tile, .roleChangeReenumerate tile],
      ∃ t, exec i s = .next t ∧ t = s)

/-- The firmware boots where records 1 and 2 and both images carry the vendor's signature, and measures the images (R410, R431);
otherwise layer 2 does not run; rejected records are counted. In layer 2 the SPDM requests are answered in their order, GET_VERSION
to GET_MEASUREMENTS; a signed answer covers the negotiation, and CHALLENGE the digests and certificates, MEASUREMENTS the
measurement messages, since they were last covered; one that comes too early, or asks for what does not exist, gets an error, and
outside layer 2 none is answered (R411). The hashes, the curve and the order and form of SPDM's messages and signatures come from
outside the manual (log 14, PRESUMED); the negotiation that is refused an algorithm, and which certificates and records count, is
the model's choice (log 48, DESIGN CHOICE); the bytes of the messages, the nonces and the certificate bodies are open (logs 4
and 48). -/
def Obligations.FirmwareBootsAndAnswers : Prop :=
  (∀ (b : BootInput) (s : State),
    let rs := BootInput.valid b
    let ok := (bestRecord rs 1).isSome && (bestRecord rs 2).isSome && BootInput.imagesSigned b
    ∃ t, exec (.firmwareBoot b) s = .next t ∧ t.glob.rdy = ok ∧ t.glob.layer = (if ok then 2 else 0) ∧
      t.glob.cfgRej = min 255 (b.records.length - rs.length) ∧
      (ok = true → t.fw.m1 = sha256 b.img1 ∧ t.fw.m2 = sha256 b.img2 ∧
        t.fw.cdi2 = hmac (hmac b.uds (sha256 b.img1)) (sha256 b.img2) ∧ t.fw.key2 = keyFrom t.fw.cdi2 ∧
        t.fw.cfgDigest = sha256 (rs.flatMap fun r => r.bytes ++ r.sig) ∧ t.spdm = {}) ∧
      (ok = false → t.fw = s.fw ∧ t.spdm = s.spdm) ∧
      { t with glob := s.glob, fw := s.fw, spdm := s.spdm } = s) ∧
  (∀ (r : SpdmRequest) (s : State),
    let all := [Instr.getVersion r, .getCapabilities r, .negotiateAlgorithms r, .getDigests r, .getCertificate r, .challenge r,
      .getMeasurements r]
    (s.glob.layer ≠ 2 → ∀ i ∈ all, ∃ t, exec i s = .next t ∧ t = s) ∧
    (s.glob.layer = 2 →
      let x := s.spdm
      let f := s.fw
      let said := fun (a : SpdmAnswer) => Config.spdmAsked r ++ Config.spdmAnswered a
      let answers := fun (i : Instr) (a : SpdmAnswer) (sig : Option (Nat × Nat)) (y : Spdm) =>
        ∃ t, exec i s = .next t ∧ t.spdm = { y with out := x.out ++ [(a, sig)] } ∧ { t with spdm := s.spdm } = s
      let signs := fun (context bytes : List Byte) => some (ecdsaSign f.key2 (spdmSigned context bytes))
      let refuses := fun (i : Instr) => answers i .error none { x with measMsgs := [] }
      let blocks := fun (ms : List (Nat × List Byte)) => some (sha256 (ms.flatMap Config.spdmBlock))
      let three := [(1, f.m1), (2, f.m2), (3, f.cfgDigest)]
      let negotiates := fun (i : Instr) (phase : Nat) (before : List Byte) (a : SpdmAnswer) =>
        answers i a none { x with phase := phase, vca := before ++ said a, certMsgs := [], measMsgs := [] }
      negotiates (.getVersion r) 1 [] (.version 0x12) ∧
      (1 ≤ x.phase → ∃ flags, negotiates (.getCapabilities r) 2 x.vca (.capabilities flags)) ∧
      (2 ≤ x.phase → negotiates (.negotiateAlgorithms r) (if r.p256 && r.sha then 3 else 2) x.vca (.algorithms r.p256 r.sha)) ∧
      (3 ≤ x.phase →
        (let a := SpdmAnswer.digests (sha256 f.chain)
         answers (.getDigests r) a none { x with certMsgs := said a, measMsgs := [] }) ∧
        (fld r.p1 0 4 = 0 → r.offset ≤ f.chain.length →
          let a := SpdmAnswer.certificate ((f.chain.drop r.offset).take r.length)
            (f.chain.length - r.offset - min r.length (f.chain.length - r.offset))
          answers (.getCertificate r) a none { x with certMsgs := x.certMsgs ++ said a, measMsgs := [] }) ∧
        (fld r.p1 0 4 ≠ 0 ∨ f.chain.length < r.offset → refuses (.getCertificate r)) ∧
        (∀ sum, r.p1 = 0 → (r.p2 = 0 ∧ sum = none ∨ r.p2 = 1 ∧ sum = blocks (three.filter fun m => Config.spdmTcb m.1) ∨
            r.p2 = 0xFF ∧ sum = blocks three) →
          ∃ nonce, let a := SpdmAnswer.challengeAuth nonce (sha256 f.chain) sum
            answers (.challenge r) a (signs challengeContext (x.vca ++ x.certMsgs ++ said a))
              { x with certMsgs := [], measMsgs := [] }) ∧
        (r.p1 ≠ 0 ∨ (r.p2 ≠ 0 ∧ r.p2 ≠ 1 ∧ r.p2 ≠ 0xFF) → refuses (.challenge r)) ∧
        (∀ ms, (r.p2 = 0 ∧ ms = [] ∨ r.p2 = 1 ∧ ms = [(1, f.m1)] ∨ r.p2 = 2 ∧ ms = [(2, f.m2)] ∨
            r.p2 = 3 ∧ ms = [(3, f.cfgDigest)] ∨ r.p2 = 0xFF ∧ ms = three) →
          ∃ nonce, let a := SpdmAnswer.measurements 3 ms nonce
            let bytes := x.measMsgs ++ said a
            (bit r.p1 0 = false → answers (.getMeasurements r) a none { x with certMsgs := [], measMsgs := bytes }) ∧
            (bit r.p1 0 = true → fld r.slot 0 4 = 0 →
              answers (.getMeasurements r) a (signs measurementsContext (x.vca ++ bytes))
                { x with certMsgs := [], measMsgs := [] })) ∧
        ((3 < r.p2.toNat ∧ r.p2 ≠ 0xFF) ∨ (bit r.p1 0 = true ∧ fld r.slot 0 4 ≠ 0) → refuses (.getMeasurements r))) ∧
      (s.spdm.phase < 1 → refuses (.getCapabilities r)) ∧
      (s.spdm.phase < 2 → refuses (.negotiateAlgorithms r)) ∧
      (s.spdm.phase < 3 → refuses (.getDigests r) ∧ refuses (.getCertificate r) ∧ refuses (.challenge r) ∧
        refuses (.getMeasurements r))))

/-! ## The whole machine -/

/-- A STEP RUNS THE DECODED INSTRUCTION. The next move of the agenda is made with fresh draws. A stream whose next item is
a word that decodes to an operation and two NOPs runs that operation: the word then passes, or waits at its stream's cut, or,
where the operation raises a cause, the core stands at it with no other effect. A header, the record at the head of f0 of a
core that holds a flock or of a front end, the packet at the head of a queue, the drover's next word and an event are run as
they decode. -/
def Obligations.StepRunsTheDecodedInstruction : Prop :=
  ∀ (s : State) (rest : List Move),
    let go := s.advance
    (∀ (c : Nat) (st : StreamId) (a b d : Nat) (i : Instr) (t : State), s.agenda = .issue c st :: rest →
      let f := (go.keepCode c st).focusOn c st
      go.canIssue c st = true → ((go.ctx c).stream st).dep = none → ((go.ctx c).stream st).phase = .body →
      ((go.ctx c).stream st).pc ≠ ((go.ctx c).stream st).secStart + 3 * ((go.ctx c).stream st).secLen →
      f.itemSyls 3 = .ok [a, b, d] → a / 2 ^ 30 % 4 ≠ 3 → decodeWord st a b d = .ok [i, .nop, .nop] →
      f.badCall [i, .nop, .nop] = false → f.blockedByAccess [i, .nop, .nop] = false →
      f.me.interlocked [i, .nop, .nop] = [] → f.accessBusy = false → exec i f = .next t →
      (t.verdict = .ran → step s = .next (t.commitWord f false)) ∧
      (t.verdict = .moved → step s = .next (State.commitWord { t with verdict := .ran } f true)) ∧
      (∀ r, t.verdict = .waits r → step s = .next (t.updMe fun x => x.atCut f.stream)) ∧
      (∀ k code addr, t.verdict = .traps k code addr → (∀ gd n, i ≠ .trap gd n) →
        step s = .next (f.trapWith k code addr))) ∧
    (∀ (c : Nat) (st : StreamId) (a b : Nat) (h : Header), s.agenda = .issue c st :: rest →
      go.canIssue c st = true → ((go.ctx c).stream st).dep = none → ((go.ctx c).stream st).phase = .header →
      let f := (go.keepCode c st).focusOn c st
      f.itemSyls 2 = .ok [a, b] → decodeHeader a b = .ok (.sectionHeader h) → f.accessBusy = false →
      step s = exec (.sectionHeader h) f) ∧
    (∀ (c : Nat) (e : F0Entry) (r : List F0Entry), s.agenda = .engine c :: rest → (s.ctx c).f0 = e :: r →
      ((s.ctx c).flock.isSome = true ∨ frontCore ≤ c) → (s.ctx c).canStart e = true →
      ∃ u, step s = exec (decodeCommand e.cmd) u ∧ u.focus = .engine c e ∧ (u.ctx c).f0 = r ∧
        { u with cores := s.cores, focus := s.focus, verdict := s.verdict } = go) ∧
    (∀ (n q : Nat) (p : Packet), s.agenda = .packet n q :: rest →
      ((go.fetchAhead n q).queue n q).enabling = false → (go.fetchAhead n q).headOf n q = .run p →
      step s = exec (decodePacket p) { go.fetchAhead n q with focus := .packet n q, verdict := .ran }) ∧
    (∀ (n : Nat) (i : Instr), s.agenda = .circuitWord n :: rest → go.nextWord n = .word i →
      step s = exec i { go with focus := .drover n, verdict := .ran }) ∧
    (∀ i : Instr, s.agenda = .event i :: rest → encode i = none → i.wf = true →
      step s = exec i { go with focus := .none, verdict := .ran })

/-- NO STATE STOPS THE MACHINE: in every state, whatever move is next, the step answers a next state. -/
def Obligations.EveryStepGoesOn : Prop := ∀ s : State, s.goesOn

/-- THE MEMORIES KEEP THEIR CANONICAL FORM through every step, from every state in which they have it: tile storage, the
local memories and host memory. -/
def Obligations.StepKeepsMemoryCanonical : Prop := ∀ s t : State, s.canonical → step s = .next t → t.canonical

/-- What reset leaves (R18, R413): every layer of every tile is offline, no partition exists and no core holds a flock, no
queue is enabled, no scalar register but reads as 0 and p0 as true; the memories are canonical with nothing listed. Zero as
the value of the other registers and of memory is the model's choice (log entries 2 and 3). -/
def Obligations.ResetLeavesTheMachineOff : Prop :=
  State.reset.canonical ∧
    (∀ tile k, ((State.reset.tile tile).layer k).role = .offline) ∧ (∀ tile, (State.reset.tile tile).part = none) ∧
    (∀ n, (State.reset.part n).exists_ = false) ∧ (∀ n q, (State.reset.queue n q).en = false) ∧
    (∀ c, (State.reset.ctx c).flock = none ∧ (State.reset.ctx c).trap = none) ∧
    (∀ c st i, ((State.reset.ctx c).stream st).getG i = 0) ∧
    (∀ c st, ((State.reset.ctx c).stream st).getP 0 = true) ∧ State.reset.mem = [] ∧ State.reset.lm = [] ∧
    State.reset.reqs = [] ∧ State.reset.glob.rdy = false ∧ State.reset.glob.layer = 0

/-- THE FRAME OF THE WORDS. No operation of a word writes a byte of tile storage or of a local memory itself, and none but
those of the S stream a byte of host memory: what it stores lands when its access completes or its request reaches its home
(R154, R209). No other core changes but in its wait marks: its registers, queues, operand file and traps stay as they are. When host
memory takes what its ports hold, and the wait marks of the streams, are the model's own (log 55, DEDUCED). -/
def Obligations.WordsChangeNoMemoryAndNoOtherCore : Prop :=
  ∀ (i : Instr) (s t : State), i.place ≠ .notStream → exec i s = .next t →
    t.mem = s.mem ∧ t.lm = s.lm ∧ (i.place ≠ .s → t.hostMem = s.hostMem) ∧
      ∀ c, c ≠ s.core → (t.ctx c).wake = (s.ctx c).wake

/-- READING AFTER WRITING (R43): the bytes written read as they were written and every other byte as before; the canonical
form is kept, and it makes equal contents equal data. -/
def Obligations.MemoryReadsWhatWasWritten : Prop :=
  ∀ (m n : Memory) (a : Nat) (bs : List Byte), Memory.wf m = true →
    Memory.readN (Memory.writeN m a bs) a bs.length = bs ∧
    (∀ b, (b < a ∨ a + bs.length ≤ b) → Memory.read (Memory.writeN m a bs) b = Memory.read m b) ∧
    Memory.wf (Memory.writeN m a bs) = true ∧
    (Memory.wf n = true → (∀ b, Memory.read m b = Memory.read n b) → m = n)
end

