-- ==== Sys2Proof/Laws/Memory.lean ====
section
/-! SUPPORT. Keyed stores and byte stores: reading after writing, writing elsewhere, and the canonical form. -/

namespace Sys2Proof.Machine

/-! ## Keyed stores -/

@[simp] theorem mget_nil {α : Type} (d : α) (k : Nat) : mget d [] k = d := rfl

/-- A read after a write of the same key gives the value written. -/
@[simp] theorem mget_mset_same {α : Type} (d : α) (m : AMap α) (k : Nat) (v : α) : mget d (mset m k v) k = v := by
  induction m with
  | nil => simp [mset, mget]
  | cons e t ih =>
    obtain ⟨j, w⟩ := e
    unfold mset
    split
    · simp [mget]
    · split
      · simp [mget]
      · rename_i h1 h2
        have : j ≠ k := fun h => h2 h.symm
        simp [mget, this, ih]

/-- A write leaves every other key alone. -/
theorem mget_mset_ne {α : Type} (d : α) (m : AMap α) {j k : Nat} (v : α) (h : j ≠ k) : mget d (mset m k v) j = mget d m j := by
  induction m with
  | nil => simp [mset, mget, Ne.symm h]
  | cons e t ih =>
    obtain ⟨i, w⟩ := e
    unfold mset
    split
    · simp [mget, Ne.symm h]
    · split
      · rename_i h1 h2
        subst h2
        simp [mget, Ne.symm h]
      · simp [mget, ih]

/-- Removing a key makes it read as the default. -/
@[simp] theorem mget_mdel_same {α : Type} (d : α) (m : AMap α) (k : Nat) : mget d (mdel m k) k = d := by
  induction m with
  | nil => rfl
  | cons e t ih =>
    obtain ⟨j, w⟩ := e
    unfold mdel at *
    by_cases h : j = k
    · simpa [List.filter_cons, h] using ih
    · simpa [List.filter_cons, h, mget] using ih

/-- Removing a key leaves every other key alone. -/
theorem mget_mdel_ne {α : Type} (d : α) (m : AMap α) {j k : Nat} (h : j ≠ k) : mget d (mdel m k) j = mget d m j := by
  induction m with
  | nil => rfl
  | cons e t ih =>
    obtain ⟨i, w⟩ := e
    unfold mdel at *
    by_cases h' : i = k
    · subst h'
      simpa [List.filter_cons, mget, Ne.symm h] using ih
    · by_cases hj : i = j
      · subst hj
        simp [h', mget]
      · simp [h', mget, hj, ih]

/-! ## Byte stores -/

/-- A byte read after it is written is the byte written. -/
@[simp] theorem Memory.read_write_same (m : Memory) (a : Nat) (b : Byte) : Memory.read (Memory.write m a b) a = b := by
  unfold Memory.read Memory.write
  split
  · simp_all
  · simp

/-- A write of one byte leaves every other byte alone. -/
theorem Memory.read_write_ne (m : Memory) {a c : Nat} (b : Byte) (h : c ≠ a) :
    Memory.read (Memory.write m a b) c = Memory.read m c := by
  unfold Memory.read Memory.write
  split
  · exact mget_mdel_ne _ _ h
  · exact mget_mset_ne _ _ _ h

/-- A run of bytes leaves the bytes below it alone. -/
theorem Memory.read_writeN_below (m : Memory) (a c : Nat) (bs : List Byte) (h : c < a) :
    Memory.read (Memory.writeN m a bs) c = Memory.read m c := by
  induction bs generalizing m a with
  | nil => rfl
  | cons b t ih =>
    unfold Memory.writeN
    rw [ih _ _ (by omega), Memory.read_write_ne _ _ (by omega)]

/-- A byte of a run reads back. -/
theorem Memory.read_writeN_inside (m : Memory) (a : Nat) (bs : List Byte) (i : Nat) (h : i < bs.length) :
    Memory.read (Memory.writeN m a bs) (a + i) = bs[i] := by
  induction bs generalizing m a i with
  | nil => simp at h
  | cons b t ih =>
    unfold Memory.writeN
    cases i with
    | zero => simp [Memory.read_writeN_below]
    | succ i =>
      have := ih (Memory.write m a b) (a + 1) i (by simpa using h)
      simpa [Nat.add_assoc, Nat.add_comm 1 i] using this

/-- A run of bytes leaves every byte outside it alone. -/
theorem Memory.read_writeN_outside (m : Memory) (a c : Nat) (bs : List Byte) (h : c < a ∨ a + bs.length ≤ c) :
    Memory.read (Memory.writeN m a bs) c = Memory.read m c := by
  induction bs generalizing m a with
  | nil => rfl
  | cons b t ih =>
    simp only [List.length_cons] at h
    unfold Memory.writeN
    rw [ih _ _ (by omega), Memory.read_write_ne _ _ (by omega)]

/-- What a run wrote is what the same run reads. -/
theorem Memory.readN_writeN (m : Memory) (a : Nat) (bs : List Byte) :
    Memory.readN (Memory.writeN m a bs) a bs.length = bs := by
  apply List.ext_getElem
  · simp [Memory.readN]
  · intro i h1 h2
    simp [Memory.readN, Memory.read_writeN_inside _ _ _ _ h2]

/-! ## The canonical form -/

theorem Memory.wf_iff (m : Memory) :
    Memory.wf m = true ↔ m.Pairwise (fun a b => a.1 < b.1) ∧ ∀ e ∈ m, e.2 ≠ 0 := by
  simp [Memory.wf]

/-- The keys of a store after a write are its old keys and the key written. -/
theorem mem_mset {α : Type} (m : AMap α) (k : Nat) (v : α) (e : Nat × α) (h : e ∈ mset m k v) : e = (k, v) ∨ e ∈ m := by
  induction m with
  | nil => simpa [mset] using h
  | cons x t ih =>
    obtain ⟨j, w⟩ := x
    unfold mset at h
    split at h
    · simpa using h
    · split at h
      · rcases List.mem_cons.1 h with h | h
        · exact .inl h
        · exact .inr (List.mem_cons_of_mem _ h)
      · rcases List.mem_cons.1 h with h | h
        · exact .inr (h ▸ List.mem_cons_self)
        · exact (ih h).imp_right (List.mem_cons_of_mem _)

/-- A write keeps the keys rising. -/
theorem pairwise_mset {α : Type} (m : AMap α) (k : Nat) (v : α) (h : m.Pairwise fun a b => a.1 < b.1) :
    (mset m k v).Pairwise fun a b => a.1 < b.1 := by
  induction m with
  | nil => simp [mset]
  | cons x t ih =>
    obtain ⟨j, w⟩ := x
    rw [List.pairwise_cons] at h
    unfold mset
    split
    · rename_i hk
      refine List.pairwise_cons.2 ⟨?_, List.pairwise_cons.2 h⟩
      intro e he
      rcases List.mem_cons.1 he with rfl | he
      · exact hk
      · exact Nat.lt_trans hk (h.1 e he)
    · split
      · rename_i h1 h2
        subst h2
        exact List.pairwise_cons.2 ⟨h.1, h.2⟩
      · rename_i h1 h2
        refine List.pairwise_cons.2 ⟨?_, ih h.2⟩
        intro e he
        rcases mem_mset t k v e he with rfl | he
        · simp only; omega
        · exact h.1 e he

/-- A write of one byte keeps the canonical form. -/
theorem Memory.wf_write (m : Memory) (a : Nat) (b : Byte) (h : Memory.wf m = true) : Memory.wf (Memory.write m a b) = true := by
  rw [Memory.wf_iff] at *
  unfold Memory.write
  split
  · exact ⟨h.1.filter _, fun e he => h.2 e (List.mem_of_mem_filter he)⟩
  · rename_i hb
    refine ⟨pairwise_mset m a b h.1, fun e he => ?_⟩
    rcases mem_mset m a b e he with rfl | he
    · exact hb
    · exact h.2 e he

/-- A write of a run keeps the canonical form. -/
theorem Memory.wf_writeN (m : Memory) (a : Nat) (bs : List Byte) (h : Memory.wf m = true) :
    Memory.wf (Memory.writeN m a bs) = true := by
  induction bs generalizing m a with
  | nil => exact h
  | cons b t ih => exact ih _ _ (Memory.wf_write m a b h)

/-- Writes one after another, as a fold makes them, keep the canonical form. -/
theorem Memory.wf_foldl {α : Type} (f : Memory → α → Memory) (xs : List α) (m : Memory)
    (hf : ∀ m x, Memory.wf m = true → Memory.wf (f m x) = true) (h : Memory.wf m = true) :
    Memory.wf (xs.foldl f m) = true := by
  induction xs generalizing m with
  | nil => exact h
  | cons x t ih => exact ih _ (hf m x h)

/-- Leaving entries out keeps the canonical form. -/
theorem Memory.wf_filter (m : Memory) (p : Host.Cell → Bool) (h : Memory.wf m = true) : Memory.wf (m.filter p) = true := by
  rw [Memory.wf_iff] at *
  exact ⟨h.1.filter _, fun e he => h.2 e (List.mem_of_mem_filter he)⟩

/-- Landing a result keeps the operand file canonical. -/
theorem wf_landOne (m : Memory) (l : Landing) (h : Memory.wf m = true) : Memory.wf (landOne m l) = true :=
  Memory.wf_foldl _ _ _ (fun m e hm => Memory.wf_write m e.1 e.2 hm) h

/-- The three memories of the machine after reset have the canonical form, with nothing listed. -/
theorem reset_memories_wf :
    Memory.wf State.reset.mem = true ∧ Memory.wf State.reset.lm = true ∧ Memory.wf State.reset.hostMem = true := by decide

end Sys2Proof.Machine
end

