-- ==== Sys2Proof/Laws/PerInstr.lean ====
section
/-! SUPPORT. One lemma per instruction: an operation has an encoding in syllables exactly where the tables of the streams
give it a place. -/

/-- The encoder gives the instruction syllables exactly if it is an operation of a stream (R112 to R137). -/
def Sys2Proof.Laws.Encoding.Statement (i : Sys2Proof.Instr) : Prop :=
  (Sys2Proof.encodeOp i).isSome = (i.place != Sys2Proof.Place.notStream)

theorem Sys2Proof.Laws.Encoding.nop : Sys2Proof.Laws.Encoding.Statement (.nop) := rfl
theorem Sys2Proof.Laws.Encoding.movi (gd) (d) (imm) : Sys2Proof.Laws.Encoding.Statement (.movi gd d imm) := rfl
theorem Sys2Proof.Laws.Encoding.moviWide (gd) (d) (imm) : Sys2Proof.Laws.Encoding.Statement (.moviWide gd d imm) := rfl
theorem Sys2Proof.Laws.Encoding.movhi (gd) (d) (imm) : Sys2Proof.Laws.Encoding.Statement (.movhi gd d imm) := rfl
theorem Sys2Proof.Laws.Encoding.movhiWide (gd) (d) (imm) : Sys2Proof.Laws.Encoding.Statement (.movhiWide gd d imm) := rfl
theorem Sys2Proof.Laws.Encoding.mov (gd) (d) (a) : Sys2Proof.Laws.Encoding.Statement (.mov gd d a) := rfl
theorem Sys2Proof.Laws.Encoding.add (gd) (d) (a) (b) : Sys2Proof.Laws.Encoding.Statement (.add gd d a b) := rfl
theorem Sys2Proof.Laws.Encoding.addWide (gd) (d) (a) (imm) : Sys2Proof.Laws.Encoding.Statement (.addWide gd d a imm) := rfl
theorem Sys2Proof.Laws.Encoding.addi (gd) (d) (imm) : Sys2Proof.Laws.Encoding.Statement (.addi gd d imm) := rfl
theorem Sys2Proof.Laws.Encoding.addiWide (gd) (d) (imm) : Sys2Proof.Laws.Encoding.Statement (.addiWide gd d imm) := rfl
theorem Sys2Proof.Laws.Encoding.sub (gd) (d) (a) (b) : Sys2Proof.Laws.Encoding.Statement (.sub gd d a b) := rfl
theorem Sys2Proof.Laws.Encoding.subWide (gd) (d) (a) (imm) : Sys2Proof.Laws.Encoding.Statement (.subWide gd d a imm) := rfl
theorem Sys2Proof.Laws.Encoding.mul (gd) (d) (a) (b) : Sys2Proof.Laws.Encoding.Statement (.mul gd d a b) := rfl
theorem Sys2Proof.Laws.Encoding.mulWide (gd) (d) (a) (imm) : Sys2Proof.Laws.Encoding.Statement (.mulWide gd d a imm) := rfl
theorem Sys2Proof.Laws.Encoding.mulh (gd) (d) (a) (b) : Sys2Proof.Laws.Encoding.Statement (.mulh gd d a b) := rfl
theorem Sys2Proof.Laws.Encoding.mulhN (gd) (d) (a) (b) : Sys2Proof.Laws.Encoding.Statement (.mulhN gd d a b) := rfl
theorem Sys2Proof.Laws.Encoding.and (gd) (d) (a) (b) : Sys2Proof.Laws.Encoding.Statement (.and gd d a b) := rfl
theorem Sys2Proof.Laws.Encoding.andWide (gd) (d) (a) (imm) : Sys2Proof.Laws.Encoding.Statement (.andWide gd d a imm) := rfl
theorem Sys2Proof.Laws.Encoding.andn (gd) (d) (a) (b) : Sys2Proof.Laws.Encoding.Statement (.andn gd d a b) := rfl
theorem Sys2Proof.Laws.Encoding.andnWide (gd) (d) (a) (imm) : Sys2Proof.Laws.Encoding.Statement (.andnWide gd d a imm) := rfl
theorem Sys2Proof.Laws.Encoding.or (gd) (d) (a) (b) : Sys2Proof.Laws.Encoding.Statement (.or gd d a b) := rfl
theorem Sys2Proof.Laws.Encoding.orWide (gd) (d) (a) (imm) : Sys2Proof.Laws.Encoding.Statement (.orWide gd d a imm) := rfl
theorem Sys2Proof.Laws.Encoding.xor (gd) (d) (a) (b) : Sys2Proof.Laws.Encoding.Statement (.xor gd d a b) := rfl
theorem Sys2Proof.Laws.Encoding.xorWide (gd) (d) (a) (imm) : Sys2Proof.Laws.Encoding.Statement (.xorWide gd d a imm) := rfl
theorem Sys2Proof.Laws.Encoding.shl (gd) (d) (a) (b) : Sys2Proof.Laws.Encoding.Statement (.shl gd d a b) := rfl
theorem Sys2Proof.Laws.Encoding.shr (gd) (d) (a) (b) : Sys2Proof.Laws.Encoding.Statement (.shr gd d a b) := rfl
theorem Sys2Proof.Laws.Encoding.sar (gd) (d) (a) (b) : Sys2Proof.Laws.Encoding.Statement (.sar gd d a b) := rfl
theorem Sys2Proof.Laws.Encoding.rot (gd) (d) (a) (b) : Sys2Proof.Laws.Encoding.Statement (.rot gd d a b) := rfl
theorem Sys2Proof.Laws.Encoding.clz (gd) (d) (a) : Sys2Proof.Laws.Encoding.Statement (.clz gd d a) := rfl
theorem Sys2Proof.Laws.Encoding.popc (gd) (d) (a) : Sys2Proof.Laws.Encoding.Statement (.popc gd d a) := rfl
theorem Sys2Proof.Laws.Encoding.min (gd) (d) (a) (b) : Sys2Proof.Laws.Encoding.Statement (.min gd d a b) := rfl
theorem Sys2Proof.Laws.Encoding.minWide (gd) (d) (a) (imm) : Sys2Proof.Laws.Encoding.Statement (.minWide gd d a imm) := rfl
theorem Sys2Proof.Laws.Encoding.minN (gd) (d) (a) (b) : Sys2Proof.Laws.Encoding.Statement (.minN gd d a b) := rfl
theorem Sys2Proof.Laws.Encoding.minNWide (gd) (d) (a) (imm) : Sys2Proof.Laws.Encoding.Statement (.minNWide gd d a imm) := rfl
theorem Sys2Proof.Laws.Encoding.max (gd) (d) (a) (b) : Sys2Proof.Laws.Encoding.Statement (.max gd d a b) := rfl
theorem Sys2Proof.Laws.Encoding.maxWide (gd) (d) (a) (imm) : Sys2Proof.Laws.Encoding.Statement (.maxWide gd d a imm) := rfl
theorem Sys2Proof.Laws.Encoding.maxN (gd) (d) (a) (b) : Sys2Proof.Laws.Encoding.Statement (.maxN gd d a b) := rfl
theorem Sys2Proof.Laws.Encoding.maxNWide (gd) (d) (a) (imm) : Sys2Proof.Laws.Encoding.Statement (.maxNWide gd d a imm) := rfl
theorem Sys2Proof.Laws.Encoding.cmp (gd) (pd) (cc) (a) (b) : Sys2Proof.Laws.Encoding.Statement (.cmp gd pd cc a b) := rfl
theorem Sys2Proof.Laws.Encoding.cmpWide (gd) (pd) (cc) (a) (imm) : Sys2Proof.Laws.Encoding.Statement (.cmpWide gd pd cc a imm) := rfl
theorem Sys2Proof.Laws.Encoding.sel (gd) (d) (a) (b) (ps) : Sys2Proof.Laws.Encoding.Statement (.sel gd d a b ps) := rfl
theorem Sys2Proof.Laws.Encoding.br (gd) (off) : Sys2Proof.Laws.Encoding.Statement (.br gd off) := rfl
theorem Sys2Proof.Laws.Encoding.brBq (off) : Sys2Proof.Laws.Encoding.Statement (.brBq off) := rfl
theorem Sys2Proof.Laws.Encoding.jmp (gd) (off) : Sys2Proof.Laws.Encoding.Statement (.jmp gd off) := rfl
theorem Sys2Proof.Laws.Encoding.jmpReg (gd) (a) : Sys2Proof.Laws.Encoding.Statement (.jmpReg gd a) := rfl
theorem Sys2Proof.Laws.Encoding.call (gd) (off) : Sys2Proof.Laws.Encoding.Statement (.call gd off) := rfl
theorem Sys2Proof.Laws.Encoding.callReg (gd) (a) : Sys2Proof.Laws.Encoding.Statement (.callReg gd a) := rfl
theorem Sys2Proof.Laws.Encoding.ret (gd) : Sys2Proof.Laws.Encoding.Statement (.ret gd) := rfl
theorem Sys2Proof.Laws.Encoding.loop (gd) (a) (body) : Sys2Proof.Laws.Encoding.Statement (.loop gd a body) := rfl
theorem Sys2Proof.Laws.Encoding.rdsr (gd) (d) (srn) : Sys2Proof.Laws.Encoding.Statement (.rdsr gd d srn) := rfl
theorem Sys2Proof.Laws.Encoding.wrsr (gd) (a) (srn) : Sys2Proof.Laws.Encoding.Statement (.wrsr gd a srn) := rfl
theorem Sys2Proof.Laws.Encoding.trap (gd) (code) : Sys2Proof.Laws.Encoding.Statement (.trap gd code) := rfl
theorem Sys2Proof.Laws.Encoding.fin (gd) : Sys2Proof.Laws.Encoding.Statement (.fin gd) := rfl
theorem Sys2Proof.Laws.Encoding.sectionHeader (h) : Sys2Proof.Laws.Encoding.Statement (.sectionHeader h) := rfl
theorem Sys2Proof.Laws.Encoding.sectionRetire (c) (st) : Sys2Proof.Laws.Encoding.Statement (.sectionRetire c st) := rfl
theorem Sys2Proof.Laws.Encoding.ld (gd) (d) (a) (sz) (sx) : Sys2Proof.Laws.Encoding.Statement (.ld gd d a sz sx) := rfl
theorem Sys2Proof.Laws.Encoding.ldOffset (gd) (d) (a) (sz) (sx) (off) : Sys2Proof.Laws.Encoding.Statement (.ldOffset gd d a sz sx off) := rfl
theorem Sys2Proof.Laws.Encoding.ldl (gd) (d) (a) (sz) (sx) : Sys2Proof.Laws.Encoding.Statement (.ldl gd d a sz sx) := rfl
theorem Sys2Proof.Laws.Encoding.ldlQ (gd) (q) (a) (e) : Sys2Proof.Laws.Encoding.Statement (.ldlQ gd q a e) := rfl
theorem Sys2Proof.Laws.Encoding.ldlOffset (gd) (f) (a) (off) : Sys2Proof.Laws.Encoding.Statement (.ldlOffset gd f a off) := rfl
theorem Sys2Proof.Laws.Encoding.ldr (gd) (q) (a) (e) : Sys2Proof.Laws.Encoding.Statement (.ldr gd q a e) := rfl
theorem Sys2Proof.Laws.Encoding.ldrOffset (gd) (q) (a) (e) (off) : Sys2Proof.Laws.Encoding.Statement (.ldrOffset gd q a e off) := rfl
theorem Sys2Proof.Laws.Encoding.lds (gd) (q) (st) : Sys2Proof.Laws.Encoding.Statement (.lds gd q st) := rfl
theorem Sys2Proof.Laws.Encoding.gath (gd) (q) (sp) (esz) (a) (b) : Sys2Proof.Laws.Encoding.Statement (.gath gd q sp esz a b) := rfl
theorem Sys2Proof.Laws.Encoding.gathN (gd) (q) (sp) (esz) (a) (b) (nm1) : Sys2Proof.Laws.Encoding.Statement (.gathN gd q sp esz a b nm1) := rfl
theorem Sys2Proof.Laws.Encoding.stcfg (gd) (st) (a) : Sys2Proof.Laws.Encoding.Statement (.stcfg gd st a) := rfl
theorem Sys2Proof.Laws.Encoding.stcfgOffset (gd) (st) (a) (off) : Sys2Proof.Laws.Encoding.Statement (.stcfgOffset gd st a off) := rfl
theorem Sys2Proof.Laws.Encoding.stadv (gd) (st) (a) (b) : Sys2Proof.Laws.Encoding.Statement (.stadv gd st a b) := rfl
theorem Sys2Proof.Laws.Encoding.stadvSkip (gd) (st) (a) : Sys2Proof.Laws.Encoding.Statement (.stadvSkip gd st a) := rfl
theorem Sys2Proof.Laws.Encoding.stadvImm (gd) (st) (skip) (b) (imm) : Sys2Proof.Laws.Encoding.Statement (.stadvImm gd st skip b imm) := rfl
theorem Sys2Proof.Laws.Encoding.pref (gd) (lvl) (a) (n) : Sys2Proof.Laws.Encoding.Statement (.pref gd lvl a n) := rfl
theorem Sys2Proof.Laws.Encoding.prefOffset (gd) (lvl) (a) (n) (off) : Sys2Proof.Laws.Encoding.Statement (.prefOffset gd lvl a n off) := rfl
theorem Sys2Proof.Laws.Encoding.ldlay (gd) (d) (a) (k) : Sys2Proof.Laws.Encoding.Statement (.ldlay gd d a k) := rfl
theorem Sys2Proof.Laws.Encoding.ldlayOffset (gd) (d) (a) (k) (off) : Sys2Proof.Laws.Encoding.Statement (.ldlayOffset gd d a k off) := rfl
theorem Sys2Proof.Laws.Encoding.fenceLayout (gd) : Sys2Proof.Laws.Encoding.Statement (.fenceLayout gd) := rfl
theorem Sys2Proof.Laws.Encoding.qpush (gd) (q) (sz) (a) : Sys2Proof.Laws.Encoding.Statement (.qpush gd q sz a) := rfl
theorem Sys2Proof.Laws.Encoding.bqpush (gd) (ps) (inv) : Sys2Proof.Laws.Encoding.Statement (.bqpush gd ps inv) := rfl
theorem Sys2Proof.Laws.Encoding.recv (gd) (q) (h) (e) : Sys2Proof.Laws.Encoding.Statement (.recv gd q h e) := rfl
theorem Sys2Proof.Laws.Encoding.recvTry (gd) (q) (h) (e) (pd) : Sys2Proof.Laws.Encoding.Statement (.recvTry gd q h e pd) := rfl
theorem Sys2Proof.Laws.Encoding.lAccessComplete (c) : Sys2Proof.Laws.Encoding.Statement (.lAccessComplete c) := rfl
theorem Sys2Proof.Laws.Encoding.st (gd) (b) (a) (sz) : Sys2Proof.Laws.Encoding.Statement (.st gd b a sz) := rfl
theorem Sys2Proof.Laws.Encoding.stQ (gd) (q) (a) (e) : Sys2Proof.Laws.Encoding.Statement (.stQ gd q a e) := rfl
theorem Sys2Proof.Laws.Encoding.stOffset (gd) (f) (a) (off) : Sys2Proof.Laws.Encoding.Statement (.stOffset gd f a off) := rfl
theorem Sys2Proof.Laws.Encoding.stl (gd) (b) (a) (sz) : Sys2Proof.Laws.Encoding.Statement (.stl gd b a sz) := rfl
theorem Sys2Proof.Laws.Encoding.stlQ (gd) (q) (a) (e) : Sys2Proof.Laws.Encoding.Statement (.stlQ gd q a e) := rfl
theorem Sys2Proof.Laws.Encoding.stlOffset (gd) (f) (a) (off) : Sys2Proof.Laws.Encoding.Statement (.stlOffset gd f a off) := rfl
theorem Sys2Proof.Laws.Encoding.str (gd) (q) (a) (f) (e) : Sys2Proof.Laws.Encoding.Statement (.str gd q a f e) := rfl
theorem Sys2Proof.Laws.Encoding.strOffset (gd) (q) (a) (f) (e) (off) (sc) : Sys2Proof.Laws.Encoding.Statement (.strOffset gd q a f e off sc) := by
  cases sc <;> rfl
theorem Sys2Proof.Laws.Encoding.sAccessComplete (c) : Sys2Proof.Laws.Encoding.Statement (.sAccessComplete c) := rfl
theorem Sys2Proof.Laws.Encoding.pushReg (gd) (sc) (b) : Sys2Proof.Laws.Encoding.Statement (.pushReg gd sc b) := rfl
theorem Sys2Proof.Laws.Encoding.pushSq (gd) (sc) (q) : Sys2Proof.Laws.Encoding.Statement (.pushSq gd sc q) := rfl
theorem Sys2Proof.Laws.Encoding.pop (gd) (f) (d) : Sys2Proof.Laws.Encoding.Statement (.pop gd f d) := rfl
theorem Sys2Proof.Laws.Encoding.popTry (gd) (f) (d) (pd) : Sys2Proof.Laws.Encoding.Statement (.popTry gd f d pd) := rfl
theorem Sys2Proof.Laws.Encoding.rgx (gd) (d) (a) (b) : Sys2Proof.Laws.Encoding.Statement (.rgx gd d a b) := rfl
theorem Sys2Proof.Laws.Encoding.rgxImm (gd) (d) (a) (exp) (new) : Sys2Proof.Laws.Encoding.Statement (.rgxImm gd d a exp new) := rfl
theorem Sys2Proof.Laws.Encoding.fence (gd) (sc) : Sys2Proof.Laws.Encoding.Statement (.fence gd sc) := rfl
theorem Sys2Proof.Laws.Encoding.waita (gd) (a) (b) : Sys2Proof.Laws.Encoding.Statement (.waita gd a b) := rfl
theorem Sys2Proof.Laws.Encoding.waitaNb (gd) (a) (b) : Sys2Proof.Laws.Encoding.Statement (.waitaNb gd a b) := rfl
theorem Sys2Proof.Laws.Encoding.waitaOffset (gd) (nb) (a) (b) (off) : Sys2Proof.Laws.Encoding.Statement (.waitaOffset gd nb a b off) := rfl
theorem Sys2Proof.Laws.Encoding.monitorArm (c) : Sys2Proof.Laws.Encoding.Statement (.monitorArm c) := rfl
theorem Sys2Proof.Laws.Encoding.barArrive (gd) (bar) : Sys2Proof.Laws.Encoding.Statement (.barArrive gd bar) := rfl
theorem Sys2Proof.Laws.Encoding.barWait (gd) (bar) (d) : Sys2Proof.Laws.Encoding.Statement (.barWait gd bar d) := rfl
theorem Sys2Proof.Laws.Encoding.barArwt (gd) (bar) (d) : Sys2Proof.Laws.Encoding.Statement (.barArwt gd bar d) := rfl
theorem Sys2Proof.Laws.Encoding.barrierArrival (c) : Sys2Proof.Laws.Encoding.Statement (.barrierArrival c) := rfl
theorem Sys2Proof.Laws.Encoding.barrierPhaseComplete (fl) (key) : Sys2Proof.Laws.Encoding.Statement (.barrierPhaseComplete fl key) := rfl
theorem Sys2Proof.Laws.Encoding.trig (gd) : Sys2Proof.Laws.Encoding.Statement (.trig gd) := rfl
theorem Sys2Proof.Laws.Encoding.send (gd) (q) (h) (e) : Sys2Proof.Laws.Encoding.Statement (.send gd q h e) := rfl
theorem Sys2Proof.Laws.Encoding.sendTry (gd) (q) (h) (e) (pd) : Sys2Proof.Laws.Encoding.Statement (.sendTry gd q h e pd) := rfl
theorem Sys2Proof.Laws.Encoding.vadd (gd) (d) (a) (b) (ty) : Sys2Proof.Laws.Encoding.Statement (.vadd gd d a b ty) := rfl
theorem Sys2Proof.Laws.Encoding.vsub (gd) (d) (a) (b) (ty) : Sys2Proof.Laws.Encoding.Statement (.vsub gd d a b ty) := rfl
theorem Sys2Proof.Laws.Encoding.vmul (gd) (d) (a) (b) (ty) : Sys2Proof.Laws.Encoding.Statement (.vmul gd d a b ty) := rfl
theorem Sys2Proof.Laws.Encoding.vmulh (gd) (d) (a) (b) (ty) : Sys2Proof.Laws.Encoding.Statement (.vmulh gd d a b ty) := rfl
theorem Sys2Proof.Laws.Encoding.vmad (gd) (d) (a) (b) (ty) : Sys2Proof.Laws.Encoding.Statement (.vmad gd d a b ty) := rfl
theorem Sys2Proof.Laws.Encoding.vand (gd) (d) (a) (b) : Sys2Proof.Laws.Encoding.Statement (.vand gd d a b) := rfl
theorem Sys2Proof.Laws.Encoding.vor (gd) (d) (a) (b) : Sys2Proof.Laws.Encoding.Statement (.vor gd d a b) := rfl
theorem Sys2Proof.Laws.Encoding.vxor (gd) (d) (a) (b) : Sys2Proof.Laws.Encoding.Statement (.vxor gd d a b) := rfl
theorem Sys2Proof.Laws.Encoding.vlop3 (gd) (d) (a) (b) (c) (k8) : Sys2Proof.Laws.Encoding.Statement (.vlop3 gd d a b c k8) := rfl
theorem Sys2Proof.Laws.Encoding.vshl (gd) (d) (a) (b) (ty) : Sys2Proof.Laws.Encoding.Statement (.vshl gd d a b ty) := rfl
theorem Sys2Proof.Laws.Encoding.vshr (gd) (d) (a) (b) (ty) : Sys2Proof.Laws.Encoding.Statement (.vshr gd d a b ty) := rfl
theorem Sys2Proof.Laws.Encoding.vsar (gd) (d) (a) (b) (ty) : Sys2Proof.Laws.Encoding.Statement (.vsar gd d a b ty) := rfl
theorem Sys2Proof.Laws.Encoding.vfshl (gd) (d) (a) (b) (amt) (ty) : Sys2Proof.Laws.Encoding.Statement (.vfshl gd d a b amt ty) := rfl
theorem Sys2Proof.Laws.Encoding.vfshr (gd) (d) (a) (b) (amt) (ty) : Sys2Proof.Laws.Encoding.Statement (.vfshr gd d a b amt ty) := rfl
theorem Sys2Proof.Laws.Encoding.vpopc (gd) (d) (a) (ty) : Sys2Proof.Laws.Encoding.Statement (.vpopc gd d a ty) := rfl
theorem Sys2Proof.Laws.Encoding.vclz (gd) (d) (a) (ty) : Sys2Proof.Laws.Encoding.Statement (.vclz gd d a ty) := rfl
theorem Sys2Proof.Laws.Encoding.vmin (gd) (d) (a) (b) (ty) : Sys2Proof.Laws.Encoding.Statement (.vmin gd d a b ty) := rfl
theorem Sys2Proof.Laws.Encoding.vmax (gd) (d) (a) (b) (ty) : Sys2Proof.Laws.Encoding.Statement (.vmax gd d a b ty) := rfl
theorem Sys2Proof.Laws.Encoding.vabs (gd) (d) (a) (ty) : Sys2Proof.Laws.Encoding.Statement (.vabs gd d a ty) := rfl
theorem Sys2Proof.Laws.Encoding.vcmpEq (gd) (d) (a) (b) (ty) : Sys2Proof.Laws.Encoding.Statement (.vcmpEq gd d a b ty) := rfl
theorem Sys2Proof.Laws.Encoding.vcmpNe (gd) (d) (a) (b) (ty) : Sys2Proof.Laws.Encoding.Statement (.vcmpNe gd d a b ty) := rfl
theorem Sys2Proof.Laws.Encoding.vcmpLt (gd) (d) (a) (b) (ty) : Sys2Proof.Laws.Encoding.Statement (.vcmpLt gd d a b ty) := rfl
theorem Sys2Proof.Laws.Encoding.vcmpLe (gd) (d) (a) (b) (ty) : Sys2Proof.Laws.Encoding.Statement (.vcmpLe gd d a b ty) := rfl
theorem Sys2Proof.Laws.Encoding.vsel (gd) (d) (a) (b) (c) (ty) : Sys2Proof.Laws.Encoding.Statement (.vsel gd d a b c ty) := rfl
theorem Sys2Proof.Laws.Encoding.fadd (gd) (d) (a) (b) (ty) : Sys2Proof.Laws.Encoding.Statement (.fadd gd d a b ty) := rfl
theorem Sys2Proof.Laws.Encoding.fsub (gd) (d) (a) (b) (ty) : Sys2Proof.Laws.Encoding.Statement (.fsub gd d a b ty) := rfl
theorem Sys2Proof.Laws.Encoding.fmul (gd) (d) (a) (b) (ty) : Sys2Proof.Laws.Encoding.Statement (.fmul gd d a b ty) := rfl
theorem Sys2Proof.Laws.Encoding.ffma (gd) (d) (a) (b) (ty) : Sys2Proof.Laws.Encoding.Statement (.ffma gd d a b ty) := rfl
theorem Sys2Proof.Laws.Encoding.fmin (gd) (d) (a) (b) (ty) : Sys2Proof.Laws.Encoding.Statement (.fmin gd d a b ty) := rfl
theorem Sys2Proof.Laws.Encoding.fmax (gd) (d) (a) (b) (ty) : Sys2Proof.Laws.Encoding.Statement (.fmax gd d a b ty) := rfl
theorem Sys2Proof.Laws.Encoding.fabs (gd) (d) (a) (ty) : Sys2Proof.Laws.Encoding.Statement (.fabs gd d a ty) := rfl
theorem Sys2Proof.Laws.Encoding.fneg (gd) (d) (a) (ty) : Sys2Proof.Laws.Encoding.Statement (.fneg gd d a ty) := rfl
theorem Sys2Proof.Laws.Encoding.fcmpEq (gd) (d) (a) (b) (ty) : Sys2Proof.Laws.Encoding.Statement (.fcmpEq gd d a b ty) := rfl
theorem Sys2Proof.Laws.Encoding.fcmpNe (gd) (d) (a) (b) (ty) : Sys2Proof.Laws.Encoding.Statement (.fcmpNe gd d a b ty) := rfl
theorem Sys2Proof.Laws.Encoding.fcmpLt (gd) (d) (a) (b) (ty) : Sys2Proof.Laws.Encoding.Statement (.fcmpLt gd d a b ty) := rfl
theorem Sys2Proof.Laws.Encoding.fcmpLe (gd) (d) (a) (b) (ty) : Sys2Proof.Laws.Encoding.Statement (.fcmpLe gd d a b ty) := rfl
theorem Sys2Proof.Laws.Encoding.frcp (gd) (d) (a) (ty) : Sys2Proof.Laws.Encoding.Statement (.frcp gd d a ty) := rfl
theorem Sys2Proof.Laws.Encoding.frsq (gd) (d) (a) (ty) : Sys2Proof.Laws.Encoding.Statement (.frsq gd d a ty) := rfl
theorem Sys2Proof.Laws.Encoding.fexp2 (gd) (d) (a) (ty) : Sys2Proof.Laws.Encoding.Statement (.fexp2 gd d a ty) := rfl
theorem Sys2Proof.Laws.Encoding.flog2 (gd) (d) (a) (ty) : Sys2Proof.Laws.Encoding.Statement (.flog2 gd d a ty) := rfl
theorem Sys2Proof.Laws.Encoding.vperm (gd) (d) (a) (b) (ty) : Sys2Proof.Laws.Encoding.Statement (.vperm gd d a b ty) := rfl
theorem Sys2Proof.Laws.Encoding.vbcast (gd) (d) (a) (lane) (ty) : Sys2Proof.Laws.Encoding.Statement (.vbcast gd d a lane ty) := rfl
theorem Sys2Proof.Laws.Encoding.vbcastG (gd) (d) (c) (ty) : Sys2Proof.Laws.Encoding.Statement (.vbcastG gd d c ty) := rfl
theorem Sys2Proof.Laws.Encoding.vrotl (gd) (d) (a) (k) (ty) : Sys2Proof.Laws.Encoding.Statement (.vrotl gd d a k ty) := rfl
theorem Sys2Proof.Laws.Encoding.vrotlG (gd) (d) (a) (c) (ty) : Sys2Proof.Laws.Encoding.Statement (.vrotlG gd d a c ty) := rfl
theorem Sys2Proof.Laws.Encoding.vcomp (gd) (d) (a) (b) (ty) : Sys2Proof.Laws.Encoding.Statement (.vcomp gd d a b ty) := rfl
theorem Sys2Proof.Laws.Encoding.vred (gd) (d) (a) (op) (ty) : Sys2Proof.Laws.Encoding.Statement (.vred gd d a op ty) := rfl
theorem Sys2Proof.Laws.Encoding.fred (gd) (d) (a) (op) (ty) : Sys2Proof.Laws.Encoding.Statement (.fred gd d a op ty) := rfl
theorem Sys2Proof.Laws.Encoding.vredm (gd) (d) (a) (b) (ty) : Sys2Proof.Laws.Encoding.Statement (.vredm gd d a b ty) := rfl
theorem Sys2Proof.Laws.Encoding.fredm (gd) (d) (a) (b) (ty) : Sys2Proof.Laws.Encoding.Statement (.fredm gd d a b ty) := rfl
theorem Sys2Proof.Laws.Encoding.qpop (gd) (d) (q) : Sys2Proof.Laws.Encoding.Statement (.qpop gd d q) := rfl
theorem Sys2Proof.Laws.Encoding.qput (gd) (n8) (q) (b) : Sys2Proof.Laws.Encoding.Statement (.qput gd n8 q b) := rfl
theorem Sys2Proof.Laws.Encoding.view (gd) (k) (n) (w) (imm) : Sys2Proof.Laws.Encoding.Statement (.view gd k n w imm) := rfl
theorem Sys2Proof.Laws.Encoding.rotb (gd) : Sys2Proof.Laws.Encoding.Statement (.rotb gd) := rfl
theorem Sys2Proof.Laws.Encoding.loopst (gd) (ns) (rt) : Sys2Proof.Laws.Encoding.Statement (.loopst gd ns rt) := rfl
theorem Sys2Proof.Laws.Encoding.resultLanding (c) (ix) : Sys2Proof.Laws.Encoding.Statement (.resultLanding c ix) := rfl
theorem Sys2Proof.Laws.Encoding.cvt (gd) (d) (a) (cf) (part) : Sys2Proof.Laws.Encoding.Statement (.cvt gd d a cf part) := rfl
theorem Sys2Proof.Laws.Encoding.qmx (gd) (d) (a) (cf) (part) : Sys2Proof.Laws.Encoding.Statement (.qmx gd d a cf part) := rfl
theorem Sys2Proof.Laws.Encoding.qtrl (gd) (d) (cf) : Sys2Proof.Laws.Encoding.Statement (.qtrl gd d cf) := rfl
theorem Sys2Proof.Laws.Encoding.qstat (gd) (tid) : Sys2Proof.Laws.Encoding.Statement (.qstat gd tid) := rfl
theorem Sys2Proof.Laws.Encoding.qstatClr (gd) (tid) : Sys2Proof.Laws.Encoding.Statement (.qstatClr gd tid) := rfl
theorem Sys2Proof.Laws.Encoding.mxsetHdr (gd) (a) : Sys2Proof.Laws.Encoding.Statement (.mxsetHdr gd a) := rfl
theorem Sys2Proof.Laws.Encoding.mxsetLvl (gd) (a) : Sys2Proof.Laws.Encoding.Statement (.mxsetLvl gd a) := rfl
theorem Sys2Proof.Laws.Encoding.mxbindG (gd) (role) (b) : Sys2Proof.Laws.Encoding.Statement (.mxbindG gd role b) := rfl
theorem Sys2Proof.Laws.Encoding.mxbindView (gd) (role) (kind) (n) : Sys2Proof.Laws.Encoding.Statement (.mxbindView gd role kind n) := rfl
theorem Sys2Proof.Laws.Encoding.mxgrp (gd) (en) (gl) (gx) : Sys2Proof.Laws.Encoding.Statement (.mxgrp gd en gl gx) := rfl
theorem Sys2Proof.Laws.Encoding.mxgo (gd) : Sys2Proof.Laws.Encoding.Statement (.mxgo gd) := rfl
theorem Sys2Proof.Laws.Encoding.mxwait (gd) (d) : Sys2Proof.Laws.Encoding.Statement (.mxwait gd d) := rfl
theorem Sys2Proof.Laws.Encoding.mxcommit (gd) : Sys2Proof.Laws.Encoding.Statement (.mxcommit gd) := rfl
theorem Sys2Proof.Laws.Encoding.mxcommitClr (gd) : Sys2Proof.Laws.Encoding.Statement (.mxcommitClr gd) := rfl
theorem Sys2Proof.Laws.Encoding.mxswap (gd) (n) : Sys2Proof.Laws.Encoding.Statement (.mxswap gd n) := rfl
theorem Sys2Proof.Laws.Encoding.nestStart (c) : Sys2Proof.Laws.Encoding.Statement (.nestStart c) := rfl
theorem Sys2Proof.Laws.Encoding.weightSwap (c) : Sys2Proof.Laws.Encoding.Statement (.weightSwap c) := rfl
theorem Sys2Proof.Laws.Encoding.nestPass (c) : Sys2Proof.Laws.Encoding.Statement (.nestPass c) := rfl
theorem Sys2Proof.Laws.Encoding.nestDrain (c) : Sys2Proof.Laws.Encoding.Statement (.nestDrain c) := rfl
theorem Sys2Proof.Laws.Encoding.nestComplete (c) : Sys2Proof.Laws.Encoding.Statement (.nestComplete c) := rfl
theorem Sys2Proof.Laws.Encoding.copy (r) : Sys2Proof.Laws.Encoding.Statement (.copy r) := rfl
theorem Sys2Proof.Laws.Encoding.copy2 (r) : Sys2Proof.Laws.Encoding.Statement (.copy2 r) := rfl
theorem Sys2Proof.Laws.Encoding.copy3 (r) : Sys2Proof.Laws.Encoding.Statement (.copy3 r) := rfl
theorem Sys2Proof.Laws.Encoding.put (r) : Sys2Proof.Laws.Encoding.Statement (.put r) := rfl
theorem Sys2Proof.Laws.Encoding.putf (r) : Sys2Proof.Laws.Encoding.Statement (.putf r) := rfl
theorem Sys2Proof.Laws.Encoding.get (r) : Sys2Proof.Laws.Encoding.Statement (.get r) := rfl
theorem Sys2Proof.Laws.Encoding.accw (r) : Sys2Proof.Laws.Encoding.Statement (.accw r) := rfl
theorem Sys2Proof.Laws.Encoding.fill (r) : Sys2Proof.Laws.Encoding.Statement (.fill r) := rfl
theorem Sys2Proof.Laws.Encoding.mcast (r) : Sys2Proof.Laws.Encoding.Statement (.mcast r) := rfl
theorem Sys2Proof.Laws.Encoding.prefAdapt (r) : Sys2Proof.Laws.Encoding.Statement (.prefAdapt r) := rfl
theorem Sys2Proof.Laws.Encoding.signal (r) : Sys2Proof.Laws.Encoding.Statement (.signal r) := rfl
theorem Sys2Proof.Laws.Encoding.aowAdd (r) : Sys2Proof.Laws.Encoding.Statement (.aowAdd r) := rfl
theorem Sys2Proof.Laws.Encoding.aowMin (r) : Sys2Proof.Laws.Encoding.Statement (.aowMin r) := rfl
theorem Sys2Proof.Laws.Encoding.aowMax (r) : Sys2Proof.Laws.Encoding.Statement (.aowMax r) := rfl
theorem Sys2Proof.Laws.Encoding.aowAnd (r) : Sys2Proof.Laws.Encoding.Statement (.aowAnd r) := rfl
theorem Sys2Proof.Laws.Encoding.aowOr (r) : Sys2Proof.Laws.Encoding.Statement (.aowOr r) := rfl
theorem Sys2Proof.Laws.Encoding.aowXor (r) : Sys2Proof.Laws.Encoding.Statement (.aowXor r) := rfl
theorem Sys2Proof.Laws.Encoding.aowSwap (r) : Sys2Proof.Laws.Encoding.Statement (.aowSwap r) := rfl
theorem Sys2Proof.Laws.Encoding.cas (r) : Sys2Proof.Laws.Encoding.Statement (.cas r) := rfl
theorem Sys2Proof.Laws.Encoding.flagadd (r) : Sys2Proof.Laws.Encoding.Statement (.flagadd r) := rfl
theorem Sys2Proof.Laws.Encoding.reservedCommand (r) : Sys2Proof.Laws.Encoding.Statement (.reservedCommand r) := rfl
theorem Sys2Proof.Laws.Encoding.commandComplete (c) (tk) : Sys2Proof.Laws.Encoding.Statement (.commandComplete c tk) := rfl
theorem Sys2Proof.Laws.Encoding.homeRequest (ix) : Sys2Proof.Laws.Encoding.Statement (.homeRequest ix) := rfl
theorem Sys2Proof.Laws.Encoding.remoteReply (ix) : Sys2Proof.Laws.Encoding.Statement (.remoteReply ix) := rfl
theorem Sys2Proof.Laws.Encoding.trapRecordWrite (c) : Sys2Proof.Laws.Encoding.Statement (.trapRecordWrite c) := rfl
theorem Sys2Proof.Laws.Encoding.connect (h) (src) (dst) (sp) (dp) (rep) : Sys2Proof.Laws.Encoding.Statement (.connect h src dst sp dp rep) := rfl
theorem Sys2Proof.Laws.Encoding.hold (h) (tile) (all) (n) : Sys2Proof.Laws.Encoding.Statement (.hold h tile all n) := rfl
theorem Sys2Proof.Laws.Encoding.tear (h) (tile) (all) : Sys2Proof.Laws.Encoding.Statement (.tear h tile all) := rfl
theorem Sys2Proof.Laws.Encoding.step (bar) : Sys2Proof.Laws.Encoding.Statement (.step bar) := rfl
theorem Sys2Proof.Laws.Encoding.settle (addr) : Sys2Proof.Laws.Encoding.Statement (.settle addr) := rfl
theorem Sys2Proof.Laws.Encoding.loopc (count) (body) : Sys2Proof.Laws.Encoding.Statement (.loopc count body) := rfl
theorem Sys2Proof.Laws.Encoding.jumpc (cnd) (off) : Sys2Proof.Laws.Encoding.Statement (.jumpc cnd off) := rfl
theorem Sys2Proof.Laws.Encoding.mark (value) : Sys2Proof.Laws.Encoding.Statement (.mark value) := rfl
theorem Sys2Proof.Laws.Encoding.query (h) (tile) (kind) (minw) : Sys2Proof.Laws.Encoding.Statement (.query h tile kind minw) := rfl
theorem Sys2Proof.Laws.Encoding.endc : Sys2Proof.Laws.Encoding.Statement (.endc) := rfl
theorem Sys2Proof.Laws.Encoding.droverStep (part) : Sys2Proof.Laws.Encoding.Statement (.droverStep part) := rfl
theorem Sys2Proof.Laws.Encoding.circuitLive (part) (ix) : Sys2Proof.Laws.Encoding.Statement (.circuitLive part ix) := rfl
theorem Sys2Proof.Laws.Encoding.doorbellWrite (part) (q) (x) : Sys2Proof.Laws.Encoding.Statement (.doorbellWrite part q x) := rfl
theorem Sys2Proof.Laws.Encoding.queueEnable (part) (q) : Sys2Proof.Laws.Encoding.Statement (.queueEnable part q) := rfl
theorem Sys2Proof.Laws.Encoding.partCreate (part) : Sys2Proof.Laws.Encoding.Statement (.partCreate part) := rfl
theorem Sys2Proof.Laws.Encoding.launch (p) : Sys2Proof.Laws.Encoding.Statement (.launch p) := rfl
theorem Sys2Proof.Laws.Encoding.launchPlace (fl) : Sys2Proof.Laws.Encoding.Statement (.launchPlace fl) := rfl
theorem Sys2Proof.Laws.Encoding.waitsig (p) : Sys2Proof.Laws.Encoding.Statement (.waitsig p) := rfl
theorem Sys2Proof.Laws.Encoding.signalPacket (p) : Sys2Proof.Laws.Encoding.Statement (.signalPacket p) := rfl
theorem Sys2Proof.Laws.Encoding.fetchfence (p) : Sys2Proof.Laws.Encoding.Statement (.fetchfence p) := rfl
theorem Sys2Proof.Laws.Encoding.wrap (p) : Sys2Proof.Laws.Encoding.Statement (.wrap p) := rfl
theorem Sys2Proof.Laws.Encoding.pad (p) : Sys2Proof.Laws.Encoding.Statement (.pad p) := rfl
theorem Sys2Proof.Laws.Encoding.writePacket (p) : Sys2Proof.Laws.Encoding.Statement (.writePacket p) := rfl
theorem Sys2Proof.Laws.Encoding.copyPacket (p) : Sys2Proof.Laws.Encoding.Statement (.copyPacket p) := rfl
theorem Sys2Proof.Laws.Encoding.preemptSuspend (p) : Sys2Proof.Laws.Encoding.Statement (.preemptSuspend p) := rfl
theorem Sys2Proof.Laws.Encoding.preemptResume (p) : Sys2Proof.Laws.Encoding.Statement (.preemptResume p) := rfl
theorem Sys2Proof.Laws.Encoding.preemptKill (p) : Sys2Proof.Laws.Encoding.Statement (.preemptKill p) := rfl
theorem Sys2Proof.Laws.Encoding.cadence (p) : Sys2Proof.Laws.Encoding.Statement (.cadence p) := rfl
theorem Sys2Proof.Laws.Encoding.qstatus (p) : Sys2Proof.Laws.Encoding.Statement (.qstatus p) := rfl
theorem Sys2Proof.Laws.Encoding.reservedPacket (p) : Sys2Proof.Laws.Encoding.Statement (.reservedPacket p) := rfl
theorem Sys2Proof.Laws.Encoding.preemptCut (c) : Sys2Proof.Laws.Encoding.Statement (.preemptCut c) := rfl
theorem Sys2Proof.Laws.Encoding.memberRetire (c) : Sys2Proof.Laws.Encoding.Statement (.memberRetire c) := rfl
theorem Sys2Proof.Laws.Encoding.flockRetire (fl) : Sys2Proof.Laws.Encoding.Statement (.flockRetire fl) := rfl
theorem Sys2Proof.Laws.Encoding.firmwareBoot (b) : Sys2Proof.Laws.Encoding.Statement (.firmwareBoot b) := rfl
theorem Sys2Proof.Laws.Encoding.strFlagAdd (c) : Sys2Proof.Laws.Encoding.Statement (.strFlagAdd c) := rfl
theorem Sys2Proof.Laws.Encoding.monitorWake (tile) (ix) : Sys2Proof.Laws.Encoding.Statement (.monitorWake tile ix) := rfl
theorem Sys2Proof.Laws.Encoding.triggerArrive (c) : Sys2Proof.Laws.Encoding.Statement (.triggerArrive c) := rfl
theorem Sys2Proof.Laws.Encoding.commitBufferRelease (c) : Sys2Proof.Laws.Encoding.Statement (.commitBufferRelease c) := rfl
theorem Sys2Proof.Laws.Encoding.bundleReplay (c) : Sys2Proof.Laws.Encoding.Statement (.bundleReplay c) := rfl
theorem Sys2Proof.Laws.Encoding.putfFlagAdd (c) (tk) : Sys2Proof.Laws.Encoding.Statement (.putfFlagAdd c tk) := rfl
theorem Sys2Proof.Laws.Encoding.penumbraSettle (c) (tk) (lost) : Sys2Proof.Laws.Encoding.Statement (.penumbraSettle c tk lost) := rfl
theorem Sys2Proof.Laws.Encoding.retryAfterResend (ix) : Sys2Proof.Laws.Encoding.Statement (.retryAfterResend ix) := rfl
theorem Sys2Proof.Laws.Encoding.requestTimeoutResend (ix) : Sys2Proof.Laws.Encoding.Statement (.requestTimeoutResend ix) := rfl
theorem Sys2Proof.Laws.Encoding.uncorrectableError (loc) : Sys2Proof.Laws.Encoding.Statement (.uncorrectableError loc) := rfl
theorem Sys2Proof.Laws.Encoding.streamDeadlock (c) : Sys2Proof.Laws.Encoding.Statement (.streamDeadlock c) := rfl
theorem Sys2Proof.Laws.Encoding.variantSwitch (c) : Sys2Proof.Laws.Encoding.Statement (.variantSwitch c) := rfl
theorem Sys2Proof.Laws.Encoding.variantSwitchMiss (c) : Sys2Proof.Laws.Encoding.Statement (.variantSwitchMiss c) := rfl
theorem Sys2Proof.Laws.Encoding.flitReceive (e) (f) : Sys2Proof.Laws.Encoding.Statement (.flitReceive e f) := rfl
theorem Sys2Proof.Laws.Encoding.nackReceive (e) (lseq) : Sys2Proof.Laws.Encoding.Statement (.nackReceive e lseq) := rfl
theorem Sys2Proof.Laws.Encoding.fecWindowEnd (e) (k) : Sys2Proof.Laws.Encoding.Statement (.fecWindowEnd e k) := rfl
theorem Sys2Proof.Laws.Encoding.handBack (e) (k) : Sys2Proof.Laws.Encoding.Statement (.handBack e k) := rfl
theorem Sys2Proof.Laws.Encoding.retrainLock (e) (k) : Sys2Proof.Laws.Encoding.Statement (.retrainLock e k) := rfl
theorem Sys2Proof.Laws.Encoding.retrainTimeout (e) (k) : Sys2Proof.Laws.Encoding.Statement (.retrainTimeout e k) := rfl
theorem Sys2Proof.Laws.Encoding.viewExchange (e) (k) (peer) : Sys2Proof.Laws.Encoding.Statement (.viewExchange e k peer) := rfl
theorem Sys2Proof.Laws.Encoding.ringTuningLost (e) (k) : Sys2Proof.Laws.Encoding.Statement (.ringTuningLost e k) := rfl
theorem Sys2Proof.Laws.Encoding.laserLineLost (row) (k) : Sys2Proof.Laws.Encoding.Statement (.laserLineLost row k) := rfl
theorem Sys2Proof.Laws.Encoding.laserLineRestored (row) (k) : Sys2Proof.Laws.Encoding.Statement (.laserLineRestored row k) := rfl
theorem Sys2Proof.Laws.Encoding.faultRoute (part) : Sys2Proof.Laws.Encoding.Statement (.faultRoute part) := rfl
theorem Sys2Proof.Laws.Encoding.queueDisable (part) (q) : Sys2Proof.Laws.Encoding.Statement (.queueDisable part q) := rfl
theorem Sys2Proof.Laws.Encoding.queueReset (part) (q) : Sys2Proof.Laws.Encoding.Statement (.queueReset part q) := rfl
theorem Sys2Proof.Laws.Encoding.queueRetry (part) (q) : Sys2Proof.Laws.Encoding.Statement (.queueRetry part q) := rfl
theorem Sys2Proof.Laws.Encoding.partRemove (part) : Sys2Proof.Laws.Encoding.Statement (.partRemove part) := rfl
theorem Sys2Proof.Laws.Encoding.partKill (part) : Sys2Proof.Laws.Encoding.Statement (.partKill part) := rfl
theorem Sys2Proof.Laws.Encoding.mmuInv (part) (asid) (tile) (allt) : Sys2Proof.Laws.Encoding.Statement (.mmuInv part asid tile allt) := rfl
theorem Sys2Proof.Laws.Encoding.trapctlResume (part) (core) : Sys2Proof.Laws.Encoding.Statement (.trapctlResume part core) := rfl
theorem Sys2Proof.Laws.Encoding.trapctlKill (part) (core) : Sys2Proof.Laws.Encoding.Statement (.trapctlKill part core) := rfl
theorem Sys2Proof.Laws.Encoding.portRetrain (e) : Sys2Proof.Laws.Encoding.Statement (.portRetrain e) := rfl
theorem Sys2Proof.Laws.Encoding.portCounterClear (e) : Sys2Proof.Laws.Encoding.Statement (.portCounterClear e) := rfl
theorem Sys2Proof.Laws.Encoding.capClear (tile) (unit) : Sys2Proof.Laws.Encoding.Statement (.capClear tile unit) := rfl
theorem Sys2Proof.Laws.Encoding.domidWrite (v) : Sys2Proof.Laws.Encoding.Statement (.domidWrite v) := rfl
theorem Sys2Proof.Laws.Encoding.registerWrite (off) (v) : Sys2Proof.Laws.Encoding.Statement (.registerWrite off v) := rfl
theorem Sys2Proof.Laws.Encoding.hdmAccess (tile) (off) (a) : Sys2Proof.Laws.Encoding.Statement (.hdmAccess tile off a) := rfl
theorem Sys2Proof.Laws.Encoding.waitsigPoll (part) (q) : Sys2Proof.Laws.Encoding.Statement (.waitsigPoll part q) := rfl
theorem Sys2Proof.Laws.Encoding.headWriteback (part) (q) : Sys2Proof.Laws.Encoding.Statement (.headWriteback part q) := rfl
theorem Sys2Proof.Laws.Encoding.cadenceTick (part) (q) : Sys2Proof.Laws.Encoding.Statement (.cadenceTick part q) := rfl
theorem Sys2Proof.Laws.Encoding.cadenceTopBand (fl) : Sys2Proof.Laws.Encoding.Statement (.cadenceTopBand fl) := rfl
theorem Sys2Proof.Laws.Encoding.cadenceMissedTick (fl) : Sys2Proof.Laws.Encoding.Statement (.cadenceMissedTick fl) := rfl
theorem Sys2Proof.Laws.Encoding.quantumExpiry (fl) : Sys2Proof.Laws.Encoding.Statement (.quantumExpiry fl) := rfl
theorem Sys2Proof.Laws.Encoding.forcedCut (c) : Sys2Proof.Laws.Encoding.Statement (.forcedCut c) := rfl
theorem Sys2Proof.Laws.Encoding.flockResume (fl) : Sys2Proof.Laws.Encoding.Statement (.flockResume fl) := rfl
theorem Sys2Proof.Laws.Encoding.shepherdRestart : Sys2Proof.Laws.Encoding.Statement (.shepherdRestart) := rfl
theorem Sys2Proof.Laws.Encoding.powerGrant (tile) (layer) (lvl) : Sys2Proof.Laws.Encoding.Statement (.powerGrant tile layer lvl) := rfl
theorem Sys2Proof.Laws.Encoding.temperatureSample (tile) (layer) (r) : Sys2Proof.Laws.Encoding.Statement (.temperatureSample tile layer r) := rfl
theorem Sys2Proof.Laws.Encoding.thermalEmergency (tile) : Sys2Proof.Laws.Encoding.Statement (.thermalEmergency tile) := rfl
theorem Sys2Proof.Laws.Encoding.selftestFail (tile) (layer) (unreadable) : Sys2Proof.Laws.Encoding.Statement (.selftestFail tile layer unreadable) := rfl
theorem Sys2Proof.Laws.Encoding.layerLoss (tile) (layer) : Sys2Proof.Laws.Encoding.Statement (.layerLoss tile layer) := rfl
theorem Sys2Proof.Laws.Encoding.roleChange (tile) : Sys2Proof.Laws.Encoding.Statement (.roleChange tile) := rfl
theorem Sys2Proof.Laws.Encoding.roleChangeFlush (tile) : Sys2Proof.Laws.Encoding.Statement (.roleChangeFlush tile) := rfl
theorem Sys2Proof.Laws.Encoding.roleChangeReenumerate (tile) : Sys2Proof.Laws.Encoding.Statement (.roleChangeReenumerate tile) := rfl
theorem Sys2Proof.Laws.Encoding.layerReturn (tile) (layer) : Sys2Proof.Laws.Encoding.Statement (.layerReturn tile layer) := rfl
theorem Sys2Proof.Laws.Encoding.ballastRamp (tile) (layer) (drop) : Sys2Proof.Laws.Encoding.Statement (.ballastRamp tile layer drop) := rfl
theorem Sys2Proof.Laws.Encoding.captureSample (tile) (unit) (sample) : Sys2Proof.Laws.Encoding.Statement (.captureSample tile unit sample) := rfl
theorem Sys2Proof.Laws.Encoding.lifetimeCounterSave : Sys2Proof.Laws.Encoding.Statement (.lifetimeCounterSave) := rfl
theorem Sys2Proof.Laws.Encoding.moduleReset : Sys2Proof.Laws.Encoding.Statement (.moduleReset) := rfl
theorem Sys2Proof.Laws.Encoding.getVersion (r) : Sys2Proof.Laws.Encoding.Statement (.getVersion r) := rfl
theorem Sys2Proof.Laws.Encoding.getCapabilities (r) : Sys2Proof.Laws.Encoding.Statement (.getCapabilities r) := rfl
theorem Sys2Proof.Laws.Encoding.negotiateAlgorithms (r) : Sys2Proof.Laws.Encoding.Statement (.negotiateAlgorithms r) := rfl
theorem Sys2Proof.Laws.Encoding.getDigests (r) : Sys2Proof.Laws.Encoding.Statement (.getDigests r) := rfl
theorem Sys2Proof.Laws.Encoding.getCertificate (r) : Sys2Proof.Laws.Encoding.Statement (.getCertificate r) := rfl
theorem Sys2Proof.Laws.Encoding.challenge (r) : Sys2Proof.Laws.Encoding.Statement (.challenge r) := rfl
theorem Sys2Proof.Laws.Encoding.getMeasurements (r) : Sys2Proof.Laws.Encoding.Statement (.getMeasurements r) := rfl
end

