-- ==== Sys2Proof/Laws/State.lean ====
section
/-! SUPPORT. What each update of the state leaves of each field, and what the named operations of a word do: the
lemmas that later proofs cite in place of unfolding a record update. -/

namespace Sys2Proof.Machine

/-! ## Updates and fields -/

@[simp] theorem State.setCtx_now (s : State) (c : Nat) (x : Ctx) : (s.setCtx c x).now = s.now := rfl
@[simp] theorem State.setCtx_replays (s : State) (c : Nat) (x : Ctx) : (s.setCtx c x).replays = s.replays := rfl
@[simp] theorem State.setCtx_mem (s : State) (c : Nat) (x : Ctx) : (s.setCtx c x).mem = s.mem := rfl
@[simp] theorem State.setCtx_poison (s : State) (c : Nat) (x : Ctx) : (s.setCtx c x).poison = s.poison := rfl
@[simp] theorem State.setCtx_lm (s : State) (c : Nat) (x : Ctx) : (s.setCtx c x).lm = s.lm := rfl
@[simp] theorem State.setCtx_lmPoison (s : State) (c : Nat) (x : Ctx) : (s.setCtx c x).lmPoison = s.lmPoison := rfl
@[simp] theorem State.setCtx_hostMem (s : State) (c : Nat) (x : Ctx) : (s.setCtx c x).hostMem = s.hostMem := rfl
@[simp] theorem State.setCtx_hostPoison (s : State) (c : Nat) (x : Ctx) : (s.setCtx c x).hostPoison = s.hostPoison := rfl
@[simp] theorem State.setCtx_ports (s : State) (c : Nat) (x : Ctx) : (s.setCtx c x).ports = s.ports := rfl
@[simp] theorem State.setCtx_tiles (s : State) (c : Nat) (x : Ctx) : (s.setCtx c x).tiles = s.tiles := rfl
@[simp] theorem State.setCtx_parts (s : State) (c : Nat) (x : Ctx) : (s.setCtx c x).parts = s.parts := rfl
@[simp] theorem State.setCtx_flocks (s : State) (c : Nat) (x : Ctx) : (s.setCtx c x).flocks = s.flocks := rfl
@[simp] theorem State.setCtx_nextFlock (s : State) (c : Nat) (x : Ctx) : (s.setCtx c x).nextFlock = s.nextFlock := rfl
@[simp] theorem State.setCtx_reqs (s : State) (c : Nat) (x : Ctx) : (s.setCtx c x).reqs = s.reqs := rfl
@[simp] theorem State.setCtx_glob (s : State) (c : Nat) (x : Ctx) : (s.setCtx c x).glob = s.glob := rfl
@[simp] theorem State.setCtx_life (s : State) (c : Nat) (x : Ctx) : (s.setCtx c x).life = s.life := rfl
@[simp] theorem State.setCtx_flash (s : State) (c : Nat) (x : Ctx) : (s.setCtx c x).flash = s.flash := rfl
@[simp] theorem State.setCtx_fw (s : State) (c : Nat) (x : Ctx) : (s.setCtx c x).fw = s.fw := rfl
@[simp] theorem State.setCtx_spdm (s : State) (c : Nat) (x : Ctx) : (s.setCtx c x).spdm = s.spdm := rfl
@[simp] theorem State.setCtx_lines (s : State) (c : Nat) (x : Ctx) : (s.setCtx c x).lines = s.lines := rfl
@[simp] theorem State.setCtx_hdmOut (s : State) (c : Nat) (x : Ctx) : (s.setCtx c x).hdmOut = s.hdmOut := rfl
@[simp] theorem State.setCtx_hdmBad (s : State) (c : Nat) (x : Ctx) : (s.setCtx c x).hdmBad = s.hdmBad := rfl
@[simp] theorem State.setCtx_draws (s : State) (c : Nat) (x : Ctx) : (s.setCtx c x).draws = s.draws := rfl
@[simp] theorem State.setCtx_agenda (s : State) (c : Nat) (x : Ctx) : (s.setCtx c x).agenda = s.agenda := rfl
@[simp] theorem State.setCtx_focus (s : State) (c : Nat) (x : Ctx) : (s.setCtx c x).focus = s.focus := rfl
@[simp] theorem State.setCtx_rd (s : State) (c : Nat) (x : Ctx) : (s.setCtx c x).rd = s.rd := rfl
@[simp] theorem State.setCtx_verdict (s : State) (c : Nat) (x : Ctx) : (s.setCtx c x).verdict = s.verdict := rfl

@[simp] theorem State.updCtx_now (s : State) (c : Nat) (f : Ctx → Ctx) : (s.updCtx c f).now = s.now := rfl
@[simp] theorem State.updCtx_replays (s : State) (c : Nat) (f : Ctx → Ctx) : (s.updCtx c f).replays = s.replays := rfl
@[simp] theorem State.updCtx_mem (s : State) (c : Nat) (f : Ctx → Ctx) : (s.updCtx c f).mem = s.mem := rfl
@[simp] theorem State.updCtx_poison (s : State) (c : Nat) (f : Ctx → Ctx) : (s.updCtx c f).poison = s.poison := rfl
@[simp] theorem State.updCtx_lm (s : State) (c : Nat) (f : Ctx → Ctx) : (s.updCtx c f).lm = s.lm := rfl
@[simp] theorem State.updCtx_lmPoison (s : State) (c : Nat) (f : Ctx → Ctx) : (s.updCtx c f).lmPoison = s.lmPoison := rfl
@[simp] theorem State.updCtx_hostMem (s : State) (c : Nat) (f : Ctx → Ctx) : (s.updCtx c f).hostMem = s.hostMem := rfl
@[simp] theorem State.updCtx_hostPoison (s : State) (c : Nat) (f : Ctx → Ctx) : (s.updCtx c f).hostPoison = s.hostPoison := rfl
@[simp] theorem State.updCtx_ports (s : State) (c : Nat) (f : Ctx → Ctx) : (s.updCtx c f).ports = s.ports := rfl
@[simp] theorem State.updCtx_tiles (s : State) (c : Nat) (f : Ctx → Ctx) : (s.updCtx c f).tiles = s.tiles := rfl
@[simp] theorem State.updCtx_parts (s : State) (c : Nat) (f : Ctx → Ctx) : (s.updCtx c f).parts = s.parts := rfl
@[simp] theorem State.updCtx_flocks (s : State) (c : Nat) (f : Ctx → Ctx) : (s.updCtx c f).flocks = s.flocks := rfl
@[simp] theorem State.updCtx_nextFlock (s : State) (c : Nat) (f : Ctx → Ctx) : (s.updCtx c f).nextFlock = s.nextFlock := rfl
@[simp] theorem State.updCtx_reqs (s : State) (c : Nat) (f : Ctx → Ctx) : (s.updCtx c f).reqs = s.reqs := rfl
@[simp] theorem State.updCtx_glob (s : State) (c : Nat) (f : Ctx → Ctx) : (s.updCtx c f).glob = s.glob := rfl
@[simp] theorem State.updCtx_life (s : State) (c : Nat) (f : Ctx → Ctx) : (s.updCtx c f).life = s.life := rfl
@[simp] theorem State.updCtx_flash (s : State) (c : Nat) (f : Ctx → Ctx) : (s.updCtx c f).flash = s.flash := rfl
@[simp] theorem State.updCtx_fw (s : State) (c : Nat) (f : Ctx → Ctx) : (s.updCtx c f).fw = s.fw := rfl
@[simp] theorem State.updCtx_spdm (s : State) (c : Nat) (f : Ctx → Ctx) : (s.updCtx c f).spdm = s.spdm := rfl
@[simp] theorem State.updCtx_lines (s : State) (c : Nat) (f : Ctx → Ctx) : (s.updCtx c f).lines = s.lines := rfl
@[simp] theorem State.updCtx_hdmOut (s : State) (c : Nat) (f : Ctx → Ctx) : (s.updCtx c f).hdmOut = s.hdmOut := rfl
@[simp] theorem State.updCtx_hdmBad (s : State) (c : Nat) (f : Ctx → Ctx) : (s.updCtx c f).hdmBad = s.hdmBad := rfl
@[simp] theorem State.updCtx_draws (s : State) (c : Nat) (f : Ctx → Ctx) : (s.updCtx c f).draws = s.draws := rfl
@[simp] theorem State.updCtx_agenda (s : State) (c : Nat) (f : Ctx → Ctx) : (s.updCtx c f).agenda = s.agenda := rfl
@[simp] theorem State.updCtx_focus (s : State) (c : Nat) (f : Ctx → Ctx) : (s.updCtx c f).focus = s.focus := rfl
@[simp] theorem State.updCtx_rd (s : State) (c : Nat) (f : Ctx → Ctx) : (s.updCtx c f).rd = s.rd := rfl
@[simp] theorem State.updCtx_verdict (s : State) (c : Nat) (f : Ctx → Ctx) : (s.updCtx c f).verdict = s.verdict := rfl

@[simp] theorem State.updMe_now (s : State) (f : Ctx → Ctx) : (s.updMe f).now = s.now := rfl
@[simp] theorem State.updMe_replays (s : State) (f : Ctx → Ctx) : (s.updMe f).replays = s.replays := rfl
@[simp] theorem State.updMe_mem (s : State) (f : Ctx → Ctx) : (s.updMe f).mem = s.mem := rfl
@[simp] theorem State.updMe_poison (s : State) (f : Ctx → Ctx) : (s.updMe f).poison = s.poison := rfl
@[simp] theorem State.updMe_lm (s : State) (f : Ctx → Ctx) : (s.updMe f).lm = s.lm := rfl
@[simp] theorem State.updMe_lmPoison (s : State) (f : Ctx → Ctx) : (s.updMe f).lmPoison = s.lmPoison := rfl
@[simp] theorem State.updMe_hostMem (s : State) (f : Ctx → Ctx) : (s.updMe f).hostMem = s.hostMem := rfl
@[simp] theorem State.updMe_hostPoison (s : State) (f : Ctx → Ctx) : (s.updMe f).hostPoison = s.hostPoison := rfl
@[simp] theorem State.updMe_ports (s : State) (f : Ctx → Ctx) : (s.updMe f).ports = s.ports := rfl
@[simp] theorem State.updMe_tiles (s : State) (f : Ctx → Ctx) : (s.updMe f).tiles = s.tiles := rfl
@[simp] theorem State.updMe_parts (s : State) (f : Ctx → Ctx) : (s.updMe f).parts = s.parts := rfl
@[simp] theorem State.updMe_flocks (s : State) (f : Ctx → Ctx) : (s.updMe f).flocks = s.flocks := rfl
@[simp] theorem State.updMe_nextFlock (s : State) (f : Ctx → Ctx) : (s.updMe f).nextFlock = s.nextFlock := rfl
@[simp] theorem State.updMe_reqs (s : State) (f : Ctx → Ctx) : (s.updMe f).reqs = s.reqs := rfl
@[simp] theorem State.updMe_glob (s : State) (f : Ctx → Ctx) : (s.updMe f).glob = s.glob := rfl
@[simp] theorem State.updMe_life (s : State) (f : Ctx → Ctx) : (s.updMe f).life = s.life := rfl
@[simp] theorem State.updMe_flash (s : State) (f : Ctx → Ctx) : (s.updMe f).flash = s.flash := rfl
@[simp] theorem State.updMe_fw (s : State) (f : Ctx → Ctx) : (s.updMe f).fw = s.fw := rfl
@[simp] theorem State.updMe_spdm (s : State) (f : Ctx → Ctx) : (s.updMe f).spdm = s.spdm := rfl
@[simp] theorem State.updMe_lines (s : State) (f : Ctx → Ctx) : (s.updMe f).lines = s.lines := rfl
@[simp] theorem State.updMe_hdmOut (s : State) (f : Ctx → Ctx) : (s.updMe f).hdmOut = s.hdmOut := rfl
@[simp] theorem State.updMe_hdmBad (s : State) (f : Ctx → Ctx) : (s.updMe f).hdmBad = s.hdmBad := rfl
@[simp] theorem State.updMe_draws (s : State) (f : Ctx → Ctx) : (s.updMe f).draws = s.draws := rfl
@[simp] theorem State.updMe_agenda (s : State) (f : Ctx → Ctx) : (s.updMe f).agenda = s.agenda := rfl
@[simp] theorem State.updMe_focus (s : State) (f : Ctx → Ctx) : (s.updMe f).focus = s.focus := rfl
@[simp] theorem State.updMe_rd (s : State) (f : Ctx → Ctx) : (s.updMe f).rd = s.rd := rfl
@[simp] theorem State.updMe_verdict (s : State) (f : Ctx → Ctx) : (s.updMe f).verdict = s.verdict := rfl

@[simp] theorem State.updStream_now (s : State) (f : StreamState → StreamState) : (s.updStream f).now = s.now := rfl
@[simp] theorem State.updStream_replays (s : State) (f : StreamState → StreamState) : (s.updStream f).replays = s.replays := rfl
@[simp] theorem State.updStream_mem (s : State) (f : StreamState → StreamState) : (s.updStream f).mem = s.mem := rfl
@[simp] theorem State.updStream_poison (s : State) (f : StreamState → StreamState) : (s.updStream f).poison = s.poison := rfl
@[simp] theorem State.updStream_lm (s : State) (f : StreamState → StreamState) : (s.updStream f).lm = s.lm := rfl
@[simp] theorem State.updStream_lmPoison (s : State) (f : StreamState → StreamState) : (s.updStream f).lmPoison = s.lmPoison := rfl
@[simp] theorem State.updStream_hostMem (s : State) (f : StreamState → StreamState) : (s.updStream f).hostMem = s.hostMem := rfl
@[simp] theorem State.updStream_hostPoison (s : State) (f : StreamState → StreamState) : (s.updStream f).hostPoison = s.hostPoison := rfl
@[simp] theorem State.updStream_ports (s : State) (f : StreamState → StreamState) : (s.updStream f).ports = s.ports := rfl
@[simp] theorem State.updStream_tiles (s : State) (f : StreamState → StreamState) : (s.updStream f).tiles = s.tiles := rfl
@[simp] theorem State.updStream_parts (s : State) (f : StreamState → StreamState) : (s.updStream f).parts = s.parts := rfl
@[simp] theorem State.updStream_flocks (s : State) (f : StreamState → StreamState) : (s.updStream f).flocks = s.flocks := rfl
@[simp] theorem State.updStream_nextFlock (s : State) (f : StreamState → StreamState) : (s.updStream f).nextFlock = s.nextFlock := rfl
@[simp] theorem State.updStream_reqs (s : State) (f : StreamState → StreamState) : (s.updStream f).reqs = s.reqs := rfl
@[simp] theorem State.updStream_glob (s : State) (f : StreamState → StreamState) : (s.updStream f).glob = s.glob := rfl
@[simp] theorem State.updStream_life (s : State) (f : StreamState → StreamState) : (s.updStream f).life = s.life := rfl
@[simp] theorem State.updStream_flash (s : State) (f : StreamState → StreamState) : (s.updStream f).flash = s.flash := rfl
@[simp] theorem State.updStream_fw (s : State) (f : StreamState → StreamState) : (s.updStream f).fw = s.fw := rfl
@[simp] theorem State.updStream_spdm (s : State) (f : StreamState → StreamState) : (s.updStream f).spdm = s.spdm := rfl
@[simp] theorem State.updStream_lines (s : State) (f : StreamState → StreamState) : (s.updStream f).lines = s.lines := rfl
@[simp] theorem State.updStream_hdmOut (s : State) (f : StreamState → StreamState) : (s.updStream f).hdmOut = s.hdmOut := rfl
@[simp] theorem State.updStream_hdmBad (s : State) (f : StreamState → StreamState) : (s.updStream f).hdmBad = s.hdmBad := rfl
@[simp] theorem State.updStream_draws (s : State) (f : StreamState → StreamState) : (s.updStream f).draws = s.draws := rfl
@[simp] theorem State.updStream_agenda (s : State) (f : StreamState → StreamState) : (s.updStream f).agenda = s.agenda := rfl
@[simp] theorem State.updStream_focus (s : State) (f : StreamState → StreamState) : (s.updStream f).focus = s.focus := rfl
@[simp] theorem State.updStream_rd (s : State) (f : StreamState → StreamState) : (s.updStream f).rd = s.rd := rfl
@[simp] theorem State.updStream_verdict (s : State) (f : StreamState → StreamState) : (s.updStream f).verdict = s.verdict := rfl

@[simp] theorem State.updFlock_now (s : State) (k : Nat) (f : Flock → Flock) : (s.updFlock k f).now = s.now := rfl
@[simp] theorem State.updFlock_cores (s : State) (k : Nat) (f : Flock → Flock) : (s.updFlock k f).cores = s.cores := rfl
@[simp] theorem State.updFlock_replays (s : State) (k : Nat) (f : Flock → Flock) : (s.updFlock k f).replays = s.replays := rfl
@[simp] theorem State.updFlock_mem (s : State) (k : Nat) (f : Flock → Flock) : (s.updFlock k f).mem = s.mem := rfl
@[simp] theorem State.updFlock_poison (s : State) (k : Nat) (f : Flock → Flock) : (s.updFlock k f).poison = s.poison := rfl
@[simp] theorem State.updFlock_lm (s : State) (k : Nat) (f : Flock → Flock) : (s.updFlock k f).lm = s.lm := rfl
@[simp] theorem State.updFlock_lmPoison (s : State) (k : Nat) (f : Flock → Flock) : (s.updFlock k f).lmPoison = s.lmPoison := rfl
@[simp] theorem State.updFlock_hostMem (s : State) (k : Nat) (f : Flock → Flock) : (s.updFlock k f).hostMem = s.hostMem := rfl
@[simp] theorem State.updFlock_hostPoison (s : State) (k : Nat) (f : Flock → Flock) : (s.updFlock k f).hostPoison = s.hostPoison := rfl
@[simp] theorem State.updFlock_ports (s : State) (k : Nat) (f : Flock → Flock) : (s.updFlock k f).ports = s.ports := rfl
@[simp] theorem State.updFlock_tiles (s : State) (k : Nat) (f : Flock → Flock) : (s.updFlock k f).tiles = s.tiles := rfl
@[simp] theorem State.updFlock_parts (s : State) (k : Nat) (f : Flock → Flock) : (s.updFlock k f).parts = s.parts := rfl
@[simp] theorem State.updFlock_nextFlock (s : State) (k : Nat) (f : Flock → Flock) : (s.updFlock k f).nextFlock = s.nextFlock := rfl
@[simp] theorem State.updFlock_reqs (s : State) (k : Nat) (f : Flock → Flock) : (s.updFlock k f).reqs = s.reqs := rfl
@[simp] theorem State.updFlock_glob (s : State) (k : Nat) (f : Flock → Flock) : (s.updFlock k f).glob = s.glob := rfl
@[simp] theorem State.updFlock_life (s : State) (k : Nat) (f : Flock → Flock) : (s.updFlock k f).life = s.life := rfl
@[simp] theorem State.updFlock_flash (s : State) (k : Nat) (f : Flock → Flock) : (s.updFlock k f).flash = s.flash := rfl
@[simp] theorem State.updFlock_fw (s : State) (k : Nat) (f : Flock → Flock) : (s.updFlock k f).fw = s.fw := rfl
@[simp] theorem State.updFlock_spdm (s : State) (k : Nat) (f : Flock → Flock) : (s.updFlock k f).spdm = s.spdm := rfl
@[simp] theorem State.updFlock_lines (s : State) (k : Nat) (f : Flock → Flock) : (s.updFlock k f).lines = s.lines := rfl
@[simp] theorem State.updFlock_hdmOut (s : State) (k : Nat) (f : Flock → Flock) : (s.updFlock k f).hdmOut = s.hdmOut := rfl
@[simp] theorem State.updFlock_hdmBad (s : State) (k : Nat) (f : Flock → Flock) : (s.updFlock k f).hdmBad = s.hdmBad := rfl
@[simp] theorem State.updFlock_draws (s : State) (k : Nat) (f : Flock → Flock) : (s.updFlock k f).draws = s.draws := rfl
@[simp] theorem State.updFlock_agenda (s : State) (k : Nat) (f : Flock → Flock) : (s.updFlock k f).agenda = s.agenda := rfl
@[simp] theorem State.updFlock_focus (s : State) (k : Nat) (f : Flock → Flock) : (s.updFlock k f).focus = s.focus := rfl
@[simp] theorem State.updFlock_rd (s : State) (k : Nat) (f : Flock → Flock) : (s.updFlock k f).rd = s.rd := rfl
@[simp] theorem State.updFlock_verdict (s : State) (k : Nat) (f : Flock → Flock) : (s.updFlock k f).verdict = s.verdict := rfl

@[simp] theorem State.updPart_now (s : State) (k : Nat) (f : Partition → Partition) : (s.updPart k f).now = s.now := rfl
@[simp] theorem State.updPart_cores (s : State) (k : Nat) (f : Partition → Partition) : (s.updPart k f).cores = s.cores := rfl
@[simp] theorem State.updPart_replays (s : State) (k : Nat) (f : Partition → Partition) : (s.updPart k f).replays = s.replays := rfl
@[simp] theorem State.updPart_mem (s : State) (k : Nat) (f : Partition → Partition) : (s.updPart k f).mem = s.mem := rfl
@[simp] theorem State.updPart_poison (s : State) (k : Nat) (f : Partition → Partition) : (s.updPart k f).poison = s.poison := rfl
@[simp] theorem State.updPart_lm (s : State) (k : Nat) (f : Partition → Partition) : (s.updPart k f).lm = s.lm := rfl
@[simp] theorem State.updPart_lmPoison (s : State) (k : Nat) (f : Partition → Partition) : (s.updPart k f).lmPoison = s.lmPoison := rfl
@[simp] theorem State.updPart_hostMem (s : State) (k : Nat) (f : Partition → Partition) : (s.updPart k f).hostMem = s.hostMem := rfl
@[simp] theorem State.updPart_hostPoison (s : State) (k : Nat) (f : Partition → Partition) : (s.updPart k f).hostPoison = s.hostPoison := rfl
@[simp] theorem State.updPart_ports (s : State) (k : Nat) (f : Partition → Partition) : (s.updPart k f).ports = s.ports := rfl
@[simp] theorem State.updPart_tiles (s : State) (k : Nat) (f : Partition → Partition) : (s.updPart k f).tiles = s.tiles := rfl
@[simp] theorem State.updPart_flocks (s : State) (k : Nat) (f : Partition → Partition) : (s.updPart k f).flocks = s.flocks := rfl
@[simp] theorem State.updPart_nextFlock (s : State) (k : Nat) (f : Partition → Partition) : (s.updPart k f).nextFlock = s.nextFlock := rfl
@[simp] theorem State.updPart_reqs (s : State) (k : Nat) (f : Partition → Partition) : (s.updPart k f).reqs = s.reqs := rfl
@[simp] theorem State.updPart_glob (s : State) (k : Nat) (f : Partition → Partition) : (s.updPart k f).glob = s.glob := rfl
@[simp] theorem State.updPart_life (s : State) (k : Nat) (f : Partition → Partition) : (s.updPart k f).life = s.life := rfl
@[simp] theorem State.updPart_flash (s : State) (k : Nat) (f : Partition → Partition) : (s.updPart k f).flash = s.flash := rfl
@[simp] theorem State.updPart_fw (s : State) (k : Nat) (f : Partition → Partition) : (s.updPart k f).fw = s.fw := rfl
@[simp] theorem State.updPart_spdm (s : State) (k : Nat) (f : Partition → Partition) : (s.updPart k f).spdm = s.spdm := rfl
@[simp] theorem State.updPart_lines (s : State) (k : Nat) (f : Partition → Partition) : (s.updPart k f).lines = s.lines := rfl
@[simp] theorem State.updPart_hdmOut (s : State) (k : Nat) (f : Partition → Partition) : (s.updPart k f).hdmOut = s.hdmOut := rfl
@[simp] theorem State.updPart_hdmBad (s : State) (k : Nat) (f : Partition → Partition) : (s.updPart k f).hdmBad = s.hdmBad := rfl
@[simp] theorem State.updPart_draws (s : State) (k : Nat) (f : Partition → Partition) : (s.updPart k f).draws = s.draws := rfl
@[simp] theorem State.updPart_agenda (s : State) (k : Nat) (f : Partition → Partition) : (s.updPart k f).agenda = s.agenda := rfl
@[simp] theorem State.updPart_focus (s : State) (k : Nat) (f : Partition → Partition) : (s.updPart k f).focus = s.focus := rfl
@[simp] theorem State.updPart_rd (s : State) (k : Nat) (f : Partition → Partition) : (s.updPart k f).rd = s.rd := rfl
@[simp] theorem State.updPart_verdict (s : State) (k : Nat) (f : Partition → Partition) : (s.updPart k f).verdict = s.verdict := rfl

@[simp] theorem State.updTile_now (s : State) (k : Nat) (f : TileSt → TileSt) : (s.updTile k f).now = s.now := rfl
@[simp] theorem State.updTile_cores (s : State) (k : Nat) (f : TileSt → TileSt) : (s.updTile k f).cores = s.cores := rfl
@[simp] theorem State.updTile_replays (s : State) (k : Nat) (f : TileSt → TileSt) : (s.updTile k f).replays = s.replays := rfl
@[simp] theorem State.updTile_mem (s : State) (k : Nat) (f : TileSt → TileSt) : (s.updTile k f).mem = s.mem := rfl
@[simp] theorem State.updTile_poison (s : State) (k : Nat) (f : TileSt → TileSt) : (s.updTile k f).poison = s.poison := rfl
@[simp] theorem State.updTile_lm (s : State) (k : Nat) (f : TileSt → TileSt) : (s.updTile k f).lm = s.lm := rfl
@[simp] theorem State.updTile_lmPoison (s : State) (k : Nat) (f : TileSt → TileSt) : (s.updTile k f).lmPoison = s.lmPoison := rfl
@[simp] theorem State.updTile_hostMem (s : State) (k : Nat) (f : TileSt → TileSt) : (s.updTile k f).hostMem = s.hostMem := rfl
@[simp] theorem State.updTile_hostPoison (s : State) (k : Nat) (f : TileSt → TileSt) : (s.updTile k f).hostPoison = s.hostPoison := rfl
@[simp] theorem State.updTile_ports (s : State) (k : Nat) (f : TileSt → TileSt) : (s.updTile k f).ports = s.ports := rfl
@[simp] theorem State.updTile_parts (s : State) (k : Nat) (f : TileSt → TileSt) : (s.updTile k f).parts = s.parts := rfl
@[simp] theorem State.updTile_flocks (s : State) (k : Nat) (f : TileSt → TileSt) : (s.updTile k f).flocks = s.flocks := rfl
@[simp] theorem State.updTile_nextFlock (s : State) (k : Nat) (f : TileSt → TileSt) : (s.updTile k f).nextFlock = s.nextFlock := rfl
@[simp] theorem State.updTile_reqs (s : State) (k : Nat) (f : TileSt → TileSt) : (s.updTile k f).reqs = s.reqs := rfl
@[simp] theorem State.updTile_glob (s : State) (k : Nat) (f : TileSt → TileSt) : (s.updTile k f).glob = s.glob := rfl
@[simp] theorem State.updTile_life (s : State) (k : Nat) (f : TileSt → TileSt) : (s.updTile k f).life = s.life := rfl
@[simp] theorem State.updTile_flash (s : State) (k : Nat) (f : TileSt → TileSt) : (s.updTile k f).flash = s.flash := rfl
@[simp] theorem State.updTile_fw (s : State) (k : Nat) (f : TileSt → TileSt) : (s.updTile k f).fw = s.fw := rfl
@[simp] theorem State.updTile_spdm (s : State) (k : Nat) (f : TileSt → TileSt) : (s.updTile k f).spdm = s.spdm := rfl
@[simp] theorem State.updTile_lines (s : State) (k : Nat) (f : TileSt → TileSt) : (s.updTile k f).lines = s.lines := rfl
@[simp] theorem State.updTile_hdmOut (s : State) (k : Nat) (f : TileSt → TileSt) : (s.updTile k f).hdmOut = s.hdmOut := rfl
@[simp] theorem State.updTile_hdmBad (s : State) (k : Nat) (f : TileSt → TileSt) : (s.updTile k f).hdmBad = s.hdmBad := rfl
@[simp] theorem State.updTile_draws (s : State) (k : Nat) (f : TileSt → TileSt) : (s.updTile k f).draws = s.draws := rfl
@[simp] theorem State.updTile_agenda (s : State) (k : Nat) (f : TileSt → TileSt) : (s.updTile k f).agenda = s.agenda := rfl
@[simp] theorem State.updTile_focus (s : State) (k : Nat) (f : TileSt → TileSt) : (s.updTile k f).focus = s.focus := rfl
@[simp] theorem State.updTile_rd (s : State) (k : Nat) (f : TileSt → TileSt) : (s.updTile k f).rd = s.rd := rfl
@[simp] theorem State.updTile_verdict (s : State) (k : Nat) (f : TileSt → TileSt) : (s.updTile k f).verdict = s.verdict := rfl

@[simp] theorem State.updQueue_now (s : State) (n q : Nat) (f : CmdQueue → CmdQueue) : (s.updQueue n q f).now = s.now := rfl
@[simp] theorem State.updQueue_cores (s : State) (n q : Nat) (f : CmdQueue → CmdQueue) : (s.updQueue n q f).cores = s.cores := rfl
@[simp] theorem State.updQueue_replays (s : State) (n q : Nat) (f : CmdQueue → CmdQueue) : (s.updQueue n q f).replays = s.replays := rfl
@[simp] theorem State.updQueue_mem (s : State) (n q : Nat) (f : CmdQueue → CmdQueue) : (s.updQueue n q f).mem = s.mem := rfl
@[simp] theorem State.updQueue_poison (s : State) (n q : Nat) (f : CmdQueue → CmdQueue) : (s.updQueue n q f).poison = s.poison := rfl
@[simp] theorem State.updQueue_lm (s : State) (n q : Nat) (f : CmdQueue → CmdQueue) : (s.updQueue n q f).lm = s.lm := rfl
@[simp] theorem State.updQueue_lmPoison (s : State) (n q : Nat) (f : CmdQueue → CmdQueue) : (s.updQueue n q f).lmPoison = s.lmPoison := rfl
@[simp] theorem State.updQueue_hostMem (s : State) (n q : Nat) (f : CmdQueue → CmdQueue) : (s.updQueue n q f).hostMem = s.hostMem := rfl
@[simp] theorem State.updQueue_hostPoison (s : State) (n q : Nat) (f : CmdQueue → CmdQueue) : (s.updQueue n q f).hostPoison = s.hostPoison := rfl
@[simp] theorem State.updQueue_ports (s : State) (n q : Nat) (f : CmdQueue → CmdQueue) : (s.updQueue n q f).ports = s.ports := rfl
@[simp] theorem State.updQueue_tiles (s : State) (n q : Nat) (f : CmdQueue → CmdQueue) : (s.updQueue n q f).tiles = s.tiles := rfl
@[simp] theorem State.updQueue_flocks (s : State) (n q : Nat) (f : CmdQueue → CmdQueue) : (s.updQueue n q f).flocks = s.flocks := rfl
@[simp] theorem State.updQueue_nextFlock (s : State) (n q : Nat) (f : CmdQueue → CmdQueue) : (s.updQueue n q f).nextFlock = s.nextFlock := rfl
@[simp] theorem State.updQueue_reqs (s : State) (n q : Nat) (f : CmdQueue → CmdQueue) : (s.updQueue n q f).reqs = s.reqs := rfl
@[simp] theorem State.updQueue_glob (s : State) (n q : Nat) (f : CmdQueue → CmdQueue) : (s.updQueue n q f).glob = s.glob := rfl
@[simp] theorem State.updQueue_life (s : State) (n q : Nat) (f : CmdQueue → CmdQueue) : (s.updQueue n q f).life = s.life := rfl
@[simp] theorem State.updQueue_flash (s : State) (n q : Nat) (f : CmdQueue → CmdQueue) : (s.updQueue n q f).flash = s.flash := rfl
@[simp] theorem State.updQueue_fw (s : State) (n q : Nat) (f : CmdQueue → CmdQueue) : (s.updQueue n q f).fw = s.fw := rfl
@[simp] theorem State.updQueue_spdm (s : State) (n q : Nat) (f : CmdQueue → CmdQueue) : (s.updQueue n q f).spdm = s.spdm := rfl
@[simp] theorem State.updQueue_lines (s : State) (n q : Nat) (f : CmdQueue → CmdQueue) : (s.updQueue n q f).lines = s.lines := rfl
@[simp] theorem State.updQueue_hdmOut (s : State) (n q : Nat) (f : CmdQueue → CmdQueue) : (s.updQueue n q f).hdmOut = s.hdmOut := rfl
@[simp] theorem State.updQueue_hdmBad (s : State) (n q : Nat) (f : CmdQueue → CmdQueue) : (s.updQueue n q f).hdmBad = s.hdmBad := rfl
@[simp] theorem State.updQueue_draws (s : State) (n q : Nat) (f : CmdQueue → CmdQueue) : (s.updQueue n q f).draws = s.draws := rfl
@[simp] theorem State.updQueue_agenda (s : State) (n q : Nat) (f : CmdQueue → CmdQueue) : (s.updQueue n q f).agenda = s.agenda := rfl
@[simp] theorem State.updQueue_focus (s : State) (n q : Nat) (f : CmdQueue → CmdQueue) : (s.updQueue n q f).focus = s.focus := rfl
@[simp] theorem State.updQueue_rd (s : State) (n q : Nat) (f : CmdQueue → CmdQueue) : (s.updQueue n q f).rd = s.rd := rfl
@[simp] theorem State.updQueue_verdict (s : State) (n q : Nat) (f : CmdQueue → CmdQueue) : (s.updQueue n q f).verdict = s.verdict := rfl

/-! ## Contexts -/

@[simp] theorem State.setCtx_core (s : State) (c : Nat) (x : Ctx) : (s.setCtx c x).core = s.core := rfl
@[simp] theorem State.updCtx_core (s : State) (c : Nat) (f : Ctx → Ctx) : (s.updCtx c f).core = s.core := rfl
@[simp] theorem State.updMe_core (s : State) (f : Ctx → Ctx) : (s.updMe f).core = s.core := rfl
@[simp] theorem State.updMe_stream (s : State) (f : Ctx → Ctx) : (s.updMe f).stream = s.stream := rfl
@[simp] theorem State.updCtx_stream (s : State) (c : Nat) (f : Ctx → Ctx) : (s.updCtx c f).stream = s.stream := rfl
@[simp] theorem State.updStream_core (s : State) (f : StreamState → StreamState) : (s.updStream f).core = s.core := rfl
@[simp] theorem State.updStream_stream (s : State) (f : StreamState → StreamState) : (s.updStream f).stream = s.stream := rfl

/-- The context just set is the one read. -/
@[simp] theorem State.ctx_setCtx_same (s : State) (c : Nat) (x : Ctx) : (s.setCtx c x).ctx c = x := by
  simp [State.ctx, State.setCtx]

/-- Setting one context leaves the others. -/
theorem State.ctx_setCtx_ne (s : State) {c k : Nat} (x : Ctx) (h : k ≠ c) : (s.setCtx c x).ctx k = s.ctx k :=
  mget_mset_ne _ _ _ h

@[simp] theorem State.ctx_updCtx_same (s : State) (c : Nat) (f : Ctx → Ctx) : (s.updCtx c f).ctx c = f (s.ctx c) := by
  simp [State.updCtx]

theorem State.ctx_updCtx_ne (s : State) {c k : Nat} (f : Ctx → Ctx) (h : k ≠ c) : (s.updCtx c f).ctx k = s.ctx k :=
  State.ctx_setCtx_ne _ _ h

@[simp] theorem State.me_updMe (s : State) (f : Ctx → Ctx) : (s.updMe f).me = f s.me := by
  simp [State.me, State.updMe]

theorem State.ctx_updMe_ne (s : State) {k : Nat} (f : Ctx → Ctx) (h : k ≠ s.core) : (s.updMe f).ctx k = s.ctx k :=
  State.ctx_updCtx_ne _ _ h

@[simp] theorem Ctx.stream_updStream_same (x : Ctx) (st : StreamId) (f : StreamState → StreamState) :
    (x.updStream st f).stream st = f (x.stream st) := by
  cases st <;> rfl

theorem Ctx.updStream_updStream (x : Ctx) (st : StreamId) (f g : StreamState → StreamState) :
    (x.updStream st f).updStream st g = x.updStream st fun y => g (f y) := by
  cases st <;> rfl

theorem Ctx.updStream_id (x : Ctx) (st : StreamId) (f : StreamState → StreamState) (h : f (x.stream st) = x.stream st) :
    x.updStream st f = x := by
  cases st <;> simp [Ctx.updStream, Ctx.stream] at * <;> rw [h]

@[simp] theorem State.part_updPart_same (s : State) (k : Nat) (f : Partition → Partition) :
    (s.updPart k f).part k = f (s.part k) := by
  simp [State.part, State.updPart]

theorem State.part_updPart_ne (s : State) {j k : Nat} (f : Partition → Partition) (h : j ≠ k) :
    (s.updPart k f).part j = s.part j := mget_mset_ne _ _ _ h

@[simp] theorem State.flock_updFlock_same (s : State) (k : Nat) (f : Flock → Flock) :
    (s.updFlock k f).flock k = f (s.flock k) := by
  simp [State.flock, State.updFlock]

theorem State.flock_updFlock_ne (s : State) {j k : Nat} (f : Flock → Flock) (h : j ≠ k) :
    (s.updFlock k f).flock j = s.flock j := mget_mset_ne _ _ _ h

@[simp] theorem State.tile_updTile_same (s : State) (k : Nat) (f : TileSt → TileSt) :
    (s.updTile k f).tile k = f (s.tile k) := by
  simp [State.tile, State.updTile]

theorem State.tile_updTile_ne (s : State) {j k : Nat} (f : TileSt → TileSt) (h : j ≠ k) :
    (s.updTile k f).tile j = s.tile j := mget_mset_ne _ _ _ h

/-! ## Registers (R18) -/

@[simp] theorem StreamState.getG_zero (y : StreamState) : y.getG 0 = 0 := rfl
@[simp] theorem StreamState.getP_zero (y : StreamState) : y.getP 0 = true := rfl

/-- A g register reads what was written; g0 reads as zero. -/
theorem StreamState.getG_setG_same (y : StreamState) (d : BitVec 5) (v : W64) :
    (y.setG d v).getG d = if d = 0 then 0 else v := by
  unfold StreamState.getG StreamState.setG
  split
  · rfl
  · simp only [Vector.getElem_set_self]

/-- A write of one g register leaves the others. -/
theorem StreamState.getG_setG_ne (y : StreamState) {d i : BitVec 5} (v : W64) (h : i ≠ d) : (y.setG d v).getG i = y.getG i := by
  unfold StreamState.getG StreamState.setG
  split
  · rfl
  · split
    · rfl
    · have : d.toNat ≠ i.toNat := fun e => h (BitVec.eq_of_toNat_eq e.symm)
      simp [this]

/-- A predicate reads what was written; p0 reads as true. -/
theorem StreamState.getP_setP_same (y : StreamState) (d : BitVec 4) (v : Bool) :
    (y.setP d v).getP d = if d = 0 then true else v := by
  unfold StreamState.getP StreamState.setP
  split
  · rfl
  · simp only [Vector.getElem_set_self]

/-- A write of one predicate leaves the others. -/
theorem StreamState.getP_setP_ne (y : StreamState) {d i : BitVec 4} (v : Bool) (h : i ≠ d) : (y.setP d v).getP i = y.getP i := by
  unfold StreamState.getP StreamState.setP
  split
  · rfl
  · split
    · rfl
    · have : d.toNat ≠ i.toNat := fun e => h (BitVec.eq_of_toNat_eq e.symm)
      simp [this]

/-- A write of a g register changes no predicate. -/
@[simp] theorem StreamState.getP_setG (y : StreamState) (d : BitVec 5) (v : W64) (i : BitVec 4) : (y.setG d v).getP i = y.getP i := by
  unfold StreamState.setG; split <;> rfl

/-- Putting the g registers back undoes a write of one. -/
@[simp] theorem StreamState.setG_undo (y : StreamState) (d : BitVec 5) (v : W64) : { y.setG d v with g := y.g } = y := by
  unfold StreamState.setG; split <;> rfl

/-- Putting the predicates back undoes a write of one. -/
@[simp] theorem StreamState.setP_undo (y : StreamState) (d : BitVec 4) (v : Bool) : { y.setP d v with p := y.p } = y := by
  unfold StreamState.setP; split <;> rfl

/-! ## Guards (R116, R117) -/

/-- An operation under its guard. -/
theorem guarded_next (gd : Guard) (s : State) (f : State → State) :
    guarded gd s f = .next (if guardOk gd s then f s else s) := rfl

end Sys2Proof.Machine
end

