-- ==== Sys2Proof/Laws/Words.lean ====
section
/-! SUPPORT. What each named operation of a word does, said once: a write of a register or a predicate, a result on its
way to the operand file, a wait, and a trap. -/

namespace Sys2Proof.Machine

/-- A change of the context at work changes nothing outside it. -/
theorem sameButCore_updMe (s : State) (f : Ctx → Ctx) : SameButCore s (s.updMe f) :=
  ⟨rfl, fun _ h => State.ctx_updMe_ne s f h⟩

/-- A change of the context at work is exactly that change. -/
theorem onlyMe_updMe (s : State) (f : Ctx → Ctx) : OnlyMe s (s.updMe f) f := ⟨sameButCore_updMe s f, State.me_updMe s f⟩

/-- Two changes of the context at work are one. -/
theorem State.updMe_updMe_me (s : State) (f g : Ctx → Ctx) : ((s.updMe f).updMe g).me = g (f s.me) := by simp

theorem sameButCore_trans {s t u : State} (h : SameButCore s t) (k : SameButCore t u) : SameButCore s u := by
  obtain ⟨h1, h2⟩ := h
  obtain ⟨k1, k2⟩ := k
  have hc : t.core = s.core := by rw [← h1]; rfl
  refine ⟨?_, fun c hc' => (k2 c (hc ▸ hc')).trans (h2 c hc')⟩
  rw [← h1, ← k1]

theorem SameButCore.refl (s : State) : SameButCore s s := ⟨rfl, fun _ _ => rfl⟩

/-- A write of g[d], with its latency bound. -/
theorem wgB_wrote (s : State) (d : BitVec 5) (v : W64) (bound : Nat) : WroteG s (s.wgB d v bound) d v := by
  unfold State.wgB State.busyC
  have hcore : (s.wg d v).core = s.core := rfl
  have hstr : (s.wg d v).stream = s.stream := rfl
  have hme : (s.wg d v).me = s.me.updStream s.stream fun y => y.setG d v := by
    simp [State.wg, State.updStream]
  have base : WroteG s (s.wg d v) d v := by
    refine ⟨⟨sameButCore_updMe s _, ?_⟩, ?_, ?_⟩
    · rw [hme, Ctx.updStream_updStream]
      simp only [StreamState.setG]
      cases hs : s.stream <;> simp [Ctx.updStream, Ctx.stream] <;> split <;> rfl
    · simp only [State.gNow, hme, hstr, Ctx.stream_updStream_same]
      exact StreamState.getG_setG_same _ d v
    · intro i hi
      simp only [State.gNow, hme, hstr, Ctx.stream_updStream_same]
      exact StreamState.getG_setG_ne _ v hi
  split
  · obtain ⟨⟨h1, h2⟩, h3, h4⟩ := base
    refine ⟨⟨sameButCore_trans h1 (sameButCore_updMe _ _), ?_⟩, ?_, ?_⟩
    · rw [State.me_updMe]
      rw [← h2]
      cases hs : s.stream <;> simp [Ctx.updStream, Ctx.stream]
    · rw [← h3]
      simp only [State.gNow, State.me_updMe, State.updMe_stream, hstr]
      cases hs : s.stream <;> rfl
    · intro i hi
      rw [← h4 i hi]
      simp only [State.gNow, State.me_updMe, State.updMe_stream, hstr]
      cases hs : s.stream <;> rfl
  · exact base

/-- A write of p[d]. -/
theorem wp_wrote (s : State) (d : BitVec 4) (v : Bool) : WroteP s (s.wp d v) d v := by
  have hstr : (s.wp d v).stream = s.stream := rfl
  have hme : (s.wp d v).me = s.me.updStream s.stream fun y => y.setP d v := by
    simp [State.wp, State.updStream]
  refine ⟨sameButCore_updMe s _, ?_, ?_, ?_, ?_⟩
  · rw [hme]
    cases hs : s.stream <;> simp [Ctx.updStream]
  · rw [hme, Ctx.updStream_updStream]
    exact Ctx.updStream_id _ _ _ (StreamState.setP_undo _ d v)
  · simp only [State.pNow, hme, hstr, Ctx.stream_updStream_same]
    exact StreamState.getP_setP_same _ d v
  · intro i hi
    simp only [State.pNow, hme, hstr, Ctx.stream_updStream_same]
    exact StreamState.getP_setP_ne _ v hi

/-- A result of the C stream, sent on its way. -/
theorem opWrite_onItsWay (s : State) (off : Nat) (bs : List Byte) (bound : Nat) :
    OnItsWay s (s.opWrite off bs bound) off bs bound := by
  have cells : ((List.range bs.length).zip bs).map (fun e => (off + e.1, e.2)) =
      (List.range bs.length).map fun i => (off + i, bs.getD i 0) := by
    apply List.ext_getElem
    · simp
    · intro i h1 h2
      have h3 : i < bs.length := by simpa using h1
      simp [List.getD, h3]
  refine ⟨sameButCore_updMe s _, ?_, ?_⟩
  · simp [State.opWrite]
  · refine ⟨{ slot := s.me.slot, due := s.me.slot + bound, cells := ((List.range bs.length).zip bs).map fun e => (off + e.1, e.2) },
      ?_, rfl, rfl, rfl, cells⟩
    simp [State.opWrite]

/-- A core takes a trap unless it stands at one. -/
theorem ctx_takeTrap (s : State) (c : Nat) (st : StreamId) (cause : Cause) (code : Byte) (addr : W64) (seq : W32) (syl : Nat) :
    (takeTrap s c st cause code addr seq syl).ctx c =
      { s.ctx c with trap := some ((s.ctx c).trap.getD { cause, stream := st, code, addr, seq, syl }) } := by
  unfold takeTrap
  rw [State.ctx_updCtx_same]
  generalize s.ctx c = x
  obtain ⟨⟩ := x
  dsimp only
  split <;> rfl

/-- A core's trap changes no other core. -/
theorem ctx_takeTrap_ne (s : State) {c k : Nat} (st : StreamId) (cause : Cause) (code : Byte) (addr : W64) (seq : W32)
    (syl : Nat) (h : k ≠ c) : (takeTrap s c st cause code addr seq syl).ctx k = s.ctx k :=
  State.ctx_updCtx_ne s _ h

/-- A word that raises a cause. -/
theorem trapWith_traps (s : State) (cause : Cause) (code : Byte) (addr : W64) :
    TrapsAtWord s (s.trapWith cause code addr) cause code addr := by
  have hme : (s.trapWith cause code addr).me = { s.me with trap := some (s.me.trap.getD
      { cause, stream := s.stream, code, addr, seq := (s.me.stream s.stream).seq, syl := s.rd.pc }) } :=
    ctx_takeTrap s s.core s.stream cause code addr _ _
  refine ⟨rfl, rfl, fun c hc => ctx_takeTrap_ne s s.stream cause code addr _ _ hc, ?_, ?_⟩ <;> rw [hme]

/-- A wait marks its stream and changes nothing else of the machine. -/
theorem waitNow_verdict (s : State) (r : WaitReason) : (s.waitNow r).verdict = .waits r := rfl

/-- Elements of a result become its bytes. -/
theorem putElems_onItsWay (s : State) (ty : IntTy) (d : BitVec 5) (xs : List Nat) (bound : Nat) :
    OnItsWay s (s.putElems ty d xs bound) (vOffset s.rd.viewV d) (unchunks (intBytes ty) xs) bound := by
  simpa [State.putElems, State.vWrite] using opWrite_onItsWay s (vOffset s.rd.viewV d) (unchunks (intBytes ty) xs) bound

theorem putFelems_onItsWay (s : State) (ty : FpTy) (d : BitVec 5) (xs : List Nat) (bound : Nat) :
    OnItsWay s (s.putFelems ty d xs bound) (vOffset s.rd.viewV d) (unchunks (fpBytes ty) xs) bound := by
  simpa [State.putFelems, State.vWrite] using opWrite_onItsWay s (vOffset s.rd.viewV d) (unchunks (fpBytes ty) xs) bound

/-- A guarded operation that changes what it changes gives a next state. -/
theorem givesG_of (i : Instr) (gd : Guard) (d : BitVec 5) (v : State → W64) (bound : Nat)
    (h : ∀ s, exec i s = guarded gd s fun s => s.wgB d (v s) bound) : GivesG i gd d v := by
  intro s
  refine ⟨_, (h s).trans (guarded_next gd s _), ?_⟩
  unfold Guarded
  split
  · exact wgB_wrote s d (v s) bound
  · rfl

end Sys2Proof.Machine
end

