-- ==== Sys2Proof/Tests/Slice0.lean ====
section
/-! SUPPORT. Tests: words written out from the spec's encodings and what they decode to, ill-formed terms that the checks
refuse, and for every statement with hypotheses a state and operands that meet them. -/

open Sys2Proof Sys2Proof.Machine

namespace Sys2Proof.Tests

set_option maxRecDepth 8000
set_option Elab.async false

theorem test_decode_common_1 :
    decodeOp .s 0 0x00AA5119 0x00000000 0x00000000 = .ok (.movi ⟨5, false⟩ 18 4377) ∧
    decodeOp .s 0 0x02AA5119 0x00000000 0x00000000 = .ok (.addi ⟨5, false⟩ 18 4377) ∧
    decodeOp .s 0 0x012A5119 0x00000000 0x00000000 = .ok (.movhi ⟨5, false⟩ 18 4377) ∧
    decodeOp .s 0 0x01AA4900 0x00000000 0x00000000 = .ok (.mov ⟨5, false⟩ 18 9) ∧
    decodeOp .s 0 0x092A4900 0x00000000 0x00000000 = .ok (.clz ⟨5, false⟩ 18 9) ∧
    decodeOp .s 0 0x09AA4900 0x00000000 0x00000000 = .ok (.popc ⟨5, false⟩ 18 9) ∧
    decodeOp .s 0 0x022A492C 0x00000000 0x00000000 = .ok (.add ⟨5, false⟩ 18 9 (.reg 11)) ∧
    decodeOp .s 0 0x032A492C 0x00000000 0x00000000 = .ok (.sub ⟨5, false⟩ 18 9 (.reg 11)) ∧
    decodeOp .s 0 0x03AA492C 0x00000000 0x00000000 = .ok (.mul ⟨5, false⟩ 18 9 (.reg 11)) ∧
    decodeOp .s 0 0x042A492C 0x00000000 0x00000000 = .ok (.mulh ⟨5, false⟩ 18 9 (.reg 11)) ∧
    decodeOp .s 0 0x04AA492C 0x00000000 0x00000000 = .ok (.mulhN ⟨5, false⟩ 18 9 (.reg 11)) ∧
    decodeOp .s 0 0x052A492C 0x00000000 0x00000000 = .ok (.and ⟨5, false⟩ 18 9 (.reg 11)) ∧
    decodeOp .s 0 0x05AA492C 0x00000000 0x00000000 = .ok (.andn ⟨5, false⟩ 18 9 (.reg 11)) ∧
    decodeOp .s 0 0x062A492C 0x00000000 0x00000000 = .ok (.or ⟨5, false⟩ 18 9 (.reg 11)) ∧
    decodeOp .s 0 0x06AA492C 0x00000000 0x00000000 = .ok (.xor ⟨5, false⟩ 18 9 (.reg 11)) ∧
    decodeOp .s 0 0x072A492C 0x00000000 0x00000000 = .ok (.shl ⟨5, false⟩ 18 9 (.reg 11)) ∧
    decodeOp .s 0 0x07AA492C 0x00000000 0x00000000 = .ok (.shr ⟨5, false⟩ 18 9 (.reg 11)) ∧
    decodeOp .s 0 0x082A492C 0x00000000 0x00000000 = .ok (.sar ⟨5, false⟩ 18 9 (.reg 11)) ∧
    decodeOp .s 0 0x08AA492C 0x00000000 0x00000000 = .ok (.rot ⟨5, false⟩ 18 9 (.reg 11)) ∧
    decodeOp .s 0 0x0A2A492C 0x00000000 0x00000000 = .ok (.min ⟨5, false⟩ 18 9 (.reg 11)) := by decide

theorem test_decode_common_2 :
    decodeOp .s 0 0x0AAA492C 0x00000000 0x00000000 = .ok (.minN ⟨5, false⟩ 18 9 (.reg 11)) ∧
    decodeOp .s 0 0x0B2A492C 0x00000000 0x00000000 = .ok (.max ⟨5, false⟩ 18 9 (.reg 11)) ∧
    decodeOp .s 0 0x0BAA492C 0x00000000 0x00000000 = .ok (.maxN ⟨5, false⟩ 18 9 (.reg 11)) ∧
    decodeOp .s 0 0x0C28F24B 0x00000000 0x00000000 = .ok (.cmp ⟨5, false⟩ 3 .ltn 9 (.reg 11)) ∧
    decodeOp .s 0 0x0CAA49A9 0x00000000 0x00000000 = .ok (.sel ⟨5, false⟩ 18 9 21 1) ∧
    decodeOp .s 0 0x0D28F119 0x00000000 0x00000000 = .ok (.br ⟨5, false⟩ 61721) ∧
    decodeOp .s 0 0x0DA8F119 0x00000000 0x00000000 = .ok (.jmp ⟨5, false⟩ 61721) ∧
    decodeOp .s 0 0x0DAA9000 0x00000000 0x00000000 = .ok (.jmpReg ⟨5, false⟩ 9) ∧
    decodeOp .s 0 0x0E28F119 0x00000000 0x00000000 = .ok (.call ⟨5, false⟩ 61721) ∧
    decodeOp .s 0 0x0E2A9000 0x00000000 0x00000000 = .ok (.callReg ⟨5, false⟩ 9) ∧
    decodeOp .s 0 0x0EA80000 0x00000000 0x00000000 = .ok (.ret ⟨5, false⟩) ∧
    decodeOp .s 0 0x0F292015 0x00000000 0x00000000 = .ok (.loop ⟨5, false⟩ 9 21) ∧
    decodeOp .s 0 0x0FAA5119 0x00000000 0x00000000 = .ok (.rdsr ⟨5, false⟩ 18 4377) ∧
    decodeOp .s 0 0x10293119 0x00000000 0x00000000 = .ok (.wrsr ⟨5, false⟩ 9 4377) ∧
    decodeOp .s 0 0x10A80019 0x00000000 0x00000000 = .ok (.trap ⟨5, false⟩ 25) ∧
    decodeOp .s 0 0x11280000 0x00000000 0x00000000 = .ok (.fin ⟨5, false⟩) ∧
    decodeOp .c 2 0x00000000 0x00000000 0x00000000 = .ok (.nop) := by decide

theorem test_decode_load :
    decodeOp .l 0 0x182A49A0 0x00000000 0x00000000 = .ok (.ld ⟨5, false⟩ 18 9 2 true) ∧
    decodeOp .l 0 0x18AA4950 0x00000000 0x00000000 = .ok (.ldl ⟨5, false⟩ 18 9 2 true) ∧
    decodeOp .l 0 0x18AB09B4 0x00000000 0x00000000 = .ok (.ldlQ ⟨5, false⟩ 6 9 13) ∧
    decodeOp .l 0 0x192B0968 0x00000000 0x00000000 = .ok (.ldr ⟨5, false⟩ 6 9 13) ∧
    decodeOp .l 0 0x19AB5000 0x00000000 0x00000000 = .ok (.lds ⟨5, false⟩ 6 10) ∧
    decodeOp .l 0 0x1A2B64D4 0x00000000 0x00000000 = .ok (.gath ⟨5, false⟩ 6 true 2 9 21) ∧
    decodeOp .l 0 0x1AA8C900 0x00000000 0x00000000 = .ok (.stcfg ⟨5, false⟩ 3 9) ∧
    decodeOp .l 0 0x1B28C9A8 0x00000000 0x00000000 = .ok (.stadv ⟨5, false⟩ 3 9 21) ∧
    decodeOp .l 0 0x1B28E900 0x00000000 0x00000000 = .ok (.stadvSkip ⟨5, false⟩ 3 9) ∧
    decodeOp .l 0 0x1C2A4920 0x00000000 0x00000000 = .ok (.ldlay ⟨5, false⟩ 18 9 1) ∧
    decodeOp .l 0 0x1CA80000 0x00000000 0x00000000 = .ok (.fenceLayout ⟨5, false⟩) ∧
    decodeOp .l 0 0x1D2B2900 0x00000000 0x00000000 = .ok (.qpush ⟨5, false⟩ 6 1 9) ∧
    decodeOp .l 0 0x1DA8E000 0x00000000 0x00000000 = .ok (.bqpush ⟨5, false⟩ 3 true) ∧
    decodeOp .l 0 0x1E2B4AD0 0x00000000 0x00000000 = .ok (.recv ⟨5, false⟩ 6 37 13) := by decide

theorem test_decode_store :
    decodeOp .s 0 0x182AA920 0x00000000 0x00000000 = .ok (.st ⟨5, false⟩ 21 9 1) ∧
    decodeOp .s 0 0x182B09B4 0x00000000 0x00000000 = .ok (.stQ ⟨5, false⟩ 6 9 13) ∧
    decodeOp .s 0 0x18AAA920 0x00000000 0x00000000 = .ok (.stl ⟨5, false⟩ 21 9 1) ∧
    decodeOp .s 0 0x18AB09B4 0x00000000 0x00000000 = .ok (.stlQ ⟨5, false⟩ 6 9 13) ∧
    decodeOp .s 0 0x192B270D 0x00000000 0x00000000 = .ok (.str ⟨5, false⟩ 6 9 24 13) ∧
    decodeOp .s 0 0x19A81200 0x00000000 0x00000000 = .ok (.pushReg ⟨5, false⟩ .tile 16) ∧
    decodeOp .s 0 0x19A81420 0x00000000 0x00000000 = .ok (.pushSq ⟨5, false⟩ .tile 1) ∧
    decodeOp .s 0 0x1A28A400 0x00000000 0x00000000 = .ok (.pop ⟨5, false⟩ 2 18) ∧
    decodeOp .s 0 0x1A28A550 0x00000000 0x00000000 = .ok (.popTry ⟨5, false⟩ 2 18 5) ∧
    decodeOp .s 0 0x1AAA49A8 0x00000000 0x00000000 = .ok (.rgx ⟨5, false⟩ 18 9 21) ∧
    decodeOp .s 0 0x1B290000 0x00000000 0x00000000 = .ok (.fence ⟨5, false⟩ .tile) ∧
    decodeOp .s 0 0x1BA93500 0x00000000 0x00000000 = .ok (.waita ⟨5, false⟩ 9 21) ∧
    decodeOp .s 0 0x1BA93580 0x00000000 0x00000000 = .ok (.waitaNb ⟨5, false⟩ 9 21) ∧
    decodeOp .s 0 0x1C299800 0x00000000 0x00000000 = .ok (.barArrive ⟨5, false⟩ ⟨.panel, 6⟩) ∧
    decodeOp .s 0 0x1CA99A40 0x00000000 0x00000000 = .ok (.barWait ⟨5, false⟩ ⟨.panel, 6⟩ 18) ∧
    decodeOp .s 0 0x1D299A40 0x00000000 0x00000000 = .ok (.barArwt ⟨5, false⟩ ⟨.panel, 6⟩ 18) ∧
    decodeOp .s 0 0x1DA80000 0x00000000 0x00000000 = .ok (.trig ⟨5, false⟩) ∧
    decodeOp .s 0 0x1E2B4AD0 0x00000000 0x00000000 = .ok (.send ⟨5, false⟩ 6 37 13) := by decide

theorem test_decode_vector_1 :
    decodeOp .c 1 0x182A49A9 0x00000000 0x00000000 = .ok (.vadd ⟨5, false⟩ 18 9 21 .i16) ∧
    decodeOp .c 1 0x18AA49A9 0x00000000 0x00000000 = .ok (.vsub ⟨5, false⟩ 18 9 21 .i16) ∧
    decodeOp .c 1 0x192A49A9 0x00000000 0x00000000 = .ok (.vmul ⟨5, false⟩ 18 9 21 .i16) ∧
    decodeOp .c 1 0x19AA49A9 0x00000000 0x00000000 = .ok (.vmulh ⟨5, false⟩ 18 9 21 .i16) ∧
    decodeOp .c 1 0x1A2A49A9 0x00000000 0x00000000 = .ok (.vmad ⟨5, false⟩ 18 9 21 .i16) ∧
    decodeOp .c 1 0x1CAA49A9 0x00000000 0x00000000 = .ok (.vshl ⟨5, false⟩ 18 9 21 .i16) ∧
    decodeOp .c 1 0x1D2A49A9 0x00000000 0x00000000 = .ok (.vshr ⟨5, false⟩ 18 9 21 .i16) ∧
    decodeOp .c 1 0x1DAA49A9 0x00000000 0x00000000 = .ok (.vsar ⟨5, false⟩ 18 9 21 .i16) ∧
    decodeOp .c 1 0x202A49A9 0x00000000 0x00000000 = .ok (.vmin ⟨5, false⟩ 18 9 21 .i16) ∧
    decodeOp .c 1 0x20AA49A9 0x00000000 0x00000000 = .ok (.vmax ⟨5, false⟩ 18 9 21 .i16) ∧
    decodeOp .c 1 0x21AA49A9 0x00000000 0x00000000 = .ok (.vcmpEq ⟨5, false⟩ 18 9 21 .i16) ∧
    decodeOp .c 1 0x222A49A9 0x00000000 0x00000000 = .ok (.vcmpNe ⟨5, false⟩ 18 9 21 .i16) ∧
    decodeOp .c 1 0x22AA49A9 0x00000000 0x00000000 = .ok (.vcmpLt ⟨5, false⟩ 18 9 21 .i16) ∧
    decodeOp .c 1 0x232A49A9 0x00000000 0x00000000 = .ok (.vcmpLe ⟨5, false⟩ 18 9 21 .i16) ∧
    decodeOp .c 1 0x2C2A49A9 0x00000000 0x00000000 = .ok (.vperm ⟨5, false⟩ 18 9 21 .i16) ∧
    decodeOp .c 1 0x2DAA49A9 0x00000000 0x00000000 = .ok (.vcomp ⟨5, false⟩ 18 9 21 .i16) ∧
    decodeOp .c 1 0x2F2A49A9 0x00000000 0x00000000 = .ok (.vredm ⟨5, false⟩ 18 9 21 .i16) ∧
    decodeOp .c 1 0x1AAA49A8 0x00000000 0x00000000 = .ok (.vand ⟨5, false⟩ 18 9 21) ∧
    decodeOp .c 1 0x1B2A49A8 0x00000000 0x00000000 = .ok (.vor ⟨5, false⟩ 18 9 21) ∧
    decodeOp .c 1 0x1BAA49A8 0x00000000 0x00000000 = .ok (.vxor ⟨5, false⟩ 18 9 21) := by decide

theorem test_decode_vector_2 :
    decodeOp .c 1 0x1F2A4901 0x00000000 0x00000000 = .ok (.vpopc ⟨5, false⟩ 18 9 .i16) ∧
    decodeOp .c 1 0x1FAA4901 0x00000000 0x00000000 = .ok (.vclz ⟨5, false⟩ 18 9 .i16) ∧
    decodeOp .c 1 0x212A4901 0x00000000 0x00000000 = .ok (.vabs ⟨5, false⟩ 18 9 .i16) ∧
    decodeOp .c 1 0x242A49AA 0x00000000 0x00000000 = .ok (.fadd ⟨5, false⟩ 18 9 21 .f16) ∧
    decodeOp .c 1 0x24AA49AA 0x00000000 0x00000000 = .ok (.fsub ⟨5, false⟩ 18 9 21 .f16) ∧
    decodeOp .c 1 0x252A49AA 0x00000000 0x00000000 = .ok (.fmul ⟨5, false⟩ 18 9 21 .f16) ∧
    decodeOp .c 1 0x25AA49AA 0x00000000 0x00000000 = .ok (.ffma ⟨5, false⟩ 18 9 21 .f16) ∧
    decodeOp .c 1 0x262A49AA 0x00000000 0x00000000 = .ok (.fmin ⟨5, false⟩ 18 9 21 .f16) ∧
    decodeOp .c 1 0x26AA49AA 0x00000000 0x00000000 = .ok (.fmax ⟨5, false⟩ 18 9 21 .f16) ∧
    decodeOp .c 1 0x282A49AA 0x00000000 0x00000000 = .ok (.fcmpEq ⟨5, false⟩ 18 9 21 .f16) ∧
    decodeOp .c 1 0x28AA49AA 0x00000000 0x00000000 = .ok (.fcmpNe ⟨5, false⟩ 18 9 21 .f16) ∧
    decodeOp .c 1 0x292A49AA 0x00000000 0x00000000 = .ok (.fcmpLt ⟨5, false⟩ 18 9 21 .f16) ∧
    decodeOp .c 1 0x29AA49AA 0x00000000 0x00000000 = .ok (.fcmpLe ⟨5, false⟩ 18 9 21 .f16) ∧
    decodeOp .c 1 0x2FAA49AA 0x00000000 0x00000000 = .ok (.fredm ⟨5, false⟩ 18 9 21 .f16) ∧
    decodeOp .c 1 0x272A4902 0x00000000 0x00000000 = .ok (.fabs ⟨5, false⟩ 18 9 .f16) ∧
    decodeOp .c 1 0x27AA4902 0x00000000 0x00000000 = .ok (.fneg ⟨5, false⟩ 18 9 .f16) ∧
    decodeOp .c 1 0x2A2A4902 0x00000000 0x00000000 = .ok (.frcp ⟨5, false⟩ 18 9 .f16) ∧
    decodeOp .c 1 0x2AAA4902 0x00000000 0x00000000 = .ok (.frsq ⟨5, false⟩ 18 9 .f16) ∧
    decodeOp .c 1 0x2B2A4902 0x00000000 0x00000000 = .ok (.fexp2 ⟨5, false⟩ 18 9 .f16) ∧
    decodeOp .c 1 0x2BAA4902 0x00000000 0x00000000 = .ok (.flog2 ⟨5, false⟩ 18 9 .f16) := by decide

theorem test_decode_vector_3 :
    decodeOp .c 1 0x2E2A4911 0x00000000 0x00000000 = .ok (.vred ⟨5, false⟩ 18 9 .max .i16) ∧
    decodeOp .c 1 0x2EAA4912 0x00000000 0x00000000 = .ok (.fred ⟨5, false⟩ 18 9 .max .f16) ∧
    decodeOp .c 1 0x302A4100 0x00000000 0x00000000 = .ok (.qpop ⟨5, false⟩ 18 1) ∧
    decodeOp .c 1 0x30AA41A8 0x00000000 0x00000000 = .ok (.qput ⟨5, false⟩ 18 1 21) := by decide

theorem test_decode_c_slot0 :
    decodeOp .c 0 0x31A80000 0x00000000 0x00000000 = .ok (.rotb ⟨5, false⟩) ∧
    decodeOp .c 0 0x3229A000 0x00000000 0x00000000 = .ok (.loopst ⟨5, false⟩ 6 true) ∧
    decodeOp .c 0 0x0D030005 0x00000000 0x00000000 = .ok (.brBq 0x10005) ∧
    decodeOp .c 0 0x3129ABA5 0x00000000 0x00000000 = .ok (.view ⟨5, false⟩ 1 5 1 0x3A5) := by decide

theorem test_decode_c_slot2 :
    decodeOp .c 2 0x32AA49D0 0x00000000 0x00000000 = .ok (.cvt ⟨5, false⟩ 18 9 3 2) ∧
    decodeOp .c 2 0x332A49D0 0x00000000 0x00000000 = .ok (.qmx ⟨5, false⟩ 18 9 3 2) ∧
    decodeOp .c 2 0x33AA40C0 0x00000000 0x00000000 = .ok (.qtrl ⟨5, false⟩ 18 3) ∧
    decodeOp .c 2 0x342AB000 0x00000000 0x00000000 = .ok (.qstat ⟨5, false⟩ 43) ∧
    decodeOp .c 2 0x342AB800 0x00000000 0x00000000 = .ok (.qstatClr ⟨5, false⟩ 43) ∧
    decodeOp .c 2 0x34A80900 0x00000000 0x00000000 = .ok (.mxsetHdr ⟨5, false⟩ 9) ∧
    decodeOp .c 2 0x34A80980 0x00000000 0x00000000 = .ok (.mxsetLvl ⟨5, false⟩ 9) ∧
    decodeOp .c 2 0x3529D500 0x00000000 0x00000000 = .ok (.mxbindG ⟨5, false⟩ 7 21) ∧
    decodeOp .c 2 0x35AB6000 0x00000000 0x00000000 = .ok (.mxgrp ⟨5, false⟩ true 5 true) ∧
    decodeOp .c 2 0x36280000 0x00000000 0x00000000 = .ok (.mxgo ⟨5, false⟩) ∧
    decodeOp .c 2 0x36AA4000 0x00000000 0x00000000 = .ok (.mxwait ⟨5, false⟩ 18) ∧
    decodeOp .c 2 0x37280000 0x00000000 0x00000000 = .ok (.mxcommit ⟨5, false⟩) ∧
    decodeOp .c 2 0x372A0000 0x00000000 0x00000000 = .ok (.mxcommitClr ⟨5, false⟩) ∧
    decodeOp .c 2 0x35292E00 0x00000000 0x00000000 = .ok (.mxbindView ⟨5, false⟩ 4 1 6) ∧
    decodeOp .c 2 0x37A95500 0x00000000 0x00000000 = .ok (.mxswap ⟨5, false⟩ 0x155) := by decide

theorem test_decode_wide :
    decodeOp .s 0 0x40AA4000 0x89ABCDEF 0x00000000 = .ok (.moviWide ⟨5, false⟩ 18 (.i32 0x89ABCDEF)) ∧
    decodeOp .s 0 0x412A4000 0x89ABCDEF 0x00000000 = .ok (.movhiWide ⟨5, false⟩ 18 0x89ABCDEF) ∧
    decodeOp .s 0 0x82AA4000 0x89ABCDEF 0x01234567 = .ok (.addiWide ⟨5, false⟩ 18 (.i64 0x0123456789ABCDEF)) ∧
    decodeOp .s 0 0x422A4980 0x89ABCDEF 0x00000000 = .ok (.addWide ⟨5, false⟩ 18 9 (.i32 0x89ABCDEF)) ∧
    decodeOp .s 0 0x832A4980 0x89ABCDEF 0x01234567 = .ok (.subWide ⟨5, false⟩ 18 9 (.i64 0x0123456789ABCDEF)) ∧
    decodeOp .s 0 0x43AA4980 0x89ABCDEF 0x00000000 = .ok (.mulWide ⟨5, false⟩ 18 9 (.i32 0x89ABCDEF)) ∧
    decodeOp .s 0 0x852A4980 0x89ABCDEF 0x01234567 = .ok (.andWide ⟨5, false⟩ 18 9 (.i64 0x0123456789ABCDEF)) ∧
    decodeOp .s 0 0x45AA4980 0x89ABCDEF 0x00000000 = .ok (.andnWide ⟨5, false⟩ 18 9 (.i32 0x89ABCDEF)) ∧
    decodeOp .s 0 0x862A4980 0x89ABCDEF 0x01234567 = .ok (.orWide ⟨5, false⟩ 18 9 (.i64 0x0123456789ABCDEF)) ∧
    decodeOp .s 0 0x46AA4980 0x89ABCDEF 0x00000000 = .ok (.xorWide ⟨5, false⟩ 18 9 (.i32 0x89ABCDEF)) ∧
    decodeOp .s 0 0x8A2A4980 0x89ABCDEF 0x01234567 = .ok (.minWide ⟨5, false⟩ 18 9 (.i64 0x0123456789ABCDEF)) ∧
    decodeOp .s 0 0x4AAA4980 0x89ABCDEF 0x00000000 = .ok (.minNWide ⟨5, false⟩ 18 9 (.i32 0x89ABCDEF)) ∧
    decodeOp .s 0 0x8B2A4980 0x89ABCDEF 0x01234567 = .ok (.maxWide ⟨5, false⟩ 18 9 (.i64 0x0123456789ABCDEF)) ∧
    decodeOp .s 0 0x4BAA4980 0x89ABCDEF 0x00000000 = .ok (.maxNWide ⟨5, false⟩ 18 9 (.i32 0x89ABCDEF)) ∧
    decodeOp .s 0 0x4C2A6260 0x89ABCDEF 0x00000000 = .ok (.cmpWide ⟨5, false⟩ 9 .gt 9 (.i32 0x89ABCDEF)) := by decide

theorem test_decode_wide_load :
    decodeOp .l 0 0x582A49A0 0x89ABCDEF 0x00000000 = .ok (.ldOffset ⟨5, false⟩ 18 9 2 true (.i32 0x89ABCDEF)) ∧
    decodeOp .l 0 0x98AA89B4 0x89ABCDEF 0x01234567 = .ok (.ldlOffset ⟨5, false⟩ (.queue 5 13) 9 (.i64 0x0123456789ABCDEF)) ∧
    decodeOp .l 0 0x58AA4930 0x89ABCDEF 0x00000000 = .ok (.ldlOffset ⟨5, false⟩ (.reg 18 1 true) 9 (.i32 0x89ABCDEF)) ∧
    decodeOp .l 0 0x592A8968 0x89ABCDEF 0x00000000 = .ok (.ldrOffset ⟨5, false⟩ 5 9 13 (.i32 0x89ABCDEF)) ∧
    decodeOp .l 0 0x5A2AE4D4 0x00000027 0x00000000 = .ok (.gathN ⟨5, false⟩ 5 true 2 9 21 39) ∧
    decodeOp .l 0 0x9AAAC900 0x89ABCDEF 0x01234567 = .ok (.stcfgOffset ⟨5, false⟩ 11 9 (.i64 0x0123456789ABCDEF)) ∧
    decodeOp .l 0 0x5B2AC0A8 0xFFFFFF00 0x00000000 = .ok (.stadvImm ⟨5, false⟩ 11 false 21 0xFFFFFF00) ∧
    decodeOp .l 0 0x5C2A49C0 0x89ABCDEF 0x00000000 = .ok (.ldlayOffset ⟨5, false⟩ 18 9 6 (.i32 0x89ABCDEF)) ∧
    decodeOp .l 0 0x5E2ACAD0 0xB0000000 0x00000000 = .ok (.recvTry ⟨5, false⟩ 5 37 13 11) := by decide

theorem test_decode_wide_store :
    decodeOp .s 0 0x582AA960 0x89ABCDEF 0x00000000 = .ok (.stOffset ⟨5, false⟩ (.reg 21 3) 9 (.i32 0x89ABCDEF)) ∧
    decodeOp .s 0 0x98AA89B4 0x89ABCDEF 0x01234567 = .ok (.stlOffset ⟨5, false⟩ (.queue 5 13) 9 (.i64 0x0123456789ABCDEF)) ∧
    decodeOp .s 0 0x992AA5CD 0xFFFFFFF8 0x40000000 = .ok (.strOffset ⟨5, false⟩ 5 9 14 13 0xFFFFFFF8 (some .tile)) ∧
    decodeOp .s 0 0x5AAA4900 0x48D2ABC0 0x00000000 = .ok (.rgxImm ⟨5, false⟩ 18 9 0x1234 0x2ABC) ∧
    decodeOp .s 0 0x5BA93580 0x89ABCDEF 0x00000000 = .ok (.waitaOffset ⟨5, false⟩ true 9 21 (.i32 0x89ABCDEF)) ∧
    decodeOp .s 0 0x5E2ACAD0 0xB0000000 0x00000000 = .ok (.sendTry ⟨5, false⟩ 5 37 13 11) := by decide

theorem test_decode_joined :
    decodeOp .c 1 0x1C2A49A8 0x3FFA5800 0x00000000 = .ok (.vlop3 ⟨5, false⟩ 18 9 21 30 0x96) ∧
    decodeOp .c 1 0x1E2A49AD 0x3F813400 0x00000000 = .ok (.vfshl ⟨5, false⟩ 18 9 21 (.imm 77) .n16) ∧
    decodeOp .c 1 0x1EAA49AA 0x3FFA0000 0x00000000 = .ok (.vfshr ⟨5, false⟩ 18 9 21 (.reg 30) .i32) ∧
    decodeOp .c 1 0x23AA49AC 0x3FF80000 0x00000000 = .ok (.vsel ⟨5, false⟩ 18 9 21 30 .n8) ∧
    decodeOp .c 1 0x2CAA4901 0x3F819000 0x00000000 = .ok (.vbcast ⟨5, false⟩ 18 9 100 .i16) ∧
    decodeOp .c 1 0x2CAA4009 0x3FF80000 0x00000000 = .ok (.vbcastG ⟨5, false⟩ 18 30 .i16) ∧
    decodeOp .c 1 0x2D2A4901 0x3F819000 0x00000000 = .ok (.vrotl ⟨5, false⟩ 18 9 100 .i16) ∧
    decodeOp .c 1 0x2D2A4909 0x3FF80000 0x00000000 = .ok (.vrotlG ⟨5, false⟩ 18 9 30 .i16) := by decide

theorem test_decode_prefetch_and_header :
    decodeOp .l 0 0x1BA90927 0x00000000 0x00000000 = .ok (.pref ⟨5, false⟩ 1 9 39) ∧
    decodeOp .l 0 0x9BA90927 0x89ABCDEF 0x01234567 = .ok (.prefOffset ⟨5, false⟩ 1 9 39 (.i64 0x0123456789ABCDEF)) ∧
    decodeHeader 0xF4001234 0xABCD9876 = .ok (.sectionHeader ⟨true, true, false, true, 0x1234, 0xABCD, 0x9876⟩) := by decide

theorem test_decode_circuit_words :
    decodeCircuit 0x065123456B950000 = .ok (.connect 37 0x123 0x456 5 6 21) ∧
    decodeCircuit 0x0A52C96000000000 = .ok (.hold 37 11 false 300) ∧
    decodeCircuit 0x0E50200000000000 = .ok (.tear 37 0 true) ∧
    decodeCircuit 0x1194000000000000 = .ok (.step 0x65) ∧
    decodeCircuit 0x1423456789ABCDE8 = .ok (.settle 0x23456789ABCDE8) ∧
    decodeCircuit 0x18445C0000000009 = .ok (.loopc 70000 9) ∧
    decodeCircuit 0x1E0000000000FFF0 = .ok (.jumpc 2 0xFFF0) ∧
    decodeCircuit 0x2000000089ABCDEF = .ok (.mark 0x89ABCDEF) ∧
    decodeCircuit 0x2452D80000000000 = .ok (.query 5 11 1 8) ∧
    decodeCircuit 0x2800000000000000 = .ok (.endc) ∧
    decodeCircuit 0x2C00000000000000 = .error .major := by decide

/-- A command record with this opcode byte (R298). -/
def rec (opc : Nat) : CmdRecord := ⟨BitVec.ofNat 64 (opc * 2 ^ 56 + 0x1234), 1, 2, 3, 4, 5, 6, 7⟩

theorem test_decode_commands :
    decodeCommand (rec 0x01) = .copy (rec 0x01) ∧
    decodeCommand (rec 0x02) = .copy2 (rec 0x02) ∧
    decodeCommand (rec 0x03) = .copy3 (rec 0x03) ∧
    decodeCommand (rec 0x04) = .put (rec 0x04) ∧
    decodeCommand (rec 0x05) = .putf (rec 0x05) ∧
    decodeCommand (rec 0x06) = .get (rec 0x06) ∧
    decodeCommand (rec 0x07) = .accw (rec 0x07) ∧
    decodeCommand (rec 0x08) = .fill (rec 0x08) ∧
    decodeCommand (rec 0x09) = .mcast (rec 0x09) ∧
    decodeCommand (rec 0x0A) = .prefAdapt (rec 0x0A) ∧
    decodeCommand (rec 0x0B) = .signal (rec 0x0B) ∧
    decodeCommand (rec 0x10) = .aowAdd (rec 0x10) ∧
    decodeCommand (rec 0x11) = .aowMin (rec 0x11) ∧
    decodeCommand (rec 0x12) = .aowMax (rec 0x12) ∧
    decodeCommand (rec 0x13) = .aowAnd (rec 0x13) ∧
    decodeCommand (rec 0x14) = .aowOr (rec 0x14) ∧
    decodeCommand (rec 0x15) = .aowXor (rec 0x15) ∧
    decodeCommand (rec 0x16) = .aowSwap (rec 0x16) ∧
    decodeCommand (rec 0x17) = .cas (rec 0x17) ∧
    decodeCommand (rec 0x18) = .flagadd (rec 0x18) ∧
    decodeCommand (rec 0x00) = .reservedCommand (rec 0x00) ∧
    decodeCommand (rec 0x0C) = .reservedCommand (rec 0x0C) ∧
    decodeCommand (rec 0x19) = .reservedCommand (rec 0x19) := by decide

/-- A packet of this type and these low flag bits (R386). -/
def pkt (type act : Nat) : Packet := ⟨[BitVec.ofNat 64 (type * 2 ^ 56 + act * 2 ^ 32), 0, 0, 0]⟩

theorem test_decode_packets :
    decodePacket (pkt 1 0) = .launch (pkt 1 0) ∧
    decodePacket (pkt 2 0) = .waitsig (pkt 2 0) ∧
    decodePacket (pkt 3 0) = .signalPacket (pkt 3 0) ∧
    decodePacket (pkt 4 0) = .fetchfence (pkt 4 0) ∧
    decodePacket (pkt 5 0) = .wrap (pkt 5 0) ∧
    decodePacket (pkt 6 0) = .pad (pkt 6 0) ∧
    decodePacket (pkt 7 0) = .writePacket (pkt 7 0) ∧
    decodePacket (pkt 8 0) = .copyPacket (pkt 8 0) ∧
    decodePacket (pkt 9 0) = .preemptSuspend (pkt 9 0) ∧
    decodePacket (pkt 9 1) = .preemptResume (pkt 9 1) ∧
    decodePacket (pkt 9 2) = .preemptKill (pkt 9 2) ∧
    decodePacket (pkt 10 0) = .cadence (pkt 10 0) ∧
    decodePacket (pkt 11 0) = .qstatus (pkt 11 0) ∧
    decodePacket (pkt 0 0) = .reservedPacket (pkt 0 0) ∧
    decodePacket (pkt 12 0) = .reservedPacket (pkt 12 0) := by decide

/-! ## Well-formedness: an ill-formed term for each check -/

/-- The guard p5, and the illegal guard !p0 (R116). -/
def g5 : Guard := ⟨5, false⟩
def notP0 : Guard := ⟨0, true⟩

theorem test_wf_guard : (Instr.fin notP0).wf = false ∧ (Instr.add notP0 1 2 (.reg 3)).wf = false ∧
    (Instr.vadd notP0 1 2 3 .i8).wf = false ∧ (Instr.ld notP0 1 2 3 false).wf = false ∧ (Instr.trig notP0).wf = false ∧
    (Instr.fin g5).wf = true := by decide

theorem test_wf_load_and_store_fields : (Instr.ld g5 1 2 3 true).wf = false ∧ (Instr.ldlOffset g5 (.reg 1 3 true) 2 (.i32 0)).wf = false ∧
    (Instr.gathN g5 0 false 3 1 2 32).wf = false ∧ (Instr.gathN g5 0 false 3 1 2 31).wf = true ∧
    (Instr.stadvImm g5 0 true 1 0).wf = false ∧ (Instr.pref g5 2 1 0).wf = false ∧
    (Instr.strOffset g5 0 1 0 0 0 (some .quad)).wf = false ∧ (Instr.strOffset g5 0 1 0 0 0 none).wf = true ∧
    (Instr.pushReg g5 .quad 4).wf = false ∧ (Instr.pop g5 1 31).wf = false ∧ (Instr.pop g5 3 29).wf = false ∧
    (Instr.pop g5 0 1).wf = false ∧ (Instr.popTry g5 4 1 1).wf = false ∧ (Instr.pop g5 3 28).wf = true := by decide

theorem test_wf_compute_fields : (Instr.vabs g5 1 2 .n8).wf = false ∧ (Instr.vbcast g5 1 2 64 .i32).wf = false ∧
    (Instr.vbcast g5 1 2 63 .i32).wf = true ∧ (Instr.vrotl g5 1 2 128 .n16).wf = false ∧ (Instr.fred g5 1 2 .xor .f32).wf = false ∧
    (Instr.view g5 3 0 0 0).wf = false ∧ (Instr.view g5 0 1 0 0).wf = false ∧ (Instr.view g5 0 0 1 0).wf = false ∧
    (Instr.view g5 0 0 2 8).wf = false ∧ (Instr.view g5 0 0 3 32).wf = false ∧ (Instr.view g5 1 0 2 0).wf = false ∧
    (Instr.loopst g5 9 false).wf = false ∧ (Instr.qmx g5 1 0 0 0).wf = false ∧ (Instr.mxbindG g5 9 0).wf = false ∧
    (Instr.mxbindView g5 4 0 0).wf = false ∧ (Instr.mxbindView g5 0 1 0).wf = false ∧ (Instr.mxgrp g5 true 6 false).wf = false ∧
    (Instr.mxgrp g5 false 1 false).wf = false ∧ (Instr.mxwait g5 31).wf = false ∧ (Instr.mxswap g5 0).wf = false := by decide

theorem test_wf_records_words_and_packets : (Instr.copy (rec 2)).wf = false ∧ (Instr.flagadd (rec 0x17)).wf = false ∧
    (Instr.reservedCommand (rec 1)).wf = false ∧ (Instr.tear 0 1 true).wf = false ∧ (Instr.hold 0 1 true 0).wf = false ∧
    (Instr.jumpc 3 0).wf = false ∧ (Instr.query 0 0 3 0).wf = false ∧ (Instr.query 0 0 0 9).wf = false ∧
    (Instr.query 8 0 1 0).wf = false ∧ (Instr.launch (pkt 2 0)).wf = false ∧ (Instr.preemptSuspend (pkt 9 1)).wf = false ∧
    (Instr.preemptKill (pkt 9 0)).wf = false ∧ (Instr.reservedPacket (pkt 1 0)).wf = false := by decide

theorem test_wf_event_ranges : (Instr.bundleReplay 4096).wf = false ∧ (Instr.handBack ⟨64, 0, true⟩ 0).wf = false ∧
    (Instr.portRetrain ⟨0, 14, true⟩).wf = false ∧ (Instr.partCreate 16).wf = false ∧ (Instr.queueEnable 0 256).wf = false ∧
    (Instr.capClear 0 4).wf = false ∧ (Instr.powerGrant 0 4 0).wf = false ∧ (Instr.roleChange 64).wf = false ∧
    (Instr.captureSample 64 0 0).wf = false := by decide

/-! ## Encodings that the spec rejects, by name -/

theorem test_decode_rejects :
    decodeOp .s 0 0x01800080 0 0 = .error .reserved ∧   -- R121: MOV has BI = 0
    decodeOp .s 0 0x4C800000 0 0 = .error .length ∧     -- R122: SEL has no wide form
    decodeOp .l 0 0x11800000 0 0 = .error .major ∧      -- R134: 0x23 is unassigned
    decodeOp .s 0 0x02040000 0 0 = .error .guard ∧      -- R116: PG = 0 with PN = 1
    decodeOp .c 1 0x3F800000 0 0 = .error .extension := by decide  -- R119: an extension stands alone

/-! ## Small machines -/

/-- No guard. -/
def p0 : Guard := ⟨0, false⟩

/-- Core 0 about to issue a word of stream `st`: the probing flock's core, these g registers, and a change of its
context. -/
def at_ (st : StreamId) (gs : List (Nat × W64)) (f : Ctx → Ctx := id) : State :=
  let s := State.reset.probe st true [0, 0, 0]
  let s := s.updCtx 0 fun x => (f x).updStream st fun y => { y with g := gs.foldl (fun v e => v.setIfInBounds e.1 e.2) y.g }
  { s.focusOn 0 st with agenda := [] }

/-- What a next state holds; false for a stop. -/
def after (r : Result) (p : State → Bool) : Bool :=
  match r with
  | .next t => p t
  | _ => false

/-! ## Witnesses: states and operands that meet the hypotheses of the statements -/

theorem witness_OperationRoundTrip :
    (Instr.add g5 1 2 (.reg 3)).wf = true ∧ encodeOp (.add g5 1 2 (.reg 3)) = some [0x0228220C] ∧
      (Instr.add g5 1 2 (.reg 3)).standsIn .s 0 = true ∧
      (Instr.vsel g5 31 0 31 0 .n32).wf = true ∧ (encodeOp (.vsel g5 31 0 31 0 .n32)).isSome = true ∧
      (Instr.vsel g5 31 0 31 0 .n32).standsIn .c 1 = true := by decide

theorem witness_ItemRoundTrip :
    (Instr.sectionHeader ⟨true, true, false, true, 0x1234, 0xABCD, 0x9876⟩).wf = true ∧ (Instr.tear 0 0 true).wf = true ∧
      encodeCircuit (.tear 0 0 true) = some 0x0C00200000000000 := by decide

theorem witness_WordsHoldOneSpecificOperation :
    decodeWord .l 0x180085C0 0x02807FFF 0 = .ok [.ld p0 4 5 3 false, .addi p0 3 0x1FFF, .nop] ∧
      decodeWord .c 0 0 0x36000000 = .ok [.nop, .nop, .mxgo p0] := by decide

/-- A section of three words, at its second. -/
def atWord : State := at_ .c [] fun x => { x with c := { x.c with secLen := 3, pc := 3 } }

theorem witness_BranchesGoToTheirWord :
    (atWord.rd.ix : Int) + (0x1FFFF : BitVec 17).toInt = (0 : Nat) ∧ (0 : Nat) < (atWord.me.stream atWord.stream).secLen ∧
      (atWord.me.stream atWord.stream).loops = [] ∧
      (at_ .c [] fun x => { x with bq := {} }).me.bq.depth = 0 ∧
      (let s := at_ .c [] fun x => { x with bq := x.bq.push { data := [1] } }
       s.stream = .c ∧ s.me.bq.depth ≠ 0 ∧ s.me.bq.entries = [{ data := [1] }] ∧ ({ data := [1] } : QEntry).ready = true ∧
         ∀ a ∈ s.me.laccess, 0 ≤ a.tk) := by decide

/-- An image whose syllable 2 is a header, in the window of a page that fetches. -/
def atHeader (loops : List LoopLevel) : State :=
  let s := State.reset.probe .s true [0x0D800002, 0, 0xC0000000]
  { (s.updCtx 0 fun x => { x with s := { x.s with loops := loops } }).focusOn 0 .s with agenda := [] }

theorem witness_TransfersGoToTheirHeader :
    (atHeader []).headerAt 2 = true ∧ ((atHeader []).me.stream (atHeader []).stream).loops = [] ∧
      (atHeader []).headerAt 1 = false ∧ (atHeader [⟨0, 0, 1, false⟩]).headerAt 2 = true ∧
      ((atHeader [⟨0, 0, 1, false⟩]).me.stream (atHeader []).stream).loops ≠ [] ∧ guardOk p0 (atHeader []) = true ∧
      ((atHeader []).rd.pc : Int) + (2 : BitVec 17).toInt = 2 := by decide

/-- A section of `n` words, at its first, with a count in g1, active levels, and these pending and active stages. -/
def atLoop (n : Nat) (count : W64) (loops : List LoopLevel) (pns ns : BitVec 4 := 0) : State :=
  at_ .c [(1, count)] fun x => { x with c := { x.c with secLen := n, loops := loops }, le := { x.le with pns := pns, ns := ns } }

theorem witness_LoopStartsItsLevel :
    guardOk p0 (atLoop 2 0xFFFFFFFF []) = true ∧ guardOk g5 (atLoop 2 0xFFFFFFFF []) = false ∧
      ((atLoop 1 1 []).me.stream .c).secLen ≤ (atLoop 1 1 []).rd.ix + (1 : BitVec 13).toNat ∧
      (atLoop 2 0xFFFFFFFF []).rd.ix + (1 : BitVec 13).toNat < ((atLoop 2 0xFFFFFFFF []).me.stream .c).secLen ∧
      2 ^ 32 ≤ ((atLoop 2 0x100000000 []).rg 1).toNat ∧
      ((atLoop 9 1 (List.replicate 4 ⟨0, 8, 1, false⟩)).me.stream .c).loops.length = 4 ∧
      ¬(∀ l ∈ ((atLoop 9 1 [⟨0, 0, 1, false⟩]).me.stream .c).loops.head?, (atLoop 9 1 []).rd.ix + 1 ≤ l.last) ∧
      (let s := atLoop 9 1 [⟨0, 8, 0, false⟩] 0 2
       s.stream = .c ∧ s.me.le.ns ≠ 0) ∧
      (∀ count : W64, count = 0 ∨ count = 0xFFFFFFFF → let s := atLoop 2 count [⟨0, 1, 1, false⟩] 8
       s.stream = .c ∧ ((s.rg 1).toNat < 2 ^ 32) ∧ (s.me.stream .c).loops.length ≠ 4 ∧ s.me.le.pns ≠ 0 ∧
         (∀ l ∈ (s.me.stream .c).loops.head?, s.rd.ix + 1 ≤ l.last) ∧ ¬(s.stream = .c ∧ s.me.le.ns ≠ 0) ∧
         (count = 0 → s.rg 1 = 0) ∧ (count ≠ 0 → s.rg 1 ≠ 0)) := by
  refine ⟨by decide, by decide, by decide, by decide, by decide, by decide, by decide, by decide, ?_⟩
  rintro count (rfl | rfl) <;> decide

theorem witness_TrapAndFinEndTheirStream : guardOk p0 (at_ .s []) = true ∧ (at_ .s []).me.trap = none := by decide

theorem witness_SectionsAreEnteredAndRetire :
    (let s := at_ .l []
     (true = true → s.me.preempt = false)) ∧
    (let s := at_ .c [] fun x => { x with c := { x.c with left := [0, 4] } }
     ((s.ctx 0).stream .c).left = [0, 4] ∧ (s.ctx 0).sectionDone .c 0 = true) := by decide

theorem witness_SystemRegistersReadAndWrite :
    sysReadable .c 0x20 = true ∧ sysReadable .l 0x20 = false ∧ sysWritable .c 0x00 = false ∧
      (let s := at_ .c [(1, 5)]
       s.stream = .c ∧ guardOk p0 s = true ∧ (s.rg 1).toNat < 2 ^ 32 ∧ viewVOk s.units (s.rg 1) = true ∧ qcfgOk (s.rg 0) = true) ∧
      (let s := at_ .c [(1, 0xFFFFFFFFFFFFFFFF)]
       viewVOk s.units (s.rg 1) = false) ∧
      (let s := at_ .s [(1, 0xFFFFFFFFFFFFC0)]
       s.stream = .s ∧ guardOk p0 s = true ∧ (s.rg 1).toNat < 2 ^ 56 ∧ (s.rg 1).toNat % 64 = 0) := by decide

theorem witness_ViewsAndLoopStages :
    (let s := at_ .c []
     guardOk p0 s = true ∧ viewVOk s.units (viewEdit s.me.viewV 0 5) = true ∧ viewVOk s.units (viewEdit s.me.viewV 0 0x7FF) = false ∧
       viewOk s.units (viewEdit (s.me.viewT.toList.getD 7 0) 1 1) = true) := by decide

/-- g1 an aligned address, g2 a misaligned one, g3 one beyond the 56-bit space, g4 an index vector's. -/
def lRegs : List (Nat × W64) := [(1, 0x2000), (2, 0x2001), (3, 0x100000000000000), (4, 0x40)]

theorem witness_LoadsEnterTheAccessQueue :
    (let s := at_ .l lRegs
     guardOk p0 s = true ∧ s.me.laccess.length < 32 ∧ (s.rg 1).toNat % 2 ^ (3 : BitVec 2).toNat = 0 ∧ (s.rg 1).toNat < 2 ^ 56 ∧
       (s.rg 1 + wideVal (.i32 0xFFFFFFF8)).toNat % 8 = 0 ∧ (s.rg 2).toNat % 8 ≠ 0 ∧ (s.rg 3).toNat % 8 = 0 ∧
       2 ^ 56 ≤ (s.rg 3).toNat ∧ (s.rg 1).toNat % 64 = 0 ∧ (14 : BitVec 4).toNat < s.myFlock.nst ∧
       (s.rg 1 + wideVal (.i64 0x40)).toNat % 64 = 0) := by decide

/-- A layout record of two entries of 64 bytes in this format, whose tiles are checked or not. -/
def lay2 (fmt : BitVec 5) (tc : Bool) : LayoutRec :=
  { base := 0x2000, sbase := 0x3000, fmt := fmt, n0 := 2, n1 := 1, n2 := 1, n3 := 1, s0 := 64, ebm1 := 7, sq := 1, tc := tc }

/-- An L-stream core whose stream register 14 walks that record, at this position. -/
def atSt (fmt : BitVec 5) (tc : Bool) (j : Nat) (f : Ctx → Ctx := id) : State :=
  at_ .l [(1, 2), (2, 3)] fun x => f { x with st := x.st.set 14 { conf := true, lay := lay2 fmt tc, j := j, i0 := j } }

theorem witness_QueueLoadsAllocateTheirEntry :
    (let s := at_ .l lRegs
     guardOk p0 s = true ∧ guardOk g5 s = false ∧ s.me.laccess.length < 32 ∧ (s.me.getLq 7).depth ≠ 0 ∧
       (s.me.getLq 7).entries.length + 1 ≤ (s.me.getLq 7).depth ∧ s.myFlock.nst ≤ 15 + 1) ∧
    (let s := at_ .l lRegs fun x => x.updLq 0 fun _ => {}
     (s.me.getLq 0).depth = 0) ∧
    (let s := atSt 0 false 2
     (s.me.getLq 0).depth ≠ 0 ∧ (14 : BitVec 4).toNat < s.myFlock.nst ∧ guardOk p0 s = true ∧ guardOk g5 s = false ∧
       s.me.stPending 14 = false ∧ s.me.laccess.length < 32 ∧ (s.me.getSt 14).spent = true) ∧
    (let s := atSt 0x11 false 0 fun x => x.updLq 1 fun _ => {}
     (s.me.getSt 14).spent = false ∧ (s.me.getSt 14).lay.gbytes ≠ 0 ∧ (s.me.getLq (s.me.getSt 14).lay.sq).depth = 0) ∧
    (let s := atSt 0x11 true 1
     (s.me.getSt 14).spent = false ∧ (s.me.getSt 14).lay.gbytes ≠ 0 ∧ (s.me.getLq (s.me.getSt 14).lay.sq).depth ≠ 0 ∧
       (s.me.getSt 14).endsTile = true ∧ s.me.laccess.length + 2 ≤ 32 ∧
       ∀ k : BitVec 3, (s.me.getLq k).entries.length + (if k = 0 then 1 else 0) +
         (if (s.me.getSt 14).lay.gbytes ≠ 0 ∧ k = (s.me.getSt 14).lay.sq then 1 else 0) ≤ (s.me.getLq k).depth) := by
  decide +kernel

theorem witness_StreamRegistersAdvance :
    (let s := atSt 0 false 0
     guardOk p0 s = true ∧ (14 : BitVec 4).toNat < s.myFlock.nst ∧ s.me.laccess = [] ∧ (s.me.getSt 14).conf = true ∧
       (s.me.getSt 0).conf = false ∧ (s.me.getSt 14).lay.tc = false ∧
       (s.me.getSt 14).j + (s.rg 1).toNat ≤ (s.me.getSt 14).lay.total ∧
       (s.me.getSt 14).j + ((2 : W32).signExtend 64 : W64).toNat ≤ (s.me.getSt 14).lay.total ∧
       (s.me.getSt 14).lay.total < (s.me.getSt 14).j + (s.rg 2).toNat ∧
       (s.me.getSt 14).lay.total < (s.me.getSt 14).j + ((0xFFFFFFFF : W32).signExtend 64 : W64).toNat) ∧
    ((atSt 0 true 0).me.getSt 14).lay.tc = true := by decide +kernel

/-- A live circuit of handle 5 from core 1 to core 0 and one back, with bytes received. -/
def withCircuits (n : Nat) (s : State) : State :=
  s.updPart 0 fun p =>
    { p with drover := { p.drover with owner := some 0, circuits :=
        [{ h := 5, sendTile := 0, recvTile := 0, send := 1, recv := 0, sp := 0, dp := 0, settled := true, live := true, rx := List.replicate n 7 },
         { h := 6, sendTile := 0, recvTile := 0, send := 0, recv := 1, sp := 1, dp := 1, settled := true, live := true, rx := List.replicate n 7 }] } }

theorem witness_PushesAndReceives :
    (let s := withCircuits 16 (at_ .l [(1, 0x1122334455667788)] fun x => { x with recvOn := some (5, 0) })
     guardOk p0 s = true ∧ (s.me.getLq 0).entries.length + 1 ≤ (s.me.getLq 0).depth ∧ s.me.laccess = [] ∧
       (((s.circuits s.core).find? fun k => k.inbound 5 s.me.logical).map fun k =>
          k.live && k.step == 0 && 8 * ((1 : BitVec 5).toNat + 1) ≤ k.rx.length && k.rx.length < 8 * ((2 : BitVec 5).toNat + 1)) = some true ∧
       (∀ w, s.me.recvOn = some w → w.1 = 5 ∧ w.2 = 0) ∧ s.me.bq.entries.length + 1 ≤ s.me.bq.depth) := by
  refine ⟨by decide, by decide, by decide, by decide, ?_, by decide⟩
  rintro w ⟨⟩
  decide

/-- An access of the L stream. -/
def lAcc (k : LKind) (st : AccStatus) : LAccess := { tk := 0, kind := k, status := st, seq := 3, syl := 9 }

theorem witness_LoadsCompleteInOrder :
    (let s := at_ .l [] fun x => { x with laccess := [lAcc (.reg false 0x2000 1 31 true) (.data [0x80])] }
     (s.ctx 0).laccess = [lAcc (.reg false 0x2000 1 31 true) (.data [0x80])]) ∧
    (let s := at_ .l [] fun x => { x with laccess := [lAcc (.entry false 0x2000 8 7) (.data [1, 2, 3, 4, 5, 6, 7, 8])] }
     (s.ctx 0).laccess.length = 1) ∧
    (let s := at_ .l [] fun x => { x with laccess := [lAcc (.reg false 1 2 0 false) (.fail 0x02 1)] }
     (s.ctx 0).lcut = false ∧ (s.ctx 0).trap = none ∧ (0x02 : Cause) ≠ retryCode ∧ (s.ctx 0).laccess.length = 1) := by decide

/-- An S-stream core with a 16-byte entry at the head of sq0; addresses as for loads, g5 a flag's, g6 one of the host window. -/
def atStore : State :=
  at_ .s (lRegs ++ [(5, 0x3008), (6, 0xFF000000002000)]) fun x =>
    x.updSq 0 fun q => { q with entries := [{ data := List.replicate 16 9 }] }

theorem witness_StoresEnterTheAccessQueue :
    guardOk p0 atStore = true ∧ atStore.me.saccess.length < 32 ∧ atStore.me.unanswered.length < 64 ∧
      (atStore.rg 1).toNat % 8 = 0 ∧ (atStore.rg 1).toNat < 2 ^ 56 ∧ panelOf (atStore.rg 1).toNat ≠ 0xFF ∧
      panelOf (atStore.rg 6).toNat = 0xFF ∧ atStore.me.commit.length + (atStore.me.saccess.map SAccess.hostBound).sum + 2 ≤ 8 ∧
      (atStore.rg 2).toNat % 2 ≠ 0 ∧ (atStore.rg 1 + wideVal (.i32 0xFFFFFFF8)).toNat % 8 = 0 ∧
      (atStore.rg 1 + wideVal (.i32 0xF0)).toNat / 256 = ((atStore.rg 1 + wideVal (.i32 0xF0)).toNat + 16 - 1) / 256 ∧
      (atStore.me.getSq 0).depth ≠ 0 ∧ (atStore.me.getSq 0).entries = [{ data := List.replicate 16 9 }] ∧
      (List.replicate 16 (9 : Byte)).length = 8 * ((1 : BitVec 5).toNat + 1) ∧ (atStore.rg 1).toNat / 256 = ((atStore.rg 1).toNat + 16 - 1) / 256 ∧
      (atStore.rg 1 + (0x10 : W32).signExtend 64).toNat % 8 = 0 ∧ (5 : BitVec 5) ≠ 0 ∧ (atStore.rg 5).toNat % 8 = 0 ∧
      (atStore.rg 5).toNat < 2 ^ 56 := by decide +kernel

/-- An access of the S stream, all of it or these pieces of it still to be performed. -/
def sAcc (k : SKind) (st : AccStatus) (todo : Option (List Nat) := none) : SAccess :=
  { tk := 0, kind := k, status := st, seq := 3, syl := 9, todo := todo }

theorem witness_StoresWriteTheirBytesAndNoOther :
    (∀ todo ∈ [none, some [1]], let e := sAcc (.glob 0x2000 (List.replicate 16 2)) (.held [.panel 63 0x2000]) todo
     let s := at_ .s [] fun x => { x with saccess := [e] }
     (s.ctx 0).saccess = [e] ∧ e.kind = .glob 0x2000 (List.replicate 16 2) ∧ e.status = .held [.panel 63 0x2000] ∧ e.todo = todo) ∧
    (∀ todo ∈ [none, some [1]], let e := sAcc (.loc 0x20 (List.replicate 16 2)) .sent todo
     let s := at_ .s [] fun x => { x with saccess := [e] }
     s.lmOk 0 (0x20 : W64).toNat 16 = true ∧ (s.ctx 0).saccess = [e] ∧ e.todo = todo) ∧
    (let s := at_ .s [] fun x => { x with saccess := [sAcc (.loc 0x7FFFFF [1, 2]) .sent] }
     s.lmOk 0 (0x7FFFFF : W64).toNat 2 = false ∧ (s.ctx 0).scut = false ∧ (s.ctx 0).trap = none) := by decide +kernel

/-- A COPY of 3 bytes of local memory, bound to handle 6 or to none, that counts in this barrier or in none. -/
def recWords (be hv : Bool) (bar : Nat) : List W64 :=
  [BitVec.ofNat 64 (2 ^ 56 + (if hv then 2 ^ 52 else 0) + 6 * 2 ^ 46 + (if be then 2 ^ 45 else 0) + bar * 2 ^ 37 + 2 ^ 32), 0x200, 0, 3, 0, 0, 0, 0]

theorem witness_FifosPushAndPop :
    (let r := recordOf (recWords true false 0xFF)
     r.be = true ∧ (at_ .s []).myFlock.barOk r.bar = false) ∧
    (let r := recordOf (recWords false true 0)
     r.be = false ∧ r.bound = true ∧ ((at_ .s []).outbound 0 r.h).map (·.live) ≠ some true ∧
       ((withCircuits 0 (at_ .s [])).outbound 0 r.h).map (·.live) = some true) ∧
    (let s := at_ .s (((recWords true false 96).zip (List.range 8)).map fun e => (8 + e.2, e.1)) fun x =>
       { x.updSq 0 fun q => { q with entries := [{ data := (recWords true false 96).flatMap wordLE }] } with f1 := [(1, 2)], f2 := [(3, 4)], f3 := [List.replicate 32 5] }
     let r := recordOf ((List.range 8).map fun k => s.rg (8 + BitVec.ofNat 5 k))
     guardOk p0 s = true ∧ s.me.f0.length < 32 ∧ r.be = true ∧ s.myFlock.barOk r.bar = true ∧ r.bound = false ∧ s.me.saccess = [] ∧
       s.verdict = .ran ∧ (s.me.getSq 0).depth ≠ 0 ∧ (s.me.getSq 0).entries = [{ data := (recWords true false 96).flatMap wordLE }] ∧
       ((recWords true false 96).flatMap wordLE).length = 64 ∧ s.me.f1 = [(1, 2)] ∧ s.me.f2 = [(3, 4)] ∧ s.me.f3 = [List.replicate 32 5] ∧
       (28 : BitVec 5).toNat + 4 ≤ 32) ∧
    (let s := at_ .s [] fun x => { x.updSq 0 fun q => { q with entries := [{ data := [1] }] } with f0 := List.replicate 32 { cmd := recordOf (recWords false false 0), scope := .quad, tk := 0 } }
     32 ≤ s.me.f0.length ∧ (s.me.getSq 0).entries = [{ data := [1] }] ∧ s.me.f1 = [] ∧ s.me.f2 = [] ∧ s.me.f3 = []) := by decide +kernel

theorem witness_RegionExchangeFenceAndTrigger :
    (let s := at_ .s [(1, 0x2000), (2, 0x4000000100000000), (3, 0x1000000002000)]
     guardOk p0 s = true ∧ s.me.saccess = [] ∧ s.me.commit = [] ∧ s.me.unanswered.length < 64 ∧ (s.rg 1).toNat < 2 ^ 56 ∧
       panelOf (s.rg 1).toNat = s.glob.domid.toNat ∧ panelOf (s.rg 3).toNat ≠ s.glob.domid.toNat ∧ s.quietCore s.core = true) ∧
    2 ^ 56 ≤ ((at_ .s lRegs).rg 3).toNat ∧
    (let s := at_ .s [] fun x => { x with commit := [{ addr := 0, bs := [], port := 0 }] }
     s.me.commit ≠ [] ∧ s.quietCore s.core = false) := by decide +kernel

/-- A WAITA request of core 0, of location 0x2000. -/
def ask (e : W64) : WaitReq := { addr := 0x2000, exp := e, nb := true, tk := 0 }

/-- A request of core 0 to its own panel. -/
def req (lstream : Bool) (op : ReqOp) (stage : ReqStage) (sends : Nat := 1) (tk : Nat := 9) : Request :=
  { panel := State.reset.glob.domid.toNat, core := 0, part := 0, tk := tk, lstream := lstream, num := 4, floor := 4, addr := 0x2000, op := op
    sends := sends, sentAt := 0, stage := stage }

/-- Core 0, changed so, with this request open, and number 4 unanswered. -/
def atReq (r : Request) (f : State → State := id) (g : Ctx → Ctx := id) : State :=
  f { at_ .s [] fun x => { g x with unanswered := [4] } with reqs := [r] }

/-- Such a request arrives at its home for the first time. -/
def arrives (s : State) (ix : Nat) (r : Request) : Bool :=
  s.reqs[ix]? == some r && r.stage == .travelling && s.joined r false && !r.lstream &&
    !mhas (s.tile (s.ingress r)).floors r.source && ((s.noteFloor (s.ingress r) r).savedReply (s.ingress r) r).isNone

theorem arrives_iff (s : State) (ix : Nat) (r : Request) (h : arrives s ix r = true) : s.Arrives ix r := by
  simp only [arrives, Bool.and_eq_true, beq_iff_eq, Bool.not_eq_true', Option.isNone_iff_eq_none] at h
  obtain ⟨⟨⟨⟨⟨h1, h2⟩, h3⟩, h4⟩, h5⟩, h6⟩ := h
  exact ⟨h1, h2, h3, h4, fun h => by simp [h5] at h, h6⟩

theorem witness_WaitsOnAddresses :
    (let s := at_ .s [(1, 0x2000)] fun x => { x with waits := [ask 0], f2res := 15 }
     guardOk p0 s = true ∧ s.me.saccess = [] ∧ (∀ w ∈ s.me.waits, w.nb = true) ∧ s.me.f2.length + s.me.f2res < 16 ∧
       (s.ctx 0).waits.find? (fun w => !w.sent && !w.armed && !w.done) = some (ask 0) ∧ (s.ctx 0).unanswered.length < 64) ∧
    (∀ d ∈ [true, false], let w : WaitReq := { ask 0 with nb := false, done := d }
     (at_ .s [] fun x => { x with waits := [w] }).me.waits.find? (fun w => !w.nb) = some w ∧ w.done = d) ∧
    (at_ .s [] fun x => { x with saccess := [sAcc (.loc 0 []) .sent] }).me.saccess ≠ [] ∧
    16 ≤ (at_ .s [] fun x => { x with f2res := 16 }).me.f2.length + 16 ∧
    (let r := req false (.arm 0) .travelling 1 0
     let s := atReq r id fun x => { x with waits := [{ ask 0 with sent := true }] }
     arrives s 0 r = true ∧ (s.ctx 0).waits.find? (fun w => w.tk == 0) = some { ask 0 with sent := true } ∧
       (s.noteFloor (s.ingress r) r).armFind 0 { ask 0 with sent := true } = .arm 0 true 0x2000) ∧
    (let r := req false (.arm 0) .travelling 1 0
     let s := atReq r id fun x => { x with waits := [{ ask 5 with sent := true }] }
     arrives s 0 r = true ∧ (s.noteFloor (s.ingress r) r).armFind 0 { ask 5 with sent := true } = .record 0 1 false) ∧
    (∀ bs ∈ [[], [(0 : Byte)]], let r := req false (.arm 0) (.answered 0 0 bs []) 1 0
     let s := atReq r id fun x => { x with waits := [{ ask 0 with sent := true }] }
     s.reqs[0]? = some r ∧ s.joined r true = true ∧ r.lstream = false ∧ r.num ∈ (s.ctx 0).unanswered ∧
       (s.ctx 0).waits.find? (fun w => w.tk == 0) = some { ask 0 with sent := true }) ∧
    (let m : Monitor := { flock := 0, member := 0, tk := 0, nb := true, va := 0x2000, mem := true, pa := 0x2000, exp := 0, fired := some (7, false) }
     let s := (at_ .s []).updTile 0 fun t => { t with monitors := [m] }
     (s.tile 0).monitors[0]? = some m ∧ m.ext = false ∧ s.wakePasses 0 0 0 = true ∧
       ((s.cores.find? fun e => e.2.flock == some m.flock && e.2.member == m.member).map (·.1)) = some 0) := by decide +kernel

/-- Core 0 beside barrier panel.b0 of the probing flock, whose one party has these counts. -/
def atBar (c issued a w : Nat) : State :=
  (at_ .s []).updFlock 0 fun f => { f with bars := mset f.bars (96 * 1024) { c := c, parties := [{ member := 0, issued := issued, a := a, w := w }] } }

theorem witness_BarriersCountAndComplete :
    (let s := atBar 0 0 0 0
     let i := s.barInst 0 (s.myBar ⟨.panel, 0⟩)
     guardOk p0 s = true ∧ s.me.flock = some 0 ∧ s.myFlock.allocated (barNo ⟨.panel, 0⟩) = true ∧
       i.party s.myParty ∈ i.parties ∧ (i.party s.myParty).issued = (i.party s.myParty).w ∧ (i.party s.myParty).issued = i.c ∧
       s.me.awp = false ∧ s.verdict = .ran) ∧
    (((atBar 0 2 0 0).barInst 0 (96 * 1024)).party 0).issued = 0 + 2 ∧
    (let p := ((atBar 1 1 1 0).barInst 0 (96 * 1024)).party 0
     p.issued ≠ p.w ∧ p.issued ≤ ((atBar 1 1 1 0).barInst 0 (96 * 1024)).c) ∧
    (let p := ((atBar 0 1 1 0).barInst 0 (96 * 1024)).party 0
     p.issued ≠ p.w ∧ ((atBar 0 1 1 0).barInst 0 (96 * 1024)).c < p.issued) ∧
    (let i := (atBar 0 1 1 0).barInst 0 (96 * 1024)
     i.need ≤ i.joined ∧ (∀ p ∈ i.parties, i.c < p.a ∨ p.gone = true) ∧ (∃ p ∈ i.parties, i.c < p.a) ∧ i.pend.getD 0 0 = 0) ∧
    (let s := (atBar 0 1 0 0).updCtx 0 fun x => { x with arrivals := [(96 * 1024, 0)], awp := true, awpBar := 96 }
     (s.ctx 0).flock = some 0 ∧ (s.ctx 0).arrivals = [(96 * 1024, 0)] ∧ (∀ a ∈ (s.ctx 0).saccess, 0 < a.tk) ∧
       (∀ w ∈ (s.ctx 0).commit, 0 < w.tk) ∧ (∀ b ∈ (s.ctx 0).sends, 0 < b.tk) ∧ s.me.awpBar.toNat = barNo ⟨.panel, 0⟩ ∧
       (∀ k ∈ s.circuits 0, k.send = (s.ctx 0).logical → k.inFlight = [])) := by decide +kernel

/-- Core 0 about to send its 16-byte entry over circuit h6, whose receiver holds `n` bytes. -/
def atSend (n : Nat) (f : Ctx → Ctx := id) : State :=
  withCircuits n (at_ .s [] fun x => f (x.updSq 0 fun q => { q with entries := [{ data := List.replicate 16 9 }] }))

theorem witness_SendsAndDrains :
    (let s := atSend 4080
     guardOk p0 s = true ∧ s.me.saccess = [] ∧ s.me.sends = [] ∧ (s.me.getSq 0).depth ≠ 0 ∧ s.me.sendOn = none ∧
       (s.me.getSq 0).entries = [{ data := List.replicate 16 9 }] ∧
       (s.outbound s.core 6).map (fun k => k.live && k.rx.length + k.inFlight.length + 16 ≤ 4096) = some true) ∧
    (let s := atSend 0 fun x => { x with saccess := [sAcc (.loc 0 []) .sent], sends := [{ tk := 0, h := 6, bs := [1] }] }
     ∃ a ∈ s.me.saccess, a.tk ≤ s.me.tk) ∧
    ((atSend 4081).outbound 0 6).map (fun k => decide (4096 < k.rx.length + k.inFlight.length + 0 + 16)) = some true ∧
    (let w : HostWrite := { addr := 0, bs := [1], port := 2 }
     let s := at_ .s [] fun x => { x with commit := [w] }
     (s.ctx 0).commit = [w] ∧ w.flag = none) ∧
    (let f : FlagAdd := { addr := 0x2008, loc := .panel 0 0x2008, sc := .tile, tk := 7 }
     let s := at_ .s [] fun x => { x with flagAdds := [f] }
     (s.ctx 0).flagAdds.find? (fun f => !f.sent) = some f ∧ (∀ w ∈ (s.ctx 0).commit, f.tk < w.tk) ∧ (s.ctx 0).unanswered.length < 64) ∧
    (let f : FlagAdd := { addr := 0x2000, loc := .panel 0 0x2000, sc := .tile, tk := 7, sent := true }
     let r := req false (.strAdd 7) .travelling 1 7
     let s := atReq r id fun x => { x with flagAdds := [f] }
     arrives s 0 r = true ∧ (s.ctx 0).flagAdds.find? (fun f => f.tk == 7) = some f ∧ s.poisonedLoc f.loc 8 = false) := by decide +kernel

theorem witness_ReductionsGiveTheirValue :
    (let s := at_ .c [(1, 0xFFF0), (2, 0xF)]
     (s.rg 1).toNat % 16 = 0 ∧ (s.rg 2).toNat % 16 ≠ 0 ∧ guardOk p0 s = true) := by decide

theorem witness_VectorQueuesAndLanding :
    (let s := at_ .c [] fun x => x.updLq 0 fun q => { q with entries := [{ data := [1, 2], tk := 3 }] }
     guardOk p0 s = true ∧ (s.me.getLq 0).depth ≠ 0 ∧ (s.me.getLq 0).entries = [{ data := [1, 2], tk := 3 }] ∧
       (∀ x ∈ s.me.laccess, 3 ≤ x.tk) ∧ (s.me.getLq 1).entries = [] ∧ (s.me.getSq 0).entries.length + 1 ≤ (s.me.getSq 0).depth) ∧
    (let l : Landing := { slot := 0, due := 2, cells := [(0, 9), (524287, 8)] }
     let s := at_ .c [] fun x => { x with landings := [l] }
     (s.ctx 0).landings[0]? = some l ∧ (l.cells.map (·.1)).Nodup) := by decide

/-- A bank for one pass of one row, one K row and one column in FP32, both operands at the start of local memory; it holds
its tile (R271, R272). -/
def bank1 : Bank :=
  { hdr := 0x20000000 :: List.replicate 31 0
    lvl := (List.range 64).map fun k => if k % 10 = 0 ∧ k < 60 then 1 else 0 }

/-- The same, but that each run is drained; with this word of the header, and this many indices of its first level. -/
def bankD (n : Nat) (w : W64) (count : W32 := 1) : Bank :=
  { hdr := (List.replicate 32 0).set n w, lvl := bank1.lvl.set 0 count }

/-- Core 0 with this bank staged. -/
def atMx (b : Bank) (m : Matrix → Matrix := id) : State := at_ .c [] fun x => { x with mx := m { x.mx with bank0 := b } }

/-- A nest over a bank, at a stage. -/
def nest (st : NestStage) (commit : Option Bool) (b : Bank := bank1) : Nest :=
  { num := 4, bank := b, tviews := [], aviews := [], commit := commit, stage := st }

/-- A tile of one row and one column of FP32. -/
def tile1 : Tile := { cols := 1, accf := 0, rows := [[5]] }

/-- Core 0 running a nest, with a tile held and one landed. -/
def atNest (ne : Nest) (grants : Nat := 0) : State :=
  at_ .c [] fun x => { x with mx := { x.mx with running := some ne, held := some tile1, land := some tile1, grants := grants } }

/-- A nest that drains one FP32 result to the first bytes of the operand file. -/
def toFile : Nest := { nest .pass none (bankD 11 0x8000000000000000) with tviews := [0x10000], shape := (1, 1) }

theorem witness_ResultsAreReadAtTheirBound :
    (let s := at_ .c []
     (0 : Nat) < [(7 : Byte)].length ∧ 1 ≤ 4 ∧ s.me.landings = [] ∧ s.focus = .stream s.core .c ∧ 3 < 4 ∧ 4 ≤ 4 ∧
       s.me.mx.running = none ∧ s.me.mx.pending = none ∧ s.me.mx.results = []) ∧
    (atNest toFile).me.mx.drains 3 = true ∧ (atNest toFile).me.mx.drains 4 = false := by decide

theorem witness_no_nest_drains (o : Nat) : (at_ .c []).me.mx.drains o = false := rfl

/-- A core whose quantiser configuration 0 is this. -/
def atQcfg (q : W64) : State := at_ .c [] fun x => { x with qcfg := x.qcfg.set 0 q }

/-- Its formats, overflow policy and rounding mode as a word of its C stream finds them. -/
def qcfgSeen (q : W64) : Nat × Nat × Nat × Nat :=
  let v := (atQcfg q).rd.old.qcfg.toList.getD 0 0
  (cfgSfmt v, cfgDfmt v, cfgOvp v, cfgRm v)

/-- Whether CVT or QMX has the conversion of a configuration, for part 0. -/
def cvtHas (s d : Nat) : Bool :=
  cvtFmt s && cvtFmt d && partOk (cvtCount (fmtBits s) (fmtBits d) * fmtBits s / 8) (cvtCount (fmtBits s) (fmtBits d) * fmtBits d / 8) 0
def qmxHas (s d : Nat) : Bool :=
  (s == 0 || s == 2 || s == 3) && decide (0x11 ≤ d ∧ d ≤ 0x19) && partOk 256 (2048 / fmtBits s * fmtBits d / 8) 0

theorem witness_QuantiserWritesItsResults :
    guardOk p0 (atQcfg 0) = true ∧ (atQcfg 0).me.f3.length < 16 ∧
    (let s := at_ .c [] fun x => { x with f3 := List.replicate 16 [] }
     16 ≤ s.me.f3.length) ∧
    qcfgSeen 0x20000 = (0, 2, 0, 0) ∧ cvtHas 0 2 = true ∧ (1 : BitVec 3).toNat < 2 ∧
    qcfgSeen 0x1B0000 = (0, 0x1B, 0, 0) ∧ cvtHas 0 0x1D = false ∧ qmxHas 0 2 = false ∧
    qcfgSeen 0x110000 = (0, 0x11, 0, 0) ∧ qmxHas 0 0x11 = true ∧ (31 : BitVec 5).toNat % 2 = 1 := by decide +kernel

theorem witness_MatrixStagingAndWaits :
    (let s := at_ .c [(1, 0x7FFFFF), (2, 0x800000)] fun x => { x with viewT := x.viewT.set 7 0x10000 }
     s.myFlock.mxe ≠ 0 ∧ guardOk p0 s = true ∧ s.me.mx.pending = none ∧ (s.rg 1).toNat < 2 ^ 23 ∧ 2 ^ 23 ≤ (s.rg 2).toNat ∧
       fld (s.rd.viewT.toList.getD 7 0) 16 12 ≠ 0 ∧ s.me.mx.grants + (1023 : BitVec 10).toNat ≤ 65535 ∧ s.me.mx.outst = 0) ∧
    (let s := at_ .c [] fun x => { x with viewA := x.viewA.set 0 0 }
     fld (s.rd.viewA.toList.getD 0 0) 16 12 = 0) ∧
    (let r := (nest .ended none).result
     let s := atMx bank1 fun m => { m with grants := 65535, outst := 1, results := [r], pending := some (nest .swap none) }
     65535 < s.me.mx.grants + (1 : BitVec 10).toNat ∧ s.me.mx.outst ≠ 0 ∧ s.me.mx.results = [r] ∧ s.me.mx.pending ≠ none) ∧
    (let s := atMx bank1 fun m => { m with outst := 1 }
     s.me.mx.outst ≠ 0 ∧ s.me.mx.results = []) ∧
    ((at_ .c []).updFlock 0 fun f => { f with pkt := [] }).myFlock.mxe = 0 := by decide +kernel

theorem witness_NestsRunToTheirResult :
    (let s := atMx bank1
     s.myFlock.mxe ≠ 0 ∧ guardOk p0 s = true ∧ s.me.mx.pending = none ∧ s.me.mx.outst < 8 ∧ s.me.mx.running = none ∧
       s.me.mx.stagingBank.check s.myFlock s.rd.viewT.toList s.rd.viewA.toList = none ∧
       s.me.mx.stagingBank.checkCommit s.rd.viewT.toList s.rd.viewA.toList = none) ∧
    (let s := atMx {}
     s.me.mx.stagingBank.check s.myFlock s.rd.viewT.toList s.rd.viewA.toList = some 0x63) ∧
    (let s := atMx (bankD 0 0x1F00000000000)
     (s.me.mx.stagingBank.checkCommit s.rd.viewT.toList s.rd.viewA.toList).isSome = true) ∧
    (let s := atMx bank1 fun m => { m with pending := some (nest .swap none) }
     (s.ctx 0).mxCut = false ∧ (s.ctx 0).mx.running = none ∧ (s.ctx 0).mx.pending = some (nest .swap none)) ∧
    (let ne := nest .swap none (bankD 0 0x10000000)
     let s := atNest ne 1
     (s.ctx 0).mxCut = false ∧ s.nestAt 0 .swap = some ne ∧ (s.ctx 0).nestClear ne = true ∧ ne.bank.swm = true ∧ (s.ctx 0).mx.grants ≠ 0 ∧
       (match s.readWeights 0 ne (s.ctx 0).mx.shadow, s.passStart 0 ne with | .ok _, .ok _ => true | _, _ => false) = true) ∧
    (atNest (nest .ended none)).nestAt 0 .ended = some (nest .ended none) := by decide +kernel

/-- Whether core 0's pass of a nest gives a tile. -/
def passes (ne : Nest) : Bool := match (atNest ne).runPass 0 ne with | .ok _ => true | .error _ => false

/-- Whether core 0 drains its tile. -/
def drains (ne : Nest) : Bool := ((atNest ne).drainTile 0 ne tile1).2.isNone

theorem witness_NestsRunToTheirResult_pass :
    (atNest (nest .pass none)).nestAt 0 .pass = some (nest .pass none) ∧ passes (nest .pass none) = true ∧
      (nest .pass none).endsRun = true ∧ (nest .pass none).bank.hold = true ∧
      (let ne := nest .pass none (bankD 0 0)
       passes ne = true ∧ ne.endsRun = true ∧ ne.bank.hold = false) ∧
      (let ne := nest .pass none (bankD 0 0 2)
       passes ne = true ∧ ne.endsRun = false) ∧
      passes (nest .pass none (bankD 6 0x7FFFFD)) = false := by decide +kernel

theorem witness_NestsRunToTheirResult_drain :
    (let ne := nest .drain none (bankD 0 0)
     (atNest ne).nestAt 0 .drain = some ne ∧ ((atNest ne).ctx 0).mx.land = some tile1 ∧ drains ne = true) ∧
    drains (nest .drain none (bankD 11 0x7FFFFD)) = false ∧
    (∀ clr, let ne := nest .drain (some clr) (bankD 0 0)
     (atNest ne).nestAt 0 .drain = some ne ∧ ((atNest ne).ctx 0).nestClear ne = true ∧ ((atNest ne).ctx 0).mx.held = some tile1 ∧
       tile1.accf = ne.bank.accf ∧ drains ne = true) := by decide +kernel

/-- A command record of core 0: opcode and flag bits, destination, source, length, and word 4. -/
def cmdRec (opc : Nat) (dl sl : Bool) (dst src : W64) (len : Nat) (w4 : W64) : CmdRecord :=
  ⟨BitVec.ofNat 64 (opc * 2 ^ 56 + (if dl then 2 ^ 32 else 0) + if sl then 2 ^ 31 else 0), dst, src, BitVec.ofNat 64 len, w4, 0, 0, 0⟩

/-- Core 0 whose copy engine is about to start this record. -/
def atEngine (r : CmdRecord) : State :=
  { at_ .s [] fun x => x with
    focus := .engine 0 { cmd := r, scope := .quad, tk := 9 }
    lm := [(0x100, 1), (0x101, 2), (0x102, 3)] }

/-- A penumbra COPY of one block over circuit h6 to tile 0. -/
def penRec : CmdRecord :=
  ⟨BitVec.ofNat 64 (1 * 2 ^ 56 + 2 ^ 54 + 2 ^ 52 + 6 * 2 ^ 46), 0x2000, 0x3000, BitVec.ofNat 64 (64 + 64 * 2 ^ 48), 0, 0, 0, 0⟩

theorem witness_CommandsStart :
    (let r := cmdRec 0x1F false false 0 0 0 0
     (Instr.reservedCommand r).wf = true ∧ (atEngine r).focus = .engine 0 { cmd := r, scope := .quad, tk := 9 } ∧
       opcKnown r.opc = false ∧ (atEngine r).startCheck 0 { cmd := r, scope := .quad, tk := 9 } r ≠ 0) ∧
    (let r := cmdRec 1 false true 0x2000 0x100 3 0
     (Instr.copy r).wf = true ∧ (atEngine r).startCheck 0 { cmd := r, scope := .quad, tk := 9 } r = 0 ∧ r.localOnly = false) ∧
    (let r := cmdRec 8 true false 0x200 0 3 0x0807060504030201
     (Instr.fill r).wf = true ∧ (atEngine r).startCheck 0 { cmd := r, scope := .quad, tk := 9 } r = 0 ∧ r.localOnly = true ∧
       r.hv = false) ∧
    (Instr.copy penRec).wf = true ∧ penRec.cls = true ∧
    (withCircuits 0 (atEngine penRec)).startCheck 0 { cmd := penRec, scope := .quad, tk := 9, circ := some 0 } penRec = 0 := by
  decide +kernel

/-- A started command of core 0. -/
def started (stage : CmdStage) (r : CmdRecord) : Started := { tk := 9, cmd := r, scope := .quad, stage := stage }

/-- Core 0 with this command started. -/
def atCmd (u : Started) : State := at_ .s [] fun x => { x with started := [u], f1res := 1 }

theorem witness_LocalTransfersMoveTheirBytes :
    (let r := cmdRec 1 true true 0x7FFFD 0x100 3 0
     let u := started .running r
     ((atCmd u).ctx 0).startedAt 9 = some u ∧ u.stage = .running ∧ u.value = 0 ∧ u.todo = none ∧ u.bad = [] ∧ r.hv = false ∧
       r.dl = true ∧ r.sl = true ∧ r.inl = false ∧ r.opc = 1 ∧ r.w1.toNat + r.len ≤ ((atCmd u).flock 0).lmb ∧
       r.w2.toNat + r.len ≤ ((atCmd u).flock 0).lmb ∧ r.w2.toNat + r.len ≤ r.w1.toNat) ∧
    (let r := cmdRec 8 true false 0x205 0 3 0x0807060504030201
     r.opc = 8 ∧ r.dl = true ∧ r.hv = false) := by decide +kernel

/-- A PUTF whose flag is at 0x2000. -/
def putfRec : CmdRecord := ⟨BitVec.ofNat 64 (5 * 2 ^ 56 + 2 ^ 31), 0x4000, 0x100, 8, 0, 0, 0x2000, 0⟩

/-- The engine of the front end of partition 0 with this command started. -/
def atFrontCmd (u : Started) : State := (at_ .s []).setCtx frontCore { started := [u] }

theorem witness_CommandsComplete :
    (let u := started .ended (cmdRec 8 true false 0x200 0 3 0)
     ((atCmd u).ctx 0).startedAt 9 = some u ∧ u.cmd.records = true ∧ 0 < frontCore) ∧
    (let r : CmdRecord := ⟨BitVec.ofNat 64 (8 * 2 ^ 56 + 2 ^ 53 + 2 ^ 32), 0x200, 0, 3, 0, 0, 0, 0⟩
     r.records = false ∧ { started .ended r with status := 0x24 }.status ≠ 0) ∧
    (let u := { started .ended (cmdRec 1 false false 0x2000 0x3000 3 0) with recAt := 0x2000, status := 1 }
     ((atFrontCmd u).ctx frontCore).startedAt 9 = some u ∧
       (match (atFrontCmd u).feWrite ((atFrontCmd u).partOf frontCore) 0x2000 (List.replicate 16 0) with | (_, a) => a == .done) = true) ∧
    (let u := started .flag putfRec
     ((atCmd u).ctx 0).startedAt 9 = some u ∧ ((atCmd u).ctx 0).unanswered.length < 64) ∧
    (let u := started .flagSent putfRec
     let r := req false (.putfAdd 9) .travelling
     let s := atReq r id fun x => { x with started := [u] }
     arrives s 0 r = true ∧ (s.ctx 0).startedAt 9 = some u ∧
       (let v := s.noteFloor (s.ingress r) r
        v.homeFlag (v.asker 0) u.cmd.flag = .done 0 0 [] [.panel 0 0x2000] ∧ v.poisonedLoc (.panel 0 0x2000) 8 = false)) ∧
    (let u := started .running (cmdRec 0x10 false false 0x2000 0 3 7)
     let r := req false (.command 9) .travelling
     let s := atReq r id fun x => { x with started := [u] }
     arrives s 0 r = true ∧ (s.ctx 0).startedAt 9 = some u ∧ u.cmd.hv = false ∧ u.cmd.cls = false ∧ isAtomic u.cmd.opc = true ∧
       (let v := (s.noteFloor (s.ingress r) r).dropNear 0 u.cmd.linesWritten
        (match v.homeCheck (v.asker 0) .atomic u.cmd.w1.toNat u.cmd.elemBytes with | .ok l _ => l == .panel 0 0x2000 | _ => false) = true ∧
          v.poisonedLoc (.panel 0 0x2000) u.cmd.elemBytes = false)) := by decide +kernel

/-- The penumbra COPY with its one block sent. -/
def penStarted (stage : CmdStage) : Started :=
  { started stage penRec with blocks := [{ ix := 0, dst := 0x2000, data := List.replicate 64 5 }], nblocks := 1, circ := some 0 }

theorem witness_CommandsComplete_penumbra :
    (let u := penStarted .penumbra
     let s := { withCircuits 0 (atCmd u) with now := 64 }
     (s.ctx 0).startedAt 9 = some u ∧ (s.ctx 0).handleBusy u = false ∧ (s.ctx 0).unanswered.length < 64 ∧ u.startedAt + u.cmd.win ≤ s.now ∧
       (s.ownCircuit 0 u.cmd.h u.circ).isSome = true) ∧
    ((atCmd (penStarted .penumbra)).ownCircuit 0 penRec.h (some 0) = none) ∧
    (let u := penStarted .settling
     let r := req false (.settle 9 []) .travelling
     let s := atReq r id fun x => { x with started := [u] }
     arrives s 0 r = true ∧ (s.ctx 0).startedAt 9 = some u ∧
       (match (s.noteFloor (s.ingress r) r).settleAt 0 u [] with | .done .. => true | _ => false) = true) := by decide +kernel

/-- The ingress of tile 0 has this floor for the source, and these saved replies. -/
def withFloor (r : Request) (n : Option W32) (ys : List SavedReply) (s : State) : State :=
  s.updTile 0 fun t => { t with floors := (n.map fun v => (r.source, v)).toList, replies := ys }

theorem witness_RequestsAreAnsweredOnce :
    (let r := req true (.load 8) .travelling
     (atReq r).reqs[0]? = some r ∧ (atReq r).joined r false = true ∧ (atReq r).loadTurn r = true ∧
       (atReq r).homeRead ((atReq r).asker 0) .load 0x2000 8 = .ok (List.replicate 8 0)) ∧
    (let r := req false (.command 9) .travelling
     let s := atReq r (withFloor r (some 5) [])
     s.reqs[0]? = some r ∧ s.joined r false = true ∧ mhas (s.tile (s.ingress r)).floors r.source = true ∧
       seqBefore r.num (mget 0 (s.tile (s.ingress r)).floors r.source) = true) ∧
    (let r := req false (.command 9) .travelling
     let y : SavedReply := { panel := r.panel, core := 0, num := 4, cause := 0x43, value := 0 }
     let s := atReq r (withFloor r (some 4) [y])
     s.joined r false = true ∧ mhas (s.tile (s.ingress r)).floors r.source = true ∧
       seqBefore r.num (mget 0 (s.tile (s.ingress r)).floors r.source) = false ∧
       (s.noteFloor (s.ingress r) r).savedReply (s.ingress r) r = some y) ∧
    (let r := req false (.command 9) (.answered 0x43 0x2000 [] [])
     let u := started .running (cmdRec 4 false false 0x2000 0x3000 3 0)
     let s := atReq r id fun x => { x with started := [u] }
     s.joined r true = true ∧ r.num ∈ (s.ctx 0).unanswered ∧ (s.ctx 0).startedAt 9 = some u ∧ u.stage = .running) ∧
    (req false (.command 9) (.refused 0) 7).sends < 8 ∧ 8 ≤ (req false (.command 9) .travelling 8).sends ∧
    (let r := req false (.command 9) .travelling 8
     r.sentAt + 20000 ≤ (atReq r fun s => { s with now := 20000 }).now) := by decide +kernel

/-- The operations of these requests of a core are its own. -/
theorem witness_RequestsAreAnsweredOnce_own :
    (∀ op, (req false (.command 9) .travelling).op ≠ .foreign op) ∧
      ∀ fl step word, (req false (.command 9) .travelling).op ≠ .drvSettle fl step word := by
  constructor <;> (intros; simp [req])

/-- Core 0 with streams in these waits, changed so. -/
def waitingOn (a b c : Option WaitReason) (f : Ctx → Ctx := id) : State :=
  { at_ .c [] fun x => f { x with l := { x.l with wait := a }, c := { x.c with wait := b }, s := { x.s with wait := c } } with now := 1000 }

/-- Core 0 with its streams at a switch point of a table of one record, whose targets are the header at syllable 0. -/
def atSwitch (a b c : Option Nat) (f : Ctx → Ctx := id) : State :=
  let s := State.reset.probe .c false [0xE0000000, 0]
  let s := s.updCtx 0 fun x => f { x with vartab := 0x2000, l := { x.l with hold := a }, c := { x.c with hold := b }, s := { x.s with hold := c } }
  { s with agenda := [], now := 2000, mem := Memory.writeN s.mem 0x2000 (natLE 8 0x5641000000000001) }

theorem witness_CoreEventsHappen :
    (63 : Nat) < 64 ∧ 2 ^ 42 - 1 < 2 ^ 42 ∧ (4095 : Nat) < 4096 ∧ 2 ^ 23 - 1 < 2 ^ 23 ∧
    (let s := waitingOn (some .queueFull) (some .queueEmpty) (some .sectionDep)
     (s.ctx 0).flock.isSome = true ∧ (s.ctx 0).trap = none ∧ (s.ctx 0).preempt = false ∧ s.nothingOut 0 = true ∧
       (s.ctx 0).waitSince + 1000 ≤ s.now) ∧
    (let s := waitingOn (some .queueFull) (some .mxwait) (some .sectionDep) fun x =>
       { x with mx := { x.mx with running := some (nest .swap none (bankD 0 0x10000000)) }
                f0 := [{ cmd := cmdRec 8 true false 0x200 0 3 0, scope := .quad, tk := 0 }], f1res := 32 }
     (s.ctx 0).mx.wantsGrant = true ∧ (s.ctx 0).engineStalled = true) ∧
    (let s := atSwitch (some 0) (some 0) none
     (s.ctx 0).preempt = false ∧ (s.ctx 0).trap = none ∧ (s.ctx 0).someHold = true ∧ (s.ctx 0).s.hold = none ∧
       (s.ctx 0).holdSince + 2000 ≤ s.now) ∧
    (let s := atSwitch (some 0) (some 0) (some 0) fun x => { x with bq := x.bq.push { data := [1] } }
     (s.ctx 0).allHold 0 = true ∧ (s.ctx 0).switchClear = false) ∧
    (let s := (at_ .c []).updCtx 0 fun x => { x with trigPending := true }
     (s.ctx 0).flock = some 0 ∧ (s.ctx 0).trigPending = true ∧ s.trigClear 0 = true) := by decide +kernel

theorem witness_CoreEventsHappen_variants :
    (let s := atSwitch (some 0) (some 0) (some 0)
     (s.ctx 0).allHold 0 = true ∧ (s.ctx 0).switchClear = true ∧ (s.ctx 0).heldInTime = true ∧
       (match s.variantTable 0 with | .ok _ => true | .error _ => false) = true) ∧
    (let s := atSwitch (some 0) (some 0) (some 0) fun x => { x with heldAt := 2001 }
     (s.ctx 0).preempt = false ∧ (s.ctx 0).trap = none ∧ (s.ctx 0).someHold = true ∧ (s.ctx 0).allHold 0 = true ∧
       (s.ctx 0).heldInTime = false) := by decide +kernel

/-! ## Links and wavelengths -/

/-- The machine after reset with this port end. -/
def atPort (e : PortEnd) (p : PortSt) : State := State.reset.updPort e fun _ => p

/-- Every wavelength of an end in this condition. -/
def allLanes (w : Wavelength) : PortSt := { wl := Vector.replicate 8 w }

/-- The two ends of a scheduled circuit of tile 0, at port 4, each in this condition. -/
def atLink (rx tx : PortSt) : State :=
  ((withCircuits 0 (at_ .s [])).updPort ⟨0, 4, false⟩ fun _ => rx).updPort ⟨0, 4, true⟩ fun _ => tx

/-- A flit whose bytes and CHECK are all 0 but for these first bytes. -/
def flit (bs : List Byte) (errs : Nat) : Flit :=
  let b := bs ++ List.replicate (216 - bs.length) 0
  { bytes := b ++ wordLE (crc64 (b.take 2 ++ (b.drop 4).take 212)) ++ List.replicate 32 0, errs0 := errs, errs1 := 0, corr := [] }

/-- What a flit of a peer's outbox asks of the witness. -/
def peerSent (s : State) (e : PortEnd) (x : Sent) : Bool :=
  decide (e.port < 12) && (match s.peerEnd e with | some r => (s.portEnd r).outbox == [x] | none => false)

theorem witness_FlitsAreDeliveredInOrder :
    (let e : PortEnd := ⟨0, 13, false⟩
     let s := atPort e { allLanes { state := .active } with rxSeq := 0xFFFF }
     let f := flit [0x10, 0, 0xFF, 0xFF] 8
     let g := flit [0x10, 0, 0x00, 0x00] 8
     s.dealMap e ≠ [] ∧ f.uncorrectable = false ∧ f.checkOk = true ∧ f.skip = none ∧ f.type ≠ 0 ∧ f.type ≠ 5 ∧
       f.pen = false ∧ f.poisoned = false ∧ (s.portEnd e).heldFlits = [] ∧ f.lseq = (s.portEnd e).rxSeq ∧
       g.uncorrectable = false ∧ g.checkOk = true ∧ g.pen = false ∧ g.lseq ≠ (s.portEnd e).rxSeq ∧
       (g.lseq - (s.portEnd e).rxSeq).toNat < 2 ^ 15) ∧
    ((flit [0x10, 0, 0xFF, 0xFF] 9).uncorrectable = true ∧ (flit [0x18, 0, 0xFF, 0xFF] 9).pen = true) := by
  decide +kernel

theorem witness_FlitsAreDeliveredInOrder_peer :
    (let e : PortEnd := ⟨0, 4, false⟩
     let f := flit [0x38, 0, 7, 0] 0
     let s := atLink { allLanes { state := .active } with rxSeq := 7 } { allLanes { state := .active } with outbox := [.data 7 f.bytes false (List.range 8)] }
     s.dealMap e ≠ [] ∧ peerSent s e (.data 7 f.bytes false (s.expected e)) = true ∧ f.uncorrectable = false ∧ f.checkOk = true ∧
       f.type ≠ 0 ∧ f.type ≠ 5 ∧ f.pen = true ∧ (s.portEnd e).heldFlits = [] ∧ f.lseq = (s.portEnd e).rxSeq) ∧
    (let e : PortEnd := ⟨0, 4, false⟩
     let f : Flit := { flit [0x50] 0 with skip := some 7 }
     let s := atLink { allLanes { state := .active } with rxSeq := 7 } { allLanes { state := .active } with outbox := [.skip 7 (List.range 8)] }
     s.dealMap e ≠ [] ∧ peerSent s e (.skip 7 (s.expected e)) = true ∧ f.uncorrectable = false ∧ f.checkOk = true ∧
       f.skip = some 7 ∧ (s.portEnd e).heldFlits = [] ∧ (7 : BitVec 16) = (s.portEnd e).rxSeq) ∧
    (let e : PortEnd := ⟨63, 12, true⟩
     let s := atPort e { allLanes { state := .active } with replay := [⟨7, [1], 8⟩], penSent := [⟨8, [2], 1⟩] }
     s.dealMap e ≠ [] ∧ (s.portEnd e).replay.find? (fun y => y.lseq == 7) = some ⟨7, [1], 8⟩ ∧
       (∀ y ∈ (s.portEnd e).penSent, y.lseq ≠ 7) ∧ (s.portEnd e).penSent = [⟨8, [2], 1⟩]) ∧
    (let e : PortEnd := ⟨0, 4, true⟩
     let s := atLink { allLanes { state := .active } with nackOut := [8] } { allLanes { state := .active } with penSent := [⟨8, [2], 1⟩] }
     s.dealMap e ≠ [] ∧ s.peerEnd e = some ⟨0, 4, false⟩ ∧ 8 ∈ (s.portEnd ⟨0, 4, false⟩).nackOut ∧
       s.nackPasses ⟨0, 4, false⟩ e = true ∧ (s.portEnd e).penSent = [⟨8, [2], 1⟩]) := by
  decide +kernel

theorem witness_WavelengthsLeaveAndReturn :
    (let e : PortEnd := ⟨0, 0, false⟩
     let s := atPort e (allLanes { state := .active, symbols := 2 ^ 24, window := 0x401 })
     let w := (s.portEnd e).lane 7
     2 ^ 24 ≤ w.symbols ∧ w.up = true ∧ w.met = false ∧ (s.portEnd e).cthr.toNat < w.window ∧ (s.portEnd e).minw.toNat ≤ 7 ∧
       ((s.portEnd e).map.filter fun j => j != 7 && !((s.portEnd e).lane j).crossed).length = 7) ∧
    (let e : PortEnd := ⟨0, 0, false⟩
     let s := atPort e { allLanes { state := .active, symbols := 2 ^ 24, uncWindow := 2 } with minw := 8 }
     let w := (s.portEnd e).lane 0
     2 ^ 24 ≤ w.symbols ∧ w.up = true ∧ w.met = false ∧ 2 ≤ w.uncWindow ∧
       ((s.portEnd e).map.filter fun j => j != 0 && !((s.portEnd e).lane j).crossed).length < (s.portEnd e).minw.toNat) ∧
    (let e : PortEnd := ⟨0, 4, false⟩
     let s := atLink (allLanes { state := .active, crossed := true }) (allLanes { state := .active })
     ((s.portEnd e).lane 7).crossed = true ∧ ((s.portEnd e).lane 7).up = true ∧ s.peerEnd e = some ⟨0, 4, true⟩ ∧
       (s.portEnd ⟨0, 4, true⟩).outbox = []) ∧
    (let e : PortEnd := ⟨0, 0, false⟩
     let s := { atPort e (allLanes { state := .retrain }) with now := 64000 }
     ((s.portEnd e).lane 0).state = .retrain ∧ s.dark e 0 = false ∧ s.peerEnd e = none ∧
       ((s.portEnd e).lane 0).since + 64000 ≤ s.now) := by decide +kernel

/-- Whether every wavelength of λk's group is past its training. -/
def grouped (q : PortSt) (k : Nat) : Bool := (q.group k).all fun j => (q.lane j).state != .retrain

theorem witness_WavelengthsLeaveAndReturn_views :
    (let e : PortEnd := ⟨0, 0, false⟩
     let s := atPort e { allLanes { state := .exchange, attempts := 1 } with trained := true }
     s.peerEnd e = none ∧ grouped (s.portEnd e) 3 = true ∧ (s.portEnd e).view = ⟨0xFF, false⟩ ∧
       ((s.portEnd e).lane 3).excluded = false ∧ (s.portEnd e).view ≠ ⟨0xF7, false⟩ ∧ ((s.portEnd e).lane 3).attempts < 2) ∧
    (let e : PortEnd := ⟨0, 0, true⟩
     let s := atPort e { allLanes { state := .exchange, attempts := 2 } with trained := true }
     grouped (s.portEnd e) 3 = true ∧ (s.portEnd e).view ≠ ⟨0xFF, true⟩ ∧ 2 ≤ ((s.portEnd e).lane 3).attempts) ∧
    (let e : PortEnd := ⟨0, 0, true⟩
     let s := atPort e (allLanes { state := .exchange, attempts := 2 })
     (s.portEnd e).trained = false ∧ ((s.portEnd e).lane 3).excluded = false ∧ (s.portEnd e).view ≠ ⟨0xFF, true⟩ ∧
       bit (0xFF : BitVec 8) 3 = true) ∧
    (let e : PortEnd := ⟨0, 4, false⟩
     let x := allLanes { state := .exchange, excluded := true }
     let s := atLink x x
     s.peerEnd e = some ⟨0, 4, true⟩ ∧ grouped (s.portEnd e) 3 = true ∧ grouped (s.portEnd ⟨0, 4, true⟩) 3 = true ∧
       (s.portEnd ⟨0, 4, true⟩).view.lanes = 0 ∧ ((s.portEnd ⟨0, 4, true⟩).lane 3).state = .exchange ∧
       (s.portEnd e).view = ⟨0, false⟩ ∧ ((s.portEnd e).lane 3).excluded = true ∧ (s.tile 0).part = some 0) ∧
    ((7, 7) : BitVec 3 × BitVec 3) ∉ State.reset.lines ∧
    (atPort ⟨56, 0, true⟩ (allLanes { state := .failed })).portEnd ⟨56, 0, true⟩ = allLanes { state := .failed } := by
  decide +kernel

/-! ## The drover -/

/-- The drover of the probing partition at work on its next word. -/
def atDrover (d : Drover) : State :=
  { (at_ .s []).updPart 0 fun p => { p with drover := { d with owner := some 0 } } with focus := .drover 0 }

/-- A planned circuit of core 0 to core 1, handle 5. -/
def planned : PlanCircuit :=
  { h := 5, sendTile := 0, recvTile := 0, send := 0, recv := 1, sp := 1, dp := 2, block := 0, word := 0 }

theorem witness_CircuitWordsFillTheirBlock :
    (let s := atDrover { plan := [planned], pc := 1, prog := [0, 0, 0, 0], decoding := true, loops := [(1, 3, 2)] }
     let d := (s.part 0).drover
     s.focus = .drover 0 ∧ d.cur.words < 64 ∧ d.cur.endc = false ∧ d.cur.other = false ∧ d.named 5 0 false ≠ [] ∧
       d.named 4 0 true = [] ∧ s.replicas 0 6 0 0 0 0 0 0 1 ≠ none ∧ s.replicas 0 6 0 1 0 0 1 0 1 = none ∧
       (0 : BitVec 6).toNat < (s.part 0).tiles ∧ (s.part 0).tiles ≤ (1 : BitVec 6).toNat ∧ d.loops.length < 4 ∧
       d.loops = [(1, 3, 2)] ∧ d.pc + (2 : BitVec 16).toNat ≤ 3 ∧ 3 < d.pc + (3 : BitVec 16).toNat) ∧
    (let s := atDrover { pc := 1, prog := [0, 0, 0, 0] }
     let d := (s.part 0).drover
     d.loops = [] ∧ (d.pc : Int) + (2 : BitVec 16).toInt = (3 : Nat) ∧ 3 < d.prog.length ∧
       ¬(d.pc : Int) + (3 : BitVec 16).toInt < d.prog.length ∧ (d.pc : Int) + (-2 : BitVec 16).toInt < 0) ∧
    (let s := atDrover { pc := 1, prog := [0, 0, 0, 0, 0], loops := [(1, 2, 2)] }
     let d := (s.part 0).drover
     (1 : Int) ≤ d.pc + (1 : BitVec 16).toInt ∧ (d.pc : Int) + (1 : BitVec 16).toInt ≤ 2 ∧
       (2 : Int) < d.pc + (2 : BitVec 16).toInt ∧ (d.pc : Int) + (2 : BitVec 16).toInt = 2 + 1 ∧
       (d.pc : Int) + (3 : BitVec 16).toInt ≠ 2 + 1 ∧ (d.pc : Int) + (3 : BitVec 16).toInt < d.prog.length) ∧
    (let s := atDrover { cur := { other := true, words := 63 }, cond := true }
     let d := (s.part 0).drover
     d.cur.words < 64 ∧ d.cur.other = true ∧ d.cond = true ∧ d.cur.endc = false) ∧
    (let s := atDrover { cur := { endc := true, words := 64 } }
     64 ≤ (s.part 0).drover.cur.words ∧ (s.part 0).drover.cur.endc = true) := by decide

/-- A circuit of core 0 to core 1, handle 7, established at 0. -/
def circuit7 : Circuit := { h := 7, sendTile := 0, recvTile := 0, send := 0, recv := 1, sp := 3, dp := 3 }

/-- What the block at work does to the plan. -/
def newPlan (s : State) : Except Nat (List PlanCircuit) :=
  let d := (s.part 0).drover
  let held := d.plan.map fun k => k.held d.curNo d.cur.holds
  let due := (held.filter fun k => k.tearAt == some d.curNo).map fun k => (k.sendTile, k.h)
  addCircuits (held.filter fun k => !(due ++ d.cur.tears).dedup.contains (k.sendTile, k.h)) d.cur.connects

theorem witness_CircuitStepsBegin :
    (let s := atDrover { cur := { words := 2, connects := [planned] }, plan := [{ planned with tearAt := some 0 }], decoding := true }
     newPlan s = .ok [planned] ∧ (s.part 0).drover.cur.endc = false ∧ (96 : BitVec 8).toNat / 32 = 3 ∧
       (127 : BitVec 8).toNat / 32 = 3 ∧ (128 : BitVec 8).toNat / 32 ≠ 3 ∧
       (s.flock ((s.part 0).drover.owner.getD 0)).allocated 96 = true ∧ (s.part 0).drover.halted = false) ∧
    newPlan (atDrover { cur := { connects := [planned] }, plan := [planned] }) = .error 0 ∧
    (let s := atDrover { cur := { endc := true }, plan := [planned] }
     newPlan s = .ok [planned] ∧ (s.part 0).drover.cur.endc = true) ∧
    (let b : Block := { connects := [planned], mark := some 6 }
     let s := (atDrover { ready := [b] }).updFlock 0 fun f => { f with status := .placed }
     (s.part 0).drover.ready = [b] ∧ s.stepDue 0 b = true) ∧
    (let b : Block := { connects := [planned], bar := some 96, tears := [(0, 7)] }
     let s := { atDrover { ready := [b], step := some 4, stepAt := 0, circuits := [circuit7, { circuit7 with h := 8 }] } with now := 1 }
     let s := s.updFlock 0 fun f => { f with bars := mset f.bars (96 * 1024) { c := 1, parties := [] } }
     s.stepDue 0 b = true ∧ b.endc = false ∧ b.tears.contains (fld circuit7.send 6 6, 7) = true ∧
       b.tears.contains (fld circuit7.send 6 6, 8) = false) ∧
    (let s := { atDrover { circuits := [circuit7, { circuit7 with map := some [3] }] } with now := 22 }
     (s.part 0).drover.circuits[0]? = some circuit7 ∧ circuit7.settled = false ∧ circuit7.since + 22 ≤ s.now ∧
       (s.part 0).drover.circuits[1]? = some { circuit7 with map := some [3] }) := by decide

/-! ## The front end -/

/-- A packet with this type, LEN, FLG and words from 1 on. -/
def packet (type len flg : Nat) (ws : List W64) : Packet :=
  ⟨BitVec.ofNat 64 (type * 2 ^ 56 + len * 2 ^ 40 + flg * 2 ^ 32) :: ws⟩

/-- The front end at the head of queue 0 of the probing partition. -/
def atHead (k : CmdQueue) : State :=
  { at_ .s [] with focus := .packet 0 0 }.updQueue 0 0 fun _ => k

/-- A packet is whole, and all its fields are legal. -/
def good (p : Packet) : Bool := p.lenOk && p.fieldsOk && decide (p.words.length = 4 * p.len)

/-- The probing flock in this condition. -/
def aimed (st : FlockStatus) : State := (atHead {}).updFlock 0 fun f => { f with status := st }

theorem witness_PacketsActAtTheHead :
    (atHead {}).focus = .packet 0 0 ∧ (atHead {}).glob.shr = false ∧
    ({ atHead {} with glob := { (atHead {}).glob with shr := true } } : State).glob.shr = true ∧
    (packet 1 1 0 [0, 0, 0]).lenOk = false ∧ (packet 6 1 0 [0, 0, 1]).fieldsOk = false ∧
    good (packet 6 2 0 [0, 0, 0, 0, 0, 0, 0]) = true ∧
    good (packet 5 1 0 [0, 0, 0]) = true ∧ (packet 5 1 0 [0, 0, 0]).type = 0x05 ∧
    good (packet 0xA 1 0 [100000, 99999, 0]) = true ∧
    (let p := packet 4 1 0 [0, 0, 0]
     good p = true ∧ (atHead {}).waitedFor 0 0 (p.flg % 4) = true) ∧
    (let p := packet 9 1 0 [0, 0, 0]
     let q := packet 9 1 0 [7, 0, 0]
     good p = true ∧ good q = true ∧ (atHead {}).preemptTarget 0 q = none ∧
       (aimed .running).preemptTarget 0 p = some (0, (aimed .running).flock 0) ∧ ((aimed .running).flock 0).live = true ∧
       (aimed .running).liveMembers 0 ≠ [] ∧ ((aimed .running).flock 0).status = .running ∧
       (aimed .waiting).preemptTarget 0 p = some (0, (aimed .waiting).flock 0) ∧ ((aimed .waiting).flock 0).status = .waiting ∧
       ((aimed .waiting).flocks.map (·.1)).Pairwise (· < ·)) ∧
    (let p := packet 1 9 0 (List.replicate 35 0)
     let s := atHead { nextL := 0xFFFFFFFF }
     good p = true ∧ s.entryBusy 0 0 = false ∧ (s.queue 0 0).atHead = none ∧ mhas s.flocks s.nextFlock = false ∧
       (s.validate { part := 0, queue := some 0, lnum := 0xFFFFFFFF, pkt := p.words, turn := 1, members := [] }).1 ≠ 0) := by
  decide +kernel

/-- Whether the front end's 8-byte access is to the panel's storage at this offset of tile 0. -/
def homeIs (s : State) (k : Machine.Acc) (a off : Nat) : Bool :=
  match s.homeCheck (frontAsker 0) k a 8 with
  | .ok l _ => l == .panel 0 off
  | _ => false

/-- How the front end's write ends. -/
def wrote (r : State × FrontAns) : FrontAns := r.2

theorem witness_PacketsWriteMemory :
    (let p := packet 7 2 0 [0x2008, 8, 0, 9, 0, 0, 0]
     good p = true ∧ (atHead {}).waitedFor 0 0 (p.flg / 2 % 4) = true ∧ p.addr % 8 = 0 ∧ fld (p.word 2) 0 16 = 8 ∧
       p.type = 0x07 ∧ homeIs (atHead {}) .engWrite p.addr 0x2008 = true ∧
       wrote ((atHead {}).feWrite 0 p.addr (Packet.data p 32 8)) = .done) ∧
    (let p := packet 3 1 0 [0x2008, 9, 0]
     good p = true ∧ p.flg % 2 = 0 ∧ homeIs (atHead {}) .engWrite p.addr 0x2008 = true) ∧
    (let p := packet 3 1 1 [0x2008, 9, 0]
     good p = true ∧ (atHead {}).waitedFor 0 0 (p.flg / 2 % 4) = true ∧ p.flg % 2 = 1 ∧
       (atHead {}).poisonedLoc (.panel 0 0x2008) 8 = false ∧ homeIs (atHead {}) .atomic (p.word 1).toNat 0x2008 = true) ∧
    (let p := packet 7 2 0 [0x40000000000000, 8, 0, 9, 0, 0, 0]
     good p = true ∧ (match wrote ((atHead {}).feWrite 0 p.addr (Packet.data p 32 8)) with | .fail _ => true | _ => false) = true) ∧
    (let p := packet 0xB 1 0 [0x2040, 0, 0]
     good p = true ∧ wrote ((atHead {}).feWrite 0 p.addr ((atHead {}).statusRecord 0 0)) = .done) ∧
    good (packet 8 3 0 [0, 0, 0, BitVec.ofNat 64 (8 * 2 ^ 56), 0x2000, 0, 8, 5, 0, 0, 0]) = true := by
  decide +kernel

theorem witness_PacketsWriteMemory_waits :
    (let p := packet 2 1 0 [0x2008, 0, 0xFF]
     (p.lenOk && p.fieldsOk) = true ∧ ((atHead {}).queue 0 0).sig = none ∧ sigHolds p 0 = true ∧
       (match (atHead {}).feRead 0 p.addr 8 with | .ok bs => leWord bs == 0 | _ => false) = true) ∧
    (let s := { atHead { sig := some (packet 2 1 0 [0x2008, 0, 0xFF]) } with now := 1000 }
     (s.queue 0 0).sig = some (packet 2 1 0 [0x2008, 0, 0xFF]) ∧ (s.queue 0 0).armed = false ∧ (s.queue 0 0).polledAt + 1000 ≤ s.now) ∧
    (let s := atHead { wbDue := true, headwb := 0x2008, h := 0x40 }
     (s.queue 0 0).wbDue = true ∧ (s.queue 0 0).headwb ≠ 0 ∧ (s.queue 0 0).headwb.toNat % 8 = 0 ∧
       homeIs s .engWrite (s.queue 0 0).headwb.toNat 0x2008 = true) := by
  decide +kernel

/-! ## Flocks -/

/-- The probing partition with core 0 free and its flock as given. -/
def flocked (f : Flock) : State :=
  { (at_ .s []) with cores := [], flocks := [(0, f)] }.updPart 0 fun p => { p with holder := [] }

theorem witness_FlocksAreScheduled :
    (let s := flocked { probeFlock with status := .waiting }
     s.glob.shr = false ∧ mhas s.flocks 0 = true ∧ s.goesAfter 0 = false ∧ s.blockers 0 = [] ∧ (s.flock 0).status = .waiting ∧
       (s.flock 0).circLen = 0 ∧ (s.flock 0).resuming = false ∧ s.wantsCores 0 = true) ∧
    (let s := { flocked { probeFlock with status := .waiting, tick := some 3, tickAt := 0, period := 100 } with now := 50 }
     s.wantsCores 0 = true ∧ s.goesAfter 0 = false ∧ s.blockers 0 = [] ∧ (s.flock 0).tick.isSome = true ∧ (s.flock 0).released = true ∧
       16 * (s.flock 0).period ≤ 32 * (s.now - (s.part 0).createdAt - (s.flock 0).tickAt)) ∧
    (let s := flocked { probeFlock with status := .preempted }
     (s.flock 0).suspended = false ∧ s.tilesSettled (s.flock 0) = true ∧ s.goesAfter 0 = false ∧ s.blockers 0 = [] ∧
       s.portHolder 0 = [] ∧ (s.flock 0).drover = none) ∧
    (∀ p ∈ [0, 100], let s := flocked { probeFlock with status := .waiting, tick := some 0, released := false, left := true }
     let s := { s.updQueue 0 0 fun k => { k with cadP := p, cadPhase := 7 } with now := 7 }
     s.strayCadence 0 0 = none ∧ s.cadenceWaiting 0 0 = some 0 ∧ ((s.queue 0 0).cadP = 0 ↔ p = 0) ∧
       (s.queue 0 0).cadPhase + s.tickOf 0 0 0 * (s.queue 0 0).cadP ≤ s.now - (s.part 0).createdAt) ∧
    (let s := { flocked { probeFlock with tick := some 1, tickAt := 7, period := 100 } with now := 107 }
     (s.flock 0).queue = some 0 ∧ (s.flock 0).tick.isSome = true ∧ (s.flock 0).released = true ∧ (s.flock 0).missed = false ∧
       (s.flock 0).tickAt + (s.flock 0).period ≤ s.now - (s.part 0).createdAt ∧ (s.flock 0).status ≠ .retired ∧ (s.flock 0).status ≠ .failed) ∧
    (let s := flocked probeFlock
     let s := { s with glob := { s.glob with shr := true } }
     s.glob.shr = true ∧ mhas s.flocks 0 = true) := by
  decide +kernel

/-- The launch packet of the probing flock with a circuit program of one word. -/
def circPacket : List W64 := (probePacket.set 17 0x2000).set 18 1

theorem witness_FlocksAreScheduled_circuits :
    (let s := flocked { probeFlock with status := .waiting, pkt := circPacket }
     s.goesAfter 0 = false ∧ s.blockers 0 = [] ∧ s.wantsCores 0 = true ∧ (s.flock 0).circLen ≠ 0 ∧ (s.flock 0).circAddr % 8 = 0 ∧
       (match s.feRead 0 (s.flock 0).circAddr 8 with | .ok bs => bs.length == 8 | _ => false) = true) ∧
    (let s := (flocked { probeFlock with status := .placed, pkt := circPacket }).updPart 0 fun p =>
       { p with drover := { owner := some 0, step := some 0, circuits := [] } }
     (s.flock 0).status = .placed ∧ (s.flock 0).resuming = false ∧ (s.flock 0).suspended = false ∧ (s.flock 0).circLen ≠ 0 ∧
       (s.part 0).drover.owner = some 0 ∧ (s.part 0).drover.readyToRun = true) := by
  decide +kernel

/-- The probing flock runs on core 0, and an equal waits for the core. -/
def contended : State :=
  let s := at_ .s []
  { s with flocks := s.flocks ++ [(1, { probeFlock with status := .waiting, lnum := 1, pkt := probePacket.take 14 })], now := 2000000 }

theorem witness_FlocksAreScheduled_quantum :
    (contended.flock 0).status = .running ∧ (contended.flock 0).runAt + 1000 * (contended.part 0).quantum ≤ contended.now ∧
      (∃ e ∈ contended.flocks, e.1 ≠ 0 ∧ e.2.part = 0 ∧ contended.wantsCores e.1 = true ∧
        (∃ id ∈ e.2.needs, contended.holderOf 0 id = some 0) ∧ contended.priority 0 ≤ contended.priority e.1) := by
  decide +kernel

/-- The probing flock in this condition, its core at its cut or not. -/
def atPreempt (st : FlockStatus) (cut : Bool) (now : Nat) : State :=
  { (at_ .s [] fun x => { x with preempt := true, lcut := cut, ccut := cut, scut := cut }).updFlock 0 fun f => { f with status := st } with
    now := now }

/-- Core 0 with all its streams finished, its flock's packet with this word 19. -/
def atRetire (w : W64) : State :=
  let fin : StreamState := { phase := .done }
  (at_ .s [] fun x => { x with l := fin, c := fin, s := fin }).updFlock 0 fun f => { f with pkt := f.pkt.set 19 w }

theorem witness_CutsAndRetirement :
    (let s := atPreempt .preempting true 0
     (s.ctx 0).flock = some 0 ∧ (s.ctx 0).preempt = true ∧ (s.ctx 0).trap = none ∧ s.cutDone 0 = true ∧
       (s.flock 0).status = .preempting) ∧
    (let s := atPreempt .killing true 0
     (s.ctx 0).flock = some 0 ∧ (s.ctx 0).preempt = true ∧ s.cutDone 0 = true ∧ (s.flock 0).status = .killing) ∧
    (let s := atPreempt .preempting false 1000000
     (s.ctx 0).flock = some 0 ∧ (s.ctx 0).preempt = true ∧ (s.ctx 0).forced = false ∧ (s.flock 0).status = .preempting ∧
       (s.flock 0).cutAt + 1000 * (s.part (s.flock 0).part).ptimeout ≤ s.now) ∧
    ((atPreempt .killing false 0).ctx 0).forced = false ∧
    ((atRetire 0).ctx 0).flock = some 0 ∧ (atRetire 0).canRetire 0 = true ∧ fld (((atRetire 0).flock 0).word 19) 0 56 = 0 ∧
    (let s := atRetire 0x40000000000000
     let qs := fld ((s.flock 0).word 19) 0 56
     s.canRetire 0 = true ∧ qs ≠ 0 ∧
       (match s.drainAll.writeStats 0 (qs + 2048 * (s.ctx 0).member) (List.range 64) 0 with | .ok _ => true | .error _ => false) = true) := by
  decide +kernel

theorem witness_CutsAndRetirement_records :
    (let s := flocked { probeFlock with doneMembers := [0] }
     (s.writeRecord 0).2 = true ∧ (s.flock 0).status = .running ∧ (s.flock 0).members ≠ [] ∧
       (∀ j, j < (s.flock 0).members.length → j ∈ (s.flock 0).doneMembers)) ∧
    (let s := flocked { probeFlock with status := .failed, pkt := probePacket.set 1 0x2000 }
     (s.flock 0).csig = 0x2000 ∧ (s.writeRecord 0).2 = true ∧ (s.flock 0).status = .failed ∧ (s.flock 0).wrote = false) := by
  decide +kernel

/-! ## The host -/

/-- The host's view of queue 0 of the probing partition, which has one queue, in this condition. -/
def atHostQueue (k : CmdQueue) (desc : List W64) : State :=
  let s := (at_ .s []).updPart 0 fun p => { p with nq := 1, qtab := 0x3000 }
  { s.updQueue 0 0 fun _ => k with mem := Memory.writeN s.mem 0x3000 (wordsLE desc) }

/-- Tile 0 of this machine is being enumerated anew, so that its accesses are answered with retry-after. -/
def flushing (s : State) : State := s.updTile 0 fun t => { t with rolePhase := .flushed }

/-- A descriptor of a partition of tile 1 with one lit layer and one queue; its words 0, 1, 5, 7 and 9. -/
def descWords : List (Nat × W64) := [(0, 0x5000000100001001), (8, 0x000000FA0000000A), (40, 1), (56, 1), (72, 1)]

/-- The host about to write PART_CMD, with a descriptor at 0x100 of its memory and these flocks in partition 0. -/
def atHostCmd (arg : W64) (st : FlockStatus) (g : Globals → Globals := id) : State :=
  let s := at_ .s []
  { s.updFlock 0 fun f => { f with status := st } with
    glob := g { s.glob with rdy := true, partArg := arg }
    hostMem := descWords.foldl (fun m e => Memory.writeN m (0x100 + e.1) (wordLE e.2)) [] }

/-- What the front end reads of a queue's descriptor. -/
def descRead (s : State) : Except FrontAns (List Byte) := s.feRead 0 ((s.part 0).qtab.toNat + 64 * 0) 64

theorem witness_QueuesAndPartitionsObeyTheHost :
    (let s := atHostQueue { en := true, lsz := 12, h := 0xFFFFFFE0, t := 0xFFFFFFE0 } []
     s.hasQueue 0 0 = true ∧ (s.queue 0 0).en = true ∧ (0xFE0 : W32).toNat % 32 = 0 ∧
       ((0xFE0 : W32) - (s.queue 0 0).h).toNat ≤ 2 ^ (s.queue 0 0).lsz ∧ 1 ≤ ((0xFE0 : W32) - (s.queue 0 0).t).toNat ∧
       ((0xFE0 : W32) - (s.queue 0 0).t).toNat < 2 ^ 31 ∧ 2 ^ (s.queue 0 0).lsz < ((0x1000 : W32) - (s.queue 0 0).h).toNat ∧
       ((0xFFFFFFE0 : W32) - (s.queue 0 0).t).toNat = 0 ∧ ((0xFFFFFFE0 : W32) - (s.queue 0 0).h).toNat ≤ 2 ^ (s.queue 0 0).lsz) ∧
    (let s := atHostQueue {} [0x4000, 0x000000200C000000, 0x2008]
     (s.queue 0 0).en = false ∧ (s.queue 0 0).state ≠ 3 ∧ s.hasQueue 0 0 = true ∧
       (match descRead s with | .ok bs => descriptorOk (packetOf bs).words | .error _ => false) = true) ∧
    (match descRead (atHostQueue {} [0x4000, 0x000000210C000000, 0x2008]) with
      | .ok bs => !descriptorOk (packetOf bs).words | .error _ => false) = true ∧
    (match descRead (flushing (atHostQueue {} [])) with | .error .again => true | _ => false) = true ∧
    (match descRead ((atHostQueue {} []).updPart 0 fun p => { p with qtab := 0x40000000000000 }) with | .error (.fail _) => true | _ => false) = true ∧
    (atHostQueue { state := 3 } []).hasQueue 0 0 = true := by
  decide +kernel

theorem witness_QueuesAndPartitionsObeyTheHost_commands :
    (let s := atHostCmd 0x100 .running
     s.glob.pcStatus ≠ 0xFF ∧ s.glob.rdy = true ∧ s.glob.shr = false ∧
       s.createStatus 15 s.descriptor (partOfDescriptor s.descriptor) = 0 ∧ (s.part 0).exists_ = true ∧
       (∃ e ∈ s.flocks, e.2.part = 0 ∧ e.2.ended = false)) ∧
    (let s := atHostCmd 0x200 .retired
     s.createStatus 15 s.descriptor (partOfDescriptor s.descriptor) ≠ 0 ∧ (s.part 15).exists_ = false ∧
       (∀ e ∈ s.flocks, e.2.part = 0 → e.2.ended = true)) ∧
    (atHostCmd 0 .running fun g => { g with pcStatus := 0xFF }).glob.pcStatus = 0xFF ∧
    (atHostCmd 0 .running fun g => { g with rdy := false }).glob.rdy = false ∧
    (atHostCmd 0 .running fun g => { g with shr := true }).glob.shr = true := by
  decide +kernel

/-- The probing partition's front end with one routed fault to write, and records of traps to come. -/
def atRecords (f : Partition → Partition) (g : Ctx → Ctx) : State :=
  (at_ .s [] g).updPart 0 fun p => f { p with faultq := 0x4000, nfault := 2, trapq := 0x5000, ntrap := 1, htab := 0x6000 }

/-- A fault of an uncorrectable wavelength. -/
def fault44 : FaultRec := { bytes := List.replicate 32 1, cause := 0x44 }

/-- A trap of core 0. -/
def trap20 (written : Bool) : TrapInfo := { cause := 0x20, stream := .c, code := 0, addr := 0x77, seq := 1, syl := 0, written := written }

/-- The front end writes the record of a fault. -/
def faultWritten (s : State) : FrontAns :=
  wrote (s.feWrite 0 ((s.part 0).faultq.toNat + 32 * ((s.part 0).faultN.toNat % (s.part 0).nfault)) fault44.bytes)

theorem witness_RegistersAndRecordsAtTheHost :
    (let s := atRecords (fun p => { p with faults := [fault44], froute := [(0x44, 1)] }) id
     (s.part 0).exists_ = true ∧ (s.part 1).exists_ = false ∧ (0 : BitVec 6).toNat < (s.part 0).tiles ∧
       (s.part 0).tiles ≤ (63 : BitVec 6).toNat ∧ s.glob.shr = false ∧ (s.part 0).faults = [fault44] ∧ (s.part 0).handlersDue = [] ∧
       bit (mget 0 (s.part 0).froute fault44.cause.toNat) 1 = false ∧ bit (mget 0 (s.part 0).froute fault44.cause.toNat) 0 = true) ∧
    (let s := atRecords (fun p => { p with faults := [fault44], faultN := 1, faultHead := 0xFFFFFFFF }) id
     bit (mget 0 (s.part 0).froute fault44.cause.toNat) 0 = false ∧ ((s.part 0).faultN - (s.part 0).faultHead).toNat = (s.part 0).nfault) ∧
    (let s := atRecords (fun p => { p with faults := [fault44], faultN := 1 }) id
     ((s.part 0).faultN - (s.part 0).faultHead).toNat ≠ (s.part 0).nfault ∧ faultWritten s = .done ∧ faultWritten (flushing s) = .again) ∧
    ((State.reset.tile 63).rolePhase ≠ .flushed ∧ 2 ^ 36 - 4 + 4 ≤ 2 ^ 36 ∧ State.reset.shadowByte 63 (2 ^ 36 - 1) = false ∧
      ((flushing State.reset).tile 0).rolePhase = .flushed) ∧
    (let s := atRecords (fun p => { p with handlersDue := [3] }) id
     (s.part 0).handlersDue = [3] ∧
       (match s.feRead 0 ((s.part 0).htab.toNat + 288 * 3) 288 with | .ok _ => true | _ => false) = true ∧
       (match (flushing s).feRead 0 ((s.part 0).htab.toNat + 288 * 3) 288 with | .error .again => true | _ => false) = true) ∧
    (let s := atHostCmd 0 .running fun g => { g with shr := true, pcStatus := 0xFF, pcOp := 3 }
     s.glob.shr = true ∧ s.glob.pcStatus = 0xFF ∧ s.glob.pcOp = 3 ∧ (s.part s.glob.pcPart.toNat).making = false) := by
  decide +kernel

theorem witness_RegistersAndRecordsAtTheHost_traps :
    (let s := atRecords (fun p => { p with trapN := 1 }) fun x => { x with trap := some (trap20 false) }
     (s.ctx 0).trap = some (trap20 false) ∧ (s.ctx 0).flock = some 0 ∧ (trap20 false).written = false ∧ (trap20 false).waited = false ∧
       s.trapSettled 0 = true ∧ ((s.part 0).trapN - (s.part 0).trapHead).toNat = (s.part 0).ntrap) ∧
    (let tr := { trap20 false with waited := true }
     let s := atRecords (fun p => { p with trapN := 1 }) fun x => { x with trap := some tr }
     (s.ctx 0).trap = some tr ∧ s.trapSettled 0 = true ∧ ((s.part 0).trapN - (s.part 0).trapHead).toNat = (s.part 0).ntrap) ∧
    (let s := atRecords id fun x => { x with trap := some (trap20 false) }
     let v := (s.withdrawWait 0).updCtx 0 Ctx.stands
     ((s.part 0).trapN - (s.part 0).trapHead).toNat ≠ (s.part 0).ntrap ∧ (s.ctx 0).resumeWith = false ∧ s.trapSettled 0 = true ∧
       wrote (v.feWrite 0 0x5000 (trapRecord (v.ctx 0) (trap20 false) (s.flock 0))) = .done) ∧
    (let s := atRecords id fun x => { x with trap := some (trap20 true) }
     (s.part 0).exists_ = true ∧ s.glob.shr = false ∧ s.trapped 0 0 = some (0, 0) ∧ s.trapped 0 1 = none ∧
       (s.cores.find? fun e => e.2.flock == some 0 && e.2.member == 0).map (·.1) = some 0 ∧ (s.ctx 0).trap = some (trap20 true) ∧
       (s.ctx 0).preempt = false ∧ (s.flock 0).status = .running ∧ s.liveMembers 0 ≠ []) := by
  decide +kernel

/-! ## Layers, power and firmware -/

/-- Tile 5, in partition 3, with these layers, a role change in this phase, and this queue. -/
def atTile (ls : List Layer) (ph : RolePhase := .none) (a : Option RoleAction := none) (q : List (RoleAction × Bool) := []) : State :=
  State.reset.updTile 5 fun t =>
    { t with part := some 3, layers := Vector.ofFn fun k => ls.getD k.val {}, rolePhase := ph, roleAction := a, roleQueue := q }

/-- A lit layer, logical `k`, at level 7. -/
def litLayer (k : Nat) : Layer := { role := .lit, logical := some k, level := 7 }

/-- A lit layer that has been at TEMRG since 0. -/
def hotOne : Layer := { litLayer 0 with temp := 420, emrgSince := some 0 }

theorem witness_LayersPowerAndCounters :
    (let s := { atTile [hotOne, { role := .shade }] with now := 1000000 }
     s.glob.shr = false ∧ ((s.tile 5).layer 0).role = .lit ∧ ((s.tile 5).layer 0).testFailed = false ∧ (s.tile 5).shadeLayer.isSome = true ∧
       s.hotLayer 5 = some 0 ∧ (s.tile 5).part = some 3 ∧ ((s.tile 5).layer 0).warned = false ∧ s.fw.twarn ≤ (max (max 380 0) (max 0 0) : Int)) ∧
    (let s := { atTile [hotOne] with now := 1000000 }
     s.hotLayer 5 = some 0 ∧ (s.tile 5).shadeLayer = none ∧ ((s.tile 5).layer 0).emrgLowered = none) ∧
    ({ atTile [{ hotOne with emrgLowered := some 1000000 }] with now := 6000000 }).mustLose 5 0 = true ∧
    (let s := { atTile [litLayer 0, { coolSince := some 0 }] with now := 1000000000 }
     (s.tile 5).part.isSome = true ∧ ((s.tile 5).layer 1).role = .offline ∧ ((s.tile 5).layer 1).testFailed = false ∧
       ((s.tile 5).layer 1).coolSince = some 0 ∧ 0 + 1000 * ms ≤ s.now ∧ (s.tile 5).shadeLayer = none ∧
       (s.tile 5).roles.any RoleAction.returns = false ∧ s.drained 5 = true) ∧
    (let s := State.reset.updTile 5 fun t => { t with caps := t.caps.set 3 { en := true, src := 5 } }
     ∃ c, (s.tile 5).caps.toList[3]? = some c ∧ c.live = true ∧ c.cnt = 0) ∧
    ((atTile [litLayer 0, { role := .shade }] .none (some (.swap 0 []))).tile 5).roleAction = some (.swap 0 []) ∧
    ((atTile [litLayer 0] .flushed (some (.lose 0))).tile 5).roleAction = some (.lose 0) ∧
    ((atTile [litLayer 0] .flushed (some (.comeBack 1))).tile 5).roleAction = some (.comeBack 1) ∧
    (let s := atTile [litLayer 0, { role := .shade }] .drain (some (.swap 0 []))
     (s.tile 5).rolePhase = .drain ∧ s.drained 5 = true) ∧
    (let s := atTile [litLayer 0, { role := .shade }] .flushed (some (.swap 0 [])) [(.comeBack 2, true)]
     (s.tile 5).rolePhase = .flushed ∧ (s.tile 5).shadeLayer = some 1 ∧ ((s.tile 5).layer 0).logical = some 0) := by
  decide +kernel

/-- A signature by the private key 1, whose public key is G, with the nonce 1: r = Gx mod n, s = h + r mod n. -/
def signed (msg : List Byte) : List Byte :=
  natBE 32 (p256G.1 % p256N) ++ natBE 32 ((beNat (sha256 msg) + p256G.1) % p256N)

/-- A record of a type with an empty payload. -/
def record (ty : Byte) : ConfigRecord :=
  let bs : List Byte := ty :: List.replicate 15 0
  { bytes := bs, sig := signed bs }

/-- A boot with a helper-data record, a part identity and images. -/
def boot1 : BootInput :=
  { vendor := p256G, uds := [1], img1 := [2], sig1 := signed [2], img2 := [3], sig2 := signed [3], records := [record 1, record 2] }

theorem witness_FirmwareBootsAndAnswers_boot :
    (let rs := BootInput.valid boot1
     (bestRecord rs 1).isSome && (bestRecord rs 2).isSome && BootInput.imagesSigned boot1) = true := by decide +kernel

theorem witness_FirmwareBootsAndAnswers :
    (bestRecord (BootInput.valid { boot1 with records := [] }) 1).isSome = false ∧
    (let s : State := { State.reset with glob := { State.reset.glob with layer := 2 }, spdm := { State.reset.spdm with phase := 3 } }
     let r : SpdmRequest := { p1 := 1, p2 := 0xFF, offset := 0, length := 4, nonce := [] }
     s.glob.layer = 2 ∧ 3 ≤ s.spdm.phase ∧ r.offset ≤ s.fw.chain.length ∧ s.fw.chain.length < ({ r with offset := 1 } : SpdmRequest).offset ∧
       r.p2 = 0xFF ∧ 3 < (4 : Byte).toNat ∧ (4 : Byte) ≠ 0xFF) ∧
    State.reset.spdm.phase = 0 ∧ State.reset.glob.layer ≠ 2 := by decide

/-! ## The whole machine -/

/-- Core 0's S stream is to issue the word of these syllables, at the start of its section. -/
def atStep (body : Bool) (ss : List Nat) : State := State.reset.probe .s body ss

/-- What the S stream of core 0 sees as it issues its next word. -/
def asIssuing (s : State) : State := (s.advance.keepCode 0 .s).focusOn 0 .s

theorem witness_StepRunsTheDecodedInstruction :
    (let s := atStep true [0x0228220C, 0, 0]
     let f := asIssuing s
     s.agenda = .issue 0 .s :: [] ∧ s.advance.canIssue 0 .s = true ∧ ((s.advance.ctx 0).stream .s).dep = none ∧
       ((s.advance.ctx 0).stream .s).phase = .body ∧
       ((s.advance.ctx 0).stream .s).pc ≠ ((s.advance.ctx 0).stream .s).secStart + 3 * ((s.advance.ctx 0).stream .s).secLen ∧
       f.itemSyls 3 = .ok [0x0228220C, 0, 0] ∧ 0x0228220C / 2 ^ 30 % 4 ≠ 3 ∧
       decodeWord .s 0x0228220C 0 0 = .ok [.add g5 1 2 (.reg 3), .nop, .nop] ∧
       f.badCall [.add g5 1 2 (.reg 3), .nop, .nop] = false ∧ f.blockedByAccess [.add g5 1 2 (.reg 3), .nop, .nop] = false ∧
       f.me.interlocked [.add g5 1 2 (.reg 3), .nop, .nop] = [] ∧ f.accessBusy = false ∧
       after (exec (.add g5 1 2 (.reg 3)) f) (fun t => t.verdict == .ran) = true) := by decide +kernel

/-- How an operation of core 0's S stream ends, as it issues. -/
def endsAs (i : Instr) (p : Verdict → Bool) : Bool :=
  after (exec i (asIssuing (atStep true [0, 0, 0xC0000000]))) fun t => p t.verdict

theorem witness_StepRunsTheDecodedInstruction_verdicts :
    endsAs (.add p0 0 1 (.reg 2)) (· == .ran) = true ∧ endsAs (.jmp p0 2) (· == .moved) = true ∧
    endsAs (.rdsr p0 1 0x1FFF) (fun v => match v with | .traps _ _ _ => true | _ => false) = true ∧
    endsAs (.pop p0 1 1) (fun v => match v with | .waits _ => true | _ => false) = true := by decide +kernel

theorem witness_StepRunsTheDecodedInstruction_header :
    (let s := atStep false [0xC0000002, 0x00030004]
     s.agenda = .issue 0 .s :: [] ∧ s.advance.canIssue 0 .s = true ∧ ((s.advance.ctx 0).stream .s).dep = none ∧
       ((s.advance.ctx 0).stream .s).phase = .header ∧ (asIssuing s).itemSyls 2 = .ok [0xC0000002, 0x00030004] ∧
       (match decodeHeader 0xC0000002 0x00030004 with | .ok (.sectionHeader _) => true | _ => false) = true ∧
       (asIssuing s).accessBusy = false) := by decide +kernel

theorem witness_StepRunsTheDecodedInstruction_others :
    (let e : F0Entry := { cmd := cmdRec 8 true false 0x205 0 3 0, scope := .quad, tk := 9 }
     let s := { at_ .s [] fun x => { x with f0 := [e] } with agenda := [.engine 0] }
     (s.ctx 0).f0 = [e] ∧ (s.ctx 0).flock.isSome = true ∧ (s.ctx 0).canStart e = true) ∧
    (let e : F0Entry := { cmd := cmdRec 8 true false 0x205 0 3 0, scope := .system, tk := 9 }
     let s := { (at_ .s []).setCtx frontCore { f0 := [e] } with agenda := [.engine frontCore] }
     (s.ctx frontCore).f0 = [e] ∧ (s.ctx frontCore).canStart e = true) ∧
    (let s := { atDrover { prog := [0x0C00200000000000], decoding := true } with agenda := [.circuitWord 0] }
     s.advance.nextWord 0 = .word (.tear 0 0 true)) ∧
    (encode .shepherdRestart = none ∧ Instr.shepherdRestart.wf = true) := by decide +kernel

/-- A queue whose WAITSIG has been read and waits at its head. -/
def atSig : State :=
  { atHead { en := true, state := 2, sig := some (packet 2 1 0 [0x2008, 0, 0xFF]) } with agenda := [.packet 0 0] }

/-- A queue that holds less than a unit reads nothing ahead. -/
theorem fetchAhead_empty (s : State) (n q : Nat) (h : (s.queue n q).avail < 32) : s.fetchAhead n q = s := by
  have : min (s.queue n q).avail aheadBytes / 32 = 0 := by omega
  simp [State.fetchAhead, this]

theorem witness_StepRunsTheDecodedInstruction_packet :
    (atSig.advance.fetchAhead 0 0).headOf 0 0 = .run (packet 2 1 0 [0x2008, 0, 0xFF]) ∧
      ((atSig.advance.fetchAhead 0 0).queue 0 0).enabling = false := by
  rw [fetchAhead_empty _ _ _ (by decide)]
  exact ⟨rfl, rfl⟩

theorem witness_StepKeepsMemoryCanonical : (atStep true [0x0228220C, 0, 0]).canonical := by unfold State.canonical; decide +kernel

theorem witness_WordsChangeNoMemoryAndNoOtherCore :
    (Instr.add g5 1 2 (.reg 3)).place ≠ .notStream ∧ after (exec (.add g5 1 2 (.reg 3)) (at_ .s [])) (fun _ => true) = true ∧
      (1 : Nat) ≠ (at_ .s []).core := by decide

theorem witness_MemoryReadsWhatWasWritten :
    (let m : Memory := [(3, 9)]
     Memory.wf m = true ∧ Memory.wf (Memory.writeN m 3 [0, 7]) = true ∧ Memory.writeN m 3 [0, 7] = [(4, 7)]) := by decide

/-! ## Further forms of the statements -/

/-- A section of five words, at its third, in a loop over its second and third. -/
def atBody : State := at_ .c [] fun x => { x with c := { x.c with secLen := 5, pc := 6, loops := [⟨1, 2, 1, false⟩] } }

theorem witness_BranchesGoToTheirWord_refused :
    (atWord.rd.ix = 1 ∧ (atWord.me.stream atWord.stream).secLen = 3 ∧ (1 : Int) + (-2 : BitVec 17).toInt < 0 ∧
      (3 : Int) ≤ 1 + (2 : BitVec 17).toInt) ∧
    (atBody.rd.ix = 2 ∧ (atBody.me.stream atBody.stream).secLen = 5 ∧
      (atBody.me.stream atBody.stream).loops = [⟨1, 2, 1, false⟩] ∧ (2 : Int) + (0 : BitVec 17).toInt = 2 ∧
      (2 : Int) + (1 : BitVec 17).toInt = 2 + 1 ∧ (2 : Int) + (2 : BitVec 17).toInt = 4 ∧ (2 : Int) + (-2 : BitVec 17).toInt = 0) ∧
    (let s := at_ .c [] fun x => { x with bq := x.bq.push { data := [1] } }
     s.stream = .c ∧ s.me.bq.depth ≠ 0 ∧ s.me.bq.entries = [{ data := [1] }] ∧ ({ data := [1] } : QEntry).ready = true ∧
       s.me.laccess = [] ∧ s.me.c.secLen = 1 ∧ s.rd.ix = 0 ∧ (1 : Int) ≤ 0 + (1 : BitVec 17).toInt) := by
  decide +kernel

theorem witness_TransfersGoToTheirHeader_calls :
    (Instr.call g5 2 ∈ [Instr.call g5 2, .nop, .nop] ∧ sameDest [Instr.call g5 2, .nop, .nop] = false) ∧
      (Instr.callReg p0 1 ∈ [Instr.callReg p0 1, .nop, .nop] ∧ sameDest [Instr.callReg p0 1, .nop, .nop] = false) ∧
      (atHeader []).headerAt (((atHeader []).rd.pc : Int) + 3) = false := by
  decide +kernel

/-- Core 0 at a header of its C stream, with a table of one record at 0x2000 whose C target at level 0 is this syllable. -/
def atTable (target : Nat) (vt : W64) (f : Ctx → Ctx := id) : State :=
  let s := State.reset.probe .c false [0xE0000000, 0, 0xE0000000, 0]
  let s := s.updCtx 0 fun x => f { x with vartab := vt }
  let s := { s.focusOn 0 .c with agenda := [] }
  { s with mem := Memory.writeN (Memory.writeN s.mem 0x2000 (natLE 8 0x5641000000000001)) 0x2044 (natLE 4 target) }

/-- What the C stream of such a core finds in its table. -/
def looks (s : State) (p : List (List Byte) → Bool) : Bool :=
  match (s.updMe fun x => x.updStream s.stream fun y => y.leaveSection (x.stamp s.stream)).variantTable s.core with
  | .ok (recs, _) => p recs
  | .error _ => false

theorem witness_SectionsAreEnteredAndRetire_switch :
    (let s := atTable 0 0
     (s.me.stream s.stream).noSwitch = false ∧ s.me.vartab = 0) ∧
    (atTable 0 0x2000 fun x => { x with varErr := true }).me.varErr = true ∧
    (let s := atTable 0 0x4000000000
     s.me.vartab ≠ 0 ∧ s.me.varErr = false ∧
       (match (s.updMe fun x => x.updStream s.stream fun y => y.leaveSection (x.stamp s.stream)).variantTable s.core with
        | .ok _ => false | .error k => k != retryCode) = true) ∧
    looks (atTable 0 0x2000) (fun recs => findRecord .c 0 recs == some 0 && variantOffset (recs.getD 0 []) .c 0 == 0) = true ∧
    looks (atTable 2 0x2000) (fun recs => findRecord .c 0 recs == some 0 && variantOffset (recs.getD 0 []) .c 0 != 0) = true ∧
    looks ((atTable 2 0x2000).updMe fun x => { x with c := { x.c with pc := 1 } }) (fun recs => findRecord .c 1 recs == none) = true ∧
    (atTable 2 0x2000).powerLevel 0 = 0 := by
  decide +kernel

theorem witness_SystemRegistersReadAndWrite_views :
    (let s := at_ .c [(1, 5), (2, 0x100000000)]
     s.stream = .c ∧ guardOk p0 s = true ∧ viewOk s.units (s.rg 1) = true ∧ viewOk s.units (s.rg 2) = false ∧
       2 ^ 32 ≤ (s.rg 2).toNat) ∧
    (let s := at_ .c [(1, 0x1E0000)]
     qcfgOk (s.rg 1) = false) ∧
    (let s := at_ .s [(1, 0x100000000000000), (2, 0x20)]
     s.stream = .s ∧ 2 ^ 56 ≤ (s.rg 1).toNat ∧ (s.rg 2).toNat % 64 ≠ 0) ∧
    (let s := at_ .c [] fun x => { x with viewT := x.viewT.set 7 0x20000, viewA := x.viewA.set 7 0x20000 }
     viewOk s.units (viewEdit (s.me.viewA.toList.getD 7 0) 1 1) = true ∧
       viewOk s.units (viewEdit (s.me.viewT.toList.getD 7 0) 0 0x7FF) = false ∧
       viewOk s.units (viewEdit (s.me.viewA.toList.getD 7 0) 0 0x7FF) = false) := by
  decide +kernel

theorem witness_LoadsEnterTheAccessQueue_refused :
    (let s := at_ .l lRegs
     (s.rg 2).toNat % 64 ≠ 0 ∧ (s.rg 3).toNat % 64 = 0 ∧ (s.rg 2 + wideVal (.i32 1)).toNat % 8 ≠ 0 ∧
       (s.rg 3 + wideVal (.i32 8)).toNat % 8 = 0 ∧ 2 ^ 56 ≤ (s.rg 3 + wideVal (.i32 8)).toNat) ∧
    (let s := at_ .l lRegs fun x => { x with laccess := List.replicate 32 { tk := 0, kind := .pref 0 0 1 } }
     32 ≤ s.me.laccess.length) ∧
    (let s := (at_ .l lRegs).updFlock 0 fun f => { f with pkt := [] }
     guardOk p0 s = true ∧ s.myFlock.nst ≤ (0 : BitVec 4).toNat) := by decide +kernel

/-- What a RECV of core 0 finds of handle 5, for 16 bytes. -/
def inbound5 (s : State) (p : Circuit → Bool) : Bool :=
  ((s.circuits s.core).find? fun k => k.inbound 5 s.me.logical).any p

theorem witness_PushesAndReceives_others :
    (let s := at_ .l []
     guardOk p0 s = true ∧ (s.me.getLq 0).depth ≠ 0 ∧ s.me.laccess = [] ∧ inbound5 s (fun _ => true) = false ∧
       (∀ x ∈ s.me.laccess, x.readsLayout = false)) ∧
    (let s := withCircuits 16 (at_ .l [])
     s.me.recvOn = none ∧ inbound5 s (fun k => k.live && 16 ≤ k.rx.length && !k.rxBad 16) = true) ∧
    (let s := (withCircuits 16 (at_ .l [])).updPart 0 fun p =>
       { p with drover := { p.drover with circuits := p.drover.circuits.map fun k => { k with spoilt := [(15, 1)] } } }
     inbound5 s (fun k => k.live && 16 ≤ k.rx.length && k.rxBad 16) = true) ∧
    (let s := withCircuits 16 (at_ .l [] fun x => x.updLq 0 fun q => { q with entries := List.replicate q.depth { data := [1] } })
     (s.me.getLq 0).depth ≤ (s.me.getLq 0).entries.length) ∧
    (let s := at_ .l [] fun x => { x with bq := { x.bq with entries := List.replicate x.bq.depth { data := [1] } } }
     s.me.bq.depth ≠ 0 ∧ s.me.bq.depth ≤ s.me.bq.entries.length) ∧
    (let s := at_ .l [] fun x => { x with laccess := [{ tk := 0, kind := .ldlay 0 0x2000 0 }] }
     s.me.laccess ≠ [] ∧ ∃ x ∈ s.me.laccess, x.readsLayout = true) := by decide +kernel

theorem witness_StoresEnterTheAccessQueue_refused :
    ((atStore.rg 2 + wideVal (.i32 2)).toNat % 2 ≠ 0 ∧ (atStore.rg 3).toNat % 8 = 0 ∧ 2 ^ 56 ≤ (atStore.rg 3).toNat ∧
      (atStore.rg 3).toNat / 256 = ((atStore.rg 3).toNat + 16 - 1) / 256 ∧
      (List.replicate 16 (9 : Byte)).length ≠ 8 * ((0 : BitVec 5).toNat + 1) ∧
      (atStore.rg 2 + (0x10 : W32).signExtend 64).toNat % 8 ≠ 0 ∧ (atStore.rg 2).toNat % 8 ≠ 0 ∧
      (atStore.rg 1 + wideVal (.i32 0xF8)).toNat % 8 = 0 ∧
      (atStore.rg 1 + wideVal (.i32 0xF8)).toNat / 256 ≠ ((atStore.rg 1 + wideVal (.i32 0xF8)).toNat + 16 - 1) / 256) ∧
    (let s := at_ .s lRegs
     (s.me.getSq 0).depth ≠ 0 ∧ (s.me.getSq 0).entries = []) ∧
    ((at_ .s lRegs fun x => x.updSq 0 fun _ => {}).me.getSq 0).depth = 0 := by decide +kernel

theorem witness_SendsAndDrains_refused :
    (let s := at_ .s []
     guardOk p0 s = true ∧ (s.me.getSq 0).depth ≠ 0 ∧ s.outbound s.core 6 = none ∧ s.me.sendOn = none) ∧
    (let s := at_ .s [] fun x => { x with sendOn := some (6, 0) }
     s.outbound s.core 6 = none ∧ s.me.sendOn = some (6, 0)) ∧
    (let s := atSend 0 fun x => { x with sendOn := some (6, 3) }
     (s.outbound s.core 6).map (fun k => decide (3 ≠ k.step)) = some true) ∧
    (let s := (atSend 0).updPart 0 fun p =>
       { p with drover := { p.drover with circuits := p.drover.circuits.map fun k => { k with live := false } } }
     s.me.sendOn = none ∧ (s.outbound s.core 6).map (·.live) = some false) ∧
    (List.replicate 16 (9 : Byte)).length ≠ 8 * ((0 : BitVec 5).toNat + 1) ∧
    (let s := withCircuits 0 (at_ .s [])
     (s.me.getSq 0).entries = [] ∧ (s.outbound s.core 6).map (·.live) = some true) ∧
    ((at_ .s [] fun x => x.updSq 0 fun _ => {}).me.getSq 0).depth = 0 := by decide +kernel

theorem witness_StoresAndFlagsGoFirst :
    (at_ .s []).armBefore 0 0 (.panel 63 0x2000) 16 = false ∧ (at_ .s []).armBefore 0 0 (.lm 0 0x20) 16 = false ∧
      (let f : FlagAdd := { addr := 0x2000, loc := .panel 0 0x2000, sc := .tile, tk := 7, sent := true }
       let r := req false (.strAdd 7) .travelling 1 7
       let s := atReq r id fun x => { x with flagAdds := [f] }
       (s.noteFloor (s.ingress r) r).flagPlace 0 f = some (.panel 0 0x2000) ∧ s.armBefore 0 f.tk f.loc 8 = false) := by
  decide +kernel

theorem witness_ReductionsGiveTheirValue_lost :
    (let s := at_ .c [(1, 0xFFF0), (2, 0xA)]
     (List.range 4).countP (fun i => (s.rg 1).getLsbD i) = 0 ∧ (List.range 4).countP (fun i => (s.rg 2).getLsbD i) = 2) := by decide +kernel

theorem witness_VectorQueuesAndLanding_waits :
    (let s := at_ .c [] fun x => x.updLq 0 fun q => { q with entries := [{ data := [1, 2], ready := false, tk := 3 }] }
     (s.me.getLq 0).depth ≠ 0 ∧ ∀ e ∈ (s.me.getLq 0).entries, e.ready = false) ∧
    (let s := at_ .c [] fun x => (x.updLq 0 fun _ => {}).updSq 0 fun _ => {}
     (s.me.getLq 0).depth = 0 ∧ (s.me.getSq 0).depth = 0) ∧
    (let s := at_ .c [] fun x => x.updSq 0 fun q => { q with entries := List.replicate q.depth { data := [1] } }
     (s.me.getSq 0).depth ≠ 0 ∧ (s.me.getSq 0).depth ≤ (s.me.getSq 0).entries.length) := by decide +kernel

/-- Whether an element of a CVT of configuration 0 meets a trap, where v0 begins with this FP32 value. -/
def cvtTraps (q : W64) (bs : List Byte) : Bool :=
  let s := (atQcfg q).updMe fun x => { x with opfile := Memory.writeN x.opfile 0 bs }
  let v := s.rd.old.qcfg.toList.getD 0 0
  (unpackElems 32 (s.vRead 0)).any fun x => (downConv (numFmt (cfgDfmt v)) .rne (cfgOvp v) (readNum (numFmt (cfgSfmt v)) x)).trap

theorem witness_QuantiserWritesItsResults_traps :
    qcfgSeen 0x60003 = (0, 6, 3, 0) ∧ cvtTraps 0x60003 [0, 0, 0xC0, 0x7F] = true ∧ cvtTraps 0x60003 [0, 0, 0x80, 0x3F] = false ∧
      qcfgSeen 0x110003 = (0, 0x11, 3, 0) ∧ qmxHas 0 0x11 = true ∧ cvtHas 0 6 = true := by decide +kernel

theorem witness_CommandsComplete_penumbra_lost :
    (let u := penStarted .penumbra
     let s := { withCircuits 0 (atCmd u) with now := 64 }
     (s.ownCircuit 0 u.cmd.h u.circ).map s.circuitMap = some [] ∧ (s.ctx 0).handleBusy u = false) ∧
    (let u := penStarted .penumbra
     let s := { (withCircuits 0 (atCmd u)).updPart 0 fun p =>
       { p with drover := { p.drover with circuits := p.drover.circuits.map fun k => { k with map := some [3] } } } with now := 64 }
     (s.ownCircuit 0 u.cmd.h u.circ).isSome = true ∧ (s.ctx 0).handleBusy u = false ∧ s.inFlit 0 u 0 = false) ∧
    (let u := penStarted .penumbra
     let s := (atCmd u).updCtx 0 fun x => { x with started := [{ u with tk := 8 }, u] }
     (s.ctx 0).startedAt 9 = some u ∧ (s.ctx 0).handleBusy u = true) ∧
    ((atCmd (started .flag putfRec)).ctx 0).handleBusy (started .flag putfRec) = false := by decide +kernel

theorem witness_RequestsAreAnsweredOnce_gaveUp :
    (let r := req false (.command 9) (.refused 0) 8
     (atReq r).reqs[0]? = some r ∧ 8 ≤ r.sends ∧ r.lstream = false) ∧
    (let r := req false (.command 9) .travelling 7
     r.sends < 8 ∧ r.lstream = false ∧ r.sentAt + 20000 ≤ (atReq r fun s => { s with now := 20000 }).now) := by decide +kernel

theorem witness_WavelengthsLeaveAndReturn_lines :
    (let e : PortEnd := ⟨0, 4, true⟩
     let s := atLink {} (allLanes { state := .retrain, viaMesh := true, since := 5 })
     ((s.portEnd e).lane 3).state = .retrain ∧ ((s.portEnd e).lane 3).viaMesh = true ∧ s.dark e 3 = false) ∧
    (let e : PortEnd := ⟨0, 0, true⟩
     let s := atPort e (allLanes { state := .failed, lineLost := true })
     ((s.portEnd e).lane 7).lineLost = true ∧ ((s.portEnd e).lane 7).state ∈ [WlState.retrain, .exchange, .failed]) ∧
    (let e : PortEnd := ⟨0, 0, true⟩
     let p := (atPort e (allLanes { state := .exchange, attempts := 2 })).portEnd e
     p.view ≠ ⟨0xFF, true⟩ ∧ p.view = ⟨0xFF, false⟩ ∧ p.half = false ∧ p.trained = false) := by decide +kernel

theorem witness_PacketsWriteMemory_signals :
    (atHead {}).copiesDone 0 0 = true ∧ (atHead {}).fePaused 0 0x2008 = false ∧
      (atHead { wbDue := true, headwb := 0x2008, h := 0x40 }).fePaused 0 0x2008 = false := by decide +kernel

/-- Partition 0 is being created: its one tile is about to be given its roles. -/
def creating : State :=
  ((at_ .s []).updPart 0 fun p => { p with making := true, exists_ := false, holder := [] }).updTile 0 fun t =>
    { t with part := none, layers := Vector.replicate 4 {}, rolePhase := .flushed, roleAction := some (.create 1) }

theorem witness_QueuesAndPartitionsObeyTheHost_create :
    creating.glob.shr = false ∧ (creating.part 0).making = true ∧ (creating.part 0).lit = 1 ∧ creating.parts.map (·.1) = [0] ∧
      (creating.part 0).tileList = [0] ∧ (creating.tile 0).roleAction = some (.create 1) ∧
      (creating.tile 0).rolePhase = .flushed ∧ (creating.tile 0).roleQueue = [] ∧ creating.litOk 0 1 = true := by decide +kernel

theorem witness_RegistersAndRecordsAtTheHost_restart :
    (let s := { creating with glob := { creating.glob with shr := true, pcStatus := 0xFF, pcOp := 1, pcPart := 0 } }
     s.glob.shr = true ∧ s.glob.pcStatus = 0xFF ∧ (s.part s.glob.pcPart.toNat).making = true) ∧
    (let s := atHostCmd 0x100 .retired fun g => { g with shr := true, pcStatus := 0xFF, pcOp := 1, pcPart := 15 }
     s.glob.pcOp = 1 ∧ (s.part s.glob.pcPart.toNat).making = false) ∧
    (let s := atRecords id fun x => { x with trap := some (trap20 false) }
     { s with glob := { s.glob with shr := true } }.glob.shr = true ∧ (s.part 0).exists_ = true ∧ s.trapped 0 5 = none) := by
  decide +kernel

theorem witness_LayersPowerAndCounters_changes :
    (let s := { atTile [hotOne, { role := .shade }] with now := 1000000 }
     (s.tile 5).staying.contains 0 = true ∧ (s.tile 5).shadeFree = true) ∧
    (let s := { atTile [hotOne, litLayer 1, { role := .shade }] .none (some (.swap 1 [])) with now := 1000000 }
     s.hotLayer 5 = some 0 ∧ (s.tile 5).shadeFree = false ∧ (s.tile 5).roles ≠ []) ∧
    (let s := { atTile [hotOne] with now := 1000000 }
     (s.tile 5).shadeFree = false ∧ (s.tile 5).roles = []) ∧
    (let s := { atTile [litLayer 0, { coolSince := some 0 }] .drain (some (.lose 0)) with now := 1000000000 }
     (s.tile 5).rolePhase = .drain ∧ (s.tile 5).roleAction ≠ none ∧ (s.tile 5).shadeLayer = none ∧
       (s.tile 5).roles.any RoleAction.returns = false) ∧
    (let s := { atTile [litLayer 0, { coolSince := some 0 }] with now := 1000000000 }
     (s.tile 5).rolePhase ≠ .drain ∧ (s.tile 5).roleAction = none) ∧
    (let s := atTile [{}, { testFailed := true }] .flushed (some (.create 2))
     (s.tile 5).roleAction = some (.create 2) ∧ ((s.tile 5).layer 0).testFailed = false ∧ ((s.tile 5).layer 1).testFailed = true) ∧
    (∀ src ∈ [(3 : Byte), 5], let s := State.reset.updTile 5 fun t => { t with caps := t.caps.set 3 { en := true, src := src, layer := 3 } }
     ((s.tile 5).caps.toList[3]?).map (fun c => c.live && 3 ≤ c.src.toNat && c.layer.toNat < 4) = some true) ∧
    (let s := State.reset.updTile 5 fun t => { t with caps := t.caps.set 3 { en := true, src := 1, cnt := 7 } }
     ((s.tile 5).caps.toList[3]?).map (fun c => c.live && c.src.toNat < 3 && c.cnt != 0) = some true) := by decide +kernel

/-- A tile whose HBM and ports draw nothing is within its budget with one layer at level 2; what they draw is open (log 46). -/
theorem witness_LayersPowerAndCounters_budget :
    let s := (atTile [litLayer 0]).giveLevel 5 0 2
    Config.otherWatts (s.freeIx 5) = 0 → s.overTile 5 = false := by
  intro s h
  have hw : ((s.litLayers [5]).map fun l => levelWatts (s.levelOf l)).sum < 500 := by decide +kernel
  simp only [State.overTile, State.tileWatts, h]
  simpa using hw

theorem witness_FirmwareBootsAndAnswers_parameters :
    (let r : SpdmRequest := { p1 := 1, p2 := 5, offset := 0, length := 4, nonce := [], slot := 1 }
     fld r.p1 0 4 ≠ 0 ∧ r.p1 ≠ 0 ∧ r.p2 ≠ 0 ∧ r.p2 ≠ 1 ∧ r.p2 ≠ 0xFF ∧ bit r.p1 0 = true ∧ fld r.slot 0 4 ≠ 0 ∧ 3 < r.p2.toNat) ∧
    (let r : SpdmRequest := { p1 := 0, p2 := 1, offset := 0, length := 4, nonce := [] }
     fld r.p1 0 4 = 0 ∧ r.p1 = 0 ∧ r.p2 = 1 ∧ bit r.p1 0 = false ∧ fld r.slot 0 4 = 0) ∧
    (let s : State := { State.reset with glob := { State.reset.glob with layer := 2 }, spdm := { phase := 1 } }
     s.glob.layer = 2 ∧ 1 ≤ s.spdm.phase ∧ s.spdm.phase < 2 ∧ s.spdm.phase < 3) := by decide

/-! ## Values known from outside the model -/

/-- The check value of CRC-64/ECMA-182 over the digits 1 to 9 (the polynomial that R336 names). -/
theorem test_crc64 : crc64 [0x31, 0x32, 0x33, 0x34, 0x35, 0x36, 0x37, 0x38, 0x39] = 0x6C40DF5F0B497347 := by decide +kernel

/-- SHA-256 of the bytes abc, the first example of FIPS 180-4 (the hash that R410 names). -/
theorem test_sha256 : (sha256 [0x61, 0x62, 0x63]).take 8 = [0xBA, 0x78, 0x16, 0xBF, 0x8F, 0x01, 0xCF, 0xEA] := by decide +kernel

/-- SUB wraps (R145). -/
theorem test_sub_wraps :
    after (execSub p0 3 1 (.reg 2) (at_ .s [(1, 0), (2, 1)])) (fun t => t.me.s.getG 3 == 0xFFFFFFFFFFFFFFFF) = true := by
  decide +kernel

/-- MULH of two signed numbers: the high half of -1 times 1 is all ones (R145). -/
theorem test_mulh_signs :
    after (execMulh p0 3 1 (.reg 2) (at_ .s [(1, 0xFFFFFFFFFFFFFFFF), (2, 1)])) (fun t => t.me.s.getG 3 == 0xFFFFFFFFFFFFFFFF) = true := by
  decide +kernel

/-- Register 0 reads as zero after a write to it (R18). -/
theorem test_g0_discards : after (execMovi p0 0 5 (at_ .s [])) (fun t => t.me.s.getG 0 == 0) = true := by decide +kernel

end Sys2Proof.Tests
end

/-! PROOFS. What reset leaves (O58). -/

namespace Sys2Proof.Machine

/-! ## The machine after reset -/

@[simp] theorem reset_ctx (c : Nat) : State.reset.ctx c = {} := rfl
@[simp] theorem reset_tile (t : Nat) : State.reset.tile t = {} := rfl

/-- A layer that nothing has given a role is offline, whatever number names it. -/
theorem layer_role_reset (k : Nat) : (({} : TileSt).layer k).role = .offline := by
  change ((List.replicate 4 ({} : Layer)).getD k {}).role = .offline
  rw [List.getD_eq_getElem?_getD, List.getElem?_replicate]
  split <;> rfl

/-- Every stream of a core that holds no flock is as its reset values leave it. -/
theorem stream_reset (st : StreamId) : ({} : Ctx).stream st = {} := by cases st <;> rfl

/-- Every g register of a stream after reset reads as 0. -/
theorem getG_reset (i : BitVec 5) : ({} : StreamState).getG i = 0 := by
  unfold StreamState.getG
  split <;> simp

/-- Settles O58: nothing is listed after reset, so every store reads as its default. -/
theorem resetLeavesTheMachineOff : Obligations.ResetLeavesTheMachineOff := by
  refine ⟨reset_memories_wf, fun tile k => ?_, fun tile => rfl, fun n => rfl, fun n q => rfl, fun c => ⟨rfl, rfl⟩,
    fun c st i => ?_, fun c st => StreamState.getP_zero _, rfl, rfl, rfl, rfl, rfl⟩
  · rw [reset_tile, layer_role_reset]
  · rw [reset_ctx, stream_reset, getG_reset]

end Sys2Proof.Machine

/-! PROOFS. The loads into queues (O17): what each allocates, what it enters in the access queue, and what an LDS finds. -/

namespace Sys2Proof.Machine

/-! ## Queues and stream registers of a context -/

@[simp] theorem Ctx.getLq_updLq_same (x : Ctx) (q : BitVec 3) (f : Queue → Queue) :
    (x.updLq q f).getLq q = f (x.getLq q) := by
  simp [Ctx.getLq, Ctx.updLq]

theorem Ctx.getLq_updLq_ne (x : Ctx) {q k : BitVec 3} (f : Queue → Queue) (h : k ≠ q) :
    (x.updLq q f).getLq k = x.getLq k := by
  have : q.toNat ≠ k.toNat := fun e => h (BitVec.eq_of_toNat_eq e.symm)
  simp [Ctx.getLq, Ctx.updLq, this]

@[simp] theorem Ctx.getSt_setSt_same (x : Ctx) (r : BitVec 4) (u : StreamReg) : (x.setSt r u).getSt r = u := by
  simp [Ctx.getSt, Ctx.setSt]

theorem Ctx.getSt_setSt_ne (x : Ctx) {r k : BitVec 4} (u : StreamReg) (h : k ≠ r) :
    (x.setSt r u).getSt k = x.getSt k := by
  have : r.toNat ≠ k.toNat := fun e => h (BitVec.eq_of_toNat_eq e.symm)
  simp [Ctx.getSt, Ctx.setSt, this]

/-! ## The status of an access at its issue -/

/-- Whether `n` bytes at an address are aligned to 8 and lie in one aligned 256-byte block (R159). -/
def fitsEntry (a : W64) (n : Nat) : Bool := decide (a.toNat % 8 = 0 ∧ a.toNat / 256 = (a.toNat + n - 1) / 256)

theorem fitsEntry_eq (a : W64) (n : Nat) : (a.toNat % 8 == 0 && oneBlock a.toNat n) = fitsEntry a n := by
  simp [fitsEntry, oneBlock, Bool.decide_and, beq_eq_decide]

theorem beyondGlobal_iff (a : W64) : beyondGlobal a = true ↔ 2 ^ 56 ≤ a.toNat := by
  have := a.isLt
  unfold beyondGlobal fld
  rw [bne_iff_ne, Nat.mod_eq_of_lt (by omega), Nat.ne_zero_iff_zero_lt, Nat.div_pos_iff]
  omega

/-- The status with which a load enters the access queue, as the manual orders its checks: alignment before range. -/
def issueStatus (lm : Bool) (a : W64) (ok : Bool) : AccStatus :=
  if ok = false then .fail 0x02 a else if lm = false ∧ 2 ^ 56 ≤ a.toNat then .fail 0x27 a else .sent

theorem accessStatus_eq (lm ok : Bool) (a : W64) : accessStatus lm ok a = issueStatus lm a ok := by
  unfold accessStatus issueStatus
  cases ok <;> cases lm <;> simp [beyondGlobal_iff]

/-! ## Allocating and entering -/

/-- What an allocation puts at the tail of an lq: an entry of the word at work that holds no data yet (R154). -/
def State.emptyEntry (s : State) : QEntry := { data := [], ready := false, tk := s.me.tk }

/-- One empty entry has been allocated in lq `q` and, for a scaled read, one more in lq `q2`; every other lq is as it was. -/
def AddsEntries (s t : State) (q q2 : BitVec 3) (scaled : Bool) : Prop :=
  ∀ k, (t.me.getLq k).entries = (s.me.getLq k).entries ++
    List.replicate ((if k = q then 1 else 0) + (if scaled ∧ k = q2 then 1 else 0)) s.emptyEntry

theorem State.me_allocLq (s : State) (q : BitVec 3) :
    (s.allocLq q).me = s.me.updLq q fun y => y.push s.emptyEntry := State.me_updMe _ _

theorem State.me_pushL (s : State) (kind : LKind) (st : AccStatus) :
    (s.pushL kind st).me =
      { s.me with laccess := s.me.laccess ++ [({ tk := s.me.tk, kind := kind, status := st } : LAccess)] } :=
  State.me_updMe _ _

theorem sameButCore_allocLq (s : State) (q : BitVec 3) : SameButCore s (s.allocLq q) := sameButCore_updMe s _

theorem pushL_verdict (s : State) (kind : LKind) (st : AccStatus) : (s.pushL kind st).verdict = s.verdict := rfl

theorem sameButCore_pushL (s : State) (kind : LKind) (st : AccStatus) : SameButCore s (s.pushL kind st) :=
  sameButCore_updMe s _

/-- Entering the access queue changes no queue between the streams. -/
theorem getLq_pushL (s : State) (kind : LKind) (st : AccStatus) (k : BitVec 3) :
    (s.pushL kind st).me.getLq k = s.me.getLq k := by
  rw [State.me_pushL]; rfl

theorem entries_allocLq (s : State) (q k : BitVec 3) :
    ((s.allocLq q).me.getLq k).entries =
      (s.me.getLq k).entries ++ List.replicate (if k = q then 1 else 0) s.emptyEntry := by
  rw [State.me_allocLq]
  by_cases h : k = q
  · subst h
    simp [Queue.push]
  · simp [Ctx.getLq_updLq_ne _ _ h, h]

/-- A load has entered the access queue under its guard: an empty entry stands at the tail of its lq, the access behind
the earlier ones, and, where it is one that sends a request, that request travels. -/
def EnteredLoad (s t : State) (q : BitVec 3) (kind : LKind) (st : AccStatus) (sends : Option (W64 × Nat)) : Prop :=
  t.verdict = s.verdict ∧ AddsEntries s t q q false ∧
    t.me.laccess = s.me.laccess ++ [({ tk := s.me.tk, kind := kind, status := st } : LAccess)] ∧
    { t.me with laccess := s.me.laccess, lq := s.me.lq } = s.me ∧ { t with cores := s.cores, reqs := s.reqs } = s ∧
    (match sends with
      | none => t.reqs = s.reqs
      | some (addr, n) => if st = .sent then ∃ r, t.reqs = s.reqs ++ [r] ∧ r.addr = addr ∧ r.op = .load n ∧
          r.core = s.core ∧ r.tk = s.me.tk ∧ r.lstream = true else t.reqs = s.reqs) ∧
    ∀ c, c ≠ s.core → t.ctx c = s.ctx c

/-- What a load into an lq does (R19, R117, R153, R154): 0x01 on a queue of depth 0, nothing without its guard, and else
it enters, where there is room. -/
def EntersQueue (s : State) (gd : Guard) (q : BitVec 3) (i : Instr) (kind : LKind) (st : AccStatus)
    (sends : Option (W64 × Nat)) : Prop :=
  ((s.me.getLq q).depth = 0 → ∃ t, exec i s = .next t ∧ TrapsAtWord s t 0x01 0 0) ∧
    ((s.me.getLq q).depth ≠ 0 → guardOk gd s = false → exec i s = .next s) ∧
    (guardOk gd s = true → s.me.laccess.length < 32 → (s.me.getLq q).entries.length + 1 ≤ (s.me.getLq q).depth →
      ∃ t, exec i s = .next t ∧ EnteredLoad s t q kind st sends)

/-- What an operation on an lq does, from what it does under its guard with room. -/
theorem entersQueue_of {s : State} {gd : Guard} {q : BitVec 3} {i : Instr} {kind : LKind} {st : AccStatus}
    {sends : Option (W64 × Nat)} (f : State → State) (hexec : exec i s = s.onLq q gd f)
    (hf : s.me.lFull = false → (s.me.getLq q).room 1 = true → EnteredLoad s (f s) q kind st sends) :
    EntersQueue s gd q i kind st sends := by
  rw [EntersQueue, hexec, State.onLq, guarded_next]
  refine ⟨fun h0 => ?_, fun h0 hg => ?_, fun hg hlen hroom => ?_⟩
  · exact ⟨_, if_pos h0, trapWith_traps s 0x01 0 0⟩
  · rw [if_neg h0, hg, if_neg Bool.false_ne_true]
  · have h0 : (s.me.getLq q).depth ≠ 0 := by omega
    rw [if_neg h0, hg, if_pos rfl]
    exact ⟨_, rfl, hf (decide_eq_false (Nat.not_le.2 hlen)) (decide_eq_true hroom)⟩

/-- The words of a gather, and of a load of local memory, stay on their core: an entry and an access, and no request. -/
theorem enteredLoad_local (s : State) (q : BitVec 3) (kind : LKind) (st : AccStatus) :
    EnteredLoad s ((s.allocLq q).pushL kind st) q kind st none := by
  refine ⟨rfl, fun k => ?_, ?_, ?_, rfl, rfl, fun c hc => ?_⟩
  · rw [getLq_pushL, entries_allocLq]
    simp
  · rw [State.me_pushL, State.me_allocLq]; rfl
  · rw [State.me_pushL, State.me_allocLq]; rfl
  · exact (State.ctx_updMe_ne (s.allocLq q) _ hc).trans (State.ctx_updMe_ne s _ hc)

/-- A global load that has not failed at its issue sends its request, and changes nothing else besides. -/
theorem enteredLoad_global (s : State) (q : BitVec 3) (kind : LKind) (st : AccStatus) (a : W64) (n : Nat)
    (hst : ∀ bs locs, st ≠ .data bs ∧ st ≠ .held locs) :
    EnteredLoad s ((s.allocLq q).pushLoad kind st a n) q kind st (some (a, n)) := by
  obtain ⟨hverd, hadds, hacc, hme, hrest, hreqs, hctx⟩ := enteredLoad_local s q kind st
  cases st with
  | sent => exact ⟨hverd, hadds, hacc, hme, hrest, ⟨_, rfl, rfl, rfl, rfl, by rw [State.me_allocLq]; rfl, rfl⟩, hctx⟩
  | fail cause at_ => exact ⟨hverd, hadds, hacc, hme, hrest, hreqs, hctx⟩
  | data bs => exact absurd rfl (hst bs []).1
  | held locs => exact absurd rfl (hst [] locs).2

theorem issueStatus_sent_or_fail (lm ok : Bool) (a : W64) (bs : List Byte) (locs : List Loc) :
    issueStatus lm a ok ≠ .data bs ∧ issueStatus lm a ok ≠ .held locs := by
  unfold issueStatus
  split
  · simp
  · split <;> simp

/-! ## LDL, LDR and GATH -/

@[simp] theorem State.addr_zero (s : State) (a : BitVec 5) : s.addr a 0 = s.rg a := by simp [State.addr]

/-- LDL into an lq, and LDR, in both forms of address (R158, R159): `lm` says which. -/
theorem entersQueue_loadEntry {s : State} {gd : Guard} {q : BitVec 3} {i : Instr} (f : State → State)
    (hexec : exec i s = s.onLq q gd f) (lm : Bool) (a : W64) (e : BitVec 5) (hf : f s = s.loadEntry lm q a e) :
    EntersQueue s gd q i (.entry lm a (entryBytes e) q) (issueStatus lm a (fitsEntry a (entryBytes e)))
      (if lm then none else some (a, entryBytes e)) := by
  refine entersQueue_of f hexec fun hfull hroom => ?_
  rw [hf, State.loadEntry, hfull, hroom, if_neg Bool.false_ne_true, if_neg (by decide), fitsEntry_eq, accessStatus_eq]
  cases lm with
  | true => exact enteredLoad_local s q _ _
  | false => exact enteredLoad_global s q _ _ a _ (issueStatus_sent_or_fail _ _ _)

/-- The status with which a gather enters: of two misaligned addresses the base is reported (R160, log 83). -/
def gatherStatus (e : Nat) (base idx : W64) : AccStatus :=
  if base.toNat % e ≠ 0 then .fail 0x02 base else if idx.toNat % 4 ≠ 0 then .fail 0x02 idx else .sent

/-- GATH, with or without a count (R160). -/
theorem entersQueue_gather {s : State} {gd : Guard} {q : BitVec 3} {i : Instr} (f : State → State)
    (hexec : exec i s = s.onLq q gd f) (lm : Bool) (e n : Nat) (base idx : W64) (hf : f s = s.gather q lm e n base idx) :
    EntersQueue s gd q i (.gath q lm e n base idx) (gatherStatus e base idx) none := by
  refine entersQueue_of f hexec fun hfull hroom => ?_
  rw [hf, State.gather, hfull, hroom, if_neg Bool.false_ne_true, if_neg (by decide)]
  exact enteredLoad_local s q _ _

/-! ## LDS -/

/-- What the issue of an LDS finds at its stream register's position (R159, R169). -/
def ldsStatus (u : StreamReg) : AccStatus :=
  if fitsEntry u.ent u.lay.bytes = false then .fail 0x02 u.ent
  else if decide (u.lay.gbytes ≠ 0) = true ∧ u.grp.toNat / 256 ≠ (u.grp.toNat + u.lay.gbytes - 1) / 256 then .fail 0x02 u.grp
  else .sent

theorem ldsStatus_eq (u : StreamReg) :
    (if (!(u.ent.toNat % 8 == 0 && oneBlock u.ent.toNat u.lay.bytes)) = true then AccStatus.fail 0x02 u.ent
      else if u.lay.gbytes ≠ 0 ∧ (!oneBlock u.grp.toNat u.lay.gbytes) = true then .fail 0x02 u.grp else .sent) =
      ldsStatus u := by
  rw [fitsEntry_eq]
  simp [ldsStatus, oneBlock]

/-- The operations that an LDS enters in the access queue: its own and, at the end of a checked tile, the read of the
trailer behind it (R153, R170). -/
def ldsAccesses (tk : Nat) (r : BitVec 4) (u : StreamReg) (q : BitVec 3) : List LAccess :=
  { tk := tk, kind := .lds r u q, status := ldsStatus u } ::
    if u.endsTile then [{ tk := tk, kind := .trailer u.lay.sp u.lay.tbase }] else []

/-- The entries of an LDS: one for its data, and one for its scale group where its format has scales (R169). -/
def State.allocLds (s : State) (q sq : BitVec 3) (scaled : Bool) : State :=
  if scaled then (s.allocLq q).allocLq sq else s.allocLq q

/-- The state after an LDS that finds its entry and room for all that it allocates. -/
def State.issueLds (s : State) (q : BitVec 3) (r : BitVec 4) : State :=
  let u := s.me.getSt r
  let p := (s.allocLds q u.lay.sq (decide (u.lay.gbytes ≠ 0))).pushL (.lds r u q) (ldsStatus u)
  let t := if u.endsTile then p.pushL (.trailer u.lay.sp u.lay.tbase) .sent else p
  t.updMe fun x => x.setSt r (u.at (u.j + 1))

theorem allocLds_adds (s : State) (q sq : BitVec 3) (scaled : Bool) :
    AddsEntries s (s.allocLds q sq scaled) q sq scaled := by
  intro k
  cases scaled with
  | false => simpa [State.allocLds] using entries_allocLq s q k
  | true =>
    have hentry : (s.allocLq q).emptyEntry = s.emptyEntry := by rw [State.emptyEntry, State.me_allocLq]; rfl
    simp only [State.allocLds, if_true, true_and]
    rw [entries_allocLq, entries_allocLq, hentry, List.append_assoc, List.replicate_append_replicate]

/-- An allocation changes the core's lq and nothing else. -/
theorem allocLds_me (s : State) (q sq : BitVec 3) (scaled : Bool) :
    (s.allocLds q sq scaled).me = { s.me with lq := (s.allocLds q sq scaled).me.lq } := by
  cases scaled with
  | false => rw [State.allocLds, if_neg Bool.false_ne_true, State.me_allocLq]; rfl
  | true => rw [State.allocLds, if_pos rfl, State.me_allocLq, State.me_allocLq]; rfl

theorem allocLds_sameButCore (s : State) (q sq : BitVec 3) (scaled : Bool) : SameButCore s (s.allocLds q sq scaled) := by
  cases scaled with
  | false => exact sameButCore_allocLq s q
  | true => exact sameButCore_trans (sameButCore_allocLq s q) (sameButCore_allocLq _ sq)

theorem allocLds_verdict (s : State) (q sq : BitVec 3) (scaled : Bool) : (s.allocLds q sq scaled).verdict = s.verdict := by
  cases scaled <;> rfl

/-- Putting the lq, the access queue and the stream registers back undoes an LDS. -/
theorem Ctx.setSt_undo (x : Ctx) (qs : Vector Queue 8) (as : List LAccess) (r : BitVec 4) (u : StreamReg) :
    { Ctx.setSt { x with lq := qs, laccess := as } r u with laccess := x.laccess, lq := x.lq, st := x.st } = x := rfl

/-- What an LDS leaves in its core: its entries, its accesses, and its stream register moved on. -/
theorem issueLds_me (s : State) (q : BitVec 3) (r : BitVec 4) :
    let u := s.me.getSt r
    (s.issueLds q r).me =
      Ctx.setSt { s.me with
        lq := (s.allocLds q u.lay.sq (decide (u.lay.gbytes ≠ 0))).me.lq,
        laccess := s.me.laccess ++ ldsAccesses s.me.tk r u q } r (u.at (u.j + 1)) := by
  intro u
  have hme := allocLds_me s q u.lay.sq (decide (u.lay.gbytes ≠ 0))
  simp only [State.issueLds, ldsAccesses]
  rw [State.me_updMe]
  split
  · rw [State.me_pushL, State.me_pushL, hme, List.append_assoc]; rfl
  · rw [State.me_pushL, hme]

theorem issueLds_adds (s : State) (q : BitVec 3) (r : BitVec 4) :
    AddsEntries s (s.issueLds q r) q (s.me.getSt r).lay.sq (decide ((s.me.getSt r).lay.gbytes ≠ 0)) := by
  have hlq : (s.issueLds q r).me.lq = (s.allocLds q (s.me.getSt r).lay.sq (decide ((s.me.getSt r).lay.gbytes ≠ 0))).me.lq := by
    rw [issueLds_me]; rfl
  intro k
  rw [Ctx.getLq, hlq]
  exact allocLds_adds s q _ _ k

theorem issueLds_sameButCore (s : State) (q : BitVec 3) (r : BitVec 4) : SameButCore s (s.issueLds q r) := by
  refine sameButCore_trans ?_ (sameButCore_updMe _ _)
  have hpush := sameButCore_trans (allocLds_sameButCore s q (s.me.getSt r).lay.sq (decide ((s.me.getSt r).lay.gbytes ≠ 0)))
    (sameButCore_pushL _ (.lds r (s.me.getSt r) q) (ldsStatus (s.me.getSt r)))
  split
  · exact sameButCore_trans hpush (sameButCore_pushL _ _ _)
  · exact hpush

theorem issueLds_verdict (s : State) (q : BitVec 3) (r : BitVec 4) : (s.issueLds q r).verdict = s.verdict := by
  rw [State.issueLds, State.updMe_verdict]
  split
  · rw [pushL_verdict, pushL_verdict, allocLds_verdict]
  · rw [pushL_verdict, allocLds_verdict]

/-- Room for every entry that an LDS allocates, lq by lq, is room as `ldsRoom` counts it. -/
theorem ldsRoom_of (x : Ctx) (q sq : BitVec 3) (scaled : Bool)
    (h : ∀ k, (x.getLq k).entries.length + (if k = q then 1 else 0) + (if scaled ∧ k = sq then 1 else 0) ≤ (x.getLq k).depth) :
    ldsRoom x q sq scaled = true := by
  have hq := h q
  have hsq := h sq
  unfold ldsRoom Queue.room
  cases scaled with
  | false => simpa using hq
  | true =>
    by_cases hs : sq = q
    · subst hs
      simpa [Nat.add_assoc] using hsq
    · simp [hs, Ne.symm hs] at hq hsq ⊢
      exact ⟨hq, hsq⟩

/-! ### LDS, by what it finds -/

/-- An LDS on a queue of depth 0, or on a stream register that its LAUNCH does not declare, raises 0x01 (R19, R117). -/
theorem lds_undeclared (gd : Guard) (q : BitVec 3) (r : BitVec 4) (s : State)
    (h : (s.me.getLq q).depth = 0 ∨ s.myFlock.nst ≤ r.toNat) :
    ∃ t, exec (.lds gd q r) s = .next t ∧ TrapsAtWord s t 0x01 0 0 := by
  refine ⟨s.trapNow 0x01, ?_, trapWith_traps s 0x01 0 0⟩
  change execLds gd q r s = _
  rw [execLds]
  split
  · rfl
  · next h0 => rw [State.onSt, if_pos (h.resolve_left h0)]

/-- An LDS of a declared queue and stream register, beside its guard: what it does under it is `f`. -/
theorem lds_guarded (gd : Guard) (q : BitVec 3) (r : BitVec 4) (s : State) (h0 : (s.me.getLq q).depth ≠ 0)
    (hr : r.toNat < s.myFlock.nst) (hg : guardOk gd s = false) : exec (.lds gd q r) s = .next s := by
  change execLds gd q r s = _
  rw [execLds, if_neg h0, State.onSt, if_neg (Nat.not_le.2 hr), guarded_next, hg, if_neg Bool.false_ne_true]

section
variable {gd : Guard} {q : BitVec 3} {r : BitVec 4} {s : State} (h0 : (s.me.getLq q).depth ≠ 0)
  (hr : r.toNat < s.myFlock.nst) (hg : guardOk gd s = true) (hp : s.me.stPending r = false)
  (hlen : s.me.laccess.length < 32)

include h0 hr hg hp hlen

/-- An LDS under its guard, with a place in the access queue and no STCFG before it. -/
theorem lds_eq : let u := s.me.getSt r
    exec (.lds gd q r) s = .next (
      if u.spent then s.pushL (.lds r u q) (.fail 0x06 0)
      else if u.lay.gbytes ≠ 0 ∧ (s.me.getLq u.lay.sq).depth = 0 then s.trapNow 0x01
      else if u.endsTile && decide (accessDepth < s.me.laccess.length + 2) then s.waitNow .access
      else if !ldsRoom s.me q u.lay.sq (decide (u.lay.gbytes ≠ 0)) then s.waitNow .queueFull
      else s.issueLds q r) := by
  intro u
  have hfull : s.me.lFull = false := decide_eq_false (Nat.not_le.2 hlen)
  change execLds gd q r s = _
  rw [execLds, if_neg h0, State.onSt, if_neg (Nat.not_le.2 hr), guarded_next, hg, if_pos rfl]
  dsimp only
  rw [hp, hfull, Bool.or_false, if_neg Bool.false_ne_true, ldsStatus_eq]
  simp only [State.issueLds, State.allocLds, decide_eq_true_eq]
  rfl

/-- A spent stream register makes an access that has failed with 0x06, and allocates nothing (R169). -/
theorem lds_spent (hsp : (s.me.getSt r).spent = true) :
    ∃ t, exec (.lds gd q r) s = .next t ∧ t.verdict = s.verdict ∧
      t.me.laccess = s.me.laccess ++
        [({ tk := s.me.tk, kind := .lds r (s.me.getSt r) q, status := .fail 0x06 0 } : LAccess)] ∧
      { t.me with laccess := s.me.laccess } = s.me ∧ SameButCore s t := by
  refine ⟨_, lds_eq h0 hr hg hp hlen, ?_⟩
  rw [if_pos hsp]
  exact ⟨rfl, by rw [State.me_pushL], by rw [State.me_pushL], sameButCore_pushL s _ _⟩

/-- An LDS whose scale groups go to a queue of depth 0 raises 0x01. -/
theorem lds_scales_undeclared (hsp : (s.me.getSt r).spent = false) (hsc : (s.me.getSt r).lay.gbytes ≠ 0)
    (hsq : (s.me.getLq (s.me.getSt r).lay.sq).depth = 0) :
    ∃ t, exec (.lds gd q r) s = .next t ∧ TrapsAtWord s t 0x01 0 0 := by
  refine ⟨_, lds_eq h0 hr hg hp hlen, ?_⟩
  rw [hsp, if_neg Bool.false_ne_true, if_pos ⟨hsc, hsq⟩]
  exact trapWith_traps s 0x01 0 0

/-- An LDS with room for its entries and accesses is issued. -/
theorem lds_issues (hsp : (s.me.getSt r).spent = false)
    (hsq : (s.me.getSt r).lay.gbytes ≠ 0 → (s.me.getLq (s.me.getSt r).lay.sq).depth ≠ 0)
    (htile : (s.me.getSt r).endsTile = true → s.me.laccess.length + 2 ≤ 32)
    (hroom : ldsRoom s.me q (s.me.getSt r).lay.sq (decide ((s.me.getSt r).lay.gbytes ≠ 0)) = true) :
    exec (.lds gd q r) s = .next (s.issueLds q r) := by
  have hplace : ((s.me.getSt r).endsTile && decide (accessDepth < s.me.laccess.length + 2)) = false :=
    Bool.and_eq_false_imp.2 fun h => decide_eq_false (Nat.not_lt.2 (htile h))
  rw [lds_eq h0 hr hg hp hlen, hsp, if_neg Bool.false_ne_true, if_neg fun h => hsq h.1 h.2, hplace,
    if_neg Bool.false_ne_true, hroom, if_neg (by decide)]

end

/-- Settles O17: the loads and gathers by what each allocates and enters, and LDS by what it finds at its position. -/
theorem queueLoadsAllocateTheirEntry : Obligations.QueueLoadsAllocateTheirEntry := by
  intro gd q a b e sp esz nm1 w s empty adds status enters at0 at1 n fits
  have hat0 : s.addr a 0 = at0 := s.addr_zero a
  refine ⟨?_, ?_, ?_, ?_, ⟨?_, ?_⟩, fun r => ?_⟩
  · exact entersQueue_loadEntry (fun s => s.loadEntry true q (s.addr a 0) e) rfl true at0 e (by rw [hat0])
  · exact entersQueue_loadEntry (fun s => s.loadEntry true q (s.addr a (wideVal w)) e) rfl true at1 e rfl
  · exact entersQueue_loadEntry (fun s => s.loadEntry false q (s.addr a 0) e) rfl false at0 e (by rw [hat0])
  · exact entersQueue_loadEntry (fun s => s.loadEntry false q (s.addr a (wideVal w)) e) rfl false at1 e rfl
  · exact entersQueue_gather _ rfl sp (szBytes esz) (256 / szBytes esz) at0 (s.rg b) rfl
  · exact entersQueue_gather _ rfl sp (szBytes esz) (nm1.toNat + 1) at0 (s.rg b) rfl
  intro u sq scaled found lds
  refine ⟨fun h => lds_undeclared gd q r s h, fun h0 hr hg => lds_guarded gd q r s h0 hr hg,
    fun h0 hr hg hp hlen => ⟨fun hsp => lds_spent h0 hr hg hp hlen hsp, fun hsp hsc hsq =>
      lds_scales_undeclared h0 hr hg hp hlen hsp (of_decide_eq_true hsc) hsq, fun hsp hsq htile hroom => ?_⟩⟩
  have hme : (s.issueLds q r).me = _ := issueLds_me s q r
  refine ⟨_, lds_issues h0 hr hg hp hlen hsp (fun h => hsq (decide_eq_true h)) htile (ldsRoom_of s.me q sq scaled hroom),
    issueLds_verdict s q r, issueLds_adds s q r, ?_, fun k hk => ?_, ?_, ?_, issueLds_sameButCore s q r⟩
  · rw [hme, Ctx.getSt_setSt_same]
  · rw [hme, Ctx.getSt_setSt_ne _ _ hk]; rfl
  · rw [hme]; rfl
  · rw [hme]
    exact Ctx.setSt_undo s.me _ _ r _

end Sys2Proof.Machine

/-! PROOFS. What the updates and the folds of the scheduler leave unchanged: storage, contexts, flocks, the seats of a
partition. The statements about flocks (O49, O50) cite these. -/

namespace Sys2Proof.Machine

/-! ## Folds over the state -/

/-- What every step of a fold leaves alone, the fold leaves alone. -/
theorem foldl_keeps {α β : Type} (p : State → β) (f : State → α → State) (hf : ∀ s x, p (f s x) = p s) (xs : List α)
    (s : State) : p (xs.foldl f s) = p s := by
  induction xs generalizing s with
  | nil => rfl
  | cons x xs ih => rw [List.foldl_cons, ih, hf]

/-- What one step of a fold brings about, and no step undoes, holds after it; `Q` holds all along. -/
theorem foldl_establishes {α : Type} (Q P : State → Prop) (f : State → α → State) (a : α)
    (hQ : ∀ s x, Q s → Q (f s x)) (hset : ∀ s, Q s → P (f s a)) (hkeep : ∀ s x, Q s → P s → P (f s x))
    (xs : List α) (ha : a ∈ xs) (s : State) (hs : Q s) : P (xs.foldl f s) := by
  have keeps : ∀ (ys : List α) (s : State), Q s → P s → P (ys.foldl f s) := by
    intro ys
    induction ys with
    | nil => exact fun _ _ h => h
    | cons y ys ih => exact fun s hq hp => ih _ (hQ s y hq) (hkeep s y hq hp)
  induction xs generalizing s with
  | nil => simp at ha
  | cons x xs ih =>
    rcases List.mem_cons.1 ha with rfl | hx
    · exact keeps xs _ (hQ s a hs) (hset s hs)
    · exact ih hx _ (hQ s x hs)

/-- A read of a store whose values have been mapped. -/
theorem mget_mapVal {α β : Type} (f : α → β) (d : α) (m : AMap α) (k : Nat) :
    mget (f d) (m.map fun e => (e.1, f e.2)) k = f (mget d m k) := by
  induction m with
  | nil => rfl
  | cons e t ih =>
    simp only [List.map_cons, mget]
    split
    · rfl
    · exact ih

/-! ## Projections of an updated context, flock or partition -/

theorem ctx_updCtx_proj {α : Type} (p : Ctx → α) (s : State) (c k : Nat) (f : Ctx → Ctx) (hf : ∀ x, p (f x) = p x) :
    p ((s.updCtx c f).ctx k) = p (s.ctx k) := by
  by_cases h : k = c
  · rw [h, State.ctx_updCtx_same, hf]
  · rw [State.ctx_updCtx_ne s f h]

theorem flock_updFlock_proj {α : Type} (p : Flock → α) (s : State) (j k : Nat) (g : Flock → Flock) (hg : ∀ f, p (g f) = p f) :
    p ((s.updFlock j g).flock k) = p (s.flock k) := by
  by_cases h : k = j
  · rw [h, State.flock_updFlock_same, hg]
  · rw [State.flock_updFlock_ne s g h]

theorem part_updPart_proj {α : Type} (p : Partition → α) (s : State) (j k : Nat) (g : Partition → Partition)
    (hg : ∀ x, p (g x) = p x) : p ((s.updPart j g).part k) = p (s.part k) := by
  by_cases h : k = j
  · rw [h, State.part_updPart_same, hg]
  · rw [State.part_updPart_ne s g h]

/-! ## The clock and the storage -/

/-- The time and every byte that the machine stores outside the operand files. -/
def State.bytes (s : State) : Nat × Memory × Memory × Memory := (s.now, s.mem, s.lm, s.hostMem)

theorem bytes_eq_iff (s t : State) :
    t.bytes = s.bytes ↔ t.now = s.now ∧ t.mem = s.mem ∧ t.lm = s.lm ∧ t.hostMem = s.hostMem := by
  simp [State.bytes]

@[simp] theorem bytes_updFlock (s : State) (k : Nat) (f : Flock → Flock) : (s.updFlock k f).bytes = s.bytes := rfl
@[simp] theorem bytes_updPart (s : State) (n : Nat) (f : Partition → Partition) : (s.updPart n f).bytes = s.bytes := rfl
@[simp] theorem bytes_updDrover (s : State) (n : Nat) (f : Drover → Drover) : (s.updDrover n f).bytes = s.bytes := rfl
@[simp] theorem bytes_wakeAll (s : State) : s.wakeAll.bytes = s.bytes := rfl

/-! ## Flocks and members -/

@[simp] theorem flock_setCtx (s : State) (c : Nat) (x : Ctx) (k : Nat) : (s.setCtx c x).flock k = s.flock k := rfl
@[simp] theorem flock_updPart (s : State) (n : Nat) (f : Partition → Partition) (k : Nat) :
    (s.updPart n f).flock k = s.flock k := rfl
@[simp] theorem flock_updDrover (s : State) (n : Nat) (f : Drover → Drover) (k : Nat) :
    (s.updDrover n f).flock k = s.flock k := rfl
@[simp] theorem flock_updQueue (s : State) (n q : Nat) (f : CmdQueue → CmdQueue) (k : Nat) :
    (s.updQueue n q f).flock k = s.flock k := rfl
@[simp] theorem flock_updTile (s : State) (k : Nat) (f : TileSt → TileSt) (j : Nat) : (s.updTile k f).flock j = s.flock j := rfl

theorem flock_congr {s t : State} (h : t.flocks = s.flocks) (k : Nat) : t.flock k = s.flock k := by
  rw [State.flock, State.flock, h]

theorem ctx_congr {s t : State} (h : t.cores = s.cores) (c : Nat) : t.ctx c = s.ctx c := by
  rw [State.ctx, State.ctx, h]

/-- Where the cores of a partition lie: its rectangle and its placement map (R13, R15). -/
def State.seats (s : State) (n : Nat) : Nat × Nat × Nat × AMap Nat :=
  ((s.part n).x0, (s.part n).y0, (s.part n).w, (s.part n).place)

/-- The physical core of a logical core depends on the seats of its partition alone. -/
theorem physCore_congr {s t : State} {n : Nat} (h : t.seats n = s.seats n) (id : BitVec 12) :
    t.physCore n id = s.physCore n id := by
  simp only [State.seats, Prod.mk.injEq] at h
  obtain ⟨hx, hy, hw, hp⟩ := h
  simp only [State.physCore, Partition.physTile, hx, hy, hw, hp]

/-- The physical core of a member depends on its flock's partition and members, and on the seats. -/
theorem memberCore_congr {s t : State} {fl : Nat} (hpart : (t.flock fl).part = (s.flock fl).part)
    (hmem : (t.flock fl).members = (s.flock fl).members) (hseats : t.seats (s.flock fl).part = s.seats (s.flock fl).part)
    (i : Nat) : t.memberCore fl i = s.memberCore fl i := by
  rw [State.memberCore, State.memberCore, hpart, hmem, physCore_congr hseats]

theorem seats_updPart (s : State) (j n : Nat) (g : Partition → Partition)
    (hg : ∀ p, ((g p).x0, (g p).y0, (g p).w, (g p).place) = (p.x0, p.y0, p.w, p.place)) :
    (s.updPart j g).seats n = s.seats n :=
  part_updPart_proj (fun p => (p.x0, p.y0, p.w, p.place)) s j n g hg

@[simp] theorem seats_updFlock (s : State) (k n : Nat) (f : Flock → Flock) : (s.updFlock k f).seats n = s.seats n := rfl
@[simp] theorem seats_updDrover (s : State) (k n : Nat) (f : Drover → Drover) : (s.updDrover k f).seats n = s.seats n :=
  seats_updPart s k n _ fun _ => rfl
@[simp] theorem seats_updQueue (s : State) (k q n : Nat) (f : CmdQueue → CmdQueue) : (s.updQueue k q f).seats n = s.seats n :=
  seats_updPart s k n _ fun _ => rfl

theorem seats_congr {s t : State} (h : t.parts = s.parts) (n : Nat) : t.seats n = s.seats n := by
  simp only [State.seats, State.part, h]

theorem mem_liveMembers (s : State) (fl j : Nat) :
    j ∈ s.liveMembers fl ↔ j < (s.flock fl).members.length ∧ (s.ctx (s.memberCore fl j)).flock = some fl := by
  simp [State.liveMembers]

/-! ## Tiles and the requests between them -/

/-- The machine without its tiles and the requests between them: what a change of port ends, monitors, saved replies or slots
leaves alone. -/
def State.offTiles (s : State) : State := { s with tiles := [], reqs := [] }

section
variable {s t : State} (h : t.offTiles = s.offTiles)
include h

theorem bytes_of_offTiles : t.bytes = s.bytes := (congrArg State.bytes h :)
theorem cores_of_offTiles : t.cores = s.cores := (congrArg State.cores h :)
theorem flocks_of_offTiles : t.flocks = s.flocks := (congrArg State.flocks h :)
theorem parts_of_offTiles : t.parts = s.parts := (congrArg State.parts h :)

end

theorem offTiles_updPort (s : State) (e : PortEnd) (f : PortSt → PortSt) : (s.updPort e f).offTiles = s.offTiles := by
  unfold State.updPort
  split <;> rfl

theorem offTiles_lastChanges (s : State) (tx rx : PortEnd) : (s.lastChanges tx rx).offTiles = s.offTiles := by
  refine foldl_keeps State.offTiles _ (fun s x => ?_) _ s
  split
  · exact offTiles_updPort s _ _
  · exact offTiles_updPort s _ _
  · rfl

theorem offTiles_freeEnds (s : State) (k : Circuit) : (s.freeEnds k).offTiles = s.offTiles := by
  rw [State.freeEnds, offTiles_updPort, offTiles_updPort, offTiles_lastChanges]

/-- Freeing the ends of several circuits, as a tear-down does. -/
theorem offTiles_freeAll (s : State) (ks : List Circuit) : (ks.foldl State.freeEnds s).offTiles = s.offTiles :=
  foldl_keeps State.offTiles _ offTiles_freeEnds ks s

/-! ## Taking cores -/

/-- What a placement keeps of a flock: all but its status, its objects, its saved program and local memories, and whether it
has left the head of its queue. -/
def Flock.kept (f : Flock) : Flock :=
  { f with status := .waiting, bars := [], drover := none, lms := [], lmsPoison := [], left := false, leftAt := 0 }

/-- Before another flock takes a core, the local memory of the core's holder may move out; nothing else happens. -/
theorem evict_cases (s : State) (part : Nat) (id : BitVec 12) :
    s.evict part id = s ∨ ∃ g h core mv, s.holderOf part id = some g ∧ (∀ f, (h f).kept = f.kept) ∧
      s.evict part id = (s.updFlock g h).moveMonitors core mv := by
  unfold State.evict
  split
  · exact .inl rfl
  · next g hg =>
    dsimp only
    split
    · refine .inr ⟨g, _, _, _, hg, ?_, rfl⟩
      exact fun _ => rfl
    · exact .inl rfl

/-- The machine without its flocks, its tiles and the requests between them. -/
def State.offFlocks (s : State) : State := State.offTiles { s with flocks := [] }

section
variable {s t : State} (h : t.offFlocks = s.offFlocks)
include h

theorem bytes_of_offFlocks : t.bytes = s.bytes := (congrArg State.bytes h :)
theorem parts_of_offFlocks : t.parts = s.parts := (congrArg State.parts h :)

end

theorem offFlocks_evict (s : State) (part : Nat) (id : BitVec 12) : (s.evict part id).offFlocks = s.offFlocks := by
  rcases evict_cases s part id with h | ⟨g, h, core, mv, -, -, he⟩
  · rw [h]
  · rw [he]; rfl

theorem flock_evict_kept (s : State) (part : Nat) (id : BitVec 12) (k : Nat) :
    ((s.evict part id).flock k).kept = (s.flock k).kept := by
  rcases evict_cases s part id with h | ⟨g, h, core, mv, -, hh, he⟩
  · rw [h]
  · rw [he]
    exact flock_updFlock_proj Flock.kept s g k h hh

/-- An eviction changes the holder of the core alone. -/
theorem flock_evict_other (s : State) (part : Nat) (id : BitVec 12) {k : Nat} (hk : s.holderOf part id ≠ some k) :
    (s.evict part id).flock k = s.flock k := by
  rcases evict_cases s part id with h | ⟨g, h, core, mv, hg, -, he⟩
  · rw [h]
  · rw [he]
    exact State.flock_updFlock_ne s h fun hkg => hk (hkg ▸ hg)

/-- The state in which a flock is to become the holder of a core. -/
def State.vacated (s : State) (fl : Nat) (id : BitVec 12) : State :=
  if s.holderOf (s.flock fl).part id = some fl then s else s.evict (s.flock fl).part id

theorem offFlocks_vacated (s : State) (fl : Nat) (id : BitVec 12) : (s.vacated fl id).offFlocks = s.offFlocks := by
  unfold State.vacated
  split
  · rfl
  · exact offFlocks_evict s _ id

theorem takeCore_eq (s : State) (fl : Nat) (id : BitVec 12) :
    s.takeCore fl id = ((s.vacated fl id).updPart (s.flock fl).part fun p =>
      { p with holder := mset p.holder id.toNat (fl + 1) }).newSource ((s.vacated fl id).physCore (s.flock fl).part id) := rfl

theorem seats_newSource (s : State) (core n : Nat) : (s.newSource core).seats n = s.seats n := rfl

@[simp] theorem bytes_takeCore (s : State) (fl : Nat) (id : BitVec 12) : (s.takeCore fl id).bytes = s.bytes := by
  exact (bytes_of_offFlocks (offFlocks_vacated s fl id) :)

@[simp] theorem seats_takeCore (s : State) (fl : Nat) (id : BitVec 12) (n : Nat) : (s.takeCore fl id).seats n = s.seats n := by
  rw [takeCore_eq, seats_newSource, seats_updPart _ _ _ _ (by intro; rfl)]
  exact seats_congr (parts_of_offFlocks (offFlocks_vacated s fl id)) n

/-- The flock that takes a core stays as it is: only the flock that held it moves its local memory out. -/
@[simp] theorem flock_takeCore_self (s : State) (fl : Nat) (id : BitVec 12) : (s.takeCore fl id).flock fl = s.flock fl := by
  rw [takeCore_eq]
  change (s.vacated fl id).flock fl = s.flock fl
  unfold State.vacated
  split
  · rfl
  · next h => exact flock_evict_other s _ id h

theorem flock_takeCore_kept (s : State) (fl : Nat) (id : BitVec 12) (k : Nat) :
    ((s.takeCore fl id).flock k).kept = (s.flock k).kept := by
  rw [takeCore_eq]
  change ((s.vacated fl id).flock k).kept = (s.flock k).kept
  unfold State.vacated
  split
  · rfl
  · exact flock_evict_kept s _ id k

/-! ## Barrier objects, ports, and the head of the queue -/

@[simp] theorem bytes_makeBarriers (s : State) (fl : Nat) : (s.makeBarriers fl).bytes = s.bytes :=
  foldl_keeps State.bytes _ (by intros; rfl) _ _

theorem cores_makeBarriers (s : State) (fl : Nat) : (s.makeBarriers fl).cores = s.cores :=
  foldl_keeps State.cores _ (by intros; rfl) _ _

theorem parts_makeBarriers (s : State) (fl : Nat) : (s.makeBarriers fl).parts = s.parts :=
  foldl_keeps State.parts _ (by intros; rfl) _ _

/-- A projection of flocks that does not see barrier objects does not see their allocation. -/
theorem flock_makeBarriers_proj {α : Type} (p : Flock → α) (hp : ∀ f bars, p { f with bars := bars } = p f) (s : State)
    (fl k : Nat) : p ((s.makeBarriers fl).flock k) = p (s.flock k) := by
  unfold State.makeBarriers
  dsimp only
  rw [foldl_keeps (fun s => p (s.flock k)) _ (by intros; rfl)]
  exact flock_updFlock_proj p s fl k _ fun f => hp f _

/-- The drover leaves one flock's program: that flock keeps it, and beside it tiles, and the drover, change. -/
theorem givePorts_cases (s : State) (n : Nat) : s.givePorts n = s ∨ ∃ (o : Nat) (d : Drover) (u : State), u.offTiles = s.offTiles ∧
    s.givePorts n = (u.updFlock o fun f => { f with drover := some d }).updDrover n fun _ => {} := by
  unfold State.givePorts
  dsimp only
  split
  · exact .inl rfl
  · exact .inr ⟨_, _, _, offTiles_freeAll s _, rfl⟩

@[simp] theorem bytes_givePorts (s : State) (n : Nat) : (s.givePorts n).bytes = s.bytes := by
  rcases givePorts_cases s n with h | ⟨o, d, u, hu, h⟩ <;> rw [h]
  exact (bytes_of_offTiles hu :)

theorem cores_givePorts (s : State) (n : Nat) : (s.givePorts n).cores = s.cores := by
  rcases givePorts_cases s n with h | ⟨o, d, u, hu, h⟩ <;> rw [h]
  exact (cores_of_offTiles hu :)

@[simp] theorem seats_givePorts (s : State) (n k : Nat) : (s.givePorts n).seats k = s.seats k := by
  rcases givePorts_cases s n with h | ⟨o, d, u, hu, h⟩ <;> rw [h]
  rw [seats_updDrover]
  exact seats_congr (parts_of_offTiles hu) k

/-- A projection of flocks that does not see their saved programs does not see the ports given away. -/
theorem flock_givePorts_proj {α : Type} (p : Flock → α) (hp : ∀ f d, p { f with drover := d } = p f) (s : State) (n k : Nat) :
    p ((s.givePorts n).flock k) = p (s.flock k) := by
  rcases givePorts_cases s n with h | ⟨o, d, u, hu, h⟩ <;> rw [h]
  rw [flock_updDrover, flock_updFlock_proj p u o k _ fun f => hp f _, flock_congr (flocks_of_offTiles hu)]

@[simp] theorem bytes_takePorts (s : State) (fl : Nat) (image : List Byte) : (s.takePorts fl image).bytes = s.bytes := by
  unfold State.takePorts
  dsimp only
  split
  · rfl
  · rw [bytes_updPart, bytes_givePorts]

theorem cores_takePorts (s : State) (fl : Nat) (image : List Byte) : (s.takePorts fl image).cores = s.cores := by
  unfold State.takePorts
  dsimp only
  split
  · rfl
  · exact cores_givePorts s _

@[simp] theorem seats_takePorts (s : State) (fl : Nat) (image : List Byte) (n : Nat) :
    (s.takePorts fl image).seats n = s.seats n := by
  unfold State.takePorts
  dsimp only
  split
  · rfl
  · rw [seats_updPart _ _ _ _ (by intro; rfl), seats_givePorts]

theorem flock_takePorts_proj {α : Type} (p : Flock → α) (hp : ∀ f d, p { f with drover := d } = p f) (s : State) (fl k : Nat)
    (image : List Byte) : p ((s.takePorts fl image).flock k) = p (s.flock k) := by
  unfold State.takePorts
  dsimp only
  split
  · rfl
  · rw [flock_updPart, flock_givePorts_proj p hp]

/-- A launch with a circuit program has the drover decode it (R341). -/
theorem drover_takePorts (s : State) (fl : Nat) (image : List Byte) (h : (s.flock fl).circLen ≠ 0) :
    ∃ prog, prog.length = (s.flock fl).circLen ∧
      ((s.takePorts fl image).part (s.flock fl).part).drover = newDrover fl prog := by
  refine ⟨(List.range (s.flock fl).circLen).map fun i => wordAt image i, by simp, ?_⟩
  unfold State.takePorts
  dsimp only
  rw [if_neg h, State.part_updPart_same]

/-- A launch marked as having left the head of its queue. -/
def State.leftHead (s : State) (fl : Nat) : State :=
  s.updFlock fl fun f => { f with left := true, leftAt := s.now - (s.part f.part).createdAt }

/-- A launch leaves the head of its queue: it is marked, and its queue, where it stands at its head, goes on. -/
theorem leaveQueue_cases (s : State) (fl : Nat) :
    s.leaveQueue fl = s.leftHead fl ∨ ∃ n q g, s.leaveQueue fl = (s.leftHead fl).updQueue n q g := by
  unfold State.leaveQueue
  dsimp only
  split
  · exact .inl rfl
  · split
    · exact .inr ⟨_, _, _, rfl⟩
    · exact .inl rfl

@[simp] theorem bytes_leaveQueue (s : State) (fl : Nat) : (s.leaveQueue fl).bytes = s.bytes := by
  rcases leaveQueue_cases s fl with h | ⟨n, q, g, h⟩ <;> rw [h] <;> rfl

theorem cores_leaveQueue (s : State) (fl : Nat) : (s.leaveQueue fl).cores = s.cores := by
  rcases leaveQueue_cases s fl with h | ⟨n, q, g, h⟩ <;> rw [h] <;> rfl

@[simp] theorem seats_leaveQueue (s : State) (fl n : Nat) : (s.leaveQueue fl).seats n = s.seats n := by
  rcases leaveQueue_cases s fl with h | ⟨k, q, g, h⟩ <;> rw [h]
  · rfl
  · rw [seats_updQueue]; rfl

theorem flock_leaveQueue_eq (s : State) (fl k : Nat) : (s.leaveQueue fl).flock k = (s.leftHead fl).flock k := by
  rcases leaveQueue_cases s fl with h | ⟨n, q, g, h⟩ <;> rw [h]
  rfl

theorem left_leaveQueue (s : State) (fl : Nat) : ((s.leaveQueue fl).flock fl).left = true := by
  rw [flock_leaveQueue_eq, State.leftHead, State.flock_updFlock_same]

/-- A projection of flocks that does not see when they left the head sees no change. -/
theorem flock_leaveQueue_proj {α : Type} (p : Flock → α) (hp : ∀ f l a, p { f with left := l, leftAt := a } = p f)
    (s : State) (fl k : Nat) : p ((s.leaveQueue fl).flock k) = p (s.flock k) := by
  rw [flock_leaveQueue_eq]
  exact flock_updFlock_proj p s fl k _ fun f => hp f _ _

theorem drover_leaveQueue (s : State) (fl n : Nat) : ((s.leaveQueue fl).part n).drover = (s.part n).drover := by
  rcases leaveQueue_cases s fl with h | ⟨k, q, g, h⟩ <;> rw [h]
  · rfl
  · exact part_updPart_proj Partition.drover (s.leftHead fl) k n _ fun _ => rfl

end Sys2Proof.Machine

/-! PROOFS. Flocks are scheduled (O49): placement, release, resumption, quanta and cadence. -/

namespace Sys2Proof.Machine

/-! ## A launch on its cores -/

/-- A flock has taken the cores of its members. -/
def State.takeCores (s : State) (fl : Nat) : State := (s.flock fl).members.foldl (fun s id => s.takeCore fl id) s

/-- The members of a flock have new contexts on their cores. -/
def State.newMembers (s : State) (fl : Nat) (f : Flock) : State :=
  (List.range f.members.length).foldl (fun s i => s.setCtx (s.memberCore fl i) (f.newCtx fl i)) s

/-- A launch stands placed on its cores, with its objects and ports, and has left the head of its queue; its members are
not yet released (R30). -/
def State.seated (s : State) (fl : Nat) (image : List Byte) : State :=
  (((((s.takeCores fl).newMembers fl (s.flock fl)).makeBarriers fl).takePorts fl image).updFlock fl fun f =>
    { f with status := .placed }).leaveQueue fl

theorem place_eq (s : State) (fl : Nat) (image : List Byte) : s.place fl image = (s.seated fl image).releaseFlock fl := rfl

theorem bytes_takeCores (s : State) (fl : Nat) : (s.takeCores fl).bytes = s.bytes :=
  foldl_keeps State.bytes _ (fun s id => bytes_takeCore s fl id) _ s

theorem seats_takeCores (s : State) (fl n : Nat) : (s.takeCores fl).seats n = s.seats n :=
  foldl_keeps (fun s => s.seats n) _ (fun s id => seats_takeCore s fl id n) _ s

theorem flock_takeCores_self (s : State) (fl : Nat) : (s.takeCores fl).flock fl = s.flock fl :=
  foldl_keeps (fun s => s.flock fl) _ (fun s id => flock_takeCore_self s fl id) _ s

theorem flock_takeCores_kept (s : State) (fl k : Nat) : ((s.takeCores fl).flock k).kept = (s.flock k).kept :=
  foldl_keeps (fun s => (s.flock k).kept) _ (fun s id => flock_takeCore_kept s fl id k) _ s

theorem bytes_newMembers (s : State) (fl : Nat) (f : Flock) : (s.newMembers fl f).bytes = s.bytes :=
  foldl_keeps State.bytes _ (by intros; rfl) _ s

theorem parts_newMembers (s : State) (fl : Nat) (f : Flock) : (s.newMembers fl f).parts = s.parts :=
  foldl_keeps State.parts _ (by intros; rfl) _ s

theorem flocks_newMembers (s : State) (fl : Nat) (f : Flock) : (s.newMembers fl f).flocks = s.flocks :=
  foldl_keeps State.flocks _ (by intros; rfl) _ s

/-- Each core of a member holds a context of the flock. -/
theorem flock_ctx_newMembers (s : State) (fl : Nat) (f : Flock) (j : Nat) (hj : j < f.members.length) :
    ((s.newMembers fl f).ctx (s.memberCore fl j)).flock = some fl := by
  refine foldl_establishes (fun t => t.memberCore = s.memberCore) (fun t => (t.ctx (s.memberCore fl j)).flock = some fl) _ j
    (by exact fun t i ht => ht) (fun t ht => ?_) (fun t i ht hP => ?_) _ (List.mem_range.2 hj) s rfl
  · rw [ht, State.ctx_setCtx_same]; rfl
  · by_cases hc : s.memberCore fl j = t.memberCore fl i
    · rw [hc, State.ctx_setCtx_same]; rfl
    · rw [State.ctx_setCtx_ne _ _ hc, hP]

/-! ### What a seated launch keeps -/

theorem bytes_seated (s : State) (fl : Nat) (image : List Byte) : (s.seated fl image).bytes = s.bytes := by
  rw [State.seated, bytes_leaveQueue, bytes_updFlock, bytes_takePorts, bytes_makeBarriers, bytes_newMembers, bytes_takeCores]

theorem seats_seated (s : State) (fl : Nat) (image : List Byte) (n : Nat) : (s.seated fl image).seats n = s.seats n := by
  rw [State.seated, seats_leaveQueue, seats_updFlock, seats_takePorts, seats_congr (parts_makeBarriers _ fl),
    seats_congr (parts_newMembers _ fl _), seats_takeCores]

theorem flock_seated_kept (s : State) (fl : Nat) (image : List Byte) (k : Nat) :
    ((s.seated fl image).flock k).kept = (s.flock k).kept := by
  rw [State.seated, flock_leaveQueue_proj Flock.kept (by intros; rfl), flock_updFlock_proj Flock.kept _ _ _ _ (by intros; rfl),
    flock_takePorts_proj Flock.kept (by intros; rfl), flock_makeBarriers_proj Flock.kept (by intros; rfl),
    flock_congr (flocks_newMembers _ fl _), flock_takeCores_kept]

theorem status_seated (s : State) (fl : Nat) (image : List Byte) : ((s.seated fl image).flock fl).status = .placed := by
  rw [State.seated, flock_leaveQueue_proj Flock.status (by intros; rfl), State.flock_updFlock_same]

theorem left_seated (s : State) (fl : Nat) (image : List Byte) : ((s.seated fl image).flock fl).left = true :=
  left_leaveQueue _ fl

theorem members_seated (s : State) (fl : Nat) (image : List Byte) :
    ((s.seated fl image).flock fl).members = (s.flock fl).members :=
  (congrArg Flock.members (flock_seated_kept s fl image fl) :)

theorem circLen_seated (s : State) (fl : Nat) (image : List Byte) :
    ((s.seated fl image).flock fl).circLen = (s.flock fl).circLen :=
  (congrArg Flock.circLen (flock_seated_kept s fl image fl) :)

theorem memberCore_takeCores (s : State) (fl i : Nat) : (s.takeCores fl).memberCore fl i = s.memberCore fl i :=
  memberCore_congr (by rw [flock_takeCores_self]) (by rw [flock_takeCores_self]) (seats_takeCores s fl _) i

theorem memberCore_seated (s : State) (fl : Nat) (image : List Byte) (i : Nat) :
    (s.seated fl image).memberCore fl i = s.memberCore fl i :=
  memberCore_congr (congrArg Flock.part (flock_seated_kept s fl image fl) :) (members_seated s fl image)
    (seats_seated s fl image _) i

theorem ctx_seated (s : State) (fl : Nat) (image : List Byte) (c : Nat) :
    (s.seated fl image).ctx c = ((s.takeCores fl).newMembers fl (s.flock fl)).ctx c := by
  rw [State.seated, ctx_congr (cores_leaveQueue _ fl)]
  exact ctx_congr ((cores_takePorts _ fl image).trans (cores_makeBarriers _ fl)) c

/-- Every member of a seated launch is on its core. -/
theorem liveMembers_seated (s : State) (fl : Nat) (image : List Byte) {j : Nat} (hj : j < (s.flock fl).members.length) :
    j ∈ (s.seated fl image).liveMembers fl := by
  rw [mem_liveMembers, members_seated, memberCore_seated, ctx_seated, ← memberCore_takeCores]
  exact ⟨hj, flock_ctx_newMembers _ fl _ j hj⟩

/-- The drover decodes the program of a seated launch that has one. -/
theorem drover_seated (s : State) (fl : Nat) (image : List Byte) (h : (s.flock fl).circLen ≠ 0) :
    ∃ prog, prog.length = (s.flock fl).circLen ∧
      ((s.seated fl image).part (s.flock fl).part).drover = newDrover fl prog := by
  let u := ((s.takeCores fl).newMembers fl (s.flock fl)).makeBarriers fl
  have hkept : (u.flock fl).kept = (s.flock fl).kept := by
    rw [flock_makeBarriers_proj Flock.kept (by intros; rfl), flock_congr (flocks_newMembers _ fl _), flock_takeCores_kept]
  have hlen : (u.flock fl).circLen = (s.flock fl).circLen := (congrArg Flock.circLen hkept :)
  have hpart : (u.flock fl).part = (s.flock fl).part := (congrArg Flock.part hkept :)
  obtain ⟨prog, hprog, hdrover⟩ := drover_takePorts u fl image (hlen ▸ h)
  refine ⟨prog, hprog.trans hlen, ?_⟩
  rw [State.seated, drover_leaveQueue, ← hpart]
  exact hdrover

/-! ## Release -/

/-- The streams of a context stand at a header, released together (R31). -/
def Ctx.Released (x : Ctx) : Prop := x.l.phase = .header ∧ x.c.phase = .header ∧ x.s.phase = .header

/-- The members of a flock have been released, and it runs. -/
def State.setOff (s : State) (fl : Nat) : State :=
  ((s.liveMembers fl).foldl (fun s i => s.updCtx (s.memberCore fl i) Ctx.release) s).updFlock fl fun f =>
    { f with status := .running, runAt := s.now }

theorem releaseFlock_not_placed (s : State) (fl : Nat) (h : (s.flock fl).status ≠ .placed) : s.releaseFlock fl = s :=
  if_pos (.inl h)

/-- A placed flock whose circuits are not yet established waits. -/
theorem releaseFlock_not_ready (s : State) (fl : Nat) (hlen : (s.flock fl).circLen ≠ 0)
    (h : (s.part (s.flock fl).part).drover.readyToRun = false) : s.releaseFlock fl = s :=
  if_pos (.inr (by simp [hlen, h]))

/-- A new flock on its cores is released once it has no circuits to wait for. -/
theorem releaseFlock_new (s : State) (fl : Nat) (hstatus : (s.flock fl).status = .placed)
    (hready : (s.flock fl).circLen = 0 ∨ (s.part (s.flock fl).part).drover.owner = some fl ∧
      (s.part (s.flock fl).part).drover.readyToRun = true)
    (hres : (s.flock fl).resuming = false) (hsus : (s.flock fl).suspended = false) : s.releaseFlock fl = s.setOff fl := by
  have hgo : ((s.flock fl).circLen == 0 || ((s.part (s.flock fl).part).drover.owner == some fl &&
      (s.part (s.flock fl).part).drover.readyToRun)) = true := by
    rcases hready with h | ⟨ho, hr⟩
    · simp [h]
    · simp [ho, hr]
  unfold State.releaseFlock State.setOff
  simp [hstatus, hgo, hres, hsus]

theorem bytes_setOff (s : State) (fl : Nat) : (s.setOff fl).bytes = s.bytes :=
  foldl_keeps State.bytes _ (by intros; rfl) _ s

theorem flock_setOff (s : State) (fl : Nat) :
    (s.setOff fl).flock fl = { s.flock fl with status := .running, runAt := s.now } := by
  rw [State.setOff, State.flock_updFlock_same, foldl_keeps (fun s => s.flock fl) _ (by intros; rfl)]

/-- A release changes phases alone: each core stays with its flock. -/
theorem flock_ctx_setOff (s : State) (fl c : Nat) : ((s.setOff fl).ctx c).flock = (s.ctx c).flock :=
  foldl_keeps (fun s => (s.ctx c).flock) _ (fun s _ => ctx_updCtx_proj Ctx.flock s _ c Ctx.release fun _ => rfl) _ s

theorem released_setOff (s : State) (fl : Nat) {j : Nat} (hj : j ∈ s.liveMembers fl) :
    ((s.setOff fl).ctx (s.memberCore fl j)).Released := by
  refine foldl_establishes (fun t => t.memberCore = s.memberCore) (fun t => (t.ctx (s.memberCore fl j)).Released) _ j
    (by exact fun t i ht => ht) (fun t ht => ?_) (fun t i ht hP => ?_) _ hj s rfl
  · rw [ht, State.ctx_updCtx_same]
    exact ⟨rfl, rfl, rfl⟩
  · by_cases hc : s.memberCore fl j = t.memberCore fl i
    · rw [hc, State.ctx_updCtx_same]
      exact ⟨rfl, rfl, rfl⟩
    · rw [State.ctx_updCtx_ne _ _ hc]
      exact hP

/-! ## What a launch finds -/

/-- Nothing stands between a flock and the cores that it needs: none that goes before it, and none on them (R30, R36). -/
def State.Clear (s : State) (fl : Nat) : Prop := s.goesAfter fl = false ∧ s.blockers fl = []

/-- A flock that wants cores is not suspended (R392). -/
theorem suspended_of_wantsCores {s : State} {fl : Nat} (h : s.wantsCores fl = true) : (s.flock fl).suspended = false := by
  simp only [State.wantsCores, Bool.and_eq_true, Bool.not_eq_true'] at h
  obtain ⟨⟨⟨hsus, -⟩, -⟩, -⟩ := h
  exact hsus

theorem shepherd_eq (s : State) (f : State → State) (h : s.glob.shr = false) : s.shepherd f = .next (f s) := by
  rw [State.shepherd, h, if_neg Bool.false_ne_true]

/-- While the shepherd core restarts, what it does waits (R408). -/
theorem shepherd_waits (s : State) (f : State → State) (h : s.glob.shr = true) : s.shepherd f = .next s := by
  rw [State.shepherd, h, if_pos rfl]

/-- A waiting launch that nothing stands before is placed: at once without a circuit program (R30). -/
theorem tryPlace_clear (s : State) (fl : Nat) (hstatus : (s.flock fl).status = .waiting) (hwants : s.wantsCores fl = true)
    (hclear : s.Clear fl) (hlen : (s.flock fl).circLen = 0) : s.tryPlace fl = s.place fl [] := by
  obtain ⟨hafter, hblock⟩ := hclear
  simp [State.tryPlace, hstatus, hwants, hafter, hblock, State.clearing, hlen]

/-- With a circuit program, once its words have been read (R30, R341). -/
theorem tryPlace_program (s : State) (fl : Nat) (hstatus : (s.flock fl).status = .waiting) (hwants : s.wantsCores fl = true)
    (hclear : s.Clear fl) (hlen : (s.flock fl).circLen ≠ 0) (haddr : (s.flock fl).circAddr % 8 = 0) {image : List Byte}
    (hread : s.feRead (s.flock fl).part (s.flock fl).circAddr (8 * (s.flock fl).circLen) = .ok image) :
    s.tryPlace fl = s.place fl image := by
  obtain ⟨hafter, hblock⟩ := hclear
  simp [State.tryPlace, hstatus, hwants, hafter, hblock, State.clearing, hlen, haddr, hread]

theorem tryPlace_not_waiting (s : State) (fl : Nat) (h : (s.flock fl).status ≠ .waiting) : s.tryPlace fl = s :=
  if_pos (.inl h)

/-! ## Placement -/

/-- A launch runs on its cores, its members released together (R31). -/
def RunsFrom (s t : State) (fl : Nat) : Prop :=
  (t.flock fl).status = .running ∧ (t.flock fl).runAt = s.now ∧ t.hostMem = s.hostMem ∧ (t.flock fl).left = true ∧
    ∀ j, j < (s.flock fl).members.length → (t.ctx (s.memberCore fl j)).flock = some fl ∧
      (t.ctx (s.memberCore fl j)).Released

/-- A launch without a circuit program is released as soon as it is placed (R31). -/
theorem place_runs (s : State) (fl : Nat) (hlen : (s.flock fl).circLen = 0) (hres : (s.flock fl).resuming = false)
    (hsus : (s.flock fl).suspended = false) : RunsFrom s (s.place fl []) fl := by
  have hkept := flock_seated_kept s fl [] fl
  have hrelease : s.place fl [] = (s.seated fl []).setOff fl := by
    rw [place_eq]
    exact releaseFlock_new _ fl (status_seated s fl []) (.inl ((circLen_seated s fl []).trans hlen))
      ((congrArg Flock.resuming hkept :).trans hres) ((congrArg Flock.suspended hkept :).trans hsus)
  obtain ⟨hnow, -, -, hhost⟩ := (bytes_eq_iff s (s.seated fl [])).1 (bytes_seated s fl [])
  obtain ⟨-, -, -, hhost'⟩ := (bytes_eq_iff (s.seated fl []) _).1 (bytes_setOff (s.seated fl []) fl)
  have hflock := flock_setOff (s.seated fl []) fl
  rw [RunsFrom, hrelease, hflock]
  refine ⟨rfl, hnow, hhost'.trans hhost, left_seated s fl [], fun j hj => ?_⟩
  have hlive := liveMembers_seated s fl [] hj
  obtain ⟨-, hcore⟩ := (mem_liveMembers _ fl j).1 hlive
  rw [← memberCore_seated s fl []]
  exact ⟨(flock_ctx_setOff _ fl _).trans hcore, released_setOff _ fl hlive⟩

/-- A launch that runs is not released again. -/
theorem RunsFrom.releaseFlock {s t : State} {fl : Nat} (h : RunsFrom s t fl) : t.releaseFlock fl = t := by
  obtain ⟨hstatus, -⟩ := h
  exact releaseFlock_not_placed t fl (by rw [hstatus]; decide)

/-- A launch with a circuit program waits for its circuits: the drover has only begun to decode it (R341, R342). -/
theorem place_program (s : State) (fl : Nat) (image : List Byte) (hlen : (s.flock fl).circLen ≠ 0) :
    s.place fl image = s.seated fl image := by
  obtain ⟨prog, -, hdrover⟩ := drover_seated s fl image hlen
  rw [place_eq]
  refine releaseFlock_not_ready _ fl (by rwa [circLen_seated]) ?_
  rw [show ((s.seated fl image).flock fl).part = (s.flock fl).part from
    (congrArg Flock.part (flock_seated_kept s fl image fl) :), hdrover]
  rfl

/-! ## Resumption -/

theorem now_of_bytes {s t : State} (h : t.bytes = s.bytes) : t.now = s.now := ((bytes_eq_iff s t).1 h).1

theorem now_bringBack (s : State) (fl i : Nat) : (s.bringBack fl i).now = s.now := by
  unfold State.bringBack
  dsimp only
  split <;> rfl

theorem flock_mapMonitors (s : State) (g : Monitor → Monitor) (k : Nat) : (s.mapMonitors g).flock k = s.flock k := rfl

theorem flock_bringBack_kept (s : State) (fl i k : Nat) : ((s.bringBack fl i).flock k).kept = (s.flock k).kept := by
  unfold State.bringBack
  dsimp only
  split
  · rw [flock_mapMonitors, flock_updFlock_proj Flock.kept _ _ _ _ (by intro; rfl)]
    rfl
  · rfl

theorem flocks_sendReq (s : State) (c tk : Nat) (l : Bool) (a : W64) (op : ReqOp) :
    (s.sendReq c tk l a op).flocks = s.flocks := by
  unfold State.sendReq
  dsimp only
  split <;> rfl

theorem flocks_restoreMember (s : State) (fl i : Nat) : (s.restoreMember fl i).flocks = s.flocks :=
  foldl_keeps State.flocks _ (fun s _ => flocks_sendReq s _ _ _ _ _) _ (s.setCtx _ _)

/-- The contexts of a flock are back on their cores. -/
def State.restoreMembers (s : State) (fl : Nat) : State := (s.flock fl).ctxs.foldl (fun s e => s.restoreMember fl e.1) s

theorem flocks_restoreMembers (s : State) (fl : Nat) : (s.restoreMembers fl).flocks = s.flocks :=
  foldl_keeps State.flocks _ (fun s (e : Nat × Ctx) => flocks_restoreMember s fl e.1) _ s

theorem restoreFlock_eq (s : State) (fl : Nat) : s.restoreFlock fl =
    ((s.restoreMembers fl).dropSlots fl).updFlock fl fun f =>
      { f with status := .running, runAt := s.now, resuming := false, ctxs := [] } := rfl

theorem flocks_dropSlots (s : State) (fl : Nat) : (s.dropSlots fl).flocks = s.flocks := rfl

/-- A flock whose contexts are back runs on (R40). -/
theorem flock_restoreFlock (s : State) (fl : Nat) : (s.restoreFlock fl).flock fl =
    { s.flock fl with status := .running, runAt := s.now, resuming := false, ctxs := [] } := by
  rw [restoreFlock_eq, State.flock_updFlock_same,
    flock_congr ((flocks_dropSlots _ fl).trans (flocks_restoreMembers s fl))]

/-- A projection of flocks that does not see a resumption's own marks. -/
theorem flock_restoreFlock_proj {α : Type} (p : Flock → α)
    (hp : ∀ f st r b c, p { f with status := st, runAt := r, resuming := b, ctxs := c } = p f) (s : State) (fl k : Nat) :
    p ((s.restoreFlock fl).flock k) = p (s.flock k) := by
  rw [restoreFlock_eq, flock_updFlock_proj p _ _ _ _ fun f => hp f _ _ _ _,
    flock_congr ((flocks_dropSlots _ fl).trans (flocks_restoreMembers s fl))]

/-- The cores and local memories of a pre-empted flock are its own again (R40). -/
def State.regained (s : State) (fl : Nat) : State :=
  (s.flock fl).ctxs.foldl (fun s e => s.bringBack fl e.1) ((s.flock fl).needs.foldl (fun s id => s.takeCore fl id) s)

theorem now_regained (s : State) (fl : Nat) : (s.regained fl).now = s.now := by
  rw [State.regained, foldl_keeps State.now _ (fun s (e : Nat × Ctx) => now_bringBack s fl e.1)]
  exact foldl_keeps State.now _ (fun s id => now_of_bytes (bytes_takeCore s fl id)) _ s

theorem flock_regained_kept (s : State) (fl k : Nat) : ((s.regained fl).flock k).kept = (s.flock k).kept := by
  rw [State.regained, foldl_keeps (fun s => (s.flock k).kept) _ (fun s (e : Nat × Ctx) => flock_bringBack_kept s fl e.1 k)]
  exact foldl_keeps (fun s => (s.flock k).kept) _ (fun s id => flock_takeCore_kept s fl id k) _ s

/-- Without ports that were given away, a pre-empted flock with nothing before it goes on at once (R40). -/
theorem tryResume_clear (s : State) (fl : Nat) (hstatus : (s.flock fl).status = .preempted)
    (hsus : (s.flock fl).suspended = false) (htiles : s.tilesSettled (s.flock fl) = true) (hclear : s.Clear fl)
    (hports : s.portHolder fl = []) (hdrover : (s.flock fl).drover = none) :
    s.tryResume fl = (s.regained fl).restoreFlock fl := by
  obtain ⟨hafter, hblock⟩ := hclear
  simp [State.tryResume, hstatus, hsus, htiles, hafter, hblock, hports, State.clearing, State.reoccupy, hdrover,
    State.regained]

/-! ## Requests for a cut -/

theorem preempt_askCut (x : Ctx) : x.askCut.preempt = true := by
  unfold Ctx.askCut
  split
  · assumption
  · rfl

theorem bytes_askCuts (s : State) (fl : Nat) : (s.askCuts fl).bytes = s.bytes :=
  foldl_keeps State.bytes _ (by intros; rfl) _ s

theorem flocks_askCuts (s : State) (fl : Nat) : (s.askCuts fl).flocks = s.flocks :=
  foldl_keeps State.flocks _ (by intros; rfl) _ s

/-- Every member on a core is asked for its cut (R38). -/
theorem asked_askCuts (s : State) (fl : Nat) {j : Nat} (hj : j ∈ s.liveMembers fl) :
    ((s.askCuts fl).ctx (s.memberCore fl j)).preempt = true := by
  refine foldl_establishes (fun t => t.memberCore = s.memberCore)
    (fun t => (t.ctx (s.memberCore fl j)).preempt = true) _ j
    (by exact fun t i ht => ht) (fun t ht => ?_) (fun t i ht hP => ?_) _ hj s rfl
  · rw [ht, State.ctx_updCtx_same, preempt_askCut]
  · by_cases hc : s.memberCore fl j = t.memberCore fl i
    · rw [hc, State.ctx_updCtx_same, preempt_askCut]
    · rw [State.ctx_updCtx_ne _ _ hc, hP]

/-- The state of a flock that has been asked for a cut. -/
def State.preempting (s : State) (fl : Nat) : State :=
  s.updFlock fl fun f => { f with status := .preempting, cutAt := s.now }

theorem preempt_running (s : State) (fl : Nat) (h : (s.flock fl).status = .running) :
    s.preempt fl = (s.preempting fl).askCuts fl := if_pos h

theorem liveMembers_preempting (s : State) (fl : Nat) : (s.preempting fl).liveMembers fl = s.liveMembers fl := by
  unfold State.liveMembers State.memberCore State.preempting
  rw [State.flock_updFlock_same]
  rfl

theorem memberCore_preempting (s : State) (fl i : Nat) : (s.preempting fl).memberCore fl i = s.memberCore fl i := by
  unfold State.memberCore State.preempting
  rw [State.flock_updFlock_same]
  rfl

/-! ## The tick of a launch -/

/-- What a tick decides of a launch: that it is released, at what time, and in what period (R37, R393). -/
def Flock.clock (f : Flock) : Bool × Nat × Nat := (f.released, f.tickAt, f.period)

theorem clock_preempt (s : State) (o k : Nat) : ((s.preempt o).flock k).clock = (s.flock k).clock := by
  unfold State.preempt
  split
  · rw [flock_congr (flocks_askCuts _ o)]
    exact flock_updFlock_proj Flock.clock s o k _ (by intro; rfl)
  · rfl

theorem clock_setOff (s : State) (fl k : Nat) : ((s.setOff fl).flock k).clock = (s.flock k).clock := by
  rw [State.setOff, flock_updFlock_proj Flock.clock _ _ _ _ (by intro; rfl)]
  exact foldl_keeps (fun s => (s.flock k).clock) _ (by intros; rfl) _ s

/-- A release leaves a flock as it is, or restores it or sets it off, and then asks one that has been suspended for a cut. -/
theorem releaseFlock_cases (s : State) (fl : Nat) : s.releaseFlock fl = s ∨
    ∃ u, (u = s.restoreFlock fl ∨ u = s.setOff fl) ∧ (s.releaseFlock fl = u ∨ s.releaseFlock fl = u.preempt fl) := by
  have hset : s.releaseFlock fl = s ∨ s.releaseFlock fl =
      let u := if (s.flock fl).resuming then s.restoreFlock fl else s.setOff fl
      if (s.flock fl).suspended then u.preempt fl else u := by
    unfold State.releaseFlock
    exact ite_eq_or_eq _ _ _
  refine hset.imp_right fun h => 
    ⟨if (s.flock fl).resuming then s.restoreFlock fl else s.setOff fl, ite_eq_or_eq _ _ _, ?_⟩
  rw [h]
  exact (ite_eq_or_eq _ _ _).symm

theorem clock_releaseFlock (s : State) (fl k : Nat) : ((s.releaseFlock fl).flock k).clock = (s.flock k).clock := by
  rcases releaseFlock_cases s fl with h | ⟨u, hu, h⟩
  · rw [h]
  · have hclock : (u.flock k).clock = (s.flock k).clock := by
      rcases hu with rfl | rfl
      · exact flock_restoreFlock_proj Flock.clock (by intros; rfl) s fl k
      · exact clock_setOff s fl k
    rcases h with h | h <;> rw [h]
    · exact hclock
    · rw [clock_preempt, hclock]

theorem clock_place (s : State) (fl : Nat) (image : List Byte) (k : Nat) :
    ((s.place fl image).flock k).clock = (s.flock k).clock := by
  rw [place_eq, clock_releaseFlock]
  exact (congrArg Flock.clock (flock_seated_kept s fl image k) :)

theorem clock_endLaunch (s : State) (fl : Nat) (cause : Cause) (detail : Byte) (k : Nat) :
    ((s.endLaunch fl cause detail).flock k).clock = (s.flock k).clock := by
  rw [State.endLaunch, flock_leaveQueue_proj Flock.clock (by intros; rfl)]
  exact flock_updFlock_proj Flock.clock s fl k _ (by intro; rfl)

theorem failDependants_succ (n : Nat) (s : State) : State.failDependants (n + 1) s = s ∨
    ∃ k, State.failDependants (n + 1) s = State.failDependants n (s.endLaunch k 0x82 0) := by
  rw [State.failDependants]
  split
  · exact .inl rfl
  · exact .inr ⟨_, rfl⟩

/-- What no end of a launch changes, the settling of dependences does not change (R29). -/
theorem settleDeps_keeps (P : State → Prop) (hP : ∀ s k cause detail, P s → P (s.endLaunch k cause detail)) (s : State)
    (h : P s) : P s.settleDeps := by
  have keeps : ∀ (n : Nat) (s : State), P s → P (State.failDependants n s) := by
    intro n
    induction n with
    | zero => exact fun s h => h
    | succ n ih =>
      intro s h
      rcases failDependants_succ n s with e | ⟨k, e⟩ <;> rw [e]
      · exact h
      · exact ih _ (hP s k _ _ h)
  exact keeps _ s h

theorem soon_of_clearing {s t : State} {fl : Nat} {olds : List Nat} (h : s.clearing fl olds = .soon t) :
    t = olds.foldl State.preempt s := by
  unfold State.clearing at h
  split at h
  · cases h
  · split at h
    · cases h; rfl
    · cases h

/-- What a try to place a launch can do: nothing, ask others for their cores, place it, or end it (R30, R36). -/
theorem tryPlace_cases (s : State) (fl : Nat) : s.tryPlace fl = s ∨
    (∃ olds, s.tryPlace fl = List.foldl State.preempt s olds ∨
      s.tryPlace fl = (List.foldl State.preempt s olds).leaveQueue fl) ∨
    (∃ image, s.tryPlace fl = s.place fl image) ∨ ∃ cause, s.tryPlace fl = (s.endLaunch fl cause 0).settleDeps := by
  unfold State.tryPlace
  dsimp only
  split
  · exact .inl rfl
  split
  · exact .inl rfl
  · next t ht =>
    rw [soon_of_clearing ht]
    refine .inr (.inl ⟨s.blockers fl, ?_⟩)
    split
    · exact .inr rfl
    · exact .inl rfl
  · split
    · exact .inr (.inr (.inl ⟨_, rfl⟩))
    split
    · exact .inr (.inr (.inr ⟨_, rfl⟩))
    split
    · exact .inr (.inr (.inl ⟨_, rfl⟩))
    · exact .inr (.inr (.inr ⟨_, rfl⟩))
    · exact .inl rfl

/-- A try to place a launch changes no flock's tick. -/
theorem clock_tryPlace (s : State) (fl k : Nat) : ((s.tryPlace fl).flock k).clock = (s.flock k).clock := by
  have hpreempt : ∀ olds : List Nat, ((olds.foldl State.preempt s).flock k).clock = (s.flock k).clock := fun olds =>
    foldl_keeps (fun s => (s.flock k).clock) _ (fun s o => clock_preempt s o k) olds s
  rcases tryPlace_cases s fl with h | ⟨olds, h | h⟩ | ⟨image, h⟩ | ⟨cause, h⟩ <;> rw [h]
  · exact hpreempt olds
  · rw [flock_leaveQueue_proj Flock.clock (by intros; rfl), hpreempt olds]
  · exact clock_place s fl image k
  · exact settleDeps_keeps (fun t => (t.flock k).clock = (s.flock k).clock)
      (fun t j c d ht => (clock_endLaunch t j c d k).trans ht) _ (clock_endLaunch s fl cause 0 k)

/-- A tick that has come, or a queue without a cadence, releases the launch that waits (R37, R393). -/
theorem clock_releaseTick (s : State) (n q fl : Nat)
    (hdue : (s.queue n q).cadP = 0 ∨
      (s.queue n q).cadPhase + s.tickOf n q fl * (s.queue n q).cadP ≤ s.now - (s.part n).createdAt) :
    ((s.releaseTick n q fl).flock fl).released = true ∧
      ((s.queue n q).cadP ≠ 0 →
        ((s.releaseTick n q fl).flock fl).tickAt = (s.queue n q).cadPhase + s.tickOf n q fl * (s.queue n q).cadP ∧
        ((s.releaseTick n q fl).flock fl).period = (s.queue n q).cadP) := by
  unfold State.releaseTick
  dsimp only
  split
  · next h0 => simp [h0]
  · next h0 =>
    rw [if_neg (Nat.not_lt.2 (hdue.resolve_left h0))]
    simp

/-! ## The scheduler's moves -/

/-- The moves of the scheduler are the shepherd core's (R407). -/
theorem scheduler_move (fl n q : Nat) (i : Instr) (hi : i ∈ ([.launchPlace fl, .cadenceTopBand fl, .flockResume fl,
    .quantumExpiry fl, .cadenceTick n q, .cadenceMissedTick fl] : List Instr)) :
    ∃ move : State → State, ∀ s, exec i s = s.shepherd move := by
  simp only [List.mem_cons, List.not_mem_nil, or_false] at hi
  rcases hi with rfl | rfl | rfl | rfl | rfl | rfl
  · exact ⟨_, fun s => (rfl : execLaunchPlace fl s = _)⟩
  · exact ⟨_, fun s => (rfl : execCadenceTopBand fl s = _)⟩
  · exact ⟨_, fun s => (rfl : execFlockResume fl s = _)⟩
  · exact ⟨_, fun s => (rfl : execQuantumExpiry fl s = _)⟩
  · exact ⟨_, fun s => (rfl : execCadenceTick n q s = _)⟩
  · exact ⟨_, fun s => (rfl : execCadenceMissedTick fl s = _)⟩

theorem launchPlace_eq (s : State) (fl : Nat) (hfl : mhas s.flocks fl = true) (hshr : s.glob.shr = false) :
    exec (.launchPlace fl) s = .next ((s.tryPlace fl).releaseFlock fl) :=
  (shepherd_eq s _ hshr).trans (by rw [hfl, if_pos rfl])

theorem flockResume_eq (s : State) (fl : Nat) (hshr : s.glob.shr = false) :
    exec (.flockResume fl) s = .next ((s.tryResume fl).releaseFlock fl) := by
  change execFlockResume fl s = _
  rw [execFlockResume, shepherd_eq s _ hshr]

/-- A waiting launch without a circuit program that nothing stands before runs (R30, R31). -/
theorem launchPlace_runs {s : State} {fl : Nat} (hfl : mhas s.flocks fl = true) (hshr : s.glob.shr = false)
    (hplace : s.tryPlace fl = s.place fl []) (hruns : RunsFrom s (s.place fl []) fl) :
    ∃ t, exec (.launchPlace fl) s = .next t ∧ RunsFrom s t fl := by
  refine ⟨_, launchPlace_eq s fl hfl hshr, ?_⟩
  rw [hplace, hruns.releaseFlock]
  exact hruns

/-- A launch in the top band of its period is tried again, and placed where nothing stands before it (R37). -/
theorem cadenceTopBand_runs {s : State} {fl : Nat} (hshr : s.glob.shr = false)
    (hstatus : (s.flock fl).status = .waiting) (htick : (s.flock fl).tick.isSome = true)
    (hreleased : (s.flock fl).released = true)
    (hband : 16 * (s.flock fl).period ≤ 32 * (s.now - (s.part (s.flock fl).part).createdAt - (s.flock fl).tickAt))
    (hplace : s.tryPlace fl = s.place fl []) (hruns : RunsFrom s (s.place fl []) fl) :
    ∃ t, exec (.cadenceTopBand fl) s = .next t ∧ RunsFrom s t fl := by
  refine ⟨_, shepherd_eq s _ hshr, ?_⟩
  rw [if_pos ⟨htick, hreleased, hband⟩, if_pos hstatus, hplace]
  exact hruns

/-- A waiting launch with a circuit program has the drover take it (R30, R341). -/
theorem launchPlace_program {s : State} {fl : Nat} (hfl : mhas s.flocks fl = true) (hshr : s.glob.shr = false)
    {image : List Byte} (hplace : s.tryPlace fl = s.place fl image) (hlen : (s.flock fl).circLen ≠ 0) :
    ∃ t, exec (.launchPlace fl) s = .next t ∧ (t.flock fl).status = .placed ∧ (t.flock fl).left = true ∧
      (t.part (s.flock fl).part).drover.owner = some fl ∧ (t.part (s.flock fl).part).drover.decoding = true ∧
      (t.part (s.flock fl).part).drover.prog.length = (s.flock fl).circLen := by
  obtain ⟨prog, hprog, hdrover⟩ := drover_seated s fl image hlen
  have hwait : (s.seated fl image).releaseFlock fl = s.seated fl image := place_program s fl image hlen
  refine ⟨_, launchPlace_eq s fl hfl hshr, ?_⟩
  rw [hplace, place_program s fl image hlen, hwait, hdrover]
  exact ⟨status_seated s fl image, left_seated s fl image, rfl, rfl, hprog⟩

/-- A placed flock whose circuits are live or dead, or have no step, is released (R326, R342). -/
theorem launchPlace_releases {s : State} {fl : Nat} (hfl : mhas s.flocks fl = true) (hshr : s.glob.shr = false)
    (hstatus : (s.flock fl).status = .placed) (hres : (s.flock fl).resuming = false)
    (hsus : (s.flock fl).suspended = false) (howner : (s.part (s.flock fl).part).drover.owner = some fl)
    (hready : (s.part (s.flock fl).part).drover.readyToRun = true) :
    ∃ t, exec (.launchPlace fl) s = .next t ∧ (t.flock fl).status = .running ∧ (t.flock fl).runAt = s.now ∧
      ∀ j ∈ s.liveMembers fl, (t.ctx (s.memberCore fl j)).Released := by
  refine ⟨_, launchPlace_eq s fl hfl hshr, ?_⟩
  rw [tryPlace_not_waiting s fl (by rw [hstatus]; decide),
    releaseFlock_new s fl hstatus (.inr ⟨howner, hready⟩) hres hsus, flock_setOff]
  exact ⟨rfl, rfl, fun j hj => released_setOff s fl hj⟩

/-- A pre-empted flock with nothing before it, and no ports given away, resumes (R40). -/
theorem flockResume_runs {s : State} {fl : Nat} (hshr : s.glob.shr = false)
    (hresume : s.tryResume fl = (s.regained fl).restoreFlock fl) :
    ∃ t, exec (.flockResume fl) s = .next t ∧ (t.flock fl).status = .running ∧ (t.flock fl).runAt = s.now ∧
      (t.flock fl).ctxs = [] ∧ (t.flock fl).members = (s.flock fl).members := by
  have hflock := flock_restoreFlock (s.regained fl) fl
  refine ⟨_, flockResume_eq s fl hshr, ?_⟩
  rw [hresume, releaseFlock_not_placed _ fl (by simp [hflock]), hflock]
  exact ⟨rfl, now_regained s fl, rfl, (congrArg Flock.members (flock_regained_kept s fl fl) :)⟩

/-- A quantum that is over, with another flock that is to have its turn, asks for a cut (R36, R38). -/
theorem quantumExpiry_asks {s : State} {fl : Nat} (hshr : s.glob.shr = false) (hstatus : (s.flock fl).status = .running)
    (hover : (s.flock fl).runAt + 1000 * (s.part (s.flock fl).part).quantum ≤ s.now)
    (hwanted : ∃ e ∈ s.flocks, e.1 ≠ fl ∧ e.2.part = (s.flock fl).part ∧ s.wantsCores e.1 = true ∧
      (∃ id ∈ e.2.needs, s.holderOf (s.flock fl).part id = some fl) ∧ s.priority fl ≤ s.priority e.1) :
    ∃ t, exec (.quantumExpiry fl) s = .next t ∧ (t.flock fl).status = .preempting ∧ t.mem = s.mem ∧ t.lm = s.lm ∧
      ∀ j ∈ s.liveMembers fl, (t.ctx (s.memberCore fl j)).preempt = true := by
  have hmove : exec (.quantumExpiry fl) s = .next (s.preempt fl) := by
    refine (shepherd_eq s _ hshr).trans (congrArg _ (if_pos ⟨hstatus, decide_eq_true hover, ?_⟩))
    obtain ⟨e, he, hne, hpart, hwants, ⟨id, hid, hholder⟩, hprio⟩ := hwanted
    simp only [List.any_eq_true, Bool.and_eq_true, bne_iff_ne, beq_iff_eq, decide_eq_true_eq]
    exact ⟨e, he, ⟨⟨⟨hne, hpart⟩, hwants⟩, id, hid, hholder⟩, hprio⟩
  obtain ⟨-, hmem, hlm, -⟩ := (bytes_eq_iff (s.preempting fl) _).1 (bytes_askCuts (s.preempting fl) fl)
  refine ⟨_, hmove, ?_⟩
  rw [preempt_running s fl hstatus, flock_congr (flocks_askCuts _ fl), State.preempting, State.flock_updFlock_same]
  refine ⟨rfl, hmem, hlm, fun j hj => ?_⟩
  change ((State.askCuts (s.preempting fl) fl).ctx _).preempt = true
  rw [← memberCore_preempting]
  exact asked_askCuts _ fl (by rwa [liveMembers_preempting])

/-- A tick that has come releases the launch that waits for it (R37, R393). -/
theorem cadenceTick_releases {s : State} {fl n q : Nat} (hshr : s.glob.shr = false) (hstray : s.strayCadence n q = none)
    (hwaits : s.cadenceWaiting n q = some fl) :
    exec (.cadenceTick n q) s = .next ((s.releaseTick n q fl).tryPlace fl) := by
  change execCadenceTick n q s = _
  rw [execCadenceTick, shepherd_eq s _ hshr]
  simp only [State.strayToTick, hstray, hwaits]

theorem queue_updQueue_same (s : State) (n q : Nat) (g : CmdQueue → CmdQueue) :
    (s.updQueue n q g).queue n q = g (s.queue n q) := by
  simp [State.queue, State.updQueue]

/-- A cadence launch that has not ended by its next tick has missed it, and its queue counts the miss (R37, R393). -/
theorem cadenceMissedTick_counts {s : State} {fl q : Nat} (hshr : s.glob.shr = false) (hq : (s.flock fl).queue = some q)
    (htick : (s.flock fl).tick.isSome = true) (hreleased : (s.flock fl).released = true)
    (hmissed : (s.flock fl).missed = false)
    (hover : (s.flock fl).tickAt + (s.flock fl).period ≤ s.now - (s.part (s.flock fl).part).createdAt)
    (hretired : (s.flock fl).status ≠ .retired) (hfailed : (s.flock fl).status ≠ .failed) :
    exec (.cadenceMissedTick fl) s = .next ((s.updFlock fl fun f => { f with missed := true }).updQueue (s.flock fl).part q
      fun k => { k with missed := satAdd (2 ^ 32 - 1) k.missed 1 }) := by
  change execCadenceMissedTick fl s = _
  rw [execCadenceMissedTick, shepherd_eq s _ hshr]
  dsimp only
  rw [hq]
  refine congrArg _ (if_pos ⟨htick, hreleased, hmissed, decide_eq_true hover, ?_⟩)
  split
  · next h => exact absurd h hretired
  · next h => exact absurd h hfailed
  · rfl

/-- Settles O49: each move of the scheduler, under the conditions at which it acts. -/
theorem flocksAreScheduled : Obligations.FlocksAreScheduled := by
  intro fl s hfl f part clear atHeaders runs
  refine ⟨fun hshr n q i hi => ?_,
    fun hshr => ⟨fun hstatus hres hwants hclear => ⟨fun hlen => ?_, fun hlen haddr image hread => ?_⟩,
    fun hstatus hres hsus _ howner hready => launchPlace_releases hfl hshr hstatus hres hsus howner hready,
    fun hstatus hsus htiles hclear hports hdrover => ?_,
    fun hstatus hover hwanted => quantumExpiry_asks hshr hstatus hover hwanted,
    fun n q hstray hwaits => ?_, fun q hq htick hreleased hmissed hover hretired hfailed => ?_⟩⟩
  · obtain ⟨move, hmove⟩ := scheduler_move fl n q i hi
    rw [hmove, shepherd_waits s _ hshr]
  · have hplace := tryPlace_clear s fl hstatus hwants hclear hlen
    have hruns := place_runs s fl hlen hres (suspended_of_wantsCores hwants)
    exact ⟨launchPlace_runs hfl hshr hplace hruns, fun htick hreleased hband =>
      cadenceTopBand_runs hshr hstatus htick hreleased hband hplace hruns⟩
  · exact launchPlace_program hfl hshr (tryPlace_program s fl hstatus hwants hclear hlen haddr hread) hlen
  · exact flockResume_runs hshr (tryResume_clear s fl hstatus hsus htiles hclear hports hdrover)
  · intro k at_ hdue
    refine ⟨_, cadenceTick_releases hshr hstray hwaits, ?_⟩
    have hclock := clock_tryPlace (s.releaseTick n q fl) fl fl
    simp only [Flock.clock, Prod.mk.injEq] at hclock
    obtain ⟨hreleased, htickAt, hperiod⟩ := hclock
    rw [hreleased, htickAt, hperiod]
    exact clock_releaseTick s n q fl hdue
  · refine ⟨_, cadenceMissedTick_counts hshr hq htick hreleased hmissed hover hretired hfailed, ?_, ?_, rfl, rfl⟩
    · rw [flock_updQueue, State.flock_updFlock_same]
    · rw [queue_updQueue_same]; rfl

end Sys2Proof.Machine

/-! PROOFS. Cuts, forced cuts and retirement (O50): what a cut saves, what ends with a flock, and what the front end's writes
leave alone. -/

namespace Sys2Proof.Machine

/-! ## Flocks, contexts and seats under the writes of the front end -/

/-- The flocks, the contexts of the cores, and where the cores of each partition lie: what no write of the front end changes. -/
def State.crew (s : State) : AMap Flock × AMap Ctx × (Nat → Nat × Nat × Nat × AMap Nat) := (s.flocks, s.cores, s.seats)

theorem crew_eq_iff (s t : State) :
    t.crew = s.crew ↔ t.flocks = s.flocks ∧ t.cores = s.cores ∧ t.seats = s.seats := by
  simp [State.crew]

theorem crew_updPart (s : State) (n : Nat) (g : Partition → Partition)
    (hg : ∀ p, ((g p).x0, (g p).y0, (g p).w, (g p).place) = (p.x0, p.y0, p.w, p.place)) :
    (s.updPart n g).crew = s.crew :=
  (crew_eq_iff s _).2 ⟨rfl, rfl, funext fun k => seats_updPart s n k g hg⟩

theorem crew_drainPort (s : State) (port n : Nat) : (s.drainPort port n).crew = s.crew := by
  unfold State.drainPort
  split <;> rfl

theorem crew_drainAll (s : State) : s.drainAll.crew = s.crew := by
  refine foldl_keeps State.crew _ (fun s p => ?_) (List.range 4) s
  split
  · exact crew_drainPort s p _
  · rfl

theorem crew_acceptHost (s : State) (port a : Nat) (bs : List Byte) : (s.acceptHost port a bs).crew = s.crew := by
  unfold State.acceptHost
  split
  · exact crew_drainPort _ port _
  · rfl

theorem crew_fireMonitors (s : State) (inMem : Bool) (k n : Nat) : (s.fireMonitors inMem k n).crew = s.crew := rfl

theorem crew_writeLoc (s : State) (loc : Loc) (bs : List Byte) : (s.writeLoc loc bs).crew = s.crew := by
  cases loc with
  | panel t o =>
    unfold State.writeLoc
    dsimp only
    rw [crew_fireMonitors]
    split <;> rfl
  | lm c o => rfl
  | host port a at_ => exact crew_acceptHost s port a bs
  | foreign p => rfl

theorem crew_fePieces (part : Nat) (ps : List (Nat × Nat)) (s : State) (bs : List Byte) :
    (s.fePieces part bs ps).1.crew = s.crew := by
  induction ps generalizing s bs with
  | nil => rfl
  | cons p ps ih =>
    obtain ⟨a, n⟩ := p
    unfold State.fePieces
    split
    · rw [ih, crew_writeLoc]
    · rfl
    · rfl
    · dsimp only
      split
      · exact ih _ _
      · rfl

theorem crew_feEnded (s : State) (part a : Nat) : (s.feEnded part a).crew = s.crew :=
  crew_updPart s part _ (by intro; rfl)

theorem crew_feWrite (s : State) (part a : Nat) (bs : List Byte) : (s.feWrite part a bs).1.crew = s.crew := by
  unfold State.feWrite
  split
  · rfl
  · unfold State.feAnswer
    split
    · split
      · exact crew_feEnded s part a
      · rfl
    · exact (crew_feEnded _ part a).trans (crew_fePieces part _ s bs)

theorem crew_sendIrq (s : State) (port vec : Nat) : (s.sendIrq port vec).crew = s.crew := by
  unfold State.sendIrq
  split <;> rfl

theorem crew_systemRelease (s : State) : s.systemRelease.crew = s.crew := crew_drainAll s

/-- The writing of a completion record that is done changes storage, ports and the front end's own marks alone (R400). -/
theorem crew_writeRecord {s u : State} {fl : Nat} (h : s.writeRecord fl = (u, true)) : u.crew = s.crew := by
  unfold State.writeRecord at h
  extract_lets f irq v at h
  have hirq : ∀ t, (irq t).crew = t.crew := by
    intro t
    unfold irq
    split
    · split
      · exact crew_sendIrq t _ _
      · rfl
    · rfl
  have hv : v.crew = s.crew := crew_systemRelease s
  split at h
  · cases h
    exact (hirq v).trans hv
  split at h
  · cases h
  next t _ _ ht =>
    have htail : t.crew = v.crew := by
      have := crew_feWrite v f.part (f.csig + 8) f.recordTail
      rwa [ht] at this
    split at h
    · cases h
    next w _ _ hw =>
      have hval : w.crew = t.crew := by
        have := crew_feWrite t.systemRelease f.part f.csig (wordLE f.cval)
        rw [hw] at this
        exact this.trans (crew_systemRelease t)
      cases h
      exact (hirq _).trans ((crew_systemRelease w).trans (hval.trans (htail.trans hv)))

/-- The statistics of a member are written to storage alone (R260). -/
theorem crew_writeStats (c base : Nat) (ks : List Nat) (s u : State) (first last : Cause)
    (h : s.writeStats c base ks first = .ok (u, last)) : u.crew = s.crew := by
  induction ks generalizing s first with
  | nil =>
    cases h
    rfl
  | cons k ks ih =>
    unfold State.writeStats at h
    dsimp only at h
    split at h
    · exact ih s _ h
    split at h
    · split at h
      · cases h
      · exact (ih _ _ h).trans (crew_writeLoc s _ _)
    · split at h
      · cases h
      · exact ih s _ h
    · exact ih s _ h
    · exact ih s _ h

/-! ## What ends with a flock -/

/-- The context of a core is blank: no flock holds it. -/
def State.blank (s : State) (c : Nat) : Prop := s.ctx c = {}

theorem ctx_wakeAll (s : State) (c : Nat) : s.wakeAll.ctx c = (s.ctx c).wake :=
  mget_mapVal Ctx.wake {} s.cores c

theorem blank_wakeAll {s : State} {c : Nat} (h : s.blank c) : s.wakeAll.blank c := by
  rw [State.blank, ctx_wakeAll, h]
  rfl

/-- A read of a store in which the entries that `p` picks have been cleared. -/
theorem mget_cleared {α : Type} (d : α) (m : AMap α) (p : Nat → Bool) (k : Nat) :
    mget d (m.map fun e => if p e.1 then (e.1, d) else e) k = if p k then d else mget d m k := by
  induction m with
  | nil => simp [mget]
  | cons e t ih =>
    obtain ⟨j, x⟩ := e
    by_cases hj : j = k
    · subst hj
      cases hp : p j <;> simp [hp, mget]
    · cases hp : p j <;> simpa [hp, mget, hj] using ih

/-- The cores of a flock's live members. -/
def State.liveCores (s : State) (fl : Nat) : List Nat := (s.liveMembers fl).map (s.memberCore fl)

/-- Giving back cores changes their recorded holders alone. -/
theorem giveBack_keeps {β : Type} (p : State → β) (hp : ∀ s n g, p (State.updPart s n g) = p s) (s : State) (fl part : Nat)
    (ids : List (BitVec 12)) :
    p (ids.foldl (fun s id => if s.holderOf part id = some fl then s.giveBack part id else s) s) = p s := by
  refine foldl_keeps p _ (fun s id => ?_) ids s
  split
  · unfold State.giveBack
    exact hp s _ _
  · rfl

theorem bytes_freeCores (s : State) (fl : Nat) : (s.freeCores fl).bytes = s.bytes :=
  giveBack_keeps State.bytes (by intros; rfl) _ fl _ _

theorem flocks_freeCores (s : State) (fl : Nat) : (s.freeCores fl).flocks = s.flocks :=
  giveBack_keeps State.flocks (by intros; rfl) _ fl _ _

/-- The contexts of a flock's members go with its cores; no other core changes. -/
theorem ctx_freeCores (s : State) (fl c : Nat) :
    (s.freeCores fl).ctx c = if (s.liveCores fl).contains c then {} else s.ctx c :=
  (giveBack_keeps (fun s => s.ctx c) (by intros; rfl) _ fl _ _).trans
    (mget_cleared ({} : Ctx) s.cores (s.liveCores fl).contains c)

theorem bytes_leaveBarriers (s : State) (fl : Nat) : (s.leaveBarriers fl).bytes = s.bytes := rfl

theorem flocks_leaveBarriers (s : State) (fl : Nat) : (s.leaveBarriers fl).flocks = s.flocks := rfl

theorem blank_leaveBarriers {s : State} {c : Nat} (fl : Nat) (h : s.blank c) : (s.leaveBarriers fl).blank c :=
  blank_wakeAll (s := { s with dgrps := _ }) h

/-- A program that is taken out of the drover has its circuits torn down: ports, counts and wait marks change. -/
theorem dropProgram_cases (s : State) (n fl : Nat) : s.dropProgram n fl = s ∨
    ∃ (u : State) (g : Partition → Partition) (h : Drover → Drover), u.offTiles = s.offTiles ∧
      s.dropProgram n fl = ((u.updPart n g).wakeAll).updDrover n h := by
  unfold State.dropProgram
  split
  · exact .inr ⟨_, _, _, offTiles_freeAll s _, rfl⟩
  · exact .inl rfl

theorem bytes_dropProgram (s : State) (n fl : Nat) : (s.dropProgram n fl).bytes = s.bytes := by
  rcases dropProgram_cases s n fl with h | ⟨u, g, k, hu, h⟩ <;> rw [h]
  rw [bytes_updDrover, bytes_wakeAll, bytes_updPart, bytes_of_offTiles hu]

theorem flocks_dropProgram (s : State) (n fl : Nat) : (s.dropProgram n fl).flocks = s.flocks := by
  rcases dropProgram_cases s n fl with h | ⟨u, g, k, hu, h⟩ <;> rw [h]
  exact (flocks_of_offTiles hu :)

theorem blank_dropProgram {s : State} {c : Nat} (n fl : Nat) (hc : s.blank c) : (s.dropProgram n fl).blank c := by
  rcases dropProgram_cases s n fl with h | ⟨u, g, k, hu, h⟩ <;> rw [h]
  · exact hc
  · exact blank_wakeAll (s := u.updPart n g) ((ctx_congr (cores_of_offTiles hu) c).trans hc)

/-- The cores, barrier parties and circuit program of a flock have been given up (R32, R351, R398). -/
def State.cleared (s : State) (fl : Nat) : State := ((s.freeCores fl).leaveBarriers fl).endProgram fl

theorem endProgram_eq (s : State) (fl : Nat) : ∃ g, s.endProgram fl =
    ((s.dropProgram (s.flock fl).part fl).updPart (s.flock fl).part g).updFlock fl fun f => { f with drover := none } :=
  ⟨_, rfl⟩

theorem bytes_cleared (s : State) (fl : Nat) : (s.cleared fl).bytes = s.bytes := by
  obtain ⟨g, h⟩ := endProgram_eq ((s.freeCores fl).leaveBarriers fl) fl
  rw [State.cleared, h, bytes_updFlock, bytes_updPart, bytes_dropProgram, bytes_leaveBarriers, bytes_freeCores]

/-- A flock that is cleared loses its saved program and nothing else. -/
theorem flock_cleared (s : State) (fl : Nat) : (s.cleared fl).flock fl = { s.flock fl with drover := none } := by
  obtain ⟨g, h⟩ := endProgram_eq ((s.freeCores fl).leaveBarriers fl) fl
  rw [State.cleared, h, State.flock_updFlock_same, flock_updPart, flock_congr (flocks_dropProgram _ _ fl),
    flock_congr (flocks_leaveBarriers _ fl), flock_congr (flocks_freeCores s fl)]

/-- The core of a live member, and one that was blank before, is blank when a flock is cleared. -/
theorem blank_cleared {s : State} {fl c : Nat} (hc : c ∈ s.liveCores fl ∨ s.blank c) : (s.cleared fl).blank c := by
  obtain ⟨g, h⟩ := endProgram_eq ((s.freeCores fl).leaveBarriers fl) fl
  have hfree : (s.freeCores fl).blank c := by
    rw [State.blank, ctx_freeCores]
    rcases hc with hc | hc
    · rw [if_pos (List.contains_iff_mem.2 hc)]
    · rw [show s.ctx c = {} from hc, ite_self]
  rw [State.cleared, h]
  exact blank_dropProgram _ fl (blank_leaveBarriers fl hfree)

/-! ## Killed flocks -/

/-- A flock that has been killed or has failed, with no context of a member kept (R392). -/
def Flock.dropped (f : Flock) : Prop := f.status = .failed ∧ f.ctxs = []

theorem dropped_endLaunch (s : State) (k : Nat) (cause : Cause) (detail : Byte) (fl : Nat) (h : (s.flock fl).dropped) :
    ((s.endLaunch k cause detail).flock fl).dropped := by
  obtain ⟨hstatus, hctxs⟩ := h
  rw [State.endLaunch, Flock.dropped, flock_leaveQueue_proj Flock.status (by intros; rfl),
    flock_leaveQueue_proj Flock.ctxs (by intros; rfl)]
  by_cases hk : fl = k
  · subst hk
    rw [State.flock_updFlock_same]
    exact ⟨rfl, hctxs⟩
  · rw [State.flock_updFlock_ne s _ hk]
    exact ⟨hstatus, hctxs⟩

theorem bytes_endLaunch (s : State) (k : Nat) (cause : Cause) (detail : Byte) :
    (s.endLaunch k cause detail).bytes = s.bytes := by
  rw [State.endLaunch, bytes_leaveQueue, bytes_updFlock]

theorem cores_endLaunch (s : State) (k : Nat) (cause : Cause) (detail : Byte) :
    (s.endLaunch k cause detail).cores = s.cores := cores_leaveQueue _ k

theorem bytes_settleDeps (s : State) : s.settleDeps.bytes = s.bytes :=
  settleDeps_keeps (fun t => t.bytes = s.bytes) (fun t k c d ht => (bytes_endLaunch t k c d).trans ht) s rfl

theorem cores_settleDeps (s : State) : s.settleDeps.cores = s.cores :=
  settleDeps_keeps (fun t => t.cores = s.cores) (fun t k c d ht => (cores_endLaunch t k c d).trans ht) s rfl

theorem dropped_settleDeps (s : State) (fl : Nat) (h : (s.flock fl).dropped) : (s.settleDeps.flock fl).dropped :=
  settleDeps_keeps (fun t => (t.flock fl).dropped) (fun t k c d ht => dropped_endLaunch t k c d fl ht) s h

/-- A flock before its end is told to its dependants: cleared, with nothing of it kept. -/
def State.undone (s : State) (fl : Nat) : State :=
  ((s.cleared fl).dropSlots fl).updFlock fl fun f =>
    { f with status := .failed, ctxs := [], lms := [], lmsPoison := [], bars := [] }

theorem discard_eq (s : State) (fl : Nat) : s.discard fl = ((s.undone fl).leaveQueue fl).settleDeps := rfl

theorem bytes_discard (s : State) (fl : Nat) : (s.discard fl).bytes = s.bytes := by
  rw [discard_eq, bytes_settleDeps, bytes_leaveQueue, State.undone, bytes_updFlock]
  exact bytes_cleared s fl

theorem blank_discard {s : State} {fl c : Nat} (h : s.blank c) : (s.discard fl).blank c := by
  have hcores : (s.discard fl).cores = (s.cleared fl).cores := by
    rw [discard_eq, cores_settleDeps, cores_leaveQueue]
    rfl
  exact (ctx_congr hcores c).trans (blank_cleared (.inr h))

theorem dropped_discard (s : State) (fl : Nat) : ((s.discard fl).flock fl).dropped := by
  rw [discard_eq]
  refine dropped_settleDeps _ fl ?_
  rw [Flock.dropped, flock_leaveQueue_proj Flock.status (by intros; rfl), flock_leaveQueue_proj Flock.ctxs (by intros; rfl),
    State.undone, State.flock_updFlock_same]
  exact ⟨rfl, rfl⟩

/-! ## Cuts -/

/-- A core whose member has withdrawn a blocking WAITA and given up the transfers that a forced cut stops (R221, R331). -/
def State.withdrawn (s : State) (c : Nat) : State := (s.withdrawWait c).dropStopped c (s.stopped c)

/-- A context without its wait requests and unanswered numbers: what a withdrawal leaves alone. -/
def Ctx.offWaits (x : Ctx) : Ctx := { x with waits := [], f2res := 0, unanswered := [] }

/-- A withdrawal disarms monitors and changes the wait requests of its core; where no blocking WAITA waits, nothing. -/
theorem withdrawWait_cases (s : State) (c : Nat) : s.withdrawWait c = s ∨
    ∃ (f : Monitor → Bool) (g : Ctx → Ctx), (∀ x, (g x).offWaits = x.offWaits) ∧
      s.withdrawWait c = (s.disarm f).updCtx c g := by
  unfold State.withdrawWait
  dsimp only
  split
  · exact .inl rfl
  · refine .inr ⟨_, _, ?_, rfl⟩
    exact fun _ => rfl

theorem bytes_withdrawn (s : State) (c : Nat) : (s.withdrawn c).bytes = s.bytes := by
  change (s.withdrawWait c).bytes = _
  rcases withdrawWait_cases s c with h | ⟨f, g, -, h⟩ <;> rw [h]
  rfl

theorem flocks_withdrawn (s : State) (c : Nat) : (s.withdrawn c).flocks = s.flocks := by
  change (s.withdrawWait c).flocks = _
  rcases withdrawWait_cases s c with h | ⟨f, g, -, h⟩ <;> rw [h]
  rfl

theorem ctx_withdrawn_ne (s : State) {c d : Nat} (hd : d ≠ c) : (s.withdrawn c).ctx d = s.ctx d := by
  have hdrop : (s.withdrawn c).ctx d = (s.withdrawWait c).ctx d := State.ctx_updCtx_ne _ _ hd
  rw [hdrop]
  rcases withdrawWait_cases s c with h | ⟨f, g, -, h⟩ <;> rw [h]
  exact State.ctx_updCtx_ne (s.disarm f) g hd

theorem ctx_withdrawn_offWaits (s : State) (c : Nat) : ((s.withdrawn c).ctx c).offWaits = (s.ctx c).offWaits := by
  have hdrop : ((s.withdrawn c).ctx c).offWaits = ((s.withdrawWait c).ctx c).offWaits := by
    rw [State.withdrawn, State.dropStopped, State.ctx_updCtx_same]
    rfl
  rw [hdrop]
  rcases withdrawWait_cases s c with h | ⟨f, g, hg, h⟩ <;> rw [h]
  rw [State.ctx_updCtx_same, hg]
  rfl

/-- What a saved context holds of the one that was cut: its registers, queues and views, its issued results landed, the
matrix engine without its shadow tile, and no RECV or SEND under way (R39, R42, R133, R293, R405, log 80). -/
def Ctx.SavedFrom (y x : Ctx) : Prop :=
  y.l.g = x.l.g ∧ y.c.g = x.c.g ∧ y.s.g = x.s.g ∧ y.l.p = x.l.p ∧ y.c.p = x.c.p ∧ y.s.p = x.s.p ∧ y.lq = x.lq ∧
    y.sq = x.sq ∧ y.bq = x.bq ∧ y.st = x.st ∧ y.landings = [] ∧ y.opfile = x.landings.foldl landOne x.opfile ∧
    y.viewV = x.viewV ∧ y.viewT = x.viewT ∧ y.viewA = x.viewA ∧ y.mx = { x.mx with shadow := {} } ∧
    y.recvOn = none ∧ y.sendOn = none

theorem savedFrom_stands (x : Ctx) : x.stands.wake.SavedFrom x :=
  ⟨rfl, rfl, rfl, rfl, rfl, rfl, rfl, rfl, rfl, rfl, rfl, rfl, rfl, rfl, rfl, rfl, rfl, rfl⟩

/-- What a context holds of another does not depend on the other's wait requests. -/
theorem savedFrom_offWaits {y x : Ctx} (h : y.SavedFrom x.offWaits) : y.SavedFrom x := h

theorem savedCtx_savedFrom (s : State) (c : Nat) : ((s.withdrawn c).savedCtx c).SavedFrom (s.ctx c) := by
  have h := savedFrom_stands ((s.withdrawn c).ctx c)
  have h' : ((s.withdrawn c).savedCtx c).SavedFrom ((s.withdrawn c).ctx c).offWaits := h
  rw [ctx_withdrawn_offWaits] at h'
  exact savedFrom_offWaits h'

/-- The core of a member that has been cut is given up. -/
def State.vacant (s : State) (c : Nat) : State := (s.withdrawn c).setCtx c {}

theorem bytes_vacant (s : State) (c : Nat) : (s.vacant c).bytes = s.bytes := bytes_withdrawn s c

theorem flock_vacant (s : State) (c k : Nat) : (s.vacant c).flock k = s.flock k := flock_congr (flocks_withdrawn s c) k

theorem ctx_vacant_same (s : State) (c : Nat) : (s.vacant c).ctx c = {} := State.ctx_setCtx_same _ c _

theorem ctx_vacant_ne (s : State) {c d : Nat} (hd : d ≠ c) : (s.vacant c).ctx d = s.ctx d :=
  (State.ctx_setCtx_ne _ _ hd).trans (ctx_withdrawn_ne s hd)

/-- A member of a flock that is being killed is not saved (R392). -/
theorem saveMember_killing (s : State) {c fl : Nat} (hfl : (s.ctx c).flock = some fl)
    (hstatus : (s.flock fl).status = .killing) : s.saveMember c = s.vacant c := by
  have hkill : ((s.vacant c).flock ((s.ctx c).flock.getD 0)).status = .killing := by
    rw [flock_vacant, hfl]
    exact hstatus
  exact if_pos hkill

/-- A member that has been cut for a pre-emption is saved to its flock and to the slot of its core (R42, R405). -/
def State.memberSaved (s : State) (c fl : Nat) : State :=
  ((s.vacant c).updFlock fl fun f => { f with ctxs := mset f.ctxs (s.ctx c).member ((s.withdrawn c).savedCtx c) }).updTile
    (c / 64) fun t => t.keepSlot (c % 64) (fl, (s.ctx c).member)

theorem saveMember_saved (s : State) {c fl : Nat} (hfl : (s.ctx c).flock = some fl)
    (hstatus : (s.flock fl).status ≠ .killing) : s.saveMember c = s.memberSaved c fl := by
  have hlive : ((s.vacant c).flock ((s.ctx c).flock.getD 0)).status ≠ .killing := by
    rw [flock_vacant, hfl]
    exact hstatus
  have hsave : s.saveMember c = s.memberSaved c ((s.ctx c).flock.getD 0) := if_neg hlive
  rw [hsave, hfl]
  rfl

theorem bytes_memberSaved (s : State) (c fl : Nat) : (s.memberSaved c fl).bytes = s.bytes := bytes_vacant s c

theorem flock_memberSaved (s : State) (c fl : Nat) : (s.memberSaved c fl).flock fl =
    { s.flock fl with ctxs := mset (s.flock fl).ctxs (s.ctx c).member ((s.withdrawn c).savedCtx c) } := by
  rw [State.memberSaved, flock_updTile, State.flock_updFlock_same, flock_vacant]

theorem slot_memberSaved (s : State) (c fl : Nat) :
    mget (0, 0) ((s.memberSaved c fl).tile (c / 64)).slots (c % 64) = (fl, (s.ctx c).member) := by
  rw [State.memberSaved, State.tile_updTile_same]
  exact mget_mset_same _ _ _ _

/-- The last cut of a flock that is being pre-empted marks it pre-empted; nothing else happens to it (R40). -/
theorem cutFlock_preempting (s : State) (fl : Nat) (h : (s.flock fl).status = .preempting) : s.cutFlock fl = s ∨
    ∃ turn next, s.cutFlock fl =
      { s.updFlock fl fun f => { f with status := .preempted, turn := turn } with nextFlock := next } := by
  unfold State.cutFlock
  split
  · exact .inl rfl
  · rw [h]
    exact .inr ⟨_, _, rfl⟩

/-- A cut of a flock that is being pre-empted changes its status and its turn. -/
theorem cutFlock_preempting_frame (s : State) (fl : Nat) (h : (s.flock fl).status = .preempting) :
    (s.cutFlock fl).bytes = s.bytes ∧ (s.cutFlock fl).cores = s.cores ∧ (s.cutFlock fl).tiles = s.tiles ∧
      ∃ st turn, (st = .preempted ∨ st = .preempting) ∧
        (s.cutFlock fl).flock fl = { s.flock fl with status := st, turn := turn } := by
  rcases cutFlock_preempting s fl h with e | ⟨turn, next, e⟩ <;> rw [e]
  · exact ⟨rfl, rfl, rfl, _, _, .inr h, rfl⟩
  · refine ⟨rfl, rfl, rfl, _, turn, .inl rfl, ?_⟩
    exact State.flock_updFlock_same s fl fun f => { f with status := .preempted, turn := turn }

/-- A cut of a flock that is being killed discards it once it is the last (R392). -/
theorem cutFlock_killing (s : State) (fl : Nat) (h : (s.flock fl).status = .killing) :
    s.cutFlock fl = s ∨ s.cutFlock fl = s.discard fl := by
  unfold State.cutFlock
  split
  · exact .inl rfl
  · rw [h]
    exact .inr rfl

/-- A member that has reached its cut, and of whose trap the front end knows, is saved (R38, R401, log 41). -/
theorem preemptCut_eq {s : State} {c fl : Nat} (hfl : (s.ctx c).flock = some fl) (hpre : (s.ctx c).preempt = true)
    (hcut : s.cutDone c = true)
    (htold : (∀ t, (s.ctx c).trap = some t → t.written = true) ∨ (s.flock fl).status = .killing) :
    exec (.preemptCut c) s = .next ((s.saveMember c).cutFlock fl) := by
  change execPreemptCut c s = _
  unfold execPreemptCut
  dsimp only
  rw [hfl, hpre, hcut]
  simp only [Option.isSome_some, Option.getD_some, Bool.true_and, Bool.and_true]
  refine congrArg _ (if_pos ?_)
  split
  · next t ht =>
    rcases htold with h | h
    · simp [h t ht]
    · simp [h]
  · rfl

theorem preemptCut_saves {s : State} {c fl : Nat} (hfl : (s.ctx c).flock = some fl) (hpre : (s.ctx c).preempt = true)
    (hcut : s.cutDone c = true) (htold : ∀ t, (s.ctx c).trap = some t → t.written = true)
    (hstatus : (s.flock fl).status = .preempting) :
    ∃ t, exec (.preemptCut c) s = .next t ∧ t.ctx c = {} ∧ (∀ d, d ≠ c → t.ctx d = s.ctx d) ∧ t.mem = s.mem ∧
      t.lm = s.lm ∧ (mget {} (t.flock fl).ctxs (s.ctx c).member).SavedFrom (s.ctx c) ∧
      mget (0, 0) (t.tile (c / 64)).slots (c % 64) = (fl, (s.ctx c).member) ∧
      ((t.flock fl).status = .preempted ∨ (t.flock fl).status = .preempting) := by
  have hsave := saveMember_saved s hfl (by simp [hstatus])
  have hflock := flock_memberSaved s c fl
  obtain ⟨hbytes, hcores, htiles, st, turn, hst, hcutFlock⟩ := cutFlock_preempting_frame (s.memberSaved c fl) fl
    (by rw [hflock]; exact hstatus)
  obtain ⟨-, hmem, hlm, -⟩ := (bytes_eq_iff s _).1 (hbytes.trans (bytes_memberSaved s c fl))
  refine ⟨_, preemptCut_eq hfl hpre hcut (.inl htold), ?_⟩
  rw [hsave, hcutFlock, hflock]
  refine ⟨(ctx_congr hcores c).trans (ctx_vacant_same s c), fun d hd => (ctx_congr hcores d).trans (ctx_vacant_ne s hd),
    hmem, hlm, ?_, ?_, hst⟩
  · rw [mget_mset_same]
    exact savedCtx_savedFrom s c
  · rw [State.tile, htiles]
    exact slot_memberSaved s c fl

theorem preemptCut_kills {s : State} {c fl : Nat} (hfl : (s.ctx c).flock = some fl) (hpre : (s.ctx c).preempt = true)
    (hcut : s.cutDone c = true) (hstatus : (s.flock fl).status = .killing) :
    ∃ t, exec (.preemptCut c) s = .next t ∧ t.ctx c = {} ∧ t.mem = s.mem ∧ t.lm = s.lm ∧
      ((t.flock fl).status = .killing ∨ (t.flock fl).dropped) := by
  have hkill : ((s.vacant c).flock fl).status = .killing := by rw [flock_vacant, hstatus]
  refine ⟨_, preemptCut_eq hfl hpre hcut (.inr hstatus), ?_⟩
  rw [saveMember_killing s hfl hstatus]
  rcases cutFlock_killing (s.vacant c) fl hkill with h | h <;> rw [h]
  · obtain ⟨-, hmem, hlm, -⟩ := (bytes_eq_iff s _).1 (bytes_vacant s c)
    exact ⟨ctx_vacant_same s c, hmem, hlm, .inl hkill⟩
  · obtain ⟨-, hmem, hlm, -⟩ := (bytes_eq_iff s _).1 ((bytes_discard (s.vacant c) fl).trans (bytes_vacant s c))
    exact ⟨blank_discard (ctx_vacant_same s c), hmem, hlm, .inr (dropped_discard _ fl)⟩

/-! ## Forced cuts -/

/-- The cut of core `c` has been forced, and no other core has changed (R41). -/
def CutForced (s t : State) (c : Nat) : Prop :=
  t.ctx c = { s.ctx c with lcut := true, ccut := true, scut := true, forced := true } ∧ ∀ d, d ≠ c → t.ctx d = s.ctx d

theorem cutForced_updCtx (s : State) (c : Nat) : CutForced s (s.updCtx c Ctx.forceCut) c :=
  ⟨State.ctx_updCtx_same s c _, fun _ hd => State.ctx_updCtx_ne s _ hd⟩

section
variable {s : State} {c fl : Nat} (hfl : (s.ctx c).flock = some fl) (hpre : (s.ctx c).preempt = true)
  (hforced : (s.ctx c).forced = false)
include hfl hpre hforced

/-- The cut of a killed flock's member is forced at once (R392). -/
theorem forcedCut_kills (hstatus : (s.flock fl).status = .killing) :
    exec (.forcedCut c) s = .next (s.updCtx c Ctx.forceCut) := by
  change execForcedCut c s = _
  simp [execForcedCut, hfl, hpre, hforced, hstatus]

/-- A cut that is late is forced and counted (R41). -/
theorem forcedCut_late (hstatus : (s.flock fl).status = .preempting)
    (hlate : (s.flock fl).cutAt + 1000 * (s.part (s.flock fl).part).ptimeout ≤ s.now) :
    exec (.forcedCut c) s = .next ((s.updCtx c Ctx.forceCut).updPart (s.flock fl).part fun p =>
      { p with forcedCuts := satAdd (2 ^ 32 - 1) p.forcedCuts 1 }) := by
  change execForcedCut c s = _
  simp [execForcedCut, hfl, hpre, hforced, hstatus, hlate]

end

/-! ## Retirement of a member -/

/-- The member of core `c` has retired: its result is noted, its monitors are disarmed, its core is given up and its
barrier parties are gone (R32, R221, R223). -/
def State.retired (u : State) (c fl m : Nat) (cause : Cause) : State :=
  (((u.updFlock fl fun f =>
    { f with doneMembers := m :: f.doneMembers, cause := if f.cause = 0 then cause else f.cause }).disarm fun y =>
      y.flock == fl && y.member == m).setCtx c {}).partiesGone fl m

theorem bytes_retired (u : State) (c fl m : Nat) (cause : Cause) : (u.retired c fl m cause).bytes = u.bytes := rfl

theorem blank_retired (u : State) (c fl m : Nat) (cause : Cause) : (u.retired c fl m cause).blank c := by
  refine blank_wakeAll ?_
  exact State.ctx_setCtx_same _ c _

/-- A projection of flocks that does not see barrier objects does not see their parties leave. -/
theorem flock_partiesGone_proj {α : Type} (p : Flock → α) (hp : ∀ f bars, p { f with bars := bars } = p f) (s : State)
    (fl m k : Nat) : p ((s.partiesGone fl m).flock k) = p (s.flock k) := by
  refine Eq.trans ?_ (flock_updFlock_proj p s fl k _ fun f => hp f (f.bars.map fun e =>
    (e.1, e.2.updParty (partyId fl m) fun q => { q with gone := true })))
  rfl

theorem flock_disarm (s : State) (f : Monitor → Bool) (k : Nat) : (s.disarm f).flock k = s.flock k := rfl

/-- A member's retirement marks it done in its flock, and the first cause of a flock's members stays. -/
theorem flock_retired (u : State) (c fl m : Nat) (cause : Cause) :
    ((u.retired c fl m cause).flock fl).doneMembers = m :: (u.flock fl).doneMembers ∧
      ((u.retired c fl m cause).flock fl).cause = if (u.flock fl).cause = 0 then cause else (u.flock fl).cause := by
  rw [State.retired, flock_partiesGone_proj Flock.doneMembers (by intros; rfl),
    flock_partiesGone_proj Flock.cause (by intros; rfl), flock_setCtx, flock_disarm, State.flock_updFlock_same]
  exact ⟨rfl, rfl⟩

/-- The front end's marks of the writes of a member's statistics are gone: they have their final answers. -/
def State.statsEnded (u : State) (c base : Nat) : State :=
  (List.range 64).foldl (fun s k => s.feEnded (s.partOf c) (base + 32 * k)) u

theorem bytes_statsEnded (u : State) (c base : Nat) : (u.statsEnded c base).bytes = u.bytes :=
  foldl_keeps State.bytes _ (by intros; rfl) _ u

theorem flocks_statsEnded (u : State) (c base : Nat) : (u.statsEnded c base).flocks = u.flocks :=
  foldl_keeps State.flocks _ (by intros; rfl) _ u

/-- The flock of a member that retires while a cut is asked of it may thereby be cut as a whole (R40). -/
def State.cutIfAsked (s : State) (fl : Nat) : State := if (s.flock fl).status = .preempting then s.cutFlock fl else s

/-- That changes its status and its turn alone. -/
theorem cutIfAsked_frame (s : State) (fl : Nat) : (s.cutIfAsked fl).bytes = s.bytes ∧ (s.cutIfAsked fl).cores = s.cores ∧
    ((s.cutIfAsked fl).flock fl).doneMembers = (s.flock fl).doneMembers ∧
    ((s.cutIfAsked fl).flock fl).cause = (s.flock fl).cause := by
  unfold State.cutIfAsked
  split
  · next h =>
    obtain ⟨hbytes, hcores, -, st, turn, -, hflock⟩ := cutFlock_preempting_frame s fl h
    rw [hflock]
    exact ⟨hbytes, hcores, rfl, rfl⟩
  · exact ⟨rfl, rfl, rfl, rfl⟩

/-- A member that may retire does so once its statistics have been written (R32, R260). -/
theorem memberRetire_eq {s u : State} {c fl : Nat} {first : Cause} (hfl : (s.ctx c).flock = some fl)
    (hretire : s.canRetire c = true)
    (hstats : (if fld ((s.flock fl).word 19) 0 56 = 0 then .ok (s.drainAll, 0)
      else s.drainAll.writeStats c (fld ((s.flock fl).word 19) 0 56 + 2048 * (s.ctx c).member) (List.range 64) 0) =
        .ok (u, first)) :
    exec (.memberRetire c) s = .next (((u.statsEnded c (fld ((s.flock fl).word 19) 0 56 + 2048 * (s.ctx c).member)).retired
      c fl (s.ctx c).member first).cutIfAsked fl) := by
  obtain ⟨hflocks, hcores, -⟩ := (crew_eq_iff s _).1 (crew_drainAll s)
  change execMemberRetire c s = _
  unfold execMemberRetire
  simp only [hretire, ctx_congr hcores, hfl, Option.getD_some, flock_congr hflocks, hstats]
  rfl

/-- What a member that retires leaves: a free core, the storage as its statistics left it, and its mark in its flock. -/
theorem memberRetire_retires {s u : State} {c fl : Nat} {first : Cause} (hfl : (s.ctx c).flock = some fl)
    (hretire : s.canRetire c = true)
    (hstats : (if fld ((s.flock fl).word 19) 0 56 = 0 then .ok (s.drainAll, 0)
      else s.drainAll.writeStats c (fld ((s.flock fl).word 19) 0 56 + 2048 * (s.ctx c).member) (List.range 64) 0) =
        .ok (u, first)) :
    ∃ t, exec (.memberRetire c) s = .next t ∧ t.ctx c = {} ∧ t.mem = u.mem ∧ t.lm = u.lm ∧ t.hostMem = u.hostMem ∧
      (t.flock fl).doneMembers = (s.ctx c).member :: (s.flock fl).doneMembers ∧
      (t.flock fl).cause = if (s.flock fl).cause = 0 then first else (s.flock fl).cause := by
  have hcrew : u.crew = s.crew := by
    split at hstats
    · cases hstats
      exact crew_drainAll s
    · exact (crew_writeStats c _ _ _ u 0 first hstats).trans (crew_drainAll s)
  obtain ⟨hflocks, -, -⟩ := (crew_eq_iff s u).1 hcrew
  let v := u.statsEnded c (fld ((s.flock fl).word 19) 0 56 + 2048 * (s.ctx c).member)
  let w := v.retired c fl (s.ctx c).member first
  have hv : v.flock fl = s.flock fl := flock_congr ((flocks_statsEnded u c _).trans hflocks) fl
  obtain ⟨hdone, hcause⟩ := flock_retired v c fl (s.ctx c).member first
  obtain ⟨hbytes, hcores, hdone', hcause'⟩ := cutIfAsked_frame w fl
  obtain ⟨-, hmem, hlm, hhost⟩ := (bytes_eq_iff u _).1
    (hbytes.trans ((bytes_retired v c fl _ first).trans (bytes_statsEnded u c _)))
  refine ⟨_, memberRetire_eq hfl hretire hstats, (ctx_congr hcores c).trans (blank_retired v c fl _ first), hmem, hlm, hhost,
    ?_, ?_⟩
  · rw [hdone', hdone, hv]
  · rw [hcause', hcause, hv]

/-! ## Retirement of a flock -/

/-- A flock whose completion record has been written. -/
def State.recorded (u : State) (fl : Nat) : State := u.updFlock fl fun f => { f with wrote := true }

theorem seats_recorded (u : State) (fl : Nat) : (u.recorded fl).seats = u.seats := rfl

section
variable {s u : State} {fl : Nat} (hrecord : s.writeRecord fl = (u, true))
include hrecord

theorem flock_of_writeRecord (k : Nat) : u.flock k = s.flock k := by
  obtain ⟨hflocks, -, -⟩ := (crew_eq_iff s u).1 (crew_writeRecord hrecord)
  exact flock_congr hflocks k

/-- The cores of a flock's live members are where they were before its record was written. -/
theorem liveCores_recorded : (u.recorded fl).liveCores fl = s.liveCores fl := by
  obtain ⟨-, hcores, hseats⟩ := (crew_eq_iff s u).1 (crew_writeRecord hrecord)
  have hflock : (u.recorded fl).flock fl = { s.flock fl with wrote := true } := by
    rw [State.recorded, State.flock_updFlock_same, flock_of_writeRecord hrecord]
  have hpart : ((u.recorded fl).flock fl).part = (s.flock fl).part := by rw [hflock]
  have hmembers : ((u.recorded fl).flock fl).members = (s.flock fl).members := by rw [hflock]
  have hseat : (u.recorded fl).seats (s.flock fl).part = s.seats (s.flock fl).part := by rw [seats_recorded, hseats]
  have hcore : (u.recorded fl).memberCore fl = s.memberCore fl := funext (memberCore_congr hpart hmembers hseat)
  have hctx : ∀ c, (u.recorded fl).ctx c = s.ctx c := ctx_congr hcores
  simp only [State.liveCores, State.liveMembers, hcore, hctx, hflock]

/-- A failed launch's record is written, and it has failed (R396, R400). -/
theorem flockRetire_failed (hstatus : (s.flock fl).status = .failed) (hwrote : (s.flock fl).wrote = false) :
    exec (.flockRetire fl) s = .next (u.recorded fl) := by
  change execFlockRetire fl s = _
  simp [execFlockRetire, hstatus, hwrote, hrecord, State.recorded]

/-- A flock whose last member has retired does so, its record written (R32, R400). -/
theorem flockRetire_last
    (hstatus : (s.flock fl).status = .running ∨ (s.flock fl).status = .preempting ∨ (s.flock fl).status = .preempted)
    (hmembers : (s.flock fl).members ≠ [])
    (hdone : ∀ j, j < (s.flock fl).members.length → j ∈ (s.flock fl).doneMembers) :
    exec (.flockRetire fl) s = .next ((u.recorded fl).retireFlock fl) := by
  have hall : (!(s.flock fl).members.isEmpty && (List.range (s.flock fl).members.length).all fun i =>
      (s.flock fl).doneMembers.contains i) = true := by
    simpa [hmembers] using hdone
  change execFlockRetire fl s = _
  unfold execFlockRetire
  rcases hstatus with h | h | h <;> simp only [h, hall, hrecord] <;> rfl

end

theorem retireFlock_eq (s : State) (fl : Nat) : s.retireFlock fl = (s.cleared fl).updFlock fl fun f =>
    { f with status := .retired, bars := [], lms := [], lmsPoison := [] } := rfl

/-- Settles O50: what a cut saves or a kill discards, when a cut is forced, and what retires with a member and a flock. -/
theorem cutsAndRetirement : Obligations.CutsAndRetirement := by
  refine ⟨fun c fl s hfl hpre hcut => ⟨fun htold hstatus => preemptCut_saves hfl hpre hcut htold hstatus,
      fun hstatus => preemptCut_kills hfl hpre hcut hstatus⟩,
    fun c fl s hfl hpre hforced => ⟨fun hstatus => ?_, fun hstatus hlate => ?_⟩,
    fun c fl s hfl hretire => fun u first hstats => memberRetire_retires hfl hretire hstats,
    fun fl s u hrecord => ⟨fun hstatus hmembers hdone => ?_, fun hstatus hwrote => ?_⟩⟩
  · exact ⟨_, forcedCut_kills hfl hpre hforced hstatus, cutForced_updCtx s c, rfl⟩
  · exact ⟨_, forcedCut_late hfl hpre hforced hstatus hlate, cutForced_updCtx s c,
      congrArg Partition.forcedCuts (State.part_updPart_same _ _ _), rfl⟩
  · obtain ⟨-, hmem, hlm, hhost⟩ := (bytes_eq_iff u _).1 (bytes_cleared (u.recorded fl) fl)
    refine ⟨_, flockRetire_last hrecord hstatus hmembers hdone, ?_⟩
    rw [retireFlock_eq, State.flock_updFlock_same, flock_cleared, State.recorded, State.flock_updFlock_same]
    refine ⟨rfl, rfl, hmem, hlm, hhost, fun j hj => blank_cleared (.inl ?_)⟩
    have hlive : s.memberCore fl j ∈ s.liveCores fl := List.mem_map_of_mem hj
    rwa [← liveCores_recorded hrecord] at hlive
  · refine ⟨_, flockRetire_failed hrecord hstatus hwrote, ?_⟩
    rw [State.recorded, State.flock_updFlock_same, flock_of_writeRecord hrecord]
    exact ⟨hstatus, rfl, rfl, rfl, rfl⟩

end Sys2Proof.Machine

/-! PROOFS. Reading after writing, and one canonical form for each content (O60). -/

namespace Sys2Proof.Machine

/-- A key that no entry lists reads as the default. -/
theorem mget_of_forall_ne {α : Type} (d : α) (m : AMap α) (k : Nat) (h : ∀ e ∈ m, e.1 ≠ k) : mget d m k = d := by
  induction m with
  | nil => rfl
  | cons e t ih =>
    rw [mget, if_neg (h e List.mem_cons_self)]
    exact ih fun e he => h e (List.mem_cons_of_mem _ he)

theorem Memory.wf_cons (e : Host.Cell) (m : Memory) :
    Memory.wf (e :: m) = true ↔ (∀ x ∈ m, e.1 < x.1) ∧ e.2 ≠ 0 ∧ Memory.wf m = true := by
  simp only [Memory.wf_iff, List.pairwise_cons, List.forall_mem_cons]
  tauto

/-- A store reads its first entry at that entry's address. -/
theorem Memory.read_head (e : Host.Cell) (m : Memory) : Memory.read (e :: m) e.1 = e.2 := if_pos rfl

/-- Below and at an address that all entries exceed, a store reads as zero. -/
theorem Memory.read_of_forall_lt {m : Memory} {a : Nat} (h : ∀ e ∈ m, a < e.1) : Memory.read m a = 0 :=
  mget_of_forall_ne 0 m a fun e he => (Nat.ne_of_lt (h e he)).symm

/-- Past its first address, a store reads as its tail. -/
theorem Memory.read_cons_of_lt {e : Host.Cell} {m : Memory} {a : Nat} (h : e.1 < a) :
    Memory.read (e :: m) a = Memory.read m a := if_neg (Nat.ne_of_lt h)

/-- Two canonical stores that read alike cannot begin at different addresses. -/
theorem Memory.not_lt_of_read_eq {x y : Host.Cell} {m n : Memory} (hm : Memory.wf (x :: m) = true)
    (hn : Memory.wf (y :: n) = true) (h : ∀ b, Memory.read (x :: m) b = Memory.read (y :: n) b) : ¬ x.1 < y.1 := by
  intro hlt
  obtain ⟨-, hx, -⟩ := (Memory.wf_cons x m).1 hm
  obtain ⟨hy, -, -⟩ := (Memory.wf_cons y n).1 hn
  have hzero : Memory.read (y :: n) x.1 = 0 :=
    Memory.read_of_forall_lt (List.forall_mem_cons.2 ⟨hlt, fun e he => Nat.lt_trans hlt (hy e he)⟩)
  exact hx (by rw [← Memory.read_head x m, h, hzero])

/-- The canonical form is one form: equal contents are equal data (R43). -/
theorem Memory.eq_of_read_eq {m n : Memory} (hm : Memory.wf m = true) (hn : Memory.wf n = true)
    (h : ∀ b, Memory.read m b = Memory.read n b) : m = n := by
  induction m generalizing n with
  | nil =>
    cases n with
    | nil => rfl
    | cons y n => exact absurd ((h y.1).trans (Memory.read_head y n)).symm ((Memory.wf_cons y n).1 hn).2.1
  | cons x m ih =>
    obtain ⟨hxm, hx, hm'⟩ := (Memory.wf_cons x m).1 hm
    cases n with
    | nil => exact absurd ((Memory.read_head x m).symm.trans (h x.1)) hx
    | cons y n =>
      obtain ⟨hyn, -, hn'⟩ := (Memory.wf_cons y n).1 hn
      have haddr : x.1 = y.1 := Nat.le_antisymm (Nat.le_of_not_lt (Memory.not_lt_of_read_eq hn hm fun b => (h b).symm))
        (Nat.le_of_not_lt (Memory.not_lt_of_read_eq hm hn h))
      have hhead : x = y := Prod.ext haddr (by rw [← Memory.read_head x m, h, haddr, Memory.read_head])
      have htail : m = n := ih hm' hn' fun b => by
        rcases Nat.lt_or_ge x.1 b with hb | hb
        · rw [← Memory.read_cons_of_lt hb, h, Memory.read_cons_of_lt (haddr ▸ hb)]
        · rw [Memory.read_of_forall_lt fun e he => Nat.lt_of_le_of_lt hb (hxm e he),
            Memory.read_of_forall_lt fun e he => Nat.lt_of_le_of_lt (haddr ▸ hb) (hyn e he)]
      rw [hhead, htail]

/-- Settles O60: reading after writing, inside and outside the run, and one canonical form for each content. -/
theorem memoryReadsWhatWasWritten : Obligations.MemoryReadsWhatWasWritten := by
  intro m n a bs hm
  exact ⟨Memory.readN_writeN m a bs, fun b hb => Memory.read_writeN_outside m a b bs hb, Memory.wf_writeN m a bs hm,
    fun hn h => Memory.eq_of_read_eq hm hn h⟩

end Sys2Proof.Machine

/-! PROOFS. RGX, FENCE and TRIG (O24): what each waits for, what it sends, and what it leaves. -/

namespace Sys2Proof.Machine

/-! ## What the host ports hand on -/

/-- The machine without its host ports and the host's memory: what handing on the ports' writes leaves alone (R75). -/
def State.offPorts (s : State) : State := { s with ports := Vector.replicate 4 {}, hostMem := [], hostPoison := [] }

section
variable {s t : State} (h : t.offPorts = s.offPorts)
include h

theorem mem_of_offPorts : t.mem = s.mem := (congrArg State.mem h :)
theorem lm_of_offPorts : t.lm = s.lm := (congrArg State.lm h :)
theorem cores_of_offPorts : t.cores = s.cores := (congrArg State.cores h :)
theorem reqs_of_offPorts : t.reqs = s.reqs := (congrArg State.reqs h :)
theorem verdict_of_offPorts : t.verdict = s.verdict := (congrArg State.verdict h :)
theorem focus_of_offPorts : t.focus = s.focus := (congrArg State.focus h :)

theorem core_of_offPorts : t.core = s.core := by rw [State.core, focus_of_offPorts h]; rfl
theorem ctx_of_offPorts (c : Nat) : t.ctx c = s.ctx c := ctx_congr (cores_of_offPorts h) c
theorem me_of_offPorts : t.me = s.me := by rw [State.me, core_of_offPorts h, ctx_of_offPorts h]; rfl

end

theorem offPorts_drainPort (s : State) (port n : Nat) : (s.drainPort port n).offPorts = s.offPorts := by
  unfold State.drainPort
  split <;> rfl

theorem offPorts_drainAll (s : State) : s.drainAll.offPorts = s.offPorts := by
  refine foldl_keeps State.offPorts _ (fun s p => ?_) (List.range 4) s
  split
  · exact offPorts_drainPort s p _
  · rfl

/-- What the ports hand on reaches the host's memory alone. -/
theorem mem_drainAll (s : State) : s.drainAll.mem = s.mem := mem_of_offPorts (offPorts_drainAll s)
theorem lm_drainAll (s : State) : s.drainAll.lm = s.lm := lm_of_offPorts (offPorts_drainAll s)

theorem offPorts_visibleAt (s : State) (sc : Scope) : (s.visibleAt sc).offPorts = s.offPorts := by
  unfold State.visibleAt
  split
  · exact offPorts_drainAll s
  · rfl

/-! ## A request of the S stream that enters its access queue -/

/-- A numbered request leaves its core under the core's next number (R328). -/
theorem sendReq_sentBy (s : State) (c tk : Nat) (addr : W64) (op : ReqOp) :
    ∃ r, (s.sendReq c tk false addr op).reqs = s.reqs ++ [r] ∧ r.sentBy s c addr op :=
  ⟨_, rfl, rfl, rfl, rfl, rfl, rfl, rfl, rfl⟩

theorem ctx_sendReq_numbered (s : State) (c tk : Nat) (addr : W64) (op : ReqOp) :
    (s.sendReq c tk false addr op).ctx c =
      { s.ctx c with seqno := (s.ctx c).seqno + 1, unanswered := (s.ctx c).unanswered ++ [(s.ctx c).seqno] } :=
  State.ctx_updCtx_same { s with reqs := (s.sendReq c tk false addr op).reqs } c fun x =>
    { x with seqno := x.seqno + 1, unanswered := x.unanswered ++ [x.seqno] }

/-- The access that enters the queue of the S stream, with the stamp of its word. -/
def State.newAccess (s : State) (kind : SKind) (status : AccStatus) : SAccess :=
  { tk := s.me.tk, kind := kind, status := status }

theorem State.me_pushS (s : State) (kind : SKind) (status : AccStatus) :
    (s.pushS kind status).me = { s.me with saccess := s.me.saccess ++ [s.newAccess kind status] } := State.me_updMe _ _

/-- What an RGX leaves that has left for its home, seen from the state `v` in which its release has been made: its request
travels, it stands alone in the access queue, and nothing else has changed (R216, R328). -/
def SentRgx (v t : State) (d : BitVec 5) (a : W64) (old new : W32) : Prop :=
  ∃ r y, t.verdict = v.verdict ∧ t.reqs = v.reqs ++ [r] ∧ r.sentBy v v.core a (.rgx old new) ∧
    t.me.saccess = [y] ∧ y.kind = .rgx d a old new ∧ y.status = .sent ∧
    t.me.seqno = v.me.seqno + 1 ∧ t.me.unanswered = v.me.unanswered ++ [v.me.seqno] ∧
    { t with cores := v.cores, reqs := v.reqs } = v

theorem sentRgx_of_empty (v : State) (tk : Nat) (d : BitVec 5) (a : W64) (old new : W32) (h : v.me.saccess = []) :
    SentRgx v ((v.pushS (.rgx d a old new) .sent).sendReq v.core tk false a (.rgx old new)) d a old new := by
  obtain ⟨r, hreqs, hr⟩ := sendReq_sentBy (v.pushS (.rgx d a old new) .sent) v.core tk a (.rgx old new)
  have hpush := State.me_pushS v (.rgx d a old new) .sent
  have hme : ((v.pushS (.rgx d a old new) .sent).sendReq v.core tk false a (.rgx old new)).me = _ :=
    ctx_sendReq_numbered (v.pushS (.rgx d a old new) .sent) v.core tk a (.rgx old new)
  have hctx : (v.pushS (.rgx d a old new) .sent).ctx v.core = _ := hpush
  rw [hctx] at hme
  refine ⟨r, v.newAccess (.rgx d a old new) .sent, rfl, hreqs, ?_, ?_, rfl, rfl, ?_, ?_, rfl⟩
  · obtain ⟨hcore, haddr, hop, hnum, hrest⟩ := hr
    exact ⟨hcore, haddr, hop, hnum.trans (by rw [hctx]; rfl), hrest⟩
  · rw [hme, h]; rfl
  · rw [hme]
  · rw [hme]

/-! ## RGX -/

/-- An RGX waits for the earlier accesses of its core, its commit buffer, and a free number (R216, log 61). -/
def Ctx.rgxFree (x : Ctx) : Prop := x.saccess = [] ∧ x.commit = [] ∧ x.unanswered.length < 64

theorem Ctx.canSend_iff (x : Ctx) : x.canSend = true ↔ x.unanswered.length < 64 := decide_eq_true_iff

theorem rgxAt_waits (s : State) (d : BitVec 5) (a : W64) (old new : W32)
    (h : s.me.saccess ≠ [] ∨ s.me.commit ≠ [] ∨ 64 ≤ s.me.unanswered.length) :
    s.rgxAt d a old new = s.waitNow .access := by
  refine if_pos (h.imp_right (Or.imp_right fun hlen => ?_))
  rw [Bool.not_eq_true', Bool.eq_false_iff, ne_eq, Ctx.canSend_iff]
  exact Nat.not_lt.2 hlen

theorem rgxAt_of_free (s : State) (d : BitVec 5) (a : W64) (old new : W32) (h : s.me.rgxFree) :
    s.rgxAt d a old new =
      if beyondGlobal a then s.pushS (.rgx d a old new) (.fail 0x27 a)
      else ((s.visibleAt (s.rgxScope a)).pushS (.rgx d a old new) .sent).sendReq s.core s.me.tk false a (.rgx old new) := by
  obtain ⟨hacc, hcommit, hlen⟩ := h
  refine if_neg ?_
  simp [hacc, hcommit, s.me.canSend_iff.2 hlen]

/-- The release of an RGX: at the panel's scope nothing, for a region of another panel the ports' writes (R60). -/
theorem visibleAt_rgxScope (s : State) (a : W64) :
    s.visibleAt (s.rgxScope a) = if panelOf a.toNat = s.glob.domid.toNat then s else s.drainAll := by
  unfold State.rgxScope State.visibleAt
  split <;> rfl

/-- What an RGX does: what the statement says of both forms, of the entry expected and the new one. -/
def AsksRgx (s : State) (i : Instr) (d : BitVec 5) (a : W64) (old new : W32) : Prop :=
  (s.me.saccess = [] → s.me.commit = [] → s.me.unanswered.length < 64 → a.toNat < 2 ^ 56 →
    ∃ t r y, exec i s = .next t ∧ t.verdict = s.verdict ∧ t.reqs = s.reqs ++ [r] ∧ r.sentBy s s.core a (.rgx old new) ∧
      t.me.saccess = [y] ∧ y.kind = .rgx d a old new ∧ y.status = .sent ∧
      t.me.seqno = s.me.seqno + 1 ∧ t.me.unanswered = s.me.unanswered ++ [s.me.seqno] ∧
      { t with cores := s.cores, reqs := s.reqs } =
        if panelOf a.toNat = s.glob.domid.toNat then s else s.drainAll) ∧
  (s.me.saccess = [] → s.me.commit = [] → s.me.unanswered.length < 64 → 2 ^ 56 ≤ a.toNat →
    ∃ t y, exec i s = .next t ∧ t.verdict = s.verdict ∧ t.me.saccess = [y] ∧ y.status = .fail 0x27 a ∧ t.reqs = s.reqs) ∧
  (s.me.saccess ≠ [] ∨ s.me.commit ≠ [] ∨ 64 ≤ s.me.unanswered.length →
    ∃ t, exec i s = .next t ∧ t.verdict = .waits .access)

/-- A request sent from a state that differs in its ports alone is one sent from it. -/
theorem Request.sentBy_of_offPorts {r : Request} {s v : State} {c : Nat} {addr : W64} {op : ReqOp}
    (h : v.offPorts = s.offPorts) (hr : r.sentBy v c addr op) : r.sentBy s c addr op := by
  rwa [Request.sentBy, ← ctx_of_offPorts h]

theorem asksRgx_of_exec {s : State} {i : Instr} {d : BitVec 5} {a : W64} {old new : W32}
    (h : exec i s = .next (s.rgxAt d a old new)) : AsksRgx s i d a old new := by
  refine ⟨fun hacc hcommit hlen ha => ?_, fun hacc hcommit hlen ha => ?_, fun hbusy => ?_⟩
  · have hv : (s.visibleAt (s.rgxScope a)).offPorts = s.offPorts := offPorts_visibleAt s _
    have hin : ¬ beyondGlobal a = true := fun hb => Nat.not_le.2 ha ((beyondGlobal_iff a).1 hb)
    obtain ⟨r, y, hverd, hreqs, hr, hsacc, hkind, hstatus, hseq, hunans, hrest⟩ :=
      sentRgx_of_empty (s.visibleAt (s.rgxScope a)) s.me.tk d a old new (by rw [me_of_offPorts hv, hacc])
    rw [rgxAt_of_free s d a old new ⟨hacc, hcommit, hlen⟩, if_neg hin, ← core_of_offPorts hv] at h
    rw [me_of_offPorts hv] at hseq hunans
    rw [cores_of_offPorts hv, reqs_of_offPorts hv, visibleAt_rgxScope s a] at hrest
    refine ⟨_, r, y, h, hverd.trans (verdict_of_offPorts hv), hreqs.trans (by rw [reqs_of_offPorts hv]), ?_, hsacc, hkind,
      hstatus, hseq, hunans, ?_⟩
    · exact Request.sentBy_of_offPorts hv (core_of_offPorts hv ▸ hr)
    · rw [visibleAt_rgxScope s a]; exact hrest
  · rw [rgxAt_of_free s d a old new ⟨hacc, hcommit, hlen⟩, if_pos ((beyondGlobal_iff a).2 ha)] at h
    refine ⟨_, s.newAccess (.rgx d a old new) (.fail 0x27 a), h, rfl, ?_, rfl, rfl⟩
    rw [State.me_pushS, hacc]; rfl
  · exact ⟨_, h.trans (by rw [rgxAt_waits s d a old new hbusy]), waitNow_verdict s .access⟩

/-! ## The operands of RGX -/

/-- The high half of a register. -/
theorem ofNat_fld_high (v : W64) : BitVec.ofNat 32 (fld v 32 32) = (v >>> 32).setWidth 32 := by
  apply BitVec.eq_of_toNat_eq
  simp [fld, BitVec.toNat_ushiftRight, Nat.shiftRight_eq_div_pow]

/-- The low half of a register. -/
theorem ofNat_fld_low (v : W64) : BitVec.ofNat 32 (fld v 0 32) = v.setWidth 32 := by
  apply BitVec.eq_of_toNat_eq
  simp [fld]

/-- An immediate entry holds its 14 bits above 18 zeros. -/
theorem ofNat_entry (x : BitVec 14) : BitVec.ofNat 32 (x.toNat * 2 ^ 18) = x ++ (0 : BitVec 18) := by
  apply BitVec.eq_of_toNat_eq
  have := x.isLt
  rw [BitVec.toNat_append, BitVec.toNat_ofNat, Nat.mod_eq_of_lt (by omega)]
  simp [Nat.shiftLeft_eq]

/-- What an operation does under its guard. -/
theorem guarded_of_ok {gd : Guard} {s : State} (h : guardOk gd s = true) (f : State → State) :
    guarded gd s f = .next (f s) := by rw [guarded_next, if_pos h]

/-- Settles O24: both forms of RGX by what their issue finds, FENCE by what is visible, TRIG by what is pending. -/
theorem regionExchangeFenceAndTrigger : Obligations.RegionExchangeFenceAndTrigger := by
  intro gd d a b x n sc s hg
  have hfence := guarded_of_ok hg fun s => if s.quietCore s.core then s.visibleAt sc else s.waitNow .fence
  refine ⟨asksRgx_of_exec ?_, asksRgx_of_exec ?_, fun hq => ⟨_, hfence, ?_, ?_⟩, fun hq => ⟨_, hfence, ?_⟩, ?_⟩
  · rw [← ofNat_fld_high, ← ofNat_fld_low]
    exact guarded_of_ok hg fun s => s.rgxAt d (s.rg a) (BitVec.ofNat 32 (fld (s.rg b) 32 32)) (BitVec.ofNat 32 (fld (s.rg b) 0 32))
  · rw [← ofNat_entry, ← ofNat_entry]
    exact guarded_of_ok hg fun s => s.rgxAt d (s.rg a) _ _
  · rw [if_pos hq]
    exact verdict_of_offPorts (offPorts_visibleAt s sc)
  · rw [if_pos hq]; rfl
  · rw [hq]; rfl
  · have htrig := guarded_of_ok hg fun s => if s.me.triggered ∨ s.me.trigPending then s
      else s.updMe fun x => { x with trigPending := true, trigTk := x.tk }
    refine ⟨_, htrig, ?_⟩
    by_cases hp : s.me.triggered ∨ s.me.trigPending
    · rw [if_pos hp]
      exact ⟨rfl, SameButCore.refl s, (if_pos (by simpa using hp)).symm⟩
    · rw [if_neg hp]
      exact ⟨rfl, sameButCore_updMe s _, (State.me_updMe s _).trans (if_neg (by simpa using hp)).symm⟩

end Sys2Proof.Machine

/-! PROOFS. What happens to a core from outside its words (O42): errors, deadlock, replays, variant switches, triggers. -/

namespace Sys2Proof.Machine

/-! ## Poisoned sectors (R78) -/

/-- Of one byte, its own sector is added where it is not yet listed. -/
theorem addSectors_one (ps : List Nat) (k : Nat) :
    addSectors ps k 1 = if ps.contains (k / 64) then ps else k / 64 :: ps := by
  simp [addSectors]

/-- A byte whose sector has been added is poisoned. -/
theorem sectorsMeet_addSectors_one (ps : List Nat) (k : Nat) : sectorsMeet (addSectors ps k 1) k 1 = true := by
  have hmem : k / 64 ∈ addSectors ps k 1 := by
    rw [addSectors_one]
    split
    · next h => exact List.contains_iff_mem.1 h
    · exact List.mem_cons_self
  refine List.any_eq_true.2 ⟨k / 64, hmem, ?_⟩
  simp only [Bool.and_eq_true, decide_eq_true_eq]
  omega

/-- A monitor that fires changes the monitors of its tile alone. -/
theorem tile_fireMonitors (s : State) (inMem : Bool) (k n t : Nat) :
    (s.fireMonitors inMem k n).tile t =
      { s.tile t with monitors := (s.tile t).monitors.map fun x => x.onWrite s inMem k n } :=
  mget_mapVal (α := TileSt) (β := TileSt) (fun x => { x with monitors := x.monitors.map fun y => y.onWrite s inMem k n }) {} s.tiles t

/-- Where an offset of a tile is stored does not depend on its monitors. -/
theorem panelKey_fireMonitors (s : State) (inMem : Bool) (k n t off : Nat) :
    (s.fireMonitors inMem k n).panelKey t off = s.panelKey t off := by
  unfold State.panelKey State.backOff
  rw [tile_fireMonitors]
  rfl

/-- Poisoning a place changes no byte. -/
@[simp] theorem bytes_poisonLoc (s : State) (loc : Loc) (n : Nat) : (s.poisonLoc loc n).bytes = s.bytes := by
  cases loc <;> rfl

theorem cores_poisonLoc (s : State) (loc : Loc) (n : Nat) : (s.poisonLoc loc n).cores = s.cores := by
  cases loc <;> rfl

theorem poisonedLoc_panel (s : State) (t o n : Nat) :
    s.poisonedLoc (.panel t o) n = sectorsMeet s.poison (s.panelKey t o) n := rfl
theorem poisonedLoc_lm (s : State) (c o n : Nat) : s.poisonedLoc (.lm c o) n = sectorsMeet s.lmPoison (lmKey c o) n := rfl
theorem poisonedLoc_host (s : State) (port a n : Nat) (atomics : Bool) :
    s.poisonedLoc (.host port a atomics) n = sectorsMeet s.hostPoison a n := rfl

theorem poison_poisonLoc (s : State) (t o n : Nat) :
    (s.poisonLoc (.panel t o) n).poison = addSectors s.poison (s.panelKey t o) n := rfl
theorem lmPoison_poisonLoc (s : State) (c o n : Nat) :
    (s.poisonLoc (.lm c o) n).lmPoison = addSectors s.lmPoison (lmKey c o) n := rfl
theorem hostPoison_poisonLoc (s : State) (port a n : Nat) (atomics : Bool) :
    (s.poisonLoc (.host port a atomics) n).hostPoison = addSectors s.hostPoison a n := rfl
theorem panelKey_poisonLoc (s : State) (t o n : Nat) : (s.poisonLoc (.panel t o) n).panelKey t o = s.panelKey t o :=
  panelKey_fireMonitors ..

/-- The first byte of a place that has been poisoned is poisoned, wherever a poison can be kept. -/
theorem poisonedLoc_poisonLoc (s : State) (loc : Loc) (h : ∀ p, loc ≠ .foreign p) :
    (s.poisonLoc loc 1).poisonedLoc loc 1 = true := by
  cases loc with
  | panel t o => rw [poisonedLoc_panel, poison_poisonLoc, panelKey_poisonLoc, sectorsMeet_addSectors_one]
  | lm c o => rw [poisonedLoc_lm, lmPoison_poisonLoc, sectorsMeet_addSectors_one]
  | host port a atomics => rw [poisonedLoc_host, hostPoison_poisonLoc, sectorsMeet_addSectors_one]
  | foreign p => exact absurd rfl (h p)

/-- What a poisoned place leaves: no byte and no core changes, and the place is poisoned. -/
theorem poisonLoc_poisons (s : State) (loc : Loc) (h : ∀ p, loc ≠ .foreign p) :
    (s.poisonLoc loc 1).mem = s.mem ∧ (s.poisonLoc loc 1).lm = s.lm ∧ (s.poisonLoc loc 1).hostMem = s.hostMem ∧
      (s.poisonLoc loc 1).cores = s.cores ∧ (s.poisonLoc loc 1).poisonedLoc loc 1 = true := by
  obtain ⟨-, hmem, hlm, hhost⟩ := (bytes_eq_iff s _).1 (bytes_poisonLoc s loc 1)
  exact ⟨hmem, hlm, hhost, cores_poisonLoc s loc 1, poisonedLoc_poisonLoc s loc h⟩

/-! ## Deadlock (R21) -/

/-- A stream waits on a queue of its core, on a section, or on a swap grant. -/
def WaitsLocally (x : Ctx) (w : Option WaitReason) : Prop :=
  w = some .queueEmpty ∨ w = some .queueFull ∨ w = some .sectionDep ∨ (w = some .mxwait ∧ x.mx.wantsGrant = true)

theorem localWait_of_waitsLocally {x : Ctx} {w : Option WaitReason} (h : WaitsLocally x w) : x.localWait w = true := by
  obtain rfl | rfl | rfl | ⟨rfl, hgrant⟩ := h
  · rfl
  · rfl
  · rfl
  · exact hgrant

/-- A core that waits for nothing but itself stands at 0x13 of its C stream (R21, R306). -/
theorem streamDeadlock_traps {s : State} {c : Nat} (hfl : (s.ctx c).flock.isSome = true) (htrap : (s.ctx c).trap = none)
    (hpre : (s.ctx c).preempt = false) (hout : s.nothingOut c = true ∨ (s.ctx c).engineStalled = true)
    (hsince : (s.ctx c).waitSince + 1000 ≤ s.now) (hl : WaitsLocally (s.ctx c) (s.ctx c).l.wait)
    (hc : WaitsLocally (s.ctx c) (s.ctx c).c.wait) (hs : WaitsLocally (s.ctx c) (s.ctx c).s.wait) :
    exec (.streamDeadlock c) s = .next (takeTrap s c .c 0x13 0 0 (s.ctx c).c.seq (s.ctx c).c.pc) := by
  refine congrArg Host.Outcome.next (if_pos ?_)
  simp [hfl, htrap, hpre, hout, hsince, localWait_of_waitsLocally hl, localWait_of_waitsLocally hc,
    localWait_of_waitsLocally hs]

/-! ## Replays (R233, R430) -/

/-- The machine after a replay has been counted for its core and its tile (R430, R432). -/
def State.replayed (s : State) (c : Nat) : State :=
  { s with
    replays := mset s.replays c (satAdd (2 ^ 32 - 1) (mget 0 s.replays c) 1)
    life := { s.life with
      replays := mset s.life.replays (c / 64) (satAdd (2 ^ 64 - 1) (mget 0 s.life.replays (c / 64)) 1) } }

/-- A replay is counted, and of the requests already sent one may be sent again. -/
theorem bundleReplay_eq (s : State) (c : Nat) : exec (.bundleReplay c) s = .next (s.replayed c) ∨
    ∃ r ∈ s.reqs, exec (.bundleReplay c) s = .next { s.replayed c with reqs := s.reqs ++ [r] } := by
  change Host.Outcome.next _ = _ ∨ ∃ r ∈ s.reqs, Host.Outcome.next _ = _
  dsimp only
  split
  · next r hfind =>
    split
    · exact .inr ⟨r, List.mem_reverse.1 (List.mem_of_find?_eq_some hfind), rfl⟩
    · exact .inl rfl
  · exact .inl rfl

/-- What a replay leaves. -/
def Replayed (s t : State) (c : Nat) : Prop :=
  { t with replays := s.replays, life := s.life, reqs := s.reqs } = s ∧
    mget 0 t.replays c = min (2 ^ 32 - 1) (mget 0 s.replays c + 1) ∧
    mget 0 t.life.replays (c / 64) = min (2 ^ 64 - 1) (mget 0 s.life.replays (c / 64) + 1) ∧
    { t.life with replays := s.life.replays } = s.life ∧ ∀ q ∈ t.reqs, q ∈ s.reqs

theorem replayed_counts (s : State) (c : Nat) (rs : List Request) (h : ∀ q ∈ rs, q ∈ s.reqs) :
    Replayed s { s.replayed c with reqs := rs } c :=
  ⟨rfl, mget_mset_same .., mget_mset_same .., rfl, h⟩

/-! ## Variant switches (R428) -/

/-- The context of a core whose streams go on in variant `v` of record `n`. -/
def Ctx.switched (x : Ctx) (rec_ : List Byte) (n v : Nat) : Ctx :=
  { x with
    l := x.l.goOn (variantOffset rec_ .l v)
    c := x.c.goOn (variantOffset rec_ .c v)
    s := x.s.goOn (variantOffset rec_ .s v)
    varSwitches := satAdd 65535 x.varSwitches 1, varRec := BitVec.ofNat 8 n, varLvl := BitVec.ofNat 8 v }

theorem hold_of_allHold {x : Ctx} {n : Nat} (h : x.allHold n = true) : x.l.hold = some n := by
  simp only [Ctx.allHold, Bool.and_eq_true, beq_iff_eq] at h
  exact h.1.1

/-- Streams that hold at one record, with the conditions of a switch, go on in the variant of the level. -/
theorem variantSwitch_switches {c n : Nat} {recs : List (List Byte)} {s u : State} (hall : (s.ctx c).allHold n = true)
    (hclear : (s.ctx c).switchClear = true) (htime : (s.ctx c).heldInTime = true) (htab : s.variantTable c = .ok (recs, u)) :
    exec (.variantSwitch c) s = .next (u.onCore c fun x => x.switched (recs.getD n []) n (u.powerLevel c)) := by
  change execVariantSwitch c s = _
  rw [execVariantSwitch]
  dsimp only
  rw [hold_of_allHold hall]
  dsimp only
  rw [hall, hclear, htime, if_neg (by decide), htab]
  rfl

/-- Whether all streams hold at the record at which the L stream holds. -/
def Ctx.holdsTogether (x : Ctx) : Bool :=
  match x.l.hold with
  | some r => x.allHold r
  | none => false

theorem holdsTogether_of_allHold {x : Ctx} {n : Nat} (h : x.allHold n = true) : x.holdsTogether = true := by
  rw [Ctx.holdsTogether, hold_of_allHold h]
  exact h

theorem holdsTogether_of_forall {x : Ctx} (h : ∀ n, x.allHold n = false) : x.holdsTogether = false := by
  unfold Ctx.holdsTogether
  split
  · exact h _
  · rfl

/-- Streams that hold and cannot switch enter their own sections (R428). -/
theorem variantSwitchMiss_misses {c : Nat} {s : State} (hpre : (s.ctx c).preempt = false) (htrap : (s.ctx c).trap = none)
    (hhold : (s.ctx c).someHold = true)
    (hwhy : ((∃ n, (s.ctx c).allHold n = true) ∧ ((s.ctx c).switchClear = false ∨ (s.ctx c).heldInTime = false)) ∨
      ((∀ n, (s.ctx c).allHold n = false) ∧ (s.ctx c).holdSince + 2000 ≤ s.now)) :
    exec (.variantSwitchMiss c) s = .next (s.onCore c Ctx.missSwitch) := by
  have hmiss : (((s.ctx c).holdsTogether && !((s.ctx c).switchClear && (s.ctx c).heldInTime)) ||
      (!(s.ctx c).holdsTogether && decide ((s.ctx c).holdSince + 2000 ≤ s.now))) = true := by
    obtain ⟨⟨n, hn⟩, hclear | htime⟩ | ⟨hnone, hlate⟩ := hwhy
    · simp [holdsTogether_of_allHold hn, hclear]
    · simp [holdsTogether_of_allHold hn, htime]
    · simp [holdsTogether_of_forall hnone, hlate]
  change execVariantSwitchMiss c s = _
  rw [execVariantSwitchMiss]
  dsimp only
  rw [hpre, htrap, hhold, if_neg (by decide)]
  exact congrArg Host.Outcome.next (if_pos hmiss)

/-- After a missed switch a stream holds no more. -/
theorem missSwitch_hold (x : Ctx) : x.missSwitch.wake.someHold = false := by
  have on : ∀ y : StreamState, (if y.hold.isSome then y.goOn y.pc else y).hold.isSome = false := by
    intro y
    split
    · rfl
    · next h => exact Bool.not_eq_true _ ▸ h
  simp only [Ctx.someHold, Ctx.wake, Ctx.missSwitch, on, Bool.or_self]

/-- A stream goes on where it is after a missed switch. -/
theorem missSwitch_pc (x : Ctx) : x.missSwitch.wake.l.pc = x.l.pc ∧ x.missSwitch.wake.c.pc = x.c.pc ∧
    x.missSwitch.wake.s.pc = x.s.pc := by
  have on : ∀ y : StreamState, (if y.hold.isSome then y.goOn y.pc else y).pc = y.pc := by
    intro y
    split <;> rfl
  exact ⟨on x.l, on x.c, on x.s⟩

/-! ## Triggers (R33) -/

theorem mem_trigMembers_trigger (s : State) (fl m : Nat) : m ∈ ((s.trigger fl m).flock fl).trigMembers := by
  rw [State.trigger, State.flock_updFlock_same]
  split
  · next h => exact List.contains_iff_mem.1 h
  · exact List.mem_cons_self

/-- A trigger all of whose core is visible reaches the front end. -/
theorem triggerArrive_arrives {s : State} {c fl : Nat} (hfl : (s.ctx c).flock = some fl)
    (hpend : (s.ctx c).trigPending = true) (hclear : s.trigClear c = true) :
    exec (.triggerArrive c) s = .next ((s.drainAll.trigger fl (s.ctx c).member).updCtx c fun x =>
      { x with trigPending := false, triggered := true }) := by
  change execTriggerArrive c s = _
  rw [execTriggerArrive]
  dsimp only
  rw [hfl, hpend, hclear]
  rfl

/-- Settles O42: each event by what it does to its core, and what it leaves. -/
theorem coreEventsHappen : Obligations.CoreEventsHappen := by
  refine ⟨fun tile off core a s => ⟨fun ht ho => ?_, fun hc ho => ?_, ?_⟩, ?_, fun c s => ?_, ?_, ?_, ?_⟩
  · exact ⟨_, congrArg Host.Outcome.next (if_pos ⟨ht, ho⟩), poisonLoc_poisons s _ (by simp)⟩
  · exact ⟨_, congrArg Host.Outcome.next (if_pos ⟨hc, ho⟩), poisonLoc_poisons s _ (by simp)⟩
  · exact ⟨_, rfl, poisonLoc_poisons s _ (by simp)⟩
  · intro c s hfl htrap hpre hout hsince hwait
    simp only [List.forall_mem_cons] at hwait
    obtain ⟨hl, hc, hs, -⟩ := hwait
    refine ⟨_, streamDeadlock_traps hfl htrap hpre hout hsince hl hc hs, rfl, fun d hd => ctx_takeTrap_ne s _ _ _ _ _ _ hd, ?_⟩
    rw [ctx_takeTrap, htrap]; rfl
  · obtain h | ⟨r, hr, h⟩ := bundleReplay_eq s c
    · exact ⟨_, h, replayed_counts s c s.reqs fun _ hq => hq⟩
    · refine ⟨_, h, replayed_counts s c (s.reqs ++ [r]) fun q hq => ?_⟩
      obtain hq | hq := List.mem_append.1 hq
      · exact hq
      · exact List.mem_singleton.1 hq ▸ hr
  · intro c n recs s u hall hclear htime htab
    refine ⟨_, variantSwitch_switches hall hclear htime htab, ?_⟩
    rw [State.onCore, State.ctx_updCtx_same]
    exact ⟨rfl, rfl, rfl, rfl, rfl, rfl, rfl, rfl⟩
  · intro c s hpre htrap hhold hwhy
    refine ⟨_, variantSwitchMiss_misses hpre htrap hhold hwhy, ?_⟩
    rw [State.onCore, State.ctx_updCtx_same]
    obtain ⟨hl, hc, hs⟩ := missSwitch_pc (s.ctx c)
    exact ⟨missSwitch_hold (s.ctx c), hl, hc, hs, rfl, rfl⟩
  · intro c fl s hfl hpend hclear
    refine ⟨_, triggerArrive_arrives hfl hpend hclear, ?_⟩
    rw [State.ctx_updCtx_same]
    exact ⟨mem_trigMembers_trigger _ fl _, rfl, rfl, mem_drainAll s, lm_drainAll s⟩

end Sys2Proof.Machine

/-! PROOFS. What leaves the three memories alone (O57): every update of the state that is not a write of one of them keeps
`State.bytes`. The lemmas stand in the order of the model's definitions. A proof is `by rfl`, and not the term `rfl`, so that
`simp` can discharge the side condition of `bytes_foldl` with the lemma. -/

namespace Sys2Proof.Machine

/-! ### Branches, folds and updates of a field -/

@[simp] theorem bytes_ite (c : Prop) [Decidable c] (s t : State) :
    (if c then s else t).bytes = if c then s.bytes else t.bytes := apply_ite State.bytes c s t

@[simp] theorem bytes_dite (c : Prop) [Decidable c] (f : c → State) (g : ¬c → State) :
    (if h : c then f h else g h).bytes = if h : c then (f h).bytes else (g h).bytes := apply_dite State.bytes c f g

@[simp] theorem bytes_foldl {α : Type} (f : State → α → State) (hf : ∀ s x, (f s x).bytes = s.bytes) (xs : List α)
    (s : State) : (xs.foldl f s).bytes = s.bytes := foldl_keeps State.bytes f hf xs s

theorem bytes_foldr {α : Type} (f : α → State → State) (hf : ∀ s x, (f x s).bytes = s.bytes) (xs : List α)
    (s : State) : (xs.foldr f s).bytes = s.bytes := by
  induction xs with
  | nil => rfl
  | cons x xs ih => rw [List.foldr_cons, hf, ih]

@[simp] theorem bytes_with_cores (s : State) (x : AMap Ctx) : State.bytes { s with cores := x } = s.bytes := by rfl
@[simp] theorem bytes_with_poison (s : State) (x : List Nat) : State.bytes { s with poison := x } = s.bytes := by rfl
@[simp] theorem bytes_with_lmPoison (s : State) (x : List Nat) : State.bytes { s with lmPoison := x } = s.bytes := by rfl
@[simp] theorem bytes_with_hostPoison (s : State) (x : List Nat) : State.bytes { s with hostPoison := x } = s.bytes := by rfl
@[simp] theorem bytes_with_ports (s : State) (x : Vector HostPort 4) : State.bytes { s with ports := x } = s.bytes := by rfl
@[simp] theorem bytes_with_parts (s : State) (x : AMap Partition) : State.bytes { s with parts := x } = s.bytes := by rfl
@[simp] theorem bytes_with_dgrps (s : State) (x : AMap BarInst) : State.bytes { s with dgrps := x } = s.bytes := by rfl
@[simp] theorem bytes_with_reqs (s : State) (x : List Request) : State.bytes { s with reqs := x } = s.bytes := by rfl
@[simp] theorem bytes_with_glob (s : State) (x : Globals) : State.bytes { s with glob := x } = s.bytes := by rfl
@[simp] theorem bytes_with_life (s : State) (x : Lifetime) : State.bytes { s with life := x } = s.bytes := by rfl
@[simp] theorem bytes_with_flash (s : State) (x : Lifetime) : State.bytes { s with flash := x } = s.bytes := by rfl
@[simp] theorem bytes_with_spdm (s : State) (x : Spdm) : State.bytes { s with spdm := x } = s.bytes := by rfl
@[simp] theorem bytes_with_verdict (s : State) (x : Verdict) : State.bytes { s with verdict := x } = s.bytes := by rfl
@[simp] theorem bytes_with_lines (s : State) (x : List (BitVec 3 × BitVec 3)) :
    State.bytes { s with lines := x } = s.bytes := by rfl

/-! ### Cores, registers, traps and the operation file -/

@[simp] theorem bytes_setCtx (s : State) (c : Nat) (x : Ctx) : (s.setCtx c x).bytes = s.bytes := by rfl
@[simp] theorem bytes_updCtx (s : State) (c : Nat) (f : Ctx → Ctx) : (s.updCtx c f).bytes = s.bytes := by rfl
@[simp] theorem bytes_updMe (s : State) (f : Ctx → Ctx) : (s.updMe f).bytes = s.bytes := by rfl
@[simp] theorem bytes_updStream (s : State) (f : StreamState → StreamState) : (s.updStream f).bytes = s.bytes := by rfl
@[simp] theorem bytes_onCore (s : State) (c : Nat) (f : Ctx → Ctx) : (s.onCore c f).bytes = s.bytes := by rfl
@[simp] theorem bytes_wg (s : State) (i : BitVec 5) (v : W64) : (s.wg i v).bytes = s.bytes := by rfl
@[simp] theorem bytes_wp (s : State) (i : BitVec 4) (v : Bool) : (s.wp i v).bytes = s.bytes := by rfl

@[simp] theorem bytes_busyC (s : State) (d : Scoreboard) (bound : Nat) :
    (s.busyC d bound).bytes = s.bytes := by simp [State.busyC]

@[simp] theorem bytes_wgB (s : State) (d : BitVec 5) (v : W64) (bound : Nat) :
    (s.wgB d v bound).bytes = s.bytes := by simp [State.wgB]

@[simp] theorem bytes_waitNow (s : State) (r : WaitReason) : (s.waitNow r).bytes = s.bytes := by rfl

@[simp] theorem bytes_takeTrap (s : State) (c : Nat) (st : StreamId) (cause : Cause) (code : Byte) (addr : W64) (seq : W32)
    (syl : Nat) : (takeTrap s c st cause code addr seq syl).bytes = s.bytes := by rfl

@[simp] theorem bytes_trapWith (s : State) (cause : Cause) (code : Byte) (addr : W64) :
    (s.trapWith cause code addr).bytes = s.bytes := by rfl

@[simp] theorem bytes_trapNow (s : State) (cause : Cause) : (s.trapNow cause).bytes = s.bytes := by rfl

@[simp] theorem bytes_vWrite (s : State) (i : BitVec 5) (at_ : Nat) (bs : List Byte) (bound : Nat) :
    (s.vWrite i at_ bs bound).bytes = s.bytes := by rfl

@[simp] theorem bytes_updTile (s : State) (t : Nat) (f : TileSt → TileSt) : (s.updTile t f).bytes = s.bytes := by rfl

@[simp] theorem bytes_updQueue (s : State) (n q : Nat) (f : CmdQueue → CmdQueue) :
    (s.updQueue n q f).bytes = s.bytes := by rfl

@[simp] theorem bytes_updBar (s : State) (fl key : Nat) (h : BarInst → BarInst) :
    (s.updBar fl key h).bytes = s.bytes := by simp [State.updBar]

@[simp] theorem bytes_routeFault (s : State) (n : Nat) (cause : Cause) (bytes : List Byte) :
    (s.routeFault n cause bytes).bytes = s.bytes := by rfl

/-! ### Operands -/

@[simp] theorem bytes_putElems (s : State) (ty : IntTy) (d : BitVec 5) (xs : List Nat) (bound : Nat) :
    (s.putElems ty d xs bound).bytes = s.bytes := by rfl

@[simp] theorem bytes_putFelems (s : State) (ty : FpTy) (d : BitVec 5) (xs : List Nat) (bound : Nat) :
    (s.putFelems ty d xs bound).bytes = s.bytes := by rfl

@[simp] theorem bytes_putFirst (s : State) (d : BitVec 5) (bs : List Byte) (bound : Nat) :
    (s.putFirst d bs bound).bytes = s.bytes := by rfl

/-! ### Homes: tiles, storage, region and page checks -/

@[simp] theorem bytes_fireMonitors (s : State) (inMem : Bool) (k n : Nat) :
    (s.fireMonitors inMem k n).bytes = s.bytes := by rfl

@[simp] theorem bytes_clearLoc (s : State) (loc : Loc) (n : Nat) : (s.clearLoc loc n).bytes = s.bytes := by
  unfold State.clearLoc
  split <;> simp

@[simp] theorem bytes_noteTlb (s : State) (tile : Option Nat) (e : Option TlbEntry) : (s.noteTlb tile e).bytes = s.bytes := by
  unfold State.noteTlb
  split <;> simp

@[simp] theorem bytes_feAgain (s : State) (part a n : Nat) : (s.feAgain part a n).bytes = s.bytes := by simp [State.feAgain]
@[simp] theorem bytes_feEnded (s : State) (part a : Nat) : (s.feEnded part a).bytes = s.bytes := by rfl

/-! ### Port ends and wavelengths -/

@[simp] theorem bytes_updPort (s : State) (e : PortEnd) (f : PortSt → PortSt) :
    (s.updPort e f).bytes = s.bytes := by simp [State.updPort]

/-! ### Instruction fetch -/

@[simp] theorem bytes_layoutKeep (s : State) (c a : Nat) (l : LayoutLine) : (s.layoutKeep c a l).bytes = s.bytes := by rfl

/-! ### Control flow of the streams -/

@[simp] theorem bytes_toHeader (s : State) (t : Nat) : (s.toHeader t).bytes = s.bytes := by rfl

@[simp] theorem bytes_keepLines (s : State) (c a : Nat) (ls : List LayoutLine) : (s.keepLines c a ls).bytes = s.bytes := by
  induction ls generalizing s a with
  | nil => rfl
  | cons l ls ih => simp [State.keepLines, ih]

theorem bytes_of_variantTable {s t : State} {c : Nat} {recs : List (List Byte)} (h : s.variantTable c = .ok (recs, t)) :
    t.bytes = s.bytes := by
  unfold State.variantTable at h
  dsimp only at h
  (repeat' split at h) <;> cases h
  simp

@[simp] theorem bytes_switchLook (s : State) (o : Nat) : (s.switchLook o).2.bytes = s.bytes := by
  unfold State.switchLook
  dsimp only
  split
  · rfl
  · split
    · split <;> simp
    · next h =>
      have ht := bytes_of_variantTable h
      split
      · exact ht
      · split <;> exact ht

@[simp] theorem bytes_branch (s : State) (off : BitVec 17) : (s.branch off).bytes = s.bytes := by
  unfold State.branch
  dsimp only
  split
  · simp
  · split
    · rfl
    · split
      · rfl
      · split
        · rfl
        · simp

@[simp] theorem bytes_transfer (s : State) (t : Int) : (s.transfer t).bytes = s.bytes := by simp [State.transfer]
@[simp] theorem bytes_callTo (s : State) (t : Int) : (s.callTo t).bytes = s.bytes := by simp [State.callTo]
@[simp] theorem bytes_takePending (s : State) : s.takePending.bytes = s.bytes := by simp [State.takePending]
@[simp] theorem bytes_enter (s : State) (h : Header) : (s.enter h).bytes = s.bytes := by rfl

/-! ### System registers and views -/

@[simp] theorem bytes_countCycles (s : State) : s.countCycles.bytes = s.bytes := by rfl
@[simp] theorem bytes_writeViewV (s : State) (v : W64) : (s.writeViewV v).bytes = s.bytes := by simp [State.writeViewV]

@[simp] theorem bytes_writeViewT (s : State) (n : Fin 8) (v : W64) :
    (s.writeViewT n v).bytes = s.bytes := by simp [State.writeViewT]

@[simp] theorem bytes_writeViewA (s : State) (n : Fin 8) (v : W64) :
    (s.writeViewA n v).bytes = s.bytes := by simp [State.writeViewA]

@[simp] theorem bytes_sysWrite (s : State) (n : Nat) (v : W64) : (s.sysWrite n v).bytes = s.bytes := by
  unfold State.sysWrite
  split <;> simp

/-! ### Requests to homes -/

@[simp] theorem bytes_sendReq (s : State) (c tk : Nat) (lstream : Bool) (addr : W64) (op : ReqOp) :
    (s.sendReq c tk lstream addr op).bytes = s.bytes := by simp [State.sendReq]

@[simp] theorem bytes_touch (s : State) (who : Asker) (acc : Acc) (a n : Nat) : (s.touch who acc a n).bytes = s.bytes := by
  unfold State.touch
  split <;> simp

@[simp] theorem bytes_cacheAccess (s : State) (c a n : Nat) : (s.cacheAccess c a n).bytes = s.bytes := by
  unfold State.cacheAccess
  dsimp only
  split <;> simp

@[simp] theorem bytes_shootDown (s : State) (part tile a : Nat) (issuer : Nat) (old : W32) :
    (s.shootDown part tile a issuer old).bytes = s.bytes := by rfl

/-! ### The L stream -/

@[simp] theorem bytes_pushL (s : State) (kind : LKind) (status : AccStatus) : (s.pushL kind status).bytes = s.bytes := by rfl

@[simp] theorem bytes_pushLoad (s : State) (kind : LKind) (status : AccStatus) (addr : W64) (n : Nat) :
    (s.pushLoad kind status addr n).bytes = s.bytes := by
  unfold State.pushLoad
  split <;> simp

@[simp] theorem bytes_allocLq (s : State) (q : BitVec 3) : (s.allocLq q).bytes = s.bytes := by rfl

@[simp] theorem bytes_loadReg (s : State) (lm : Bool) (d : BitVec 5) (a : W64) (sz : BitVec 2) (sx : Bool) :
    (s.loadReg lm d a sz sx).bytes = s.bytes := by simp [State.loadReg]

@[simp] theorem bytes_loadEntry (s : State) (lm : Bool) (q : BitVec 3) (a : W64) (e : BitVec 5) :
    (s.loadEntry lm q a e).bytes = s.bytes := by simp [State.loadEntry]

@[simp] theorem bytes_gather (s : State) (q : BitVec 3) (lm : Bool) (e n : Nat) (base idx : W64) :
    (s.gather q lm e n base idx).bytes = s.bytes := by simp [State.gather]

@[simp] theorem bytes_stcfgAt (s : State) (st : BitVec 4) (a : W64) :
    (s.stcfgAt st a).bytes = s.bytes := by simp [State.stcfgAt]

@[simp] theorem bytes_stadvWith (s : State) (st : BitVec 4) (move : StreamReg → Option StreamReg) :
    (s.stadvWith st move).bytes = s.bytes := by
  dsimp only [State.stadvWith]
  (repeat' split) <;> simp

@[simp] theorem bytes_prefAt (s : State) (lvl : BitVec 2) (a : W64) (n : BitVec 8) :
    (s.prefAt lvl a n).bytes = s.bytes := by simp [State.prefAt]

@[simp] theorem bytes_ldlayAt (s : State) (d : BitVec 5) (a : W64) (k : BitVec 3) :
    (s.ldlayAt d a k).bytes = s.bytes := by simp [State.ldlayAt]

@[simp] theorem bytes_recvWait (s : State) (h : BitVec 6) (step : Nat) (r : WaitReason) :
    (s.recvWait h step r).bytes = s.bytes := by rfl

@[simp] theorem bytes_recvTake (s : State) (q : BitVec 3) (h : BitVec 6) (bs : List Byte) :
    (s.recvTake q h bs).bytes = s.bytes := by rfl

@[simp] theorem bytes_readAhead (s : State) (c op piece : Nat) : (s.readAhead c op piece).bytes = s.bytes := by
  dsimp only [State.readAhead]
  (repeat' split) <;> simp

@[simp] theorem bytes_prefLine (s : State) (c : Nat) (lvl : BitVec 2) (a : Nat) :
    (s.prefLine c lvl a).bytes = s.bytes := by simp [State.prefLine]

@[simp] theorem bytes_withdrawL (s : State) (c : Nat) (a : LAccess) : (s.withdrawL c a).bytes = s.bytes := by rfl

@[simp] theorem bytes_faultL (s : State) (c : Nat) (a : LAccess) (cause : Cause) (addr : W64) :
    (s.faultL c a cause addr).bytes = s.bytes := by simp [State.faultL]

@[simp] theorem bytes_rereadL (s : State) (c : Nat) (a : LAccess) (rest : List LAccess) (addr : W64) :
    (s.rereadL c a rest addr).bytes = s.bytes := by simp [State.rereadL]

@[simp] theorem bytes_completeTrailer (s : State) (c : Nat) (a : LAccess) (rest : List LAccess) :
    (s.completeTrailer c a rest).bytes = s.bytes := by
  unfold State.completeTrailer
  (repeat' split) <;> simp

/-! ### The S stream -/

@[simp] theorem bytes_pushS (s : State) (kind : SKind) (status : AccStatus) : (s.pushS kind status).bytes = s.bytes := by rfl

@[simp] theorem bytes_pushStore (s : State) (lm : Bool) (a : W64) (bs : List Byte) :
    (s.pushStore lm a bs).bytes = s.bytes := by simp [State.pushStore]

@[simp] theorem bytes_storeReg (s : State) (lm : Bool) (b : BitVec 5) (a : W64) (sz : BitVec 2) :
    (s.storeReg lm b a sz).bytes = s.bytes := by
  unfold State.storeReg
  split <;> simp

@[simp] theorem bytes_popSq (s : State) (q : BitVec 3) (e : QEntry) : (s.popSq q e).bytes = s.bytes := by rfl

@[simp] theorem bytes_meet (s : State) (a : W64) (m : WaitReason ⊕ Cause) : (s.meet a m).bytes = s.bytes := by
  cases m <;> simp [State.meet]

@[simp] theorem bytes_storeEntry (s : State) (lm : Bool) (q : BitVec 3) (a : W64) (e : BitVec 5) :
    (s.storeEntry lm q a e).bytes = s.bytes := by
  unfold State.storeEntry
  split
  · simp
  · split
    · rfl
    · simp

@[simp] theorem bytes_pushStr (s : State) (a : W64) (bs : List Byte) (flag : W64) (sc : Scope) :
    (s.pushStr a bs flag sc).bytes = s.bytes := by simp [State.pushStr]

@[simp] theorem bytes_storeFlag (s : State) (q : BitVec 3) (a : W64) (f e : BitVec 5) (sc : Scope) :
    (s.storeFlag q a f e sc).bytes = s.bytes := by
  unfold State.storeFlag
  split
  · simp
  · dsimp only
    split
    · simp
    · split
      · simp
      · split
        · rfl
        · simp

@[simp] theorem bytes_undoNote (s : State) (c : Nat) (u : SUndo) : (s.undoNote c u).bytes = s.bytes := by
  unfold State.undoNote
  split <;> simp

@[simp] theorem bytes_takeBack (s : State) (c tk : Nat) : (s.takeBack c tk).bytes = s.bytes := by
  unfold State.takeBack
  simp only [bytes_updCtx]
  rw [bytes_foldl _ fun s e => ?_, bytes_foldl _ fun s e => by simp]
  split <;> simp

@[simp] theorem bytes_withdrawS (s : State) (c : Nat) (a : SAccess) : (s.withdrawS c a).bytes = s.bytes := by
  simp only [State.withdrawS, bytes_updCtx, bytes_takeBack]
  exact bytes_foldr (fun (e : Nat × SUndo) s => s.undoNote c e.2) (fun s e => bytes_undoNote s c e.2) _ _

@[simp] theorem bytes_faultS (s : State) (c : Nat) (a : SAccess) (cause : Cause) (addr : W64) :
    (s.faultS c a cause addr).bytes = s.bytes := by simp [State.faultS]

@[simp] theorem bytes_putOnCircuit (s : State) (c h : Nat) (bs : List Byte) :
    (s.putOnCircuit c h bs).bytes = s.bytes := by rfl

@[simp] theorem bytes_flushSends (s : State) (c : Nat) : (s.flushSends c).bytes = s.bytes := by simp [State.flushSends]
@[simp] theorem bytes_flushOvers (s : State) (c : Nat) : (s.flushOvers c).bytes = s.bytes := by simp [State.flushOvers]

@[simp] theorem bytes_leftQueue (s : State) (c : Nat) (f : Ctx → Ctx) :
    (s.leftQueue c f).bytes = s.bytes := by simp [State.leftQueue]

@[simp] theorem bytes_countBytes (s : State) (r : CmdRecord) : (s.countBytes r).2.bytes = s.bytes := by
  unfold State.countBytes
  split
  · rfl
  · dsimp only
    split <;> simp

@[simp] theorem bytes_pushRecord (s : State) (sc : Scope) (r : CmdRecord) : (s.pushRecord sc r).bytes = s.bytes := by
  unfold State.pushRecord
  split
  · simp
  · split <;> simp

@[simp] theorem bytes_wgs (s : State) (d : BitVec 5) (ws : List W64) : (s.wgs d ws).bytes = s.bytes := by simp [State.wgs]
@[simp] theorem bytes_waitaStart (s : State) (nb : Bool) (a e : W64) : (s.waitaStart nb a e).bytes = s.bytes := by rfl

@[simp] theorem bytes_waitaAt (s : State) (nb : Bool) (a e : W64) : (s.waitaAt nb a e).bytes = s.bytes := by
  unfold State.waitaAt
  dsimp only
  split <;> simp

@[simp] theorem bytes_armDo (s : State) (m : Monitor) (a : ArmFind) : (s.armDo m a).2.bytes = s.bytes := by
  cases a <;> simp [State.armDo]

@[simp] theorem bytes_armAt (s : State) (c : Nat) (w : WaitReq) : (s.armAt c w).2.bytes = s.bytes := by
  simp [State.armAt]

@[simp] theorem bytes_updMember (s : State) (fl m : Nat) (f : Ctx → Ctx) : (s.updMember fl m f).bytes = s.bytes := by
  unfold State.updMember
  split <;> simp

@[simp] theorem bytes_sendEntry (s : State) (q : BitVec 3) (h : BitVec 6) (e : QEntry) :
    (s.sendEntry q h e).bytes = s.bytes := by simp [State.sendEntry]

/-! ### Barriers -/

@[simp] theorem bytes_arrive (s : State) (b : BarOp) : (s.arrive b).bytes = s.bytes := by simp [State.arrive]

@[simp] theorem bytes_barrierWait (s : State) (b : BarOp) (d : BitVec 5) :
    (s.barrierWait b d).bytes = s.bytes := by simp [State.barrierWait]

@[simp] theorem bytes_setAwp (s : State) (awp : Bool) (bar : Nat) : (s.setAwp awp bar).bytes = s.bytes := by rfl

/-! ### Vectors -/

@[simp] theorem bytes_putBits (s : State) (d : BitVec 5) (x : BitVec 2048) : (s.putBits d x).bytes = s.bytes := by rfl
@[simp] theorem bytes_countLost (s : State) (mask : Nat) : (s.countLost mask).bytes = s.bytes := by simp [State.countLost]

/-! ### The quantiser -/

@[simp] theorem bytes_qstatWith (s : State) (tid : BitVec 6) (clr : Bool) :
    (s.qstatWith tid clr).bytes = s.bytes := by simp [State.qstatWith]

/-! ### The matrix engine -/

theorem bytes_onStaging {s : State} {f : State → State} (hf : (f s).bytes = s.bytes) : (s.onStaging f).bytes = s.bytes := by
  unfold State.onStaging
  split
  · rfl
  · exact hf

@[simp] theorem bytes_handNest (s : State) (commit : Option Bool) : (s.handNest commit).bytes = s.bytes := by rfl

@[simp] theorem bytes_onHand (s : State) (check : Bank → Option Cause) (commit : Option Bool) :
    (s.onHand check commit).bytes = s.bytes := by
  refine bytes_onStaging ?_
  split
  · rfl
  · split <;> simp

@[simp] theorem bytes_nestFail (s : State) (c : Nat) (ne : Nest) (e : NestErr) (keep : Bool) :
    (s.nestFail c ne e keep).bytes = s.bytes := by simp [State.nestFail]

@[simp] theorem bytes_shadowRow (s : State) (c : Nat) (scale : Bool) : (s.shadowRow c scale).bytes = s.bytes := by
  dsimp only [State.shadowRow]
  (repeat' split) <;> simp

/-! ### The copy engine -/

@[simp] theorem bytes_updStarted (s : State) (c tk : Nat) (f : Started → Started) :
    (s.updStarted c tk f).bytes = s.bytes := by rfl

@[simp] theorem bytes_clearRuns (s : State) (spoilt : List Loc) (bytes : List EngByte) :
    (s.clearRuns spoilt bytes).bytes = s.bytes := by
  refine bytes_foldl _ (fun s run => ?_) _ s
  split
  · rfl
  · rfl
  · simp

@[simp] theorem bytes_dropNear (s : State) (c : Nat) (lines : List Nat) : (s.dropNear c lines).bytes = s.bytes := by rfl

@[simp] theorem bytes_leaveBarrier (s : State) (fl : Nat) (t : Started) : (s.leaveBarrier fl t).bytes = s.bytes := by
  unfold State.leaveBarrier
  split <;> simp

@[simp] theorem bytes_hint (s : State) (c : Nat) (r : CmdRecord) : (s.hint c r).bytes = s.bytes := by simp [State.hint]

/-! ### Requests at their homes -/

@[simp] theorem bytes_noteFloor (s : State) (tile : Nat) (r : Request) : (s.noteFloor tile r).bytes = s.bytes := by rfl

@[simp] theorem bytes_saveReply (s : State) (tile : Nat) (r : Request) (cause : Cause) (at_ : W64) (bs : List Byte)
    (locs : List Loc) : (s.saveReply tile r cause at_ bs locs).bytes = s.bytes := by rfl

@[simp] theorem bytes_loadPiece (s : State) (ix piece : Nat) : (s.loadPiece ix piece).bytes = s.bytes := by
  unfold State.loadPiece
  (repeat' split) <;> simp

@[simp] theorem bytes_setReq (s : State) (ix : Nat) (r : Request) : (s.setReq ix r).bytes = s.bytes := by rfl

@[simp] theorem bytes_reply (s : State) (ix tile : Nat) (r : Request) (a : Answer) :
    (s.reply ix tile r a).bytes = s.bytes := by
  unfold State.reply
  split <;> simp

@[simp] theorem bytes_droverFault (s : State) (part sub step word mem : Nat) :
    (s.droverFault part sub step word mem).bytes = s.bytes := by rfl

@[simp] theorem bytes_droverHalt (s : State) (part sub step word mem : Nat) :
    (s.droverHalt part sub step word mem).bytes = s.bytes := by rfl

@[simp] theorem bytes_settleAnswered (s : State) (r : Request) (cause : Cause) :
    (s.settleAnswered r cause).bytes = s.bytes := by
  unfold State.settleAnswered
  split <;> simp

@[simp] theorem bytes_giveUpFlag (s : State) (r : Request) : (s.giveUpFlag r).bytes = s.bytes := by
  unfold State.giveUpFlag
  split <;> simp

@[simp] theorem bytes_resend (s : State) (ix : Nat) (r : Request) : (s.resend ix r).bytes = s.bytes := by
  unfold State.resend
  (repeat' split) <;> simp

/-! ### The fabric -/

@[simp] theorem bytes_tookUnits (s : State) (e : PortEnd) : (s.tookUnits e).bytes = s.bytes := by simp [State.tookUnits]

@[simp] theorem bytes_poisonStream (s : State) (e : PortEnd) (f : FlitFields) : (s.poisonStream e f).bytes = s.bytes := by
  unfold State.poisonStream
  split <;> simp

@[simp] theorem bytes_poisonFlit (s : State) (e : PortEnd) (f : FlitFields) : (s.poisonFlit e f).bytes = s.bytes := by
  unfold State.poisonFlit
  (repeat' split) <;> simp

@[simp] theorem bytes_takeControl (s : State) (e r : PortEnd) (fuel : Nat) : (s.takeControl e r fuel).bytes = s.bytes := by
  induction fuel generalizing s with
  | zero => rfl
  | succ fuel ih =>
    unfold State.takeControl
    split <;> simp [ih]

@[simp] theorem bytes_atBoundary (s : State) (e r : PortEnd) : (s.atBoundary e r).bytes = s.bytes := by
  exact bytes_takeControl s e r _

@[simp] theorem bytes_loseBlocks (s : State) (e : PortEnd) (n : BitVec 16) : (s.loseBlocks e n).bytes = s.bytes := by
  dsimp only [State.loseBlocks]
  (repeat' split) <;> simp

@[simp] theorem bytes_transmit (s : State) (e : PortEnd) (f : FlitOut) :
    (s.transmit e f).bytes = s.bytes := by simp [State.transmit]

@[simp] theorem bytes_acknowledge (s : State) (e : PortEnd) (n : BitVec 16) :
    (s.acknowledge e n).bytes = s.bytes := by simp [State.acknowledge]

@[simp] theorem bytes_leaveBoth (s : State) (e : PortEnd) (k : Nat) : (s.leaveBoth e k).bytes = s.bytes := by
  unfold State.leaveBoth
  split <;> simp

@[simp] theorem bytes_updBoth (s : State) (e : PortEnd) (f : PortSt → PortSt) : (s.updBoth e f).bytes = s.bytes := by
  unfold State.updBoth
  split <;> simp

@[simp] theorem bytes_portFault (s : State) (e : PortEnd) (cause : Cause) (map : Nat) :
    (s.portFault e cause map).bytes = s.bytes := by
  unfold State.portFault
  split <;> simp

@[simp] theorem bytes_emptied (s before : State) (e : PortEnd) (k : Nat) : (s.emptied before e k).bytes = s.bytes := by
  unfold State.emptied
  split <;> simp

@[simp] theorem bytes_changeMap (s : State) (tx rx : PortEnd) (k : Nat) (back : Bool) :
    (s.changeMap tx rx k back).bytes = s.bytes := by simp [State.changeMap]

@[simp] theorem bytes_backFromMesh (s : State) (e : PortEnd) (k : Nat) : (s.backFromMesh e k).bytes = s.bytes := by
  unfold State.backFromMesh
  split <;> simp

@[simp] theorem bytes_failures (s before : State) (e : PortEnd) : (s.failures before e).bytes = s.bytes := by
  unfold State.failures
  split <;> simp

@[simp] theorem bytes_activate (s : State) (e : PortEnd) (r : Option PortEnd) (k : Nat) :
    (s.activate e r k).bytes = s.bytes := by
  unfold State.activate
  split <;> simp

@[simp] theorem bytes_retrainEnd (s : State) (e : PortEnd) : (s.retrainEnd e).bytes = s.bytes := by simp [State.retrainEnd]
@[simp] theorem bytes_retrainPort (s : State) (e : PortEnd) : (s.retrainPort e).bytes = s.bytes := by simp [State.retrainPort]

/-! ### The drover -/

@[simp] theorem bytes_wordHalt (s : State) (part sub : Nat) : (s.wordHalt part sub).bytes = s.bytes := by rfl
@[simp] theorem bytes_inBlock (s : State) (n : Nat) (f : Block → Block) : (s.inBlock n f).bytes = s.bytes := by rfl

@[simp] theorem bytes_endBlock (s : State) (n : Nat) (bar : Option Nat) : (s.endBlock n bar).bytes = s.bytes := by
  unfold State.endBlock
  dsimp only
  split <;> simp

@[simp] theorem bytes_pastImage (s : State) (n : Nat) : (s.pastImage n).bytes = s.bytes := by simp [State.pastImage]

@[simp] theorem bytes_lastChanges (s : State) (tx rx : PortEnd) : (s.lastChanges tx rx).bytes = s.bytes := by
  refine bytes_foldl _ (fun s x => ?_) _ s
  split <;> simp

@[simp] theorem bytes_freeEnds (s : State) (k : Circuit) : (s.freeEnds k).bytes = s.bytes := by simp [State.freeEnds]

@[simp] theorem bytes_tearCircuits (s : State) (n : Nat) (f : Circuit → Bool) :
    (s.tearCircuits n f).bytes = s.bytes := by simp [State.tearCircuits]

@[simp] theorem bytes_sendSettle (s : State) (n step : Nat) (addr : BitVec 56) (word : Nat) :
    (s.sendSettle n step addr word).bytes = s.bytes := by rfl

@[simp] theorem bytes_doSettles (s : State) (n : Nat) : (s.doSettles n).bytes = s.bytes := by simp [State.doSettles]
@[simp] theorem bytes_lineUp (s : State) (k : Circuit) : (s.lineUp k).bytes = s.bytes := by simp [State.lineUp]

@[simp] theorem bytes_beginStep (s : State) (n : Nat) (b : Block) :
    (s.beginStep n b).bytes = s.bytes := by simp [State.beginStep]

@[simp] theorem bytes_takeMaps (s : State) (at_ : Nat) (n : Nat) : (s.takeMaps at_ n).bytes = s.bytes := by rfl

/-! ### The front end -/

@[simp] theorem bytes_sendIrq (s : State) (port vec : Nat) : (s.sendIrq port vec).bytes = s.bytes := by simp [State.sendIrq]
@[simp] theorem bytes_disarmSig (s : State) (part q : Nat) : (s.disarmSig part q).bytes = s.bytes := by rfl

@[simp] theorem bytes_stopQueue (s : State) (part q : Nat) (cause mem : Cause) :
    (s.stopQueue part q cause mem).bytes = s.bytes := by rfl

@[simp] theorem bytes_packetDone (s : State) (p : Packet) : (s.packetDone p).bytes = s.bytes := by
  unfold State.packetDone
  split <;> simp

@[simp] theorem bytes_packetWaits (s : State) : s.packetWaits.bytes = s.bytes := by
  unfold State.packetWaits
  split <;> simp

@[simp] theorem bytes_packetKept (s : State) (p : Packet) : (s.packetKept p).bytes = s.bytes := by
  unfold State.packetKept
  split <;> simp

@[simp] theorem bytes_packetStops (s : State) (cause mem : Cause) : (s.packetStops cause mem).bytes = s.bytes := by
  unfold State.packetStops
  split <;> simp

/-! ### Launches and flocks -/

@[simp] theorem bytes_keepPage (s : State) (c : Nat) (a : Nat) : (s.keepPage c a).bytes = s.bytes := by
  unfold State.keepPage
  split <;> simp

@[simp] theorem bytes_preempt (s : State) (fl : Nat) : (s.preempt fl).bytes = s.bytes := by
  simp [State.preempt, bytes_askCuts]

@[simp] theorem bytes_endProgram (s : State) (fl : Nat) : (s.endProgram fl).bytes = s.bytes := by
  simp [State.endProgram, bytes_dropProgram]

@[simp] theorem bytes_dropSlots (s : State) (fl : Nat) : (s.dropSlots fl).bytes = s.bytes := by rfl

@[simp] theorem bytes_kill (s : State) (fl : Nat) (cause : Cause) (trap host : Bool) :
    (s.kill fl cause trap host).bytes = s.bytes := by
  unfold State.kill
  dsimp only
  split <;> simp [bytes_discard, bytes_askCuts]

@[simp] theorem bytes_retireFlock (s : State) (fl : Nat) : (s.retireFlock fl).bytes = s.bytes := by
  simp [State.retireFlock, bytes_freeCores, bytes_leaveBarriers]

/-! ### Placement, release and resumption -/

@[simp] theorem bytes_mapMonitors (s : State) (f : Monitor → Monitor) : (s.mapMonitors f).bytes = s.bytes := by rfl

@[simp] theorem bytes_moveMonitors (s : State) (core : Nat) (f : Monitor → Monitor) :
    (s.moveMonitors core f).bytes = s.bytes := by rfl

@[simp] theorem bytes_retakePorts (s : State) (fl : Nat) : (s.retakePorts fl).bytes = s.bytes := by
  unfold State.retakePorts
  dsimp only
  split <;> simp

@[simp] theorem bytes_restoreMember (s : State) (fl i : Nat) :
    (s.restoreMember fl i).bytes = s.bytes := by simp [State.restoreMember]

@[simp] theorem bytes_restoreFlock (s : State) (fl : Nat) :
    (s.restoreFlock fl).bytes = s.bytes := by simp [State.restoreFlock]

@[simp] theorem bytes_releaseFlock (s : State) (fl : Nat) :
    (s.releaseFlock fl).bytes = s.bytes := by simp [State.releaseFlock]

theorem bytes_of_clearing {s t : State} {fl : Nat} {olds : List Nat} (h : s.clearing fl olds = .soon t) :
    t.bytes = s.bytes := by
  unfold State.clearing at h
  (repeat' split at h) <;> cases h
  simp

@[simp] theorem bytes_place (s : State) (fl : Nat) (image : List Byte) :
    (s.place fl image).bytes = s.bytes := by simp [State.place]

@[simp] theorem bytes_tryPlace (s : State) (fl : Nat) : (s.tryPlace fl).bytes = s.bytes := by
  unfold State.tryPlace
  dsimp only
  split
  · rfl
  · split
    · rfl
    · next h =>
      rw [← bytes_of_clearing h]
      split <;> simp
    · split
      · simp
      · split
        · simp [bytes_settleDeps, bytes_endLaunch]
        · split <;> simp [bytes_settleDeps, bytes_endLaunch]

@[simp] theorem bytes_toTick (s : State) (part q fl : Nat) : (s.toTick part q fl).bytes = s.bytes := by simp [State.toTick]

@[simp] theorem bytes_releaseTick (s : State) (part q fl : Nat) : (s.releaseTick part q fl).bytes = s.bytes := by
  simp [State.releaseTick]

@[simp] theorem bytes_strayToTick (s : State) (part q : Nat) : (s.strayToTick part q).bytes = s.bytes := by
  unfold State.strayToTick
  split <;> simp [bytes_settleDeps]

/-! ### Cuts -/

@[simp] theorem bytes_disarm (s : State) (f : Monitor → Bool) : (s.disarm f).bytes = s.bytes := by rfl

@[simp] theorem bytes_withdrawWait (s : State) (c : Nat) : (s.withdrawWait c).bytes = s.bytes := by
  unfold State.withdrawWait
  dsimp only
  split <;> simp

@[simp] theorem bytes_dropStopped (s : State) (c : Nat) (tks : List Nat) : (s.dropStopped c tks).bytes = s.bytes := by rfl

@[simp] theorem bytes_saveMember (s : State) (c : Nat) : (s.saveMember c).bytes = s.bytes := by
  unfold State.saveMember
  dsimp only
  split <;> simp

@[simp] theorem bytes_cutFlock (s : State) (fl : Nat) : (s.cutFlock fl).bytes = s.bytes := by
  unfold State.cutFlock
  split
  · rfl
  · split
    · rfl
    · exact bytes_discard s fl
    · rfl

@[simp] theorem bytes_trigger (s : State) (fl m : Nat) : (s.trigger fl m).bytes = s.bytes := by rfl
@[simp] theorem bytes_partiesGone (s : State) (fl m : Nat) : (s.partiesGone fl m).bytes = s.bytes := by rfl

@[simp] theorem bytes_recordWaits (s : State) (c part : Nat) (t : TrapInfo) :
    (s.recordWaits c part t).bytes = s.bytes := by simp [State.recordWaits]

@[simp] theorem bytes_trapAct (s : State) (part : Nat) (act : Byte) (core : BitVec 12) :
    (s.trapAct part act core).bytes = s.bytes := by
  unfold State.trapAct
  split <;> simp

@[simp] theorem bytes_trapGo (s : State) (part : Nat) (act : Byte) (core : BitVec 12) :
    (s.trapGo part act core).bytes = s.bytes := by
  dsimp only [State.trapGo]
  (repeat' split) <;> simp

@[simp] theorem bytes_trapActsDone (s : State) (part : Nat) :
    (s.trapActsDone part).bytes = s.bytes := by simp [State.trapActsDone]

/-! ### Packets -/

@[simp] theorem bytes_fetchAhead (s : State) (part q : Nat) : (s.fetchAhead part q).bytes = s.bytes := by
  unfold State.fetchAhead
  dsimp only
  refine bytes_foldl _ (fun s i => ?_) _ s
  split
  · rfl
  · split <;> simp

@[simp] theorem bytes_ringFail (s : State) (part q : Nat) (e : FrontAns) : (s.ringFail part q e).bytes = s.bytes := by
  unfold State.ringFail
  split <;> simp

@[simp] theorem bytes_parseLaunch (s : State) (part q : Nat) (p : Packet) : (s.parseLaunch part q p).bytes = s.bytes := by
  unfold State.parseLaunch
  dsimp only
  rw [bytes_ite, bytes_endLaunch]
  exact ite_self _

@[simp] theorem bytes_launchHead (s : State) (part q fl : Nat) : (s.launchHead part q fl).bytes = s.bytes := by
  simp [State.launchHead, bytes_settleDeps]

@[simp] theorem bytes_armSig (s : State) (part q a : Nat) (x : W64) : (s.armSig part q a x).bytes = s.bytes := by
  unfold State.armSig
  (repeat' split) <;> simp

@[simp] theorem bytes_queueIrq (s : State) (part q : Nat) : (s.queueIrq part q).bytes = s.bytes := by simp [State.queueIrq]

/-! ### Host registers -/

@[simp] theorem bytes_doorbell (s : State) (part q : Nat) (x : W32) :
    (s.doorbell part q x).bytes = s.bytes := by simp [State.doorbell]

@[simp] theorem bytes_enableQueue (s : State) (part q : Nat) : (s.enableQueue part q).bytes = s.bytes := by
  unfold State.enableQueue
  (repeat' split) <;> simp

@[simp] theorem bytes_failUnparsed (s : State) (part q : Nat) : (s.failUnparsed part q).bytes = s.bytes := by
  simp [State.failUnparsed, bytes_endLaunch, bytes_settleDeps]

@[simp] theorem bytes_disableQueue (s : State) (part q : Nat) :
    (s.disableQueue part q).bytes = s.bytes := by simp [State.disableQueue]

@[simp] theorem bytes_resetQueue (s : State) (part q : Nat) :
    (s.resetQueue part q).bytes = s.bytes := by simp [State.resetQueue]

@[simp] theorem bytes_retryQueue (s : State) (part q : Nat) :
    (s.retryQueue part q).bytes = s.bytes := by simp [State.retryQueue]

@[simp] theorem bytes_partStatus (s : State) (n : Nat) (op : BitVec 4) (st : Cause) :
    (s.partStatus n op st).bytes = s.bytes := by rfl

@[simp] theorem bytes_createPart (s : State) (n : Nat) : (s.createPart n).bytes = s.bytes := by
  unfold State.createPart
  dsimp only
  split
  · simp
  · exact bytes_foldl _ (fun s t => bytes_updTile s t _) _ s

@[simp] theorem bytes_finishCreate (s : State) (n : Nat) : (s.finishCreate n).bytes = s.bytes := by simp [State.finishCreate]

@[simp] theorem bytes_removePart (s : State) (n : Nat) : (s.removePart n).bytes = s.bytes := by
  unfold State.removePart
  split
  · simp
  · split
    · simp
    · exact bytes_foldl _ (fun s t => bytes_updTile s t _) _ s

@[simp] theorem bytes_killPart (s : State) (n : Nat) : (s.killPart n).bytes = s.bytes := by simp [State.killPart]

@[simp] theorem bytes_partAct (s : State) (n op : Nat) : (s.partAct n op).bytes = s.bytes := by
  unfold State.partAct
  split <;> simp

@[simp] theorem bytes_partCommand (s : State) (n op : Nat) :
    (s.partCommand n op).bytes = s.bytes := by simp [State.partCommand]

@[simp] theorem bytes_invalidate (s : State) (part : Nat) (asid : BitVec 16) (tile : Nat) (allt : Bool) :
    (s.invalidate part asid tile allt).bytes = s.bytes := by simp [State.invalidate]

@[simp] theorem bytes_updCapture (s : State) (tile unit : Nat) (f : Capture → Capture) :
    (s.updCapture tile unit f).bytes = s.bytes := by simp [State.updCapture]

@[simp] theorem bytes_writeDomid (s : State) (v : BitVec 8) : (s.writeDomid v).bytes = s.bytes := by simp [State.writeDomid]

@[simp] theorem bytes_writeGlobal (s : State) (off : Nat) (v : W64) :
    (s.writeGlobal off v).bytes = s.bytes := by simp [State.writeGlobal]

@[simp] theorem bytes_writeQctl (s : State) (part q : Nat) (v : W64) :
    (s.writeQctl part q v).bytes = s.bytes := by simp [State.writeQctl]

@[simp] theorem bytes_writeTrapctl (s : State) (part : Nat) (v : W64) :
    (s.writeTrapctl part v).bytes = s.bytes := by simp [State.writeTrapctl]

@[simp] theorem bytes_writePart (s : State) (n r : Nat) (v : W64) : (s.writePart n r v).bytes = s.bytes := by
  unfold State.writePart
  (repeat' split) <;> simp

@[simp] theorem bytes_writePortCfg (s : State) (e : PortEnd) (v : W64) :
    (s.writePortCfg e v).bytes = s.bytes := by simp [State.writePortCfg]

@[simp] theorem bytes_writeFabric (s : State) (t r : Nat) (v : W64) : (s.writeFabric t r v).bytes = s.bytes := by
  unfold State.writeFabric
  split <;> simp

@[simp] theorem bytes_spoilCtx (s : State) (fl m : Nat) : (s.spoilCtx fl m).bytes = s.bytes := by rfl
@[simp] theorem bytes_dropFault (s : State) (part : Nat) : (s.dropFault part).bytes = s.bytes := by rfl

theorem bytes_of_handlerLaunch {s t : State} {part hid : Nat} (h : s.handlerLaunch part hid = some t) :
    t.bytes = s.bytes := by
  unfold State.handlerLaunch at h
  dsimp only at h
  split at h
  · cases h
  · cases h
    rfl
  · cases h
    rw [bytes_ite, bytes_endLaunch]
    exact ite_self _

@[simp] theorem bytes_wantHandler (s : State) (part hid : Nat) :
    (s.wantHandler part hid).bytes = s.bytes := by simp [State.wantHandler]

@[simp] theorem bytes_nextHandler (s : State) (part : Nat) : (s.nextHandler part).bytes = s.bytes := by
  unfold State.nextHandler
  split
  · rfl
  · split
    · rfl
    · next h => simp [bytes_of_handlerLaunch h]

@[simp] theorem bytes_countFault (s : State) (part : Nat) (cause : Cause) :
    (s.countFault part cause).bytes = s.bytes := by rfl

@[simp] theorem bytes_shepherdBack (s : State) : s.shepherdBack.bytes = s.bytes := by simp [State.shepherdBack]

/-! ### Boot and SPDM -/

@[simp] theorem bytes_spdmSay (s : State) (a : SpdmAnswer) (sig : Option (Nat × Nat)) (x : Spdm) :
    (s.spdmSay a sig x).bytes = s.bytes := by rfl

@[simp] theorem bytes_spdmNegotiate (s : State) (phase : Nat) (r : SpdmRequest) (a : SpdmAnswer) :
    (s.spdmNegotiate phase r a).bytes = s.bytes := by rfl

@[simp] theorem bytes_spdmCert (s : State) (r : SpdmRequest) (a : SpdmAnswer) (afresh : Bool) :
    (s.spdmCert r a afresh).bytes = s.bytes := by rfl

@[simp] theorem bytes_spdmError (s : State) : s.spdmError.bytes = s.bytes := by rfl

/-! ### Layers and their roles -/

@[simp] theorem bytes_updLayer (s : State) (tile k : Nat) (f : Layer → Layer) :
    (s.updLayer tile k f).bytes = s.bytes := by simp [State.updLayer]

@[simp] theorem bytes_stackFault (s : State) (tile layer : Nat) (cause : Cause) :
    (s.stackFault tile layer cause).bytes = s.bytes := by
  unfold State.stackFault
  split <;> simp

@[simp] theorem bytes_askRole (s : State) (tile : Nat) (a : RoleAction) : (s.askRole tile a).bytes = s.bytes := by rfl

@[simp] theorem bytes_killLost (s : State) (tile layer : Nat) :
    (s.killLost tile layer).bytes = s.bytes := by simp [State.killLost]

@[simp] theorem bytes_moveSlots (s : State) (tile a b : Nat) : (s.moveSlots tile a b).bytes = s.bytes := by rfl
@[simp] theorem bytes_moveStore (s : State) (tile : Nat) : (s.moveStore tile).bytes = s.bytes := by rfl

@[simp] theorem bytes_poisonUnread (s : State) (tile to_ k : Nat) (bad : List Nat) :
    (s.poisonUnread tile to_ k bad).bytes = s.bytes := by
  refine bytes_foldl _ (fun s i => ?_) _ s
  dsimp only
  split
  · simp
  · split
    · simp
    · rfl

@[simp] theorem bytes_swapRoles (s : State) (tile hot : Nat) : (s.swapRoles tile hot).bytes = s.bytes := by
  unfold State.swapRoles
  dsimp only
  split <;> simp

@[simp] theorem bytes_shadeAgain (s : State) (tile layer : Nat) :
    (s.shadeAgain tile layer).bytes = s.bytes := by simp [State.shadeAgain]

@[simp] theorem bytes_createsDone (s : State) : s.createsDone.bytes = s.bytes := by simp [State.createsDone]

@[simp] theorem bytes_emergency (s : State) (tile layer : Nat) :
    (s.emergency tile layer).bytes = s.bytes := by simp [State.emergency]

@[simp] theorem bytes_dropGrant (s : State) (tile : Nat) : (s.dropGrant tile).bytes = s.bytes := by rfl

@[simp] theorem bytes_keepBudget (exceeded : State → Bool) (ls : List (Nat × Nat)) (n : Nat) (s : State) :
    (s.keepBudget exceeded ls n).bytes = s.bytes := by
  induction n generalizing s with
  | zero => rfl
  | succ n ih =>
    unfold State.keepBudget
    split
    · split
      · rfl
      · simp [ih]
    · rfl

@[simp] theorem bytes_giveLevel (s : State) (tile layer : Nat) (lvl : BitVec 3) :
    (s.giveLevel tile layer lvl).bytes = s.bytes := by simp [State.giveLevel]

/-! ### Issue -/

@[simp] theorem bytes_waitHere (s : State) (r : WaitReason) : (s.waitHere r).bytes = s.bytes := by rfl
@[simp] theorem bytes_focusOn (s : State) (c : Nat) (st : StreamId) : (s.focusOn c st).bytes = s.bytes := by rfl

theorem bytes_of_itemSyls {s t : State} {n : Nat} (h : s.itemSyls n = .error t) : t.bytes = s.bytes := by
  unfold State.itemSyls at h
  (repeat' split at h) <;> cases h <;> simp

@[simp] theorem bytes_commitWord (s base : State) (moved : Bool) : (s.commitWord base moved).bytes = s.bytes := by rfl

@[simp] theorem bytes_keepCode (s : State) (c : Nat) (st : StreamId) :
    (s.keepCode c st).bytes = s.bytes := by simp [State.keepCode]

/-! ### Moves -/

@[simp] theorem bytes_deliver (s : State) (part : Nat) : (s.deliver part).bytes = s.bytes := by rfl

@[simp] theorem bytes_foreignArrives (s : State) (panel core : Nat) (dasid : BitVec 16) (num floor : W32) (addr : W64)
    (op : ForeignOp) : (s.foreignArrives panel core dasid num floor addr op).bytes = s.bytes := by
  unfold State.foreignArrives
  split <;> simp

@[simp] theorem bytes_foreignBar (s : State) (key party : Nat) (join : Bool) :
    (s.foreignBar key party join).bytes = s.bytes := by simp [State.foreignBar]

end Sys2Proof.Machine

/-! PROOFS. What writes the three memories keeps them canonical (O57). -/

namespace Sys2Proof.Machine

/-! ### The form, as a property of `State.bytes` -/

/-- `State.canonical`, as a property of the part of the state that `State.bytes` picks out. -/
def CanonicalBytes (b : Nat × Memory × Memory × Memory) : Prop :=
  Memory.wf b.2.1 = true ∧ Memory.wf b.2.2.1 = true ∧ Memory.wf b.2.2.2 = true

theorem canonical_iff_bytes (s : State) : s.canonical ↔ CanonicalBytes s.bytes := Iff.rfl

@[simp] theorem canonicalBytes_ite {c : Prop} [Decidable c] (b b' : Nat × Memory × Memory × Memory) :
    CanonicalBytes (if c then b else b') ↔ (c → CanonicalBytes b) ∧ (¬c → CanonicalBytes b') := by
  split <;> simp [*]

theorem canonical_ite {c : Prop} [Decidable c] {s t : State} (hs : CanonicalBytes s.bytes) (ht : CanonicalBytes t.bytes) :
    CanonicalBytes (if c then s else t).bytes := by
  rw [bytes_ite]
  exact (canonicalBytes_ite _ _).2 ⟨fun _ => hs, fun _ => ht⟩

theorem canonical_fst {α : Type} {p : State × α} {t : State} {x : α} (hp : p = (t, x)) (h : CanonicalBytes p.1.bytes) :
    CanonicalBytes t.bytes := by
  subst hp
  exact h

theorem canonical_snd {α : Type} {p : α × State} {t : State} {x : α} (hp : p = (x, t)) (h : CanonicalBytes p.2.bytes) :
    CanonicalBytes t.bytes := by
  subst hp
  exact h

theorem canonical_foldl {α : Type} {f : State → α → State}
    (hf : ∀ s x, CanonicalBytes s.bytes → CanonicalBytes (f s x).bytes) (xs : List α) {s : State}
    (h : CanonicalBytes s.bytes) : CanonicalBytes (xs.foldl f s).bytes := by
  induction xs generalizing s with
  | nil => exact h
  | cons x xs ih => exact ih (hf s x h)

theorem canonical_with_mem {s : State} {m : Memory} (h : CanonicalBytes s.bytes) (hm : Memory.wf m = true) :
    CanonicalBytes (State.bytes { s with mem := m }) := ⟨hm, h.2⟩

theorem canonical_with_lm {s : State} {m : Memory} (h : CanonicalBytes s.bytes) (hm : Memory.wf m = true) :
    CanonicalBytes (State.bytes { s with lm := m }) := ⟨h.1, hm, h.2.2⟩

theorem canonical_with_hostMem {s : State} {m : Memory} (h : CanonicalBytes s.bytes) (hm : Memory.wf m = true) :
    CanonicalBytes (State.bytes { s with hostMem := m }) := ⟨h.1, h.2.1, hm⟩

theorem CanonicalBytes.mem {s : State} (h : CanonicalBytes s.bytes) : Memory.wf s.mem = true := h.1
theorem CanonicalBytes.lm {s : State} (h : CanonicalBytes s.bytes) : Memory.wf s.lm = true := h.2.1
theorem CanonicalBytes.hostMem {s : State} (h : CanonicalBytes s.bytes) : Memory.wf s.hostMem = true := h.2.2

/-! ### Stores: host ports, homes, the commit of a store -/

theorem HostWrite.wf_handPiece (w : HostWrite) (m : Memory) (i : Nat) (h : Memory.wf m = true) :
    Memory.wf (w.handPiece m i) = true := Memory.wf_writeN m _ _ h

theorem HostWrite.wf_handTo (w : HostWrite) (m : Memory) (h : Memory.wf m = true) : Memory.wf (w.handTo m) = true := by
  unfold HostWrite.handTo
  split
  · exact Memory.wf_writeN m _ _ h
  · exact Memory.wf_foldl _ _ m (fun m i => w.wf_handPiece m i) h

theorem wf_handOn (n : Nat) (p : HostPort) (m : Memory) (ps : List Nat) (h : Memory.wf m = true) :
    Memory.wf (handOn n p m ps).2.1 = true := by
  induction n generalizing p m ps with
  | zero => exact h
  | succ n ih =>
    unfold handOn
    split
    · exact h
    · exact ih _ _ _ (HostWrite.wf_handTo _ m h)

@[simp] theorem canonical_drainPort {s : State} {port n : Nat} (h : CanonicalBytes s.bytes) :
    CanonicalBytes (s.drainPort port n).bytes := by
  unfold State.drainPort
  split
  · exact ⟨h.mem, h.lm, wf_handOn n _ _ _ h.hostMem⟩
  · exact h

@[simp] theorem canonical_drainAll {s : State} (h : CanonicalBytes s.bytes) : CanonicalBytes s.drainAll.bytes := by
  refine canonical_foldl (fun s p h => ?_) _ h
  split
  · exact canonical_drainPort h
  · exact h

@[simp] theorem canonical_visibleAt {s : State} {sc : Scope} (h : CanonicalBytes s.bytes) :
    CanonicalBytes (s.visibleAt sc).bytes := by
  simp [State.visibleAt, h]

@[simp] theorem canonical_acceptHost {s : State} {port a : Nat} {bs : List Byte} (h : CanonicalBytes s.bytes) :
    CanonicalBytes (s.acceptHost port a bs).bytes := by
  unfold State.acceptHost
  split
  · exact canonical_drainPort h
  · exact h

@[simp] theorem canonical_writeLoc {s : State} {loc : Loc} {bs : List Byte} (h : CanonicalBytes s.bytes) :
    CanonicalBytes (s.writeLoc loc bs).bytes := by
  cases loc with
  | panel t o =>
    have hw : CanonicalBytes (State.bytes { s with mem := Memory.writeN s.mem (s.panelKey t o) bs }) :=
      canonical_with_mem h (Memory.wf_writeN _ _ _ h.mem)
    simp only [State.writeLoc, bytes_fireMonitors, bytes_ite, bytes_updTile]
    exact (canonicalBytes_ite _ _).2 ⟨fun _ => hw, fun _ => hw⟩
  | lm c o => exact canonical_with_lm (s := s) h (Memory.wf_writeN _ _ _ h.lm)
  | host port a atomics => exact canonical_acceptHost h
  | foreign p => exact h

@[simp] theorem canonical_storeOne {s : State} {loc : Loc} {bs : List Byte} {i : Nat} (h : CanonicalBytes s.bytes) :
    CanonicalBytes (s.storeOne loc bs i).bytes := canonical_writeLoc h

@[simp] theorem canonical_writeLeft {s : State} {loc : Loc} {bs : List Byte} {todo : Option (List Nat)} {bad : Bool}
    (h : CanonicalBytes s.bytes) : CanonicalBytes (s.writeLeft loc bs todo bad).bytes := by
  have hfold : ∀ is : List Nat, CanonicalBytes (is.foldl (fun s i => s.storeOne loc bs i) s).bytes := fun is =>
    canonical_foldl (fun s i => canonical_storeOne) is h
  cases todo <;> simp [State.writeLeft, h, hfold]

@[simp] theorem canonical_commitStore {s : State} {c : Nat} {a : SAccess} {loc : Loc} {bs : List Byte}
    (h : CanonicalBytes s.bytes) : CanonicalBytes (s.commitStore c a loc bs).bytes := by
  unfold State.commitStore
  split <;> simp [h]

@[simp] theorem canonical_performStore {s : State} {c : Nat} {a : SAccess} {rest : List SAccess} {loc : Loc} {bs : List Byte}
    {flag : Option FlagAdd} (h : CanonicalBytes s.bytes) : CanonicalBytes (s.performStore c a rest loc bs flag).bytes := by
  cases flag <;> simp [State.performStore, h]

@[simp] theorem canonical_rgxAt {s : State} {d : BitVec 5} {a : W64} {exp new : W32} (h : CanonicalBytes s.bytes) :
    CanonicalBytes (s.rgxAt d a exp new).bytes := by
  simp [State.rgxAt, h]

/-! ### The drain of a nest, and the start of a command -/

theorem canonical_roleWrite {s : State} {c : Nat} {ne : Nest} {role : Nat} {a : Int} {sz : Nat} {bs : List Byte}
    {row : Nat} (h : CanonicalBytes s.bytes) : CanonicalBytes (s.roleWrite c ne role a sz bs row).1.bytes := by
  unfold State.roleWrite
  dsimp only
  split
  · exact h
  · split
    · exact h
    · simp [h]

@[simp] theorem canonical_drainWrite {s : State} {c : Nat} {ne : Nest} {r : Nat} {rows : List (Option Nat × List Conv)}
    (h : CanonicalBytes s.bytes) : CanonicalBytes (s.drainWrite c ne r rows).1.bytes := by
  induction rows generalizing s r with
  | nil => exact h
  | cons row rows ih =>
    obtain ⟨scale, vs⟩ := row
    have helems : ∀ {t : State}, CanonicalBytes t.bytes → CanonicalBytes
        (match t.roleWrite c ne roleD (ne.addr roleD + (r : Int) * ne.bank.rowStride 5) (elemBytes ne.bank.dfmt)
            (vs.flatMap fun (v : Conv) => natLE (elemBytes ne.bank.dfmt) v.bits) r with
          | (s, some e) => (s, some e)
          | (s, none) => s.drainWrite c ne (r + 1) rows).1.bytes := by
      intro t ht
      split
      · next he => exact canonical_fst he (canonical_roleWrite ht)
      · next he => exact ih (canonical_fst he (canonical_roleWrite ht))
    cases scale with
    | none => exact helems h
    | some e =>
      unfold State.drainWrite
      dsimp only
      split
      · next he => exact canonical_fst he (canonical_roleWrite h)
      · next he => exact helems (canonical_fst he (canonical_roleWrite h))

@[simp] theorem canonical_drainTile {s : State} {c : Nat} {ne : Nest} {t : Tile} (h : CanonicalBytes s.bytes) :
    CanonicalBytes (s.drainTile c ne t).1.bytes := by
  unfold State.drainTile
  dsimp only
  split
  · exact h
  · simp [h]

@[simp] theorem canonical_startCommand {s : State} {r : CmdRecord} (h : CanonicalBytes s.bytes) :
    CanonicalBytes (s.startCommand r).bytes := by
  have hseen : CanonicalBytes (if r.ord then s.drainAll else s.visibleAt (s.entryAtWork r).scope).bytes := by simp [h]
  unfold State.startCommand
  dsimp only
  generalize (if r.ord then s.drainAll else s.visibleAt (s.entryAtWork r).scope) = u at hseen ⊢
  refine canonical_ite ?_ (canonical_ite ?_ ?_) <;> simpa using hseen

/-! ### The front end's writes -/

@[simp] theorem canonical_fePieces {s : State} {part : Nat} {bs : List Byte} {ps : List (Nat × Nat)}
    (h : CanonicalBytes s.bytes) : CanonicalBytes (s.fePieces part bs ps).1.bytes := by
  induction ps generalizing s bs with
  | nil => exact h
  | cons p ps ih =>
    unfold State.fePieces
    split
    · exact ih (canonical_writeLoc h)
    · exact h
    · exact h
    · dsimp only
      split
      · exact ih h
      · exact h

@[simp] theorem canonical_feAnswer {s : State} {part a : Nat} {r : State × FrontAns} (h : CanonicalBytes s.bytes)
    (hr : CanonicalBytes r.1.bytes) : CanonicalBytes (s.feAnswer part a r).1.bytes := by
  unfold State.feAnswer
  split
  · split <;> simp [h]
  · simp [hr]

@[simp] theorem canonical_feWrite {s : State} {part a : Nat} {bs : List Byte} (h : CanonicalBytes s.bytes) :
    CanonicalBytes (s.feWrite part a bs).1.bytes := by
  unfold State.feWrite
  split
  · exact h
  · exact canonical_feAnswer h (canonical_fePieces h)

@[simp] theorem canonical_frontComplete {s : State} {c : Nat} {t : Started} {flags : BitVec 8} (h : CanonicalBytes s.bytes) :
    CanonicalBytes (s.frontComplete c t flags).bytes := by
  unfold State.frontComplete
  dsimp only
  split
  · simp [h]
  · split
    · simp [h]
    · next he =>
      have ht := canonical_fst he (canonical_feWrite h)
      simp [ht]

/-! ### Single elements and requests from another panel at their homes -/

@[simp] theorem canonical_rgxEntry {s : State} {who : Asker} {t issuer : Nat} {may : W32 → Bool} {addr : W64} {exp new : W32}
    (h : CanonicalBytes s.bytes) : CanonicalBytes (s.rgxEntry who t issuer may addr exp new).2.bytes := by
  unfold State.rgxEntry
  dsimp only
  split_ifs <;> simp [h]

@[simp] theorem canonical_homeRgx {s : State} {c : Nat} {addr : W64} {exp new : W32} (h : CanonicalBytes s.bytes) :
    CanonicalBytes (s.homeRgx c addr exp new).2.bytes := by
  unfold State.homeRgx
  dsimp only
  split_ifs
  · exact h
  · exact h
  · exact h
  · split <;> simp [h]

theorem canonical_write_hostMem {s : State} (a : Nat) (bs : List Byte) (h : CanonicalBytes s.bytes) :
    CanonicalBytes (State.bytes { s with hostMem := Memory.writeN s.hostMem a bs }) :=
  canonical_with_hostMem h (Memory.wf_writeN _ a bs h.hostMem)

@[simp] theorem canonical_addAt {s : State} {loc : Loc} {v : W64} (h : CanonicalBytes s.bytes) :
    CanonicalBytes (s.addAt loc v).2.bytes := by
  unfold State.addAt
  split
  · dsimp only
    generalize hu : s.drainPort _ _ = u
    have hdrained : CanonicalBytes u.bytes := hu ▸ canonical_drainPort h
    split_ifs
    · exact hdrained
    · exact hdrained
    · exact canonical_write_hostMem _ _ hdrained
  · exact h
  · split_ifs <;> simp [h]

@[simp] theorem canonical_rmwAt {s : State} {loc : Loc} {n : Nat} {f : Nat → Option Nat} (h : CanonicalBytes s.bytes) :
    CanonicalBytes (s.rmwAt loc n f).2.bytes := by
  unfold State.rmwAt
  split
  · dsimp only
    generalize hu : s.drainPort _ _ = u
    have hdrained : CanonicalBytes u.bytes := hu ▸ canonical_drainPort h
    split_ifs
    · exact hdrained
    · exact hdrained
    · dsimp only
      split
      · exact canonical_write_hostMem _ _ hdrained
      · exact hdrained
  · exact h
  · split_ifs
    · exact h
    · dsimp only
      split <;> simp [h]

@[simp] theorem canonical_foreignOne {s : State} {op : ForeignOp} {loc : Loc} {bs : List Byte} {i : Nat}
    (h : CanonicalBytes s.bytes) : CanonicalBytes (s.foreignOne op loc bs i).bytes := canonical_writeLoc h

@[simp] theorem canonical_foreignWrite {s : State} {r : Request} {op : ForeignOp} {loc : Loc} {bs : List Byte} {bad : Bool}
    (h : CanonicalBytes s.bytes) : CanonicalBytes (s.foreignWrite r op loc bs bad).bytes := by
  unfold State.foreignWrite
  dsimp only
  split
  · refine canonical_ite ?_ ?_
    · rw [bytes_poisonLoc]
      exact canonical_foldl (fun s i => canonical_foreignOne) _ h
    · exact canonical_foldl (fun s i => canonical_foreignOne) _ h
  · exact canonical_writeLeft h

theorem canonical_homeForeign {s : State} {r : Request} {op : ForeignOp} (h : CanonicalBytes s.bytes) :
    CanonicalBytes (s.homeForeign r op).2.bytes := by
  unfold State.homeForeign
  dsimp only
  split
  · exact h
  · split
    · exact h
    · exact h
    · split
      · next he => exact canonical_snd he (canonical_addAt h)
      · next he => exact canonical_snd he (canonical_addAt h)
    · exact h
  · split <;> exact h
  · split <;> simp [h]
  · split <;> simp [h]
  · split <;> simp [h]
  · split
    · exact h
    · exact h
    · split
      · next he => exact canonical_snd he (canonical_rmwAt h)
      · next he => exact canonical_snd he (canonical_rmwAt h)
    · exact h
  · split
    · exact h
    · exact canonical_rgxEntry h
  · simp [h]

/-! ### Runs of bytes -/

@[simp] theorem canonical_writeRun {s : State} {run : Loc × List (Byte × Bool)} (h : CanonicalBytes s.bytes) :
    CanonicalBytes (s.writeRun run).bytes := by
  refine canonical_foldl (fun s e h => ?_) _ (canonical_writeLoc h)
  simp [h]

@[simp] theorem canonical_writeBytes {s : State} {bs : List EngByte} (h : CanonicalBytes s.bytes) :
    CanonicalBytes (s.writeBytes bs).bytes := canonical_foldl (fun _ _ => canonical_writeRun) _ h

/-! ### Commands and requests at their homes -/

/-- The state that a command leaves at its home is canonical. -/
def Performed.Canonical : Performed → Prop
  | .retry => True
  | .done s _ _ _ _ => CanonicalBytes s.bytes

@[simp] theorem Performed.canonical_retry : Performed.retry.Canonical := trivial

@[simp] theorem Performed.canonical_done (s : State) (status : Cause) (value : W64) (cnt : Nat) (flags : BitVec 8) :
    (Performed.done s status value cnt flags).Canonical ↔ CanonicalBytes s.bytes := Iff.rfl

/-- The state that a request leaves at its home is canonical. -/
def Served.Canonical : Served → Prop
  | .later => True
  | .answer _ s => CanonicalBytes s.bytes

@[simp] theorem Served.canonical_later : Served.later.Canonical := trivial

@[simp] theorem Served.canonical_answer (a : Answer) (s : State) : (Served.answer a s).Canonical ↔ CanonicalBytes s.bytes :=
  Iff.rfl

theorem Performed.canonical_ite {c : Prop} [Decidable c] {p q : Performed} (hp : p.Canonical) (hq : q.Canonical) :
    (if c then p else q).Canonical := by
  split
  · exact hp
  · exact hq

theorem canonical_doAccw {s : State} {c : Nat} {t : Started} (h : CanonicalBytes s.bytes) : (s.doAccw c t).Canonical := by
  unfold State.doAccw
  dsimp only
  split_ifs <;> simp [h]

theorem canonical_doMcast {s : State} {c : Nat} {t : Started} (h : CanonicalBytes s.bytes) : (s.doMcast c t).Canonical := by
  unfold State.doMcast
  dsimp only
  split
  · exact h
  · split
    · trivial
    · exact h
    · split
      · trivial
      · simp [h]

theorem canonical_doAtomic {s : State} {c : Nat} {r : CmdRecord} (h : CanonicalBytes s.bytes) :
    (s.doAtomic c r).Canonical := by
  unfold State.doAtomic
  dsimp only
  have hseen : CanonicalBytes (if r.opc = 0x0B then s.visibleAt ((scopeOf r.fscope).getD .quad) else s).bytes :=
    canonical_ite (canonical_visibleAt h) h
  generalize (if r.opc = 0x0B then s.visibleAt ((scopeOf r.fscope).getD .quad) else s) = u at hseen ⊢
  split
  · exact hseen
  · trivial
  · split_ifs <;> simp [hseen]
  · refine Performed.canonical_ite hseen ?_
    split
    · next he => exact canonical_snd he (canonical_rmwAt hseen)
    · next he => exact canonical_snd he (canonical_rmwAt hseen)

theorem canonical_doTransfer {s : State} {c : Nat} {t : Started} (h : CanonicalBytes s.bytes) :
    (s.doTransfer c t).Canonical := by
  unfold State.doTransfer
  dsimp only
  split <;> simp [h]

theorem canonical_perform {s : State} {c : Nat} {t : Started} (h : CanonicalBytes s.bytes) : (s.perform c t).Canonical := by
  unfold State.perform
  dsimp only
  split
  · exact h
  · split
    · trivial
    · exact h
    · split_ifs
      · exact canonical_doAccw h
      · exact canonical_doMcast h
      · exact canonical_doAtomic h
      · exact canonical_doTransfer h

theorem canonical_startPenumbra {s : State} {c : Nat} {t : Started} (h : CanonicalBytes s.bytes) :
    (s.startPenumbra c t).Canonical := by
  unfold State.startPenumbra
  dsimp only
  split <;> simp [h]

theorem canonical_servePerformed {s : State} {r : Request} {tk : Nat} {p : Performed} (h : CanonicalBytes s.bytes)
    (hp : p.Canonical) : (s.servePerformed r tk p).Canonical := by
  cases p with
  | retry => exact h
  | done u status value cnt flags => simpa [State.servePerformed] using hp

theorem canonical_serveCommand {s : State} {r : Request} {t : Started} (h : CanonicalBytes s.bytes) :
    (s.serveCommand r t).Canonical := by
  unfold State.serveCommand
  split_ifs
  · exact canonical_servePerformed h (canonical_startPenumbra h)
  · trivial
  · exact canonical_servePerformed h (canonical_perform (by simpa using h))

theorem canonical_serveFlag {s : State} {r : Request} {tk : Nat} (h : CanonicalBytes s.bytes) :
    (s.serveFlag r tk).Canonical := by
  unfold State.serveFlag
  split
  · exact h
  · split
    · exact h
    · split
      · next he => exact canonical_snd he (canonical_addAt (canonical_visibleAt h))
      · next he => exact canonical_snd he (canonical_addAt (canonical_visibleAt h))

theorem canonical_serveSettle {s : State} {r : Request} (h : CanonicalBytes s.bytes) : (s.serveSettle r).Canonical := by
  unfold State.serveSettle
  split
  · exact h
  · split
    · split
      · next he => exact canonical_snd he (canonical_rmwAt h)
      · next he => exact canonical_snd he (canonical_rmwAt h)
    · exact h

theorem canonical_putfAddAt {s : State} {c : Nat} {t : Started} (h : CanonicalBytes s.bytes) :
    (s.putfAddAt c t).Canonical := by
  have hdrop : ∀ lines, CanonicalBytes (s.dropNear c lines).bytes := fun lines => by simpa using h
  unfold State.putfAddAt
  dsimp only
  split
  · trivial
  · split
    · next he => exact canonical_snd he (canonical_rmwAt (hdrop _))
    · next he => exact canonical_snd he (canonical_rmwAt (hdrop _))
  · exact h

theorem canonical_of_writeBlock {s t : State} {c : Nat} {d : W64} {bs : List Byte} {todo : Option (List Nat)}
    (ht : s.writeBlock c d bs todo = .ok t) (h : CanonicalBytes s.bytes) : CanonicalBytes t.bytes := by
  unfold State.writeBlock at ht
  split at ht
  · cases ht
    exact canonical_writeLeft h
  · cases ht

theorem canonical_of_putBlocks {s t : State} {c : Nat} {isLost : PenBlock → Bool} {bs : List PenBlock}
    (ht : s.putBlocks c isLost bs = .ok t) (h : CanonicalBytes s.bytes) : CanonicalBytes t.bytes := by
  induction bs generalizing s with
  | nil =>
    cases ht
    exact h
  | cons b bs ih =>
    unfold State.putBlocks at ht
    split at ht
    · cases ht
    · next he =>
      refine ih ht ?_
      split at he
      · exact canonical_of_writeBlock he h
      · exact canonical_of_writeBlock he h

theorem canonical_of_putMask {s t : State} {c : Nat} {r : CmdRecord} {i : Nat} {valid : Bool}
    (ht : s.putMask c r i valid = .ok t) (h : CanonicalBytes s.bytes) : CanonicalBytes t.bytes := by
  unfold State.putMask at ht
  dsimp only at ht
  split at ht
  · cases ht
    exact canonical_writeLoc h
  · cases ht
  · cases ht
  · split at ht <;> cases ht
    exact h

theorem canonical_of_putMasks {s t : State} {c : Nat} {r : CmdRecord} {lost : List Nat} {n : Nat}
    (ht : s.putMasks c r lost n = .ok t) (h : CanonicalBytes s.bytes) : CanonicalBytes t.bytes := by
  induction n generalizing t with
  | zero =>
    cases ht
    exact h
  | succ n ih =>
    unfold State.putMasks at ht
    split at ht
    · cases ht
    · next he => exact canonical_of_putMask ht (ih he)

theorem canonical_of_putTrailer {s t : State} {c : Nat} {r : CmdRecord} {lost : Nat}
    (ht : s.putTrailer c r lost = .ok t) (h : CanonicalBytes s.bytes) : CanonicalBytes t.bytes := by
  unfold State.putTrailer at ht
  dsimp only at ht
  split at ht
  · cases ht
    exact h
  · split at ht <;> cases ht
    · exact canonical_writeLoc (canonical_writeLoc h)
    · exact h

theorem canonical_settleAt {s : State} {c : Nat} {t : Started} {gone : List Nat} (h : CanonicalBytes s.bytes) :
    (s.settleAt c t gone).Canonical := by
  unfold State.settleAt
  dsimp only
  split
  · trivial
  · simp [h]
  · next hblocks =>
    have h1 := canonical_of_putBlocks hblocks (by simpa using h)
    split
    · trivial
    · simp [h1]
    · next hmasks =>
      have h2 := canonical_of_putMasks hmasks h1
      split
      · trivial
      · simp [h2]
      · next htrailer =>
        split at htrailer
        · simp [canonical_of_putTrailer htrailer h2]
        · cases htrailer
          simp [h2]

theorem canonical_serve {s : State} {r : Request} (h : CanonicalBytes s.bytes) : (s.serve r).Canonical := by
  unfold State.serve
  dsimp only
  split
  · split <;> simp [h]
  · simp [h]
  · simp [h]
  · exact canonical_homeRgx h
  · exact canonical_homeForeign h
  · split
    · exact h
    · exact canonical_serveCommand h
  · split
    · exact h
    · simp [h]
  · exact canonical_serveFlag h
  · exact canonical_serveSettle h
  · split
    · exact h
    · exact canonical_servePerformed h (canonical_putfAddAt h)
  · split
    · exact h
    · exact canonical_servePerformed h (canonical_settleAt h)

/-! ### Packets, records, flits, placement and the roles of layers -/

@[simp] theorem canonical_systemRelease {s : State} (h : CanonicalBytes s.bytes) : CanonicalBytes s.systemRelease.bytes :=
  canonical_drainAll h

@[simp] theorem canonical_trySig {s : State} {part q : Nat} {p : Packet} (h : CanonicalBytes s.bytes) :
    CanonicalBytes (s.trySig part q p).bytes := by
  unfold State.trySig
  split
  · simp [h]
  · simp [h]
  · dsimp only
    split <;> simp [h]

theorem canonical_afterWaitfor {s : State} {part q wf : Nat} {p : Packet} {f : State → State}
    (hf : ∀ s, CanonicalBytes s.bytes → CanonicalBytes (f s).bytes) (h : CanonicalBytes s.bytes) :
    CanonicalBytes (s.afterWaitfor part q wf p f).bytes := by
  unfold State.afterWaitfor
  split
  · exact hf _ (canonical_ite h (canonical_systemRelease h))
  · simp [h]

@[simp] theorem canonical_feAdd {s : State} {part : Nat} {a v : W64} (h : CanonicalBytes s.bytes) :
    CanonicalBytes (s.feAdd part a v).1.bytes := by
  unfold State.feAdd
  split
  · exact h
  · refine canonical_feAnswer h ?_
    split
    · exact h
    · split
      · next he => exact canonical_snd he (canonical_addAt h)
      · next he => exact canonical_snd he (canonical_addAt h)
    · exact h

theorem canonical_of_writeStats {s t : State} {c base : Nat} {ks : List Nat} {first cause : Cause}
    (ht : s.writeStats c base ks first = .ok (t, cause)) (h : CanonicalBytes s.bytes) : CanonicalBytes t.bytes := by
  induction ks generalizing s first with
  | nil =>
    cases ht
    exact h
  | cons k ks ih =>
    unfold State.writeStats at ht
    dsimp only at ht
    split at ht
    · exact ih ht h
    · split at ht
      · split at ht
        · cases ht
        · exact ih ht (canonical_writeLoc h)
      · split at ht
        · cases ht
        · exact ih ht h
      · exact ih ht h
      · exact ih ht h

@[simp] theorem canonical_writeRecord {s : State} {fl : Nat} (h : CanonicalBytes s.bytes) :
    CanonicalBytes (s.writeRecord fl).1.bytes := by
  have hirq : ∀ {u : State}, CanonicalBytes u.bytes → CanonicalBytes
      (match (s.flock fl).queue with
        | some q => if (s.flock fl).irq then u.sendIrq (u.queue (s.flock fl).part q).irqPort
            (u.queue (s.flock fl).part q).irqVec else u
        | none => u).bytes := by
    intro u hu
    split <;> simp [hu]
  unfold State.writeRecord
  dsimp only
  split
  · exact hirq (canonical_systemRelease h)
  · split
    · simp [h]
    · next htail =>
      have ht := canonical_fst htail (canonical_feWrite (canonical_systemRelease h))
      split
      · simp [h]
      · next hval =>
        have hv := canonical_fst hval (canonical_feWrite (canonical_systemRelease ht))
        exact hirq (canonical_systemRelease hv)

@[simp] theorem canonical_arriveBlock {s : State} {c tk i : Nat} (h : CanonicalBytes s.bytes) :
    CanonicalBytes (s.arriveBlock c tk i).bytes := by
  unfold State.arriveBlock
  split
  · exact h
  · split
    · exact h
    · split
      · exact h
      · split
        · exact h
        · next he => simpa using canonical_of_writeBlock he h

@[simp] theorem canonical_bring {s : State} {e : PortEnd} {d : List Byte × Bool} (h : CanonicalBytes s.bytes) :
    CanonicalBytes (s.bring e d).bytes := by
  unfold State.bring
  dsimp only
  split
  · simp [h]
  · split
    · split
      · exact h
      · split
        · exact h
        · exact canonical_foldl (fun s i => canonical_arriveBlock) _ h
    · exact h

@[simp] theorem canonical_receive {s : State} {e : PortEnd} {f : Flit} {n : BitVec 16} {lanes : List Nat}
    (h : CanonicalBytes s.bytes) : CanonicalBytes (s.receive e f n lanes).bytes := by
  refine canonical_foldl (fun s d => canonical_bring) _ ?_
  simpa using h

@[simp] theorem canonical_takeFlit {s : State} {e r : PortEnd} {x : Sent} {f : Flit} {n : BitVec 16} {lanes : List Nat}
    (h : CanonicalBytes s.bytes) : CanonicalBytes (s.takeFlit e r x f n lanes).bytes := by
  unfold State.takeFlit
  dsimp only
  split
  · rw [bytes_atBoundary]
    refine canonical_receive (canonical_ite ?_ ?_) <;> simpa using h
  · exact h

@[simp] theorem canonical_writeFault {s : State} {part : Nat} {r : FaultRec} (h : CanonicalBytes s.bytes) :
    CanonicalBytes (s.writeFault part r).1.bytes := by
  unfold State.writeFault
  dsimp only
  split
  · simp [h]
  · split
    · simp [h]
    · next he => simpa using canonical_fst he (canonical_feWrite h)

@[simp] theorem canonical_hdmWrite {s : State} {tile off : Nat} {bs : List Byte} (h : CanonicalBytes s.bytes) :
    CanonicalBytes (s.hdmWrite tile off bs).bytes := by
  unfold State.hdmWrite
  dsimp only
  rw [bytes_foldl _ fun s x => bytes_spoilCtx s _ _]
  simp [h]

theorem Memory.wf_foldl_write (f : Host.Cell → Nat) (cells m : Memory) (h : Memory.wf m = true) :
    Memory.wf (cells.foldl (fun m e => Memory.write m (f e) e.2) m) = true :=
  Memory.wf_foldl _ cells m (fun m e => Memory.wf_write m (f e) e.2) h

@[simp] theorem canonical_setLm {s : State} {core : Nat} {m : Memory} {bad : List Nat} (h : CanonicalBytes s.bytes) :
    CanonicalBytes (s.setLm core m bad).bytes :=
  canonical_with_lm h (Memory.wf_foldl_write _ m _ (Memory.wf_filter _ _ h.lm))

@[simp] theorem canonical_bringBack {s : State} {fl i : Nat} (h : CanonicalBytes s.bytes) :
    CanonicalBytes (s.bringBack fl i).bytes := by
  unfold State.bringBack
  dsimp only
  split <;> simp [h]

@[simp] theorem canonical_reoccupy {s : State} {fl : Nat} (h : CanonicalBytes s.bytes) :
    CanonicalBytes (s.reoccupy fl).bytes := by
  have hback : ∀ ids : List (BitVec 12), ∀ es : AMap Ctx, CanonicalBytes
      (es.foldl (fun s e => s.bringBack fl e.1) (ids.foldl (fun s id => s.takeCore fl id) s)).bytes := fun ids es =>
    canonical_foldl (fun s e => canonical_bringBack) es (by simpa using h)
  unfold State.reoccupy
  dsimp only
  split <;> simp [hback]

@[simp] theorem canonical_tryResume {s : State} {fl : Nat} (h : CanonicalBytes s.bytes) :
    CanonicalBytes (s.tryResume fl).bytes := by
  unfold State.tryResume
  dsimp only
  split
  · exact h
  · split
    · exact h
    · next he => exact (bytes_of_clearing he).symm ▸ h
    · exact canonical_reoccupy h

theorem wf_moveBytes (m : Memory) (a b n : Nat) (h : Memory.wf m = true) : Memory.wf (moveBytes m a b n) = true :=
  Memory.wf_foldl_write _ _ _ (Memory.wf_filter m _ h)

@[simp] theorem canonical_copyStore {s : State} {a b n : Nat} (h : CanonicalBytes s.bytes) :
    CanonicalBytes (s.copyStore a b n).bytes := by
  unfold State.copyStore
  rw [bytes_mapMonitors]
  exact canonical_with_mem (s := s) h (wf_moveBytes _ a b n h.mem)

@[simp] theorem canonical_copyLayer {s : State} {tile a b : Nat} (h : CanonicalBytes s.bytes) :
    CanonicalBytes (s.copyLayer tile a b).bytes :=
  canonical_foldl (fun s c h => by simp [h]) _ h

@[simp] theorem canonical_flushRole {s : State} {tile : Nat} {a : RoleAction} (h : CanonicalBytes s.bytes) :
    CanonicalBytes (s.flushRole tile a).bytes := by
  unfold State.flushRole
  dsimp only
  split
  · simp [h]
  · split <;> simp [h]
  · simp [h]
  · split <;> simp [h]

@[simp] theorem canonical_setPool {s : State} {tile l : Nat} {m : Memory} {bad : List Nat} (h : CanonicalBytes s.bytes) :
    CanonicalBytes (s.setPool tile l m bad).bytes :=
  canonical_with_mem h (Memory.wf_foldl_write _ m _ (Memory.wf_filter _ _ h.mem))

@[simp] theorem canonical_loseLayer {s : State} {tile layer : Nat} (h : CanonicalBytes s.bytes) :
    CanonicalBytes (s.loseLayer tile layer).bytes := by
  unfold State.loseLayer
  dsimp only
  split
  · simp only [bytes_stackFault, bytes_with_life, bytes_updTile, bytes_updPart]
    refine canonical_foldl (fun s m h => ?_) _ ?_
    · simp [h]
    · simpa using h
  · simpa using h

@[simp] theorem canonical_reenumerate {s : State} {tile : Nat} {a : RoleAction} (h : CanonicalBytes s.bytes) :
    CanonicalBytes (s.reenumerate tile a).bytes := by
  cases a <;> simp [State.reenumerate, h]

/-! ### Pieces -/

theorem canonical_storePiece {s : State} {c piece : Nat} (h : CanonicalBytes s.bytes) :
    CanonicalBytes (s.storePiece c piece).bytes := by
  unfold State.storePiece
  split
  · exact h
  · split
    · exact h
    · dsimp only
      split <;> simp [h]
    · exact h

theorem canonical_foreignPiece {s : State} {ix piece : Nat} (h : CanonicalBytes s.bytes) :
    CanonicalBytes (s.foreignPiece ix piece).bytes := by
  unfold State.foreignPiece
  split
  · exact h
  · split
    · split
      · split <;> simp [h]
      · exact h
    · exact h

theorem canonical_transferOne {s : State} {c : Nat} {t : Started} {i : Nat} (h : CanonicalBytes s.bytes) :
    CanonicalBytes (s.transferOne c t i).bytes := by
  unfold State.transferOne
  dsimp only
  split <;> simp [h]

theorem canonical_transferPiece {s : State} {c tk piece : Nat} (h : CanonicalBytes s.bytes) :
    CanonicalBytes (s.transferPiece c tk piece).bytes := by
  unfold State.transferPiece
  split
  · exact h
  · exact canonical_ite (canonical_transferOne h) h

theorem canonical_deliverPiece {s : State} {c tk i piece : Nat} (h : CanonicalBytes s.bytes) :
    CanonicalBytes (s.deliverPiece c tk i piece).bytes := by
  unfold State.deliverPiece
  split
  · exact h
  · split
    · exact h
    · dsimp only
      split
      · exact h
      · simp [h]

theorem canonical_hostPiece {s : State} {port piece : Nat} (h : CanonicalBytes s.bytes) :
    CanonicalBytes (s.hostPiece port piece).bytes := by
  unfold State.hostPiece
  split
  · split
    · exact h
    · split
      · exact canonical_with_hostMem (s := s) h (HostWrite.wf_handPiece _ _ _ h.hostMem)
      · exact h
  · exact h

theorem canonical_storeAhead {s : State} {c ix : Nat} (h : CanonicalBytes s.bytes) :
    CanonicalBytes (s.storeAhead c ix).bytes := by
  unfold State.storeAhead
  dsimp only
  split
  · exact h
  · split
    · split
      · exact h
      · split <;> simp [h]
    · exact h

theorem canonical_localTransfer {s : State} {c tk : Nat} (h : CanonicalBytes s.bytes) :
    CanonicalBytes (s.localTransfer c tk).bytes := by
  unfold State.localTransfer
  split
  · exact h
  · split
    · exact h
    · split
      · exact h
      · next he =>
        have hp := canonical_perform (c := c) (t := ‹Started›) h
        rw [he] at hp
        simpa using hp

theorem canonical_deliverBlock {s : State} {c tk i : Nat} (h : CanonicalBytes s.bytes) :
    CanonicalBytes (s.deliverBlock c tk i).bytes := by
  unfold State.deliverBlock
  split
  · exact h
  · split <;> simp [h]

theorem canonical_hostWrites {s : State} {addr : Nat} {bs : List Byte} (h : CanonicalBytes s.bytes) :
    CanonicalBytes (s.hostWrites addr bs).bytes := canonical_with_hostMem (s := s) h (Memory.wf_writeN _ _ _ h.hostMem)

end Sys2Proof.Machine

/-! PROOFS. Every instruction and event of the table ends with canonical memories (O57). -/

namespace Sys2Proof.Machine

/-! ### Results, and the forms that several operations share -/

/-- A step that goes on does so in a state with canonical memories. -/
def EndsCanonical (r : Result) : Prop := ∀ t, r = .next t → CanonicalBytes t.bytes

@[simp] theorem endsCanonical_next (t : State) : EndsCanonical (.next t) ↔ CanonicalBytes t.bytes :=
  ⟨fun h => h t rfl, fun h u hu => by cases hu; exact h⟩

@[simp] theorem endsCanonical_refused (r : Refusal) : EndsCanonical (.refused r) := fun _ ht => by cases ht

@[simp] theorem endsCanonical_ite {c : Prop} [Decidable c] (r r' : Result) :
    EndsCanonical (if c then r else r') ↔ (c → EndsCanonical r) ∧ (¬c → EndsCanonical r') := by
  split <;> simp [*]

@[simp] theorem endsCanonical_guarded {gd : Guard} {s : State} {f : State → State} (hs : CanonicalBytes s.bytes)
    (hf : CanonicalBytes (f s).bytes) : EndsCanonical (guarded gd s f) := by
  simp [guarded, hs, hf]

@[simp] theorem endsCanonical_scalarOp {gd : Guard} {d : BitVec 5} {v : W64} {bound : Nat} {s : State}
    (hs : CanonicalBytes s.bytes) : EndsCanonical (scalarOp gd d v bound s) :=
  endsCanonical_guarded hs (by simpa using hs)

@[simp] theorem endsCanonical_cmpWrite {gd : Guard} {pd : BitVec 4} {v : Bool} {s : State} (hs : CanonicalBytes s.bytes) :
    EndsCanonical (cmpWrite gd pd v s) :=
  endsCanonical_guarded hs (canonical_ite (by simpa using hs) (by simpa using hs))

@[simp] theorem endsCanonical_vecUn {gd : Guard} {d a : BitVec 5} {ty : IntTy} {bound : Nat} {f : Nat → Nat} {s : State}
    (hs : CanonicalBytes s.bytes) : EndsCanonical (vecUn gd d a ty bound f s) :=
  endsCanonical_guarded hs (by simpa using hs)

@[simp] theorem endsCanonical_vecBin {gd : Guard} {d a b : BitVec 5} {ty : IntTy} {bound : Nat} {f : Nat → Nat → Nat}
    {s : State} (hs : CanonicalBytes s.bytes) : EndsCanonical (vecBin gd d a b ty bound f s) :=
  endsCanonical_guarded hs (by simpa using hs)

@[simp] theorem endsCanonical_vecTri {gd : Guard} {d a b c : BitVec 5} {ty : IntTy} {bound : Nat} {f : Nat → Nat → Nat → Nat}
    {s : State} (hs : CanonicalBytes s.bytes) : EndsCanonical (vecTri gd d a b c ty bound f s) :=
  endsCanonical_guarded hs (by simpa using hs)

@[simp] theorem endsCanonical_fvecUn {gd : Guard} {d a : BitVec 5} {ty : FpTy} {bound : Nat} {f : Nat → Nat} {s : State}
    (hs : CanonicalBytes s.bytes) : EndsCanonical (fvecUn gd d a ty bound f s) :=
  endsCanonical_guarded hs (by simpa using hs)

@[simp] theorem endsCanonical_fvecBin {gd : Guard} {d a b : BitVec 5} {ty : FpTy} {bound : Nat} {f : Nat → Nat → Nat}
    {s : State} (hs : CanonicalBytes s.bytes) : EndsCanonical (fvecBin gd d a b ty bound f s) :=
  endsCanonical_guarded hs (by simpa using hs)

@[simp] theorem endsCanonical_trapNow_or {c : Prop} [Decidable c] {s : State} {cause : Cause} {r : Result}
    (hs : CanonicalBytes s.bytes) (hr : EndsCanonical r) : EndsCanonical (if c then .next (s.trapNow cause) else r) :=
  (endsCanonical_ite _ _).2 ⟨fun _ => by simpa using hs, fun _ => hr⟩

@[simp] theorem endsCanonical_onLq {s : State} {q : BitVec 3} {gd : Guard} {f : State → State} (hs : CanonicalBytes s.bytes)
    (hf : CanonicalBytes (f s).bytes) : EndsCanonical (s.onLq q gd f) :=
  endsCanonical_trapNow_or hs (endsCanonical_guarded hs hf)

@[simp] theorem endsCanonical_onSq {s : State} {q : BitVec 3} {gd : Guard} {f : State → State} (hs : CanonicalBytes s.bytes)
    (hf : CanonicalBytes (f s).bytes) : EndsCanonical (s.onSq q gd f) :=
  endsCanonical_trapNow_or hs (endsCanonical_guarded hs hf)

@[simp] theorem endsCanonical_onSt {s : State} {st : BitVec 4} {gd : Guard} {f : State → State} (hs : CanonicalBytes s.bytes)
    (hf : CanonicalBytes (f s).bytes) : EndsCanonical (s.onSt st gd f) :=
  endsCanonical_trapNow_or hs (endsCanonical_guarded hs hf)

@[simp] theorem endsCanonical_onBar {s : State} {b : BarOp} {gd : Guard} {f : State → State} (hs : CanonicalBytes s.bytes)
    (hf : CanonicalBytes (f s).bytes) : EndsCanonical (s.onBar b gd f) :=
  endsCanonical_trapNow_or hs (endsCanonical_guarded hs hf)

@[simp] theorem endsCanonical_onMx {s : State} {gd : Guard} {f : State → State} (hs : CanonicalBytes s.bytes)
    (hf : CanonicalBytes (f s).bytes) : EndsCanonical (s.onMx gd f) :=
  endsCanonical_trapNow_or hs (endsCanonical_guarded hs hf)

@[simp] theorem endsCanonical_shepherd {s : State} {f : State → State} (hs : CanonicalBytes s.bytes)
    (hf : CanonicalBytes (f s).bytes) : EndsCanonical (s.shepherd f) := by
  simp [State.shepherd, hs, hf]

@[simp] theorem endsCanonical_spdm {s : State} {phase : Nat} {f : State → State} (hs : CanonicalBytes s.bytes)
    (hf : CanonicalBytes (f s).bytes) : EndsCanonical (s.spdm_ phase f) := by
  simp [State.spdm_, hs, hf]

@[simp] theorem endsCanonical_onPacket {s : State} {p : Packet} {f : Nat → Nat → State → State} (hs : CanonicalBytes s.bytes)
    (hf : ∀ n q, CanonicalBytes (f n q s).bytes) : EndsCanonical (s.onPacket p f) := by
  rw [State.onPacket, endsCanonical_next]
  split <;> simp [hs, hf]

@[simp] theorem endsCanonical_onPolicy {s : State} {p : Packet} {f : Nat → Nat → State → State} (hs : CanonicalBytes s.bytes)
    (hf : ∀ n q, CanonicalBytes (f n q s).bytes) : EndsCanonical (s.onPolicy p f) :=
  endsCanonical_onPacket hs fun n q => canonical_ite (by simpa using hs) (hf n q)

@[simp] theorem endsCanonical_blockWord {s : State} {plain : Bool} {f : Nat → Drover → State → State}
    (hs : CanonicalBytes s.bytes) (hf : ∀ n d u, CanonicalBytes u.bytes → CanonicalBytes (f n d u).bytes) :
    EndsCanonical (s.blockWord plain f) := by
  rw [State.blockWord, endsCanonical_next]
  split
  · exact hs
  · dsimp only
    split
    · simpa using hs
    · exact hf _ _ _ (by simpa using hs)

@[simp] theorem canonical_packetAfter {s : State} {r : State × FrontAns} {p : Packet} {a n : Nat}
    (hs : CanonicalBytes s.bytes) (hr : CanonicalBytes r.1.bytes) : CanonicalBytes (s.packetAfter r p a n).bytes := by
  unfold State.packetAfter
  split <;> simp [hs, hr]

/-! ### Control flow of the streams -/

@[simp] theorem endsCanonical_execBrBq {off : BitVec 17} {s : State} (hs : CanonicalBytes s.bytes) :
    EndsCanonical (execBrBq off s) := by
  unfold execBrBq
  refine endsCanonical_trapNow_or hs ((endsCanonical_next _).2 ?_)
  split <;> simp [hs]

@[simp] theorem endsCanonical_execLoop {gd : Guard} {a : BitVec 5} {body : BitVec 13} {s : State}
    (hs : CanonicalBytes s.bytes) : EndsCanonical (execLoop gd a body s) := by
  have hpend : CanonicalBytes s.takePending.bytes := by simpa using hs
  rw [execLoop, endsCanonical_next]
  dsimp only
  split_ifs <;> exact hpend

@[simp] theorem endsCanonical_execTrap {gd : Guard} {code : BitVec 8} {s : State} (hs : CanonicalBytes s.bytes) :
    EndsCanonical (execTrap gd code s) :=
  endsCanonical_guarded hs hs

@[simp] theorem endsCanonical_execFin {gd : Guard} {s : State} (hs : CanonicalBytes s.bytes) :
    EndsCanonical (execFin gd s) := by
  have hpend : CanonicalBytes s.takePending.bytes := by simpa using hs
  exact endsCanonical_guarded hs hpend

@[simp] theorem endsCanonical_execSectionHeader {h : Header} {s : State} (hs : CanonicalBytes s.bytes) :
    EndsCanonical (execSectionHeader h s) := by
  rw [execSectionHeader, endsCanonical_next]
  dsimp only
  generalize hu : s.updMe _ = u
  have hleft : CanonicalBytes u.bytes := by
    subst hu
    exact hs
  split
  · simp [hleft]
  · split
    · have hlook : CanonicalBytes (u.switchLook (u.me.stream u.stream).pc).2.bytes := by simpa using hleft
      split <;> next he => simpa using canonical_snd he hlook
    · simp [hleft]

/-! ### The L stream -/

@[simp] theorem endsCanonical_execLAccessComplete {c : Nat} {s : State} (hs : CanonicalBytes s.bytes) :
    EndsCanonical (execLAccessComplete c s) := by
  simp only [execLAccessComplete, endsCanonical_next]
  split
  · exact hs
  · split
    · exact hs
    · split <;> simp [hs]

/-! ### The S stream -/

@[simp] theorem endsCanonical_execPushSq {gd : Guard} {sc : Scope} {q : BitVec 3} {s : State} (hs : CanonicalBytes s.bytes) :
    EndsCanonical (execPushSq gd sc q s) := by
  refine endsCanonical_onSq hs ?_
  split
  · simp [hs]
  · split <;> simp [hs]

/-! ### Barriers -/

@[simp] theorem endsCanonical_execBarArwt {gd : Guard} {bar : BarOp} {d : BitVec 5} {s : State} (hs : CanonicalBytes s.bytes) :
    EndsCanonical (execBarArwt gd bar d s) := by
  refine endsCanonical_onBar hs ?_
  have harrive : CanonicalBytes (if s.me.awp && s.me.awpBar.toNat == barNo bar then s else s.arrive bar).bytes :=
    canonical_ite hs (by simpa using hs)
  dsimp only
  split
  · exact harrive
  · split <;> simpa using harrive

/-! ### The matrix engine -/

@[simp] theorem endsCanonical_execMxwait {gd : Guard} {d : BitVec 5} {s : State} (hs : CanonicalBytes s.bytes) :
    EndsCanonical (execMxwait gd d s) := by
  refine endsCanonical_trapNow_or hs (endsCanonical_onMx hs ?_)
  dsimp only
  split
  · simp [hs]
  · split <;> simp [hs]

@[simp] theorem endsCanonical_execWeightSwap {c : Nat} {s : State} (hs : CanonicalBytes s.bytes) :
    EndsCanonical (execWeightSwap c s) := by
  simp only [execWeightSwap, endsCanonical_next]
  split
  · exact hs
  · split
    · exact hs
    · split <;> simp [hs]

@[simp] theorem endsCanonical_execNestDrain {c : Nat} {s : State} (hs : CanonicalBytes s.bytes) :
    EndsCanonical (execNestDrain c s) := by
  rw [execNestDrain, endsCanonical_next]
  split
  · exact hs
  · dsimp only
    split
    · split
      · next he => simpa using canonical_fst he (canonical_drainTile hs)
      · next he => simpa using canonical_fst he (canonical_drainTile hs)
    · split
      · exact hs
      · split
        · simp [hs]
        · split_ifs
          · simp [hs]
          · simp [hs]
          · split
            · next he => simpa using canonical_fst he (canonical_drainTile hs)
            · next he => simpa using canonical_fst he (canonical_drainTile hs)

/-! ### Requests at their homes -/

@[simp] theorem endsCanonical_execHomeRequest {ix : Nat} {s : State} (hs : CanonicalBytes s.bytes) :
    EndsCanonical (execHomeRequest ix s) := by
  rw [execHomeRequest, endsCanonical_next]
  split
  · exact hs
  · next r hr =>
    dsimp only
    split
    · exact hs
    · split
      · exact hs
      · have hnoted : CanonicalBytes (if r.numbered then s.noteFloor (s.ingress r) r else s).bytes :=
          canonical_ite (by simpa using hs) hs
        generalize (if r.numbered then s.noteFloor (s.ingress r) r else s) = u at hnoted ⊢
        split
        · simp [hnoted]
        · have hserved := canonical_serve (r := r) hnoted
          split
          · exact hnoted
          · next he =>
            rw [he] at hserved
            simpa using hserved

@[simp] theorem endsCanonical_execRemoteReply {ix : Nat} {s : State} (hs : CanonicalBytes s.bytes) :
    EndsCanonical (execRemoteReply ix s) := by
  simp only [execRemoteReply, endsCanonical_next]
  split
  · exact hs
  · split
    · split
      · exact hs
      · split <;> simp [hs]
    · exact hs

@[simp] theorem endsCanonical_execBundleReplay {c : Nat} {s : State} (hs : CanonicalBytes s.bytes) :
    EndsCanonical (execBundleReplay c s) := by
  rw [execBundleReplay, endsCanonical_next]
  dsimp only
  split
  · exact canonical_ite hs hs
  · exact hs

@[simp] theorem endsCanonical_execVariantSwitch {c : Nat} {s : State} (hs : CanonicalBytes s.bytes) :
    EndsCanonical (execVariantSwitch c s) := by
  rw [execVariantSwitch, endsCanonical_next]
  dsimp only
  split
  · exact hs
  · split
    · exact hs
    · split
      · simp [hs]
      · next ht => simpa [bytes_of_variantTable ht] using hs

/-! ### The fabric -/

@[simp] theorem endsCanonical_execFlitReceive {e : PortEnd} {f : Flit} {s : State} (hs : CanonicalBytes s.bytes) :
    EndsCanonical (execFlitReceive e f s) := by
  simp only [execFlitReceive, endsCanonical_next]
  split_ifs
  · exact hs
  · exact hs
  · simp [hs]
  · split
    · exact hs
    · split
      · simp [hs]
      · split <;> simp [hs]

@[simp] theorem endsCanonical_execNackReceive {e : PortEnd} {lseq : BitVec 16} {s : State} (hs : CanonicalBytes s.bytes) :
    EndsCanonical (execNackReceive e lseq s) := by
  rw [execNackReceive, endsCanonical_next]
  dsimp only
  split_ifs
  · exact hs
  · simp [hs]
  · split
    · exact hs
    · split <;> simp [hs]

/-! ### The drover -/

@[simp] theorem endsCanonical_execJumpc {cnd : BitVec 2} {off : BitVec 16} {s : State} (hs : CanonicalBytes s.bytes) :
    EndsCanonical (execJumpc cnd off s) := by
  refine endsCanonical_blockWord hs fun n d u hu => ?_
  refine canonical_ite (by simpa using hu) (canonical_ite (by simpa using hu) ?_)
  split <;> simp [hu]

/-! ### Launches and flocks -/

@[simp] theorem endsCanonical_execFlockRetire {fl : Nat} {s : State} (hs : CanonicalBytes s.bytes) :
    EndsCanonical (execFlockRetire fl s) := by
  rw [execFlockRetire, endsCanonical_next]
  refine canonical_ite hs ?_
  split
  · next he => exact canonical_fst he (canonical_writeRecord hs)
  · next he =>
    have ht := canonical_fst he (canonical_writeRecord hs)
    simp [ht]

/-! ### Cuts -/

@[simp] theorem endsCanonical_execMemberRetire {c : Nat} {s : State} (hs : CanonicalBytes s.bytes) :
    EndsCanonical (execMemberRetire c s) := by
  have hdrained := canonical_drainAll hs
  unfold execMemberRetire
  rw [endsCanonical_next]
  dsimp only
  split
  · exact hs
  · split
    · simp [hdrained]
    · next t first he =>
      have ht : CanonicalBytes t.bytes := by
        split at he
        · cases he
          exact hdrained
        · exact canonical_of_writeStats he hdrained
      rw [bytes_ite, bytes_cutFlock, ite_self, bytes_partiesGone, bytes_setCtx, bytes_disarm, bytes_updFlock,
        bytes_foldl _ fun s k => bytes_feEnded s _ _]
      exact ht

@[simp] theorem endsCanonical_execTrapRecordWrite {c : Nat} {s : State} (hs : CanonicalBytes s.bytes) :
    EndsCanonical (execTrapRecordWrite c s) := by
  rw [execTrapRecordWrite, endsCanonical_next]
  dsimp only
  split
  · exact hs
  · split
    · exact hs
    · split
      · simp [hs]
      · split
        · simp [hs]
        · next he => simpa using canonical_fst he (canonical_feWrite (by simpa using hs))

/-! ### Packets -/

@[simp] theorem endsCanonical_execLaunch {p : Packet} {s : State} (hs : CanonicalBytes s.bytes) :
    EndsCanonical (execLaunch p s) := by
  refine endsCanonical_onPolicy hs fun n q => ?_
  split
  · simp [hs]
  · dsimp only
    split <;> simp [hs]

@[simp] theorem endsCanonical_execSignalPacket {p : Packet} {s : State} (hs : CanonicalBytes s.bytes) :
    EndsCanonical (execSignalPacket p s) := by
  refine endsCanonical_onPacket hs fun n q => canonical_afterWaitfor (fun u hu => ?_) hs
  refine canonical_ite (by simpa using hu) ?_
  have hsent : CanonicalBytes
      (if p.flg % 2 = 1 then u.systemRelease.feAdd n (p.word 1) (p.word 2)
        else u.systemRelease.feWrite n p.addr (wordLE (p.word 2))).1.bytes := by
    split <;> simp [hu]
  dsimp only
  generalize (if p.flg % 2 = 1 then u.systemRelease.feAdd n (p.word 1) (p.word 2)
    else u.systemRelease.feWrite n p.addr (wordLE (p.word 2))) = r at hsent ⊢
  split
  · simp [hsent]
  · exact canonical_packetAfter hu hsent

@[simp] theorem endsCanonical_execFetchfence {p : Packet} {s : State} (hs : CanonicalBytes s.bytes) :
    EndsCanonical (execFetchfence p s) := by
  refine endsCanonical_onPolicy hs fun n q => canonical_afterWaitfor (fun u hu => ?_) hs
  simp [hu]

@[simp] theorem endsCanonical_execWritePacket {p : Packet} {s : State} (hs : CanonicalBytes s.bytes) :
    EndsCanonical (execWritePacket p s) := by
  refine endsCanonical_onPacket hs fun n q => canonical_afterWaitfor (fun u hu => ?_) hs
  exact canonical_packetAfter hu (canonical_feWrite hu)

@[simp] theorem endsCanonical_execQstatus {p : Packet} {s : State} (hs : CanonicalBytes s.bytes) :
    EndsCanonical (execQstatus p s) :=
  endsCanonical_onPacket hs fun _ _ => canonical_packetAfter hs (canonical_feWrite hs)

/-! ### Host registers -/

@[simp] theorem endsCanonical_execHeadWriteback {part q : Nat} {s : State} (hs : CanonicalBytes s.bytes) :
    EndsCanonical (execHeadWriteback part q s) := by
  rw [execHeadWriteback, endsCanonical_next]
  dsimp only
  split
  · exact hs
  · split
    · simp [hs]
    · split
      · simp [hs]
      · next he => simpa using canonical_fst he (canonical_feWrite (canonical_systemRelease hs))

@[simp] theorem endsCanonical_execHdmAccess {tile off : Nat} {a : HdmOp} {s : State} (hs : CanonicalBytes s.bytes) :
    EndsCanonical (execHdmAccess tile off a s) := by
  rw [execHdmAccess, endsCanonical_next]
  dsimp only
  split
  · exact hs
  · split
    · exact canonical_ite hs hs
    · exact canonical_ite (canonical_hdmWrite hs) hs

@[simp] theorem endsCanonical_execFaultRoute {part : Nat} {s : State} (hs : CanonicalBytes s.bytes) :
    EndsCanonical (execFaultRoute part s) := by
  refine endsCanonical_shepherd hs ?_
  split
  · simp [hs]
  · split
    · exact hs
    · next r rest hfaults =>
      have hroute :
          CanonicalBytes (if bit (mget 0 (s.part part).froute r.cause.toNat) 0 then (s.countFault part r.cause, true)
          else s.writeFault part r).1.bytes := by
        split <;> simp [hs]
      dsimp only
      generalize (if bit (mget 0 (s.part part).froute r.cause.toNat) 0 then (s.countFault part r.cause, true)
          else s.writeFault part r) = w at hroute ⊢
      split
      · exact hroute
      · simpa using hroute

/-! ### Boot and SPDM -/

@[simp] theorem endsCanonical_execFirmwareBoot {b : BootInput} {s : State} (hs : CanonicalBytes s.bytes) :
    EndsCanonical (execFirmwareBoot b s) := by
  rw [execFirmwareBoot, endsCanonical_next]
  exact canonical_ite hs hs

@[simp] theorem endsCanonical_execChallenge {r : SpdmRequest} {s : State} (hs : CanonicalBytes s.bytes) :
    EndsCanonical (execChallenge r s) := by
  refine endsCanonical_spdm hs ?_
  split
  · simp [hs]
  · split <;> simp [hs]

/-! ### Layers and their roles -/

@[simp] theorem endsCanonical_execRoleChange {tile : Nat} {s : State} (hs : CanonicalBytes s.bytes) :
    EndsCanonical (execRoleChange tile s) := by
  refine endsCanonical_shepherd hs ?_
  dsimp only
  split
  · exact hs
  · split
    · exact hs
    · rw [bytes_foldl _ bytes_preempt]
      split <;> simp [hs]

@[simp] theorem endsCanonical_execThermalEmergency {tile : Nat} {s : State} (hs : CanonicalBytes s.bytes) :
    EndsCanonical (execThermalEmergency tile s) := by
  refine endsCanonical_shepherd hs ?_
  split
  · exact hs
  · dsimp only
    split_ifs <;> simp [hs]

@[simp] theorem endsCanonical_execModuleReset {s : State} (hs : CanonicalBytes s.bytes) : EndsCanonical (execModuleReset s) :=
  (endsCanonical_next _).2 hs

/-! ### The dispatch -/

/-- Every arm of the dispatch: those whose updates and writes the lemmas above cover as they stand, by part of the machine;
those that look something up first; and those with a lemma of their own. -/
theorem exec_canonical (i : Instr) {s : State} (hs : CanonicalBytes s.bytes) : EndsCanonical (exec i s) := by
  cases i with
  -- Control flow of the streams
  | nop | br | jmp | jmpReg | call | callReg | ret =>
    simp [exec, execNop, execBr, execJmp, execJmpReg, execCall, execCallReg, execRet, hs]
  -- Scalar operations
  | movi | moviWide | movhi | movhiWide | mov | add | addWide | addi | addiWide | sub | subWide | mul | mulWide | mulh
  | mulhN | and | andWide | andn | andnWide | or | orWide | xor | xorWide | shl | shr | sar | rot | clz | popc | min
  | minWide | minN | minNWide | max | maxWide | maxN | maxNWide | cmp | cmpWide | sel =>
    simp [exec, execMovi, execMoviWide, execMovhi, execMovhiWide, execMov, execAdd, execAddWide, execAddi, execAddiWide,
      execSub, execSubWide, execMul, execMulWide, execMulh, execMulhN, execAnd, execAndWide, execAndn, execAndnWide, execOr,
      execOrWide, execXor, execXorWide, execShl, execShr, execSar, execRot, execClz, execPopc, execMin, execMinWide,
      execMinN, execMinNWide, execMax, execMaxWide, execMaxN, execMaxNWide, execCmp, execCmpWide, execSel, hs]
  -- System registers and views
  | rdsr | wrsr | rotb | loopst =>
    simp [exec, execRdsr, execWrsr, execRotb, execLoopst, hs]
  -- The L stream
  | ld | ldOffset | ldl | ldlQ | ldr | ldrOffset | lds | gath | gathN | stcfg | stcfgOffset | stadv | stadvSkip | stadvImm
  | pref | prefOffset | ldlay | ldlayOffset | fenceLayout | qpush | bqpush =>
    simp [exec, execLd, execLdOffset, execLdl, execLdlQ, execLdr, execLdrOffset, execLds, execGath, execGathN, execStcfg,
      execStcfgOffset, execStadv, execStadvSkip, execStadvImm, execPref, execPrefOffset, execLdlay, execLdlayOffset,
      execFenceLayout, execQpush, execBqpush, hs]
  -- The S stream
  | st | stQ | stl | stlQ | str | strOffset | rgx | rgxImm | fence | waita | waitaNb | waitaOffset | trig =>
    simp [exec, execSt, execStQ, execStl, execStlQ, execStr, execStrOffset, execRgx, execRgxImm, execFence, execWaita,
      execWaitaNb, execWaitaOffset, execTrig, hs]
  -- Barriers
  | barArrive | barWait | barrierPhaseComplete =>
    simp [exec, execBarArrive, execBarWait, execBarrierPhaseComplete, hs]
  -- Vectors
  | vadd | vsub | vmul | vmulh | vmad | vand | vor | vxor | vlop3 | vshl | vshr | vsar | vpopc | vclz | vmin | vmax | vabs
  | vcmpEq | vcmpNe | vcmpLt | vcmpLe | vsel | vperm | vbcast | vbcastG | vrotl | vrotlG | vcomp | vred | vredm | qput =>
    simp [exec, execVadd, execVsub, execVmul, execVmulh, execVmad, execVand, execVor, execVxor, execVlop3, execVshl,
      execVshr, execVsar, execVpopc, execVclz, execVmin, execVmax, execVabs, execVcmpEq, execVcmpNe, execVcmpLt, execVcmpLe,
      execVsel, execVperm, execVbcast, execVbcastG, execVrotl, execVrotlG, execVcomp, execVred, execVredm, execQput, hs]
  -- Floating-point vectors
  | fadd | fsub | fmul | ffma | fmin | fmax | fabs | fneg | fcmpEq | fcmpNe | fcmpLt | fcmpLe | frcp | frsq | fexp2 | flog2
  | fred | fredm =>
    simp [exec, execFadd, execFsub, execFmul, execFfma, execFmin, execFmax, execFabs, execFneg, execFcmpEq, execFcmpNe,
      execFcmpLt, execFcmpLe, execFrcp, execFrsq, execFexp2, execFlog2, execFred, execFredm, hs]
  -- The quantiser
  | cvt | qmx | qtrl | qstat | qstatClr =>
    simp [exec, execCvt, execQmx, execQtrl, execQstat, execQstatClr, hs]
  -- The matrix engine
  | mxgo | mxcommit | mxcommitClr | mxswap | nestStart =>
    simp [exec, execMxgo, execMxcommit, execMxcommitClr, execMxswap, execNestStart, hs]
  -- The copy engine
  | copy | copy2 | copy3 | put | putf | get | accw | fill | mcast | prefAdapt | signal | aowAdd | aowMin | aowMax | aowAnd
  | aowOr | aowXor | aowSwap | cas | flagadd | reservedCommand =>
    simp [exec, execCopy, execCopy2, execCopy3, execPut, execPutf, execGet, execAccw, execFill, execMcast, execPrefAdapt,
      execSignal, execAowAdd, execAowMin, execAowMax, execAowAnd, execAowOr, execAowXor, execAowSwap, execCas, execFlagadd,
      execReservedCommand, hs]
  -- The drover
  | settle | loopc | mark | query | endc =>
    simp [exec, execSettle, execLoopc, execMark, execQuery, execEndc, hs]
  -- Host registers
  | doorbellWrite | queueEnable | partCreate | queueDisable | queueReset | queueRetry | partRemove | partKill | mmuInv
  | capClear | domidWrite | registerWrite | shepherdRestart =>
    simp [exec, execDoorbellWrite, execQueueEnable, execPartCreate, execQueueDisable, execQueueReset, execQueueRetry,
      execPartRemove, execPartKill, execMmuInv, execCapClear, execDomidWrite, execRegisterWrite, execShepherdRestart, hs]
  -- Placement, release and resumption
  | launchPlace | cadenceTopBand | quantumExpiry | flockResume =>
    simp [exec, execLaunchPlace, execCadenceTopBand, execQuantumExpiry, execFlockResume, hs]
  -- Packets
  | waitsig | wrap | pad | copyPacket | cadence | reservedPacket =>
    simp [exec, execWaitsig, execWrap, execPad, execCopyPacket, execCadence, execReservedPacket, hs]
  -- Cuts
  | preemptCut | triggerArrive | trapctlResume | trapctlKill | forcedCut =>
    simp [exec, execPreemptCut, execTriggerArrive, execTrapctlResume, execTrapctlKill, execForcedCut, hs]
  -- Requests at their homes
  | streamDeadlock | variantSwitchMiss =>
    simp [exec, execStreamDeadlock, execVariantSwitchMiss, hs]
  -- The fabric
  | fecWindowEnd | retrainLock | retrainTimeout | ringTuningLost | laserLineLost | laserLineRestored | portRetrain
  | portCounterClear =>
    simp [exec, execFecWindowEnd, execRetrainLock, execRetrainTimeout, execRingTuningLost, execLaserLineLost,
      execLaserLineRestored, execPortRetrain, execPortCounterClear, hs]
  -- Layers and their roles
  | powerGrant | temperatureSample | selftestFail | layerLoss | layerReturn | ballastRamp | captureSample
  | lifetimeCounterSave =>
    simp [exec, execPowerGrant, execTemperatureSample, execSelftestFail, execLayerLoss, execLayerReturn, execBallastRamp,
      execCaptureSample, execLifetimeCounterSave, hs]
  -- Boot and SPDM
  | getVersion | getCapabilities | negotiateAlgorithms | getDigests | getCertificate | getMeasurements =>
    simp [exec, execGetVersion, execGetCapabilities, execNegotiateAlgorithms, execGetDigests, execGetCertificate,
      execGetMeasurements, hs]
  -- A guarded operation that looks something up
  | view | pushReg | pop | popTry =>
    simp only [exec, execView, execPushReg, execPop, execPopTry]
    refine endsCanonical_guarded hs ?_
    split <;> simp [hs]
  -- The same, on a queue of the L stream and on one of the S stream
  | recv | recvTry | qpop =>
    simp only [exec, execRecv, execRecvTry, execQpop]
    refine endsCanonical_onLq hs ?_
    split <;> simp [hs]
  | send | sendTry =>
    simp only [exec, execSend, execSendTry]
    refine endsCanonical_onSq hs ?_
    split <;> simp [hs]
  -- Staging of the matrix engine
  | mxsetHdr | mxsetLvl | mxbindG | mxbindView | mxgrp =>
    simp only [exec, execMxsetHdr, execMxsetLvl, execMxbindG, execMxbindView, execMxgrp]
    refine endsCanonical_onMx hs ?_
    rw [bytes_onStaging (by simp)]
    exact hs
  -- Operations with two forms
  | ldlOffset | stOffset | stlOffset | vfshl | vfshr =>
    simp only [exec, execLdlOffset, execStOffset, execStlOffset, execVfshl, execVfshr]
    split <;> simp [hs]
  -- Events that find what they are about, or do nothing
  | sectionRetire | resultLanding | monitorArm | strFlagAdd | barrierArrival | nestComplete | penumbraSettle
  | commandComplete | putfFlagAdd | requestTimeoutResend | uncorrectableError | viewExchange | droverStep | circuitLive
  | step | waitsigPoll =>
    simp only [exec, execSectionRetire, execResultLanding, execMonitorArm, execStrFlagAdd, execBarrierArrival,
      execNestComplete, execPenumbraSettle, execCommandComplete, execPutfFlagAdd, execRequestTimeoutResend,
      execUncorrectableError, execViewExchange, execDroverStep, execCircuitLive, execStep, execWaitsigPoll,
      endsCanonical_next]
    split <;> simp [hs]
  -- Events that then look at what they found
  | sAccessComplete | commitBufferRelease | monitorWake | nestPass | retryAfterResend | handBack =>
    simp only [exec, execSAccessComplete, execCommitBufferRelease, execMonitorWake, execNestPass, execRetryAfterResend,
      execHandBack, endsCanonical_next]
    split
    · exact hs
    · split <;> simp [hs]
  -- Circuit words that name circuits
  | connect | tear | hold =>
    simp only [exec, execConnect, execTear, execHold]
    refine endsCanonical_blockWord hs fun n d u hu => ?_
    split <;> simp [hu]
  -- Packets that name a flock
  | preemptSuspend | preemptResume | preemptKill =>
    simp only [exec, execPreemptSuspend, execPreemptResume, execPreemptKill]
    refine endsCanonical_onPolicy hs fun _ _ => ?_
    rw [bytes_packetDone]
    split <;> simp [hs]
  -- Cadence
  | cadenceTick | cadenceMissedTick =>
    simp only [exec, execCadenceTick, execCadenceMissedTick]
    refine endsCanonical_shepherd hs ?_
    split <;> simp [hs]
  -- Role changes of a tile that waits for one
  | roleChangeFlush | roleChangeReenumerate =>
    simp only [exec, execRoleChangeFlush, execRoleChangeReenumerate]
    refine endsCanonical_shepherd hs ?_
    split
    · exact hs
    · split_ifs <;> simp [hs]
  -- Instructions with a lemma of their own
  | brBq | loop | trap | fin | sectionHeader | lAccessComplete | pushSq | barArwt | mxwait | weightSwap | nestDrain
  | homeRequest | remoteReply | trapRecordWrite | jumpc | launch | signalPacket | fetchfence | writePacket | qstatus
  | memberRetire | flockRetire | firmwareBoot | bundleReplay | variantSwitch | flitReceive | nackReceive | faultRoute
  | hdmAccess | headWriteback | thermalEmergency | roleChange | moduleReset | challenge =>
    simp [exec, hs]

end Sys2Proof.Machine

/-! PROOFS. Every step keeps the memories canonical (O57): the issue of a stream, the other moves, and the step. -/

namespace Sys2Proof.Machine

theorem canonical_of_exec {i : Instr} {s t : State} (ht : exec i s = .next t) (hs : CanonicalBytes s.bytes) :
    CanonicalBytes t.bytes := exec_canonical i hs t ht

theorem endsCanonical_precise {s : State} {r : Result} (hs : CanonicalBytes s.bytes) (hr : EndsCanonical r) :
    EndsCanonical (s.precise r) := by
  unfold State.precise
  split
  · split
    · exact (endsCanonical_ite _ _).2 ⟨fun _ => (endsCanonical_next _).2 (by simpa using hs), fun _ => hr⟩
    · exact hr
  · exact hr

theorem endsCanonical_issueHeader {s : State} (hs : CanonicalBytes s.bytes) : EndsCanonical s.issueHeader := by
  unfold State.issueHeader
  split
  · next ht => simpa [bytes_of_itemSyls ht] using hs
  · split
    · simpa using hs
    · exact exec_canonical _ hs

@[simp] theorem canonical_waitAlone {s : State} {i : Instr} {r : WaitReason} (hs : CanonicalBytes s.bytes) :
    CanonicalBytes (s.waitAlone i r).bytes := by
  unfold State.waitAlone
  split
  · next ht =>
    split
    · exact canonical_of_exec ht hs
    · simpa using hs
  · simpa using hs

/-- What a word has brought about so far, and what it leaves if it waits, have canonical memories. -/
def WordRun.Canonical (w : WordRun) : Prop :=
  CanonicalBytes w.cur.bytes ∧ ∀ r t, w.wait = some (r, t) → CanonicalBytes t.bytes

theorem canonical_runOp {base : State} {w : WordRun} (i : Instr) (hbase : CanonicalBytes base.bytes) (hw : w.Canonical) :
    (runOp base w i).Canonical := by
  obtain ⟨hcur, hwait⟩ := hw
  unfold runOp
  split
  · exact ⟨hcur, hwait⟩
  · exact ⟨hcur, hwait⟩
  · next t ht =>
    have hnext : CanonicalBytes t.bytes := canonical_of_exec ht (by simpa using hcur)
    split
    · exact ⟨hnext, hwait⟩
    · exact ⟨hnext, hwait⟩
    · refine ⟨hcur, fun r' t' h => ?_⟩
      dsimp only at h
      cases hold : w.wait with
      | none =>
        rw [hold] at h
        cases h
        exact canonical_waitAlone hbase
      | some p =>
        rw [hold] at h
        cases h
        exact hwait _ _ hold
    · split
      · exact ⟨hcur, hwait⟩
      · split
        · exact ⟨hcur, hwait⟩
        · exact ⟨hcur, hwait⟩

theorem canonical_foldl_runOp {base : State} (is : List Instr) {w : WordRun} (hbase : CanonicalBytes base.bytes)
    (hw : w.Canonical) : (is.foldl (runOp base) w).Canonical := by
  induction is generalizing w with
  | nil => exact hw
  | cons i is ih => exact ih (canonical_runOp i hbase hw)

theorem endsCanonical_wordTrap {base : State} {i : Instr} {cause : Cause} {code : Byte} {addr : W64}
    (hs : CanonicalBytes base.bytes) : EndsCanonical (base.wordTrap i cause code addr) := by
  unfold State.wordTrap
  split
  · split
    · next ht => simpa using canonical_of_exec ht hs
    · exact exec_canonical _ hs
  · simpa using hs

theorem endsCanonical_finish {base : State} {w : WordRun} (hs : CanonicalBytes base.bytes) (hw : w.Canonical) :
    EndsCanonical (w.finish base) := by
  obtain ⟨hcur, hwait⟩ := hw
  unfold WordRun.finish
  split
  · simp
  · split
    · exact endsCanonical_wordTrap hs
    · next h =>
      have ht := hwait _ _ h
      split
      · exact endsCanonical_wordTrap hs
      · simpa using ht
    · next h => simpa using hwait _ _ h
    · simpa using hcur

theorem endsCanonical_issueOps {s : State} {is : List Instr} (hs : CanonicalBytes s.bytes) :
    EndsCanonical (s.issueOps is) := by
  have hrun : (is.foldl (runOp s) { cur := s }).Canonical :=
    canonical_foldl_runOp is hs ⟨hs, fun _ _ h => by cases h⟩
  unfold State.issueOps
  split_ifs
  · simpa using hs
  · simpa using hs
  · simpa using hs
  · split
    · exact endsCanonical_finish hs hrun
    · simpa using hs

theorem endsCanonical_issueWord {s : State} (hs : CanonicalBytes s.bytes) : EndsCanonical s.issueWord := by
  unfold State.issueWord
  split
  · next ht => simpa [bytes_of_itemSyls ht] using hs
  · split
    · simpa using hs
    · split
      · simpa using hs
      · exact endsCanonical_issueOps hs

theorem endsCanonical_issueItem {s : State} (hs : CanonicalBytes s.bytes) : EndsCanonical s.issueItem :=
  (endsCanonical_ite _ _).2 ⟨fun _ => endsCanonical_issueHeader hs, fun _ => endsCanonical_issueWord hs⟩

theorem endsCanonical_issue {s : State} {c : Nat} {st : StreamId} (hs : CanonicalBytes s.bytes) :
    EndsCanonical (s.issue c st) := by
  unfold State.issue
  split
  · simpa using hs
  · have hfocus : CanonicalBytes ((s.keepCode c st).focusOn c st).bytes := by simpa using hs
    dsimp only
    generalize (s.keepCode c st).focusOn c st = u at hfocus ⊢
    split
    · exact endsCanonical_precise hfocus (endsCanonical_issueItem hfocus)
    · have hdep : ∀ f, CanonicalBytes (u.updStream f).bytes := fun f => by simpa using hfocus
      split
      · exact endsCanonical_precise (hdep _) (endsCanonical_issueItem (hdep _))
      · simpa using hfocus

theorem endsCanonical_engineMove {s : State} {c : Nat} (hs : CanonicalBytes s.bytes) : EndsCanonical (s.engineMove c) := by
  unfold State.engineMove
  dsimp only
  split
  · simpa using hs
  · split
    · exact exec_canonical _ hs
    · exact (endsCanonical_next _).2 hs

theorem bytes_of_headOf {s t : State} {part q : Nat} (ht : s.headOf part q = .state t) : t.bytes = s.bytes := by
  unfold State.headOf at ht
  dsimp only at ht
  (repeat' split at ht) <;> cases ht <;> simp

theorem endsCanonical_packetMove {s : State} {part q : Nat} (hs : CanonicalBytes s.bytes) :
    EndsCanonical (s.packetMove part q) := by
  unfold State.packetMove
  dsimp only
  have hahead : CanonicalBytes (s.fetchAhead part q).bytes := by simpa using hs
  generalize s.fetchAhead part q = u at hahead ⊢
  split
  · next he =>
    split at he
    · cases he
      simpa using hahead
    · simpa [bytes_of_headOf he] using hahead
  · exact exec_canonical _ hahead

theorem endsCanonical_wordMove {s : State} {part : Nat} (hs : CanonicalBytes s.bytes) : EndsCanonical (s.wordMove part) := by
  unfold State.wordMove
  split
  · simpa using hs
  · simpa using hs
  · simpa using hs
  · exact exec_canonical _ hs

theorem endsCanonical_eventMove {s : State} {i : Instr} (hs : CanonicalBytes s.bytes) : EndsCanonical (s.eventMove i) :=
  (endsCanonical_ite _ _).2 ⟨fun _ => exec_canonical i hs, fun _ => (endsCanonical_next s).2 hs⟩

theorem canonical_elapse {s : State} {most : Nat} (hs : CanonicalBytes s.bytes) : CanonicalBytes (s.elapse most).bytes := by
  have hmaps := canonical_foldl (f := fun u e => u.takeMaps (u.now + s.passes most) e.1)
    (fun u e hu => by simpa using hu) s.parts hs
  unfold State.elapse
  dsimp only
  rw [bytes_with_cores]
  refine canonical_foldl (fun u e hu => by simpa using hu) _ ?_
  exact ⟨hmaps.mem, hmaps.lm, hmaps.hostMem⟩

theorem endsCanonical_move {s : State} {m : Move} (hs : CanonicalBytes s.bytes) : EndsCanonical (s.move m) := by
  cases m with
  | issue c st => exact endsCanonical_issue hs
  | engine c => exact endsCanonical_engineMove hs
  | packet part q => exact endsCanonical_packetMove hs
  | circuitWord part => exact endsCanonical_wordMove hs
  | event i => exact endsCanonical_eventMove hs
  | elapse ns => exact (endsCanonical_next _).2 (canonical_elapse hs)
  | storePiece c piece => exact (endsCanonical_next _).2 (canonical_storePiece hs)
  | foreignPiece req piece => exact (endsCanonical_next _).2 (canonical_foreignPiece hs)
  | transferPiece c tk piece => exact (endsCanonical_next _).2 (canonical_transferPiece hs)
  | deliverPiece c tk block piece => exact (endsCanonical_next _).2 (canonical_deliverPiece hs)
  | hostPiece port piece => exact (endsCanonical_next _).2 (canonical_hostPiece hs)
  | storeAhead c ix => exact (endsCanonical_next _).2 (canonical_storeAhead hs)
  | localTransfer c tk => exact (endsCanonical_next _).2 (canonical_localTransfer hs)
  | deliverBlock c tk block => exact (endsCanonical_next _).2 (canonical_deliverBlock hs)
  | handOn port => exact (endsCanonical_next _).2 (canonical_drainPort hs)
  | hostStore addr bs => exact (endsCanonical_next _).2 (canonical_hostWrites hs)
  | foreign | transmit | acknowledge | foreignBarrier | readAhead | loadPiece | shadowRow =>
    simpa [State.move] using hs

/-- Settles O57: every move of the machine ends, if it goes on, in a state with canonical memories. -/
theorem stepKeepsMemoryCanonical : Obligations.StepKeepsMemoryCanonical := fun s t hs hstep =>
  (canonical_iff_bytes t).2 (endsCanonical_move (s := s.advance) ((canonical_iff_bytes s).1 hs) t hstep)

end Sys2Proof.Machine

/-! PROOFS. The floating-point vector operations (O31): one form for operations of one element, of two, and for tests. -/

namespace Sys2Proof.Machine

/-- An operation whose effect under its guard is a result on its way to vD gives that result. -/
theorem givesV_of_onItsWay {i : Instr} {gd : Guard} {d : BitVec 5} {bound : Nat} {bs : State → List Byte}
    (f : State → State) (hexec : ∀ s, exec i s = guarded gd s f)
    (hf : ∀ s, OnItsWay s (f s) (vOffset s.rd.viewV d) (bs s) bound) : GivesV i gd d bound bs := by
  intro s
  refine ⟨_, (hexec s).trans (guarded_next gd s f), ?_⟩
  unfold Guarded
  split
  · exact hf s
  · rfl

section FloatVectors

variable {i : Instr} {gd : Guard} {d a b : BitVec 5} {ty : FpTy} {bound : Nat}

/-- An operation that writes floating-point elements gives their bytes. -/
theorem givesV_of_putFelems (xs : State → List Nat)
    (hexec : ∀ s, exec i s = guarded gd s fun s => s.putFelems ty d (xs s) bound) :
    GivesV i gd d bound fun s => unchunks (fpBytes ty) (xs s) :=
  givesV_of_onItsWay _ hexec fun s => putFelems_onItsWay s ty d (xs s) bound

/-- An operation on one value gives, for each element, the value that `f` takes it to, rounded once (R198, R199). -/
theorem givesV_of_fp1 (f : FVal → FVal) (hexec : ∀ s, exec i s = fvecUn gd d a ty bound (fp1 ty f) s) :
    GivesV i gd d bound fun s => unchunks (fpBytes ty)
      ((s.felems ty a).map fun x => fencode (fpFmt ty) .rne (f (fdecode (fpFmt ty) x))) :=
  givesV_of_putFelems (fun s => (s.felems ty a).map (fp1 ty f)) hexec

/-- An operation on two values gives, for each pair of elements, the value that `f` takes them to, rounded once (R198). -/
theorem givesV_of_fp2 (f : FVal → FVal → FVal) (hexec : ∀ s, exec i s = fvecBin gd d a b ty bound (fp2 ty f) s) :
    GivesV i gd d bound fun s => unchunks (fpBytes ty) (List.zipWith
      (fun x y => fencode (fpFmt ty) .rne (f (fdecode (fpFmt ty) x) (fdecode (fpFmt ty) y)))
      (s.felems ty a) (s.felems ty b)) :=
  givesV_of_putFelems (fun s => List.zipWith (fp2 ty f) (s.felems ty a) (s.felems ty b)) hexec

/-- A test of two values gives, for each pair of elements, all ones where it holds and zero elsewhere (R198). -/
theorem givesV_of_fcmp2 (f : FVal → FVal → Bool) (hexec : ∀ s, exec i s = fvecBin gd d a b ty bound (fcmp2 ty f) s) :
    GivesV i gd d bound fun s => unchunks (fpBytes ty) (List.zipWith
      (fun x y => if f (fdecode (fpFmt ty) x) (fdecode (fpFmt ty) y) then 2 ^ (8 * fpBytes ty) - 1 else 0)
      (s.felems ty a) (s.felems ty b)) :=
  givesV_of_putFelems (fun s => List.zipWith (fcmp2 ty f) (s.felems ty a) (s.felems ty b)) hexec

end FloatVectors

/-- Settles O31: each operation is one of the forms above on an operation of values; FFMA, which reads three registers,
rounds its exact sum and not the product. -/
theorem floatElementsCompute : Obligations.FloatElementsCompute := by
  intro gd d a b ty
  refine ⟨?fadd, ?fsub, ?fmul, ?ffma, ?fmin, ?fmax, ?fabs, ?fneg, ?fcmpEq, ?fcmpNe, ?fcmpLt, ?fcmpLe, ?frcp, ?frsq,
    ?fexp2, ?flog2⟩
  case fadd => exact givesV_of_fp2 FVal.add fun _ => rfl
  case fsub => exact givesV_of_fp2 FVal.sub fun _ => rfl
  case fmul => exact givesV_of_fp2 FVal.mul fun _ => rfl
  case ffma => exact givesV_of_putFelems _ fun _ => rfl
  case fmin => exact givesV_of_fp2 FVal.lower fun _ => rfl
  case fmax => exact givesV_of_fp2 FVal.upper fun _ => rfl
  case fabs => exact givesV_of_fp1 FVal.abs fun _ => rfl
  case fneg => exact givesV_of_fp1 FVal.flip fun _ => rfl
  case fcmpEq => exact givesV_of_fcmp2 FVal.eq fun _ => rfl
  case fcmpNe => exact givesV_of_fcmp2 (fun x y => !x.eq y) fun _ => rfl
  case fcmpLt => exact givesV_of_fcmp2 FVal.lt fun _ => rfl
  case fcmpLe => exact givesV_of_fcmp2 (fun x y => x.lt y || x.eq y) fun _ => rfl
  case frcp => exact givesV_of_fp1 FVal.rcp fun _ => rfl
  case frsq => exact givesV_of_fp1 FVal.rsq fun _ => rfl
  case fexp2 => exact givesV_of_fp1 FVal.exp2 fun _ => rfl
  case flog2 => exact givesV_of_fp1 FVal.log2 fun _ => rfl

end Sys2Proof.Machine

/-! PROOFS. Reading the fields of a syllable that the encoder has written (R116, R121, R124). -/

namespace Sys2Proof

/-! ## Fields of a sum of fields -/

section Fields

variable {w lo len k a m n R s : Nat}

/-- What stands above a field does not reach it. -/
theorem field_step (h : lo + w ≤ k) : (a * 2 ^ k + R) / 2 ^ lo % 2 ^ w = R / 2 ^ lo % 2 ^ w := by
  obtain ⟨j, rfl⟩ := Nat.exists_eq_add_of_le h
  have e : a * 2 ^ (lo + w + j) = 2 ^ lo * (2 ^ w * (a * 2 ^ j)) := by ring
  rw [e, Nat.mul_add_div (Nat.two_pow_pos lo), Nat.mul_add_mod]

/-- What stands below a field does not reach it. -/
theorem field_this (h : R < 2 ^ lo) : (n * 2 ^ lo + R) / 2 ^ lo = n := by
  rw [Nat.mul_comm, Nat.mul_add_div (Nat.two_pow_pos lo), Nat.div_eq_of_lt h, Nat.add_zero]

@[simp] theorem syl_step (h : lo + w ≤ k) : syl w lo (a * 2 ^ k + R) = syl w lo R :=
  BitVec.eq_of_toNat_eq (by simpa only [syl, BitVec.toNat_ofNat] using field_step h)

@[simp] theorem syl_pow_step (h : lo + w ≤ k) : syl w lo (2 ^ k + R) = syl w lo R := by
  simpa using syl_step (a := 1) (R := R) h

@[simp] theorem syl_this (x : BitVec w) (h : R < 2 ^ lo) : syl w lo (x.toNat * 2 ^ lo + R) = x := by
  rw [syl, field_this h, BitVec.ofNat_toNat, BitVec.setWidth_eq]

@[simp] theorem syl_last (x : BitVec w) : syl w lo (x.toNat * 2 ^ lo) = x := by
  simpa using syl_this x (R := 0) (Nat.two_pow_pos lo)

@[simp] theorem syl_low (x : BitVec w) : syl w 0 x.toNat = x := by simp [syl]

@[simp] theorem zeros_eq_true (h : s / 2 ^ lo % 2 ^ len = 0) : zeros lo len s = true := by simp [zeros, h]

@[simp] theorem flag_eq_true (h : s / 2 ^ lo % 2 = 1) : flag lo s = true := by simp [flag, h]

@[simp] theorem flag_eq_false (h : s / 2 ^ lo % 2 = 0) : flag lo s = false := by simp [flag, h]

@[simp] theorem flag_step (h : lo + 1 ≤ k) : flag lo (a * 2 ^ k + R) = flag lo R := by
  simpa [flag] using congrArg (· == 1) (field_step (w := 1) (a := a) (R := R) h)

@[simp] theorem flag_this (b : Bool) (h : R < 2 ^ lo) : flag lo (flagBit b * 2 ^ lo + R) = b := by
  rw [flag, field_this h]
  cases b <;> rfl

@[simp] theorem flag_last (b : Bool) : flag lo (flagBit b * 2 ^ lo) = b := by
  simpa using flag_this b (R := 0) (Nat.two_pow_pos lo)

@[simp] theorem code_step (h : m * 2 ^ lo ∣ 2 ^ k) : (a * 2 ^ k + R) / 2 ^ lo % m = R / 2 ^ lo % m := by
  obtain ⟨j, hj⟩ := h
  have e : a * 2 ^ k = 2 ^ lo * (m * (a * j)) := by rw [hj]; ring
  rw [e, Nat.mul_add_div (Nat.two_pow_pos lo), Nat.mul_add_mod]

@[simp] theorem code_this (h : R < 2 ^ lo) (hn : n < m) : (n * 2 ^ lo + R) / 2 ^ lo % m = n := by
  rw [field_this h, Nat.mod_eq_of_lt hn]

@[simp] theorem code_last (hn : n < m) : n * 2 ^ lo / 2 ^ lo % m = n := by
  simpa using code_this (R := 0) (Nat.two_pow_pos lo) hn

@[simp] theorem code_low_step (h : m ∣ 2 ^ k) : (a * 2 ^ k + R) % m = R % m := by
  simpa using code_step (lo := 0) (a := a) (R := R) (by simpa using h)

/-- A field is zero where its bits are. -/
theorem zeros_eq_syl : zeros lo len s = (syl len lo s == 0) := by
  rw [zeros, syl, Bool.eq_iff_iff]
  simp [← BitVec.toNat_inj]

theorem flagBit_lt (b : Bool) : flagBit b < 2 := by cases b <;> decide

end Fields

/-! ## The first syllable of an operation (R116) -/

section Head

variable {w lo len l op body m : Nat} {gd : Guard}

/-- A first syllable is its LEN, major and guard above the 18 bits of its body. -/
theorem headSyl_eq : headSyl l op gd body =
    (l * 2 ^ 12 + op * 2 ^ 5 + gd.p.toNat * 2 + flagBit gd.neg) * 2 ^ 18 + body := by
  simp only [headSyl]; ring

@[simp] theorem syl_headSyl (h : lo + w ≤ 18) : syl w lo (headSyl l op gd body) = syl w lo body := by
  rw [headSyl_eq, syl_step h]

@[simp] theorem flag_headSyl (h : lo + 1 ≤ 18) : flag lo (headSyl l op gd body) = flag lo body := by
  rw [headSyl_eq, flag_step h]

@[simp] theorem zeros_headSyl (h : lo + len ≤ 18) : zeros lo len (headSyl l op gd body) = zeros lo len body := by
  rw [zeros, zeros, headSyl_eq, field_step h]

@[simp] theorem code_headSyl (h : m * 2 ^ lo ∣ 2 ^ 18) :
    headSyl l op gd body / 2 ^ lo % m = body / 2 ^ lo % m := by
  rw [headSyl_eq, code_step h]

@[simp] theorem code_low_headSyl (h : m ∣ 2 ^ 18) : headSyl l op gd body % m = body % m := by
  rw [headSyl_eq, code_low_step h]

@[simp] theorem guardOf_headSyl (h : body < 2 ^ 18) : guardOf (headSyl l op gd body) = gd := by
  have hp : syl 4 19 (headSyl l op gd body) = gd.p := by
    have := flagBit_lt gd.neg
    simp (disch := omega) [-Nat.reducePow, headSyl, Nat.add_assoc]
  have hn : flag 18 (headSyl l op gd body) = gd.neg := by
    simp (disch := omega) [-Nat.reducePow, headSyl, Nat.add_assoc]
  rw [guardOf, hp, hn]

theorem len_headSyl (hl : l < 4) (ho : op < 128) (h : body < 2 ^ 18) : headSyl l op gd body / 2 ^ 30 % 4 = l := by
  have := flagBit_lt gd.neg
  simp (disch := omega) [-Nat.reducePow, headSyl, Nat.add_assoc]

theorem major_headSyl (ho : op < 128) (h : body < 2 ^ 18) : headSyl l op gd body / 2 ^ 23 % 128 = op := by
  have := flagBit_lt gd.neg
  simp (disch := omega) [-Nat.reducePow, headSyl, Nat.add_assoc]

/-- A well-formed guard is not the reserved one (R116). -/
theorem reserved_guard_headSyl (hg : gd.wf = true) (h : body < 2 ^ 18) :
    (zeros 19 4 (headSyl l op gd body) && flag 18 (headSyl l op gd body)) = false := by
  have hgd := guardOf_headSyl (l := l) (op := op) (gd := gd) h
  have hp : syl 4 19 (headSyl l op gd body) = gd.p := congrArg Guard.p hgd
  have hn : flag 18 (headSyl l op gd body) = gd.neg := congrArg Guard.neg hgd
  rw [zeros_eq_syl, hp, hn]
  exact (Bool.not_eq_true' _).mp hg

end Head

end Sys2Proof

/-! PROOFS. Decoding gives back what was encoded (O2): where an operation stands, the formats that many operations share,
and each operation of the three streams. -/

namespace Sys2Proof

/-! ## Where an operation stands -/

/-- The syllables of an operation decode to it wherever it may stand. -/
def ReadsBack (i : Instr) : Prop :=
  ∀ (ss : List Nat) (st : StreamId) (slot x y : Nat),
    i.wf = true → encodeOp i = some ss → i.standsIn st slot = true →
      decodeOp st slot (ss.getD 0 0) (ss.getD 1 x) (ss.getD 2 y) = .ok i

/-- An operation of the common map decodes by it, unless its place in a C word is wrong. -/
theorem decodeOp_headSyl_common {st : StreamId} {slot len op body x y : Nat} {gd : Guard} (hg : gd.wf = true) (hl : len < 3)
    (ho : op < 0x30) (hb : body < 2 ^ 18) (hm : misplaced st slot len op = none) :
    decodeOp st slot (headSyl len op gd body) x y = decodeCommon st len op (headSyl len op gd body) x y := by
  rw [decodeOp, len_headSyl (by omega) (by omega) hb, major_headSyl (by omega) hb, decodeFields, if_neg (by omega),
    reserved_guard_headSyl hg hb, if_neg Bool.false_ne_true, if_neg (by omega), hm]

/-- An operation of a stream-specific major decodes by the map of its stream. -/
theorem decodeOp_headSyl_specific {st : StreamId} {slot len op body x y : Nat} {gd : Guard} (hg : gd.wf = true)
    (hl : len < 3) (ho : 0x30 ≤ op ∧ op < 128) (hb : body < 2 ^ 18) :
    decodeOp st slot (headSyl len op gd body) x y =
      decodeSpecific st slot len op (headSyl len op gd body) x y := by
  rw [decodeOp, len_headSyl (by omega) ho.2 hb, major_headSyl ho.2 hb, decodeFields, if_neg (by omega),
    reserved_guard_headSyl hg hb, if_neg Bool.false_ne_true, if_pos ho.1]

section Places

variable {i : Instr} {len op body : Nat} {gd : Guard} {tl : List Nat}

/-- An operation that no stream word carries has no syllables. -/
theorem readsBack_of_notStream (hp : i.place = .notStream) : ReadsBack i := by
  intro ss st slot x y _ he
  simp [encodeOp, hp] at he

/-- An operation of a stream-specific major reads back where the map of its stream reads it back. -/
theorem readsBack_of_specific (he : encodeOp i = some (headSyl len op gd body :: tl)) (hg : i.wf = true → gd.wf = true)
    (hl : len < 3) (ho : 0x30 ≤ op ∧ op < 128) (hb : body < 2 ^ 18)
    (hd : i.wf = true → ∀ st slot x y, i.standsIn st slot = true →
      decodeSpecific st slot len op (headSyl len op gd body) (tl.getD 0 x) (tl.getD 1 y) = .ok i) : ReadsBack i := by
  intro ss st slot x y hw hs hst
  obtain rfl : headSyl len op gd body :: tl = ss := Option.some.inj (he.symm.trans hs)
  exact (decodeOp_headSyl_specific (hg hw) hl ho hb).trans (hd hw st slot x y hst)

/-- An operation of the common map with its one syllable. -/
theorem readsBack_of_common (he : encodeOp i = one op gd body) (hp : i.place = .common)
    (hg : i.wf = gd.wf) (ho : op < 0x30) (hb : body < 2 ^ 18)
    (hd : ∀ st x y, decodeCommon st 0 op (headSyl 0 op gd body) x y = .ok i) : ReadsBack i := by
  intro ss st slot x y hw hs hst
  obtain rfl : [headSyl 0 op gd body] = ss := Option.some.inj (he.symm.trans hs)
  refine (decodeOp_headSyl_common (hg ▸ hw) (by decide) ho hb ?_).trans (hd st _ _)
  cases st <;> simp_all [Instr.standsIn, misplaced]

/-- A wide form of the common map (R122). -/
theorem readsBack_of_wide (he : encodeOp i = some (headSyl len op gd body :: tl)) (hp : i.place = .wide)
    (hg : i.wf = gd.wf) (hl : len < 3) (ho : op < 0x30) (hb : body < 2 ^ 18)
    (hd : ∀ st x y, decodeCommon st len op (headSyl len op gd body) (tl.getD 0 x) (tl.getD 1 y) = .ok i) : ReadsBack i := by
  intro ss st slot x y hw hs hst
  obtain rfl : headSyl len op gd body :: tl = ss := Option.some.inj (he.symm.trans hs)
  refine (decodeOp_headSyl_common (hg ▸ hw) hl ho hb ?_).trans (hd st x y)
  cases st <;> simp_all [Instr.standsIn, misplaced]

/-- An operation of the L stream. -/
theorem readsBack_of_l (he : encodeOp i = some (headSyl len op gd body :: tl)) (hp : i.place = .l)
    (hg : i.wf = true → gd.wf = true) (hl : len < 3) (ho : 0x30 ≤ op ∧ op < 128) (hb : body < 2 ^ 18)
    (hd : i.wf = true → ∀ x y, decodeL len op (headSyl len op gd body) (tl.getD 0 x) (tl.getD 1 y) = .ok i) :
    ReadsBack i := by
  refine readsBack_of_specific he hg hl ho hb fun hw st slot x y hst => ?_
  obtain rfl : st = .l := by cases st <;> simp_all [Instr.standsIn]
  exact hd hw x y

/-- An operation of the S stream. -/
theorem readsBack_of_s (he : encodeOp i = some (headSyl len op gd body :: tl)) (hp : i.place = .s)
    (hg : i.wf = true → gd.wf = true) (hl : len < 3) (ho : 0x30 ≤ op ∧ op < 128) (hb : body < 2 ^ 18)
    (hd : i.wf = true → ∀ x y, decodeS len op (headSyl len op gd body) (tl.getD 0 x) (tl.getD 1 y) = .ok i) :
    ReadsBack i := by
  refine readsBack_of_specific he hg hl ho hb fun hw st slot x y hst => ?_
  obtain rfl : st = .s := by cases st <;> simp_all [Instr.standsIn]
  exact hd hw x y

/-- An operation of slot 0 with a C-stream major. -/
theorem readsBack_of_c0 (he : encodeOp i = one op gd body) (hp : i.place = .c0) (hg : i.wf = true → gd.wf = true)
    (ho : 0x30 ≤ op ∧ op < 0x70) (hb : body < 2 ^ 18)
    (hd : i.wf = true → decodeSlot0 op (headSyl 0 op gd body) = .ok i) : ReadsBack i := by
  refine readsBack_of_specific he hg (by decide) (by omega) hb fun hw st slot x y hst => ?_
  obtain ⟨rfl, rfl⟩ : st = .c ∧ slot = 0 := by cases st <;> simp_all [Instr.standsIn]
  rw [decodeSpecific, decodeC, if_neg (by simp), if_neg (by omega), if_neg (by omega), if_pos rfl]
  exact hd hw

/-- A vector operation of slot 1 or 2. -/
theorem readsBack_of_c12 (he : encodeOp i = one op gd body) (hp : i.place = .c12) (hg : i.wf = true → gd.wf = true)
    (ho : 0x30 ≤ op ∧ op ≤ 0x61 ∧ isJoined op = false) (hb : body < 2 ^ 18)
    (hd : i.wf = true → decodeVector op (headSyl 0 op gd body) = .ok i) : ReadsBack i := by
  obtain ⟨h30, h61, hj⟩ := ho
  refine readsBack_of_specific he hg (by decide) (by omega) hb fun hw st slot x y hst => ?_
  obtain ⟨rfl, hslot⟩ : st = .c ∧ slot ≠ 0 := by cases st <;> simp_all [Instr.standsIn]; omega
  rw [decodeSpecific, decodeC, if_neg (by simp), if_neg (by omega), if_neg (by omega), if_neg hslot, hj,
    if_neg Bool.false_ne_true, if_pos h61]
  exact hd hw

/-- A joined operation, in slots 1 and 2. -/
theorem readsBack_of_joined {ext : Nat} (he : encodeOp i = some [headSyl 0 op gd body, ext]) (hp : i.place = .joined)
    (hg : i.wf = true → gd.wf = true) (ho : 0x30 ≤ op ∧ op < 0x70 ∧ isJoined op = true) (hb : body < 2 ^ 18)
    (hd : i.wf = true → decodeJoined op (headSyl 0 op gd body) ext = .ok i) : ReadsBack i := by
  obtain ⟨h30, h70, hj⟩ := ho
  refine readsBack_of_specific he hg (by decide) (by omega) hb fun hw st slot x y hst => ?_
  obtain ⟨rfl, rfl⟩ : st = .c ∧ slot = 1 := by cases st <;> simp_all [Instr.standsIn]
  rw [decodeSpecific, decodeC, if_neg (by simp), if_neg (by omega), if_neg (by omega), if_neg (by decide), hj, if_pos rfl,
    if_pos rfl]
  exact hd hw

/-- An operation of slot 2 alone. -/
theorem readsBack_of_c2 (he : encodeOp i = one op gd body) (hp : i.place = .c2) (hg : i.wf = true → gd.wf = true)
    (ho : 0x61 < op ∧ op < 0x70) (hb : body < 2 ^ 18)
    (hd : i.wf = true → decodeSlot2 op (headSyl 0 op gd body) = .ok i) : ReadsBack i := by
  refine readsBack_of_specific he hg (by decide) (by omega) hb fun hw st slot x y hst => ?_
  obtain ⟨rfl, rfl⟩ : st = .c ∧ slot = 2 := by cases st <;> simp_all [Instr.standsIn]
  have hj : isJoined op = false := by simp [isJoined]; omega
  rw [decodeSpecific, decodeC, if_neg (by simp), if_neg (by omega), if_neg (by omega), if_neg (by decide), hj,
    if_neg Bool.false_ne_true, if_neg (by omega), if_pos rfl]
  exact hd hw

end Places

/-! ## Codes of fields -/

@[simp] theorem scopeOf_scopeCode (sc : Scope) : scopeOf (scopeCode sc) = some sc := by cases sc <;> rfl

theorem scopeCode_lt (sc : Scope) : scopeCode sc < 8 := by cases sc <;> decide

@[simp] theorem intTyOf_intTyCode (ty : IntTy) : intTyOf (intTyCode ty) = some ty := by cases ty <;> rfl

theorem intTyCode_lt (ty : IntTy) : intTyCode ty < 8 := by cases ty <;> decide

@[simp] theorem fpTyOf_fpTyCode (ty : FpTy) : fpTyOf (fpTyCode ty) = some ty := by cases ty <;> rfl

theorem fpTyCode_lt (ty : FpTy) : fpTyCode ty < 8 := by cases ty <;> decide

@[simp] theorem redOpOf_redOpCode (op : RedOp) : redOpOf (redOpCode op) = some op := by cases op <;> rfl

@[simp] theorem condOf_condCode (cc : Cond) : condOf (condCode cc) = cc := by cases cc <;> rfl

theorem condCode_lt (cc : Cond) : condCode cc < 8 := by cases cc <;> decide

/-! ## Wide immediates (R122) -/

theorem Wide.len_lt (v : Wide) : v.len < 3 := by cases v <;> simp [Wide.len]

@[simp] theorem Wide.len_ne_zero (v : Wide) : v.len ≠ 0 := by cases v <;> simp [Wide.len]

/-- A wide immediate is read back from its syllables. -/
@[simp] theorem wideOf_syls (v : Wide) (x y : Nat) :
    wideOf v.len (v.syls[0]?.getD x) (v.syls[1]?.getD y) = v := by
  cases v with
  | i32 v => simp [wideOf, Wide.len, Wide.syls]
  | i64 v =>
    have h := v.isLt
    refine (if_neg (by simp [Wide.len])).trans (congrArg Wide.i64 (BitVec.eq_of_toNat_eq ?_))
    simp only [Wide.syls, List.getElem?_cons_zero, List.getElem?_cons_succ, Option.getD_some, BitVec.toNat_ofNat]
    omega

/-! ## The common map (R121, R122, R134) -/

section Common

variable {len op : Nat} (gd : Guard) (d a : BitVec 5)

theorem srcBBits_reg (b : BitVec 5) : srcBBits (.reg b) = b.toNat * 2 ^ 2 := rfl

theorem srcBBits_imm (i : BitVec 7) : srcBBits (.imm i) = 2 ^ 7 + i.toNat := rfl

theorem srcCBits_reg (b : BitVec 5) : srcCBits (.reg b) = b.toNat := rfl

theorem srcCBits_imm (i : BitVec 5) : srcCBits (.imm i) = 2 ^ 5 + i.toNat := rfl

theorem srcBBits_lt (b : SrcB) : srcBBits b < 2 ^ 8 := by cases b <;> simp only [srcBBits] <;> omega

theorem saBits_lt {low : Nat} (h : low < 2 ^ 8) : saBits d a low < 2 ^ 18 := by
  simp only [saBits]; omega

/-- Format SA without a wide form. -/
theorem decSA_saBits (f : Guard → BitVec 5 → BitVec 5 → SrcB → Instr) (b : SrcB) :
    decSA 0 (headSyl 0 op gd (saBits d a (srcBBits b))) f = .ok (f gd d a b) := by
  have hb := srcBBits_lt b
  have hs : srcBOf (headSyl 0 op gd (saBits d a (srcBBits b))) = some b := by
    cases b <;> simp (disch := omega) [-Nat.reducePow, srcBOf, saBits, srcBBits_reg, srcBBits_imm, Nat.add_assoc]
  rw [decSA, if_pos rfl, hs]
  simp (disch := omega) [-Nat.reducePow, saBits, Nat.add_assoc]

/-- Format SA of an operation that has a wide form, without it. -/
theorem decSAW_saBits (f : Guard → BitVec 5 → BitVec 5 → SrcB → Instr) (g : Guard → BitVec 5 → BitVec 5 → Wide → Instr)
    (b : SrcB) (x y : Nat) : decSAW 0 (headSyl 0 op gd (saBits d a (srcBBits b))) x y f g = .ok (f gd d a b) := by
  rw [decSAW, if_pos rfl, decSA_saBits]

/-- The wide form of format SA. -/
theorem decSAW_wide (f : Guard → BitVec 5 → BitVec 5 → SrcB → Instr) (g : Guard → BitVec 5 → BitVec 5 → Wide → Instr)
    (v : Wide) (x y : Nat) :
    decSAW v.len (headSyl v.len op gd (saBits d a 128)) (v.syls.getD 0 x) (v.syls.getD 1 y) f g = .ok (g gd d a v) := by
  rw [decSAW, if_neg v.len_ne_zero]
  simp (disch := omega) [-Nat.reducePow, need, saBits, Nat.add_assoc]

/-- Format SA of an operation that reads A only. -/
theorem decSA1_saBits (f : Guard → BitVec 5 → BitVec 5 → Instr) :
    decSA1 0 (headSyl 0 op gd (saBits d a 0)) f = .ok (f gd d a) := by
  simp (disch := omega) [-Nat.reducePow, decSA1, need, saBits]

theorem readsBack_of_sa {f : Guard → BitVec 5 → BitVec 5 → SrcB → Instr} (b : SrcB)
    (he : encodeOp (f gd d a b) = one op gd (saBits d a (srcBBits b))) (hp : (f gd d a b).place = .common)
    (hg : (f gd d a b).wf = gd.wf) (ho : op < 0x30)
    (hd : ∀ st s x y, decodeCommon st 0 op s x y = decSA 0 s f) : ReadsBack (f gd d a b) :=
  readsBack_of_common he hp hg ho (saBits_lt d a (srcBBits_lt b)) fun _ _ _ => (hd _ _ _ _).trans (decSA_saBits gd d a f b)

theorem readsBack_of_saw {f : Guard → BitVec 5 → BitVec 5 → SrcB → Instr}
    {g : Guard → BitVec 5 → BitVec 5 → Wide → Instr} (b : SrcB)
    (he : encodeOp (f gd d a b) = one op gd (saBits d a (srcBBits b))) (hp : (f gd d a b).place = .common)
    (hg : (f gd d a b).wf = gd.wf) (ho : op < 0x30)
    (hd : ∀ st s x y, decodeCommon st 0 op s x y = decSAW 0 s x y f g) : ReadsBack (f gd d a b) :=
  readsBack_of_common he hp hg ho (saBits_lt d a (srcBBits_lt b)) fun _ x y =>
    (hd _ _ _ _).trans (decSAW_saBits gd d a f g b x y)

theorem readsBack_of_saw_wide {f : Guard → BitVec 5 → BitVec 5 → SrcB → Instr}
    {g : Guard → BitVec 5 → BitVec 5 → Wide → Instr} (v : Wide)
    (he : encodeOp (g gd d a v) = withWide op gd (saBits d a 128) v) (hp : (g gd d a v).place = .wide)
    (hg : (g gd d a v).wf = gd.wf) (ho : op < 0x30)
    (hd : ∀ st len s x y, decodeCommon st len op s x y = decSAW len s x y f g) : ReadsBack (g gd d a v) :=
  readsBack_of_wide he hp hg v.len_lt ho (saBits_lt d a (by decide)) fun _ x y =>
    (hd _ _ _ _ _).trans (decSAW_wide gd d a f g v x y)

theorem readsBack_of_sa1 {f : Guard → BitVec 5 → BitVec 5 → Instr}
    (he : encodeOp (f gd d a) = one op gd (saBits d a 0)) (hp : (f gd d a).place = .common)
    (hg : (f gd d a).wf = gd.wf) (ho : op < 0x30)
    (hd : ∀ st s x y, decodeCommon st 0 op s x y = decSA1 0 s f) : ReadsBack (f gd d a) :=
  readsBack_of_common he hp hg ho (saBits_lt d a (by decide)) fun _ _ _ => (hd _ _ _ _).trans (decSA1_saBits gd d a f)

/-- Each operation of the common map with one syllable. -/
theorem readsBack_of_place_common (i : Instr) (hp : i.place = .common) : ReadsBack i := by
  cases i with
  | mulh gd d a b | mulhN gd d a b | shl gd d a b | shr gd d a b | sar gd d a b | rot gd d a b =>
    exact readsBack_of_sa gd d a b rfl rfl rfl (by decide) fun _ _ _ _ => rfl
  | add gd d a b | sub gd d a b | mul gd d a b | and gd d a b | andn gd d a b | or gd d a b | xor gd d a b | min gd d a b
  | minN gd d a b | max gd d a b | maxN gd d a b =>
    exact readsBack_of_saw gd d a b rfl rfl rfl (by decide) fun _ _ _ _ => rfl
  | mov gd d a | clz gd d a | popc gd d a =>
    exact readsBack_of_sa1 gd d a rfl rfl rfl (by decide) fun _ _ _ _ => rfl
  | movi gd d n | movhi gd d n | addi gd d n | loop gd d n | rdsr gd d n | wrsr gd d n =>
    refine readsBack_of_common rfl rfl rfl (by decide) (by omega) fun _ _ _ => ?_
    simp (disch := omega) [-Nat.reducePow, decodeCommon, dec1, need]
  | cmp gd pd cc a b =>
    have hc := condCode_lt cc
    have hb : srcCBits b < 2 ^ 6 := by cases b <;> simp only [srcCBits] <;> omega
    refine readsBack_of_common rfl rfl rfl (by decide) (by omega) fun _ _ _ => ?_
    cases b <;> simp (disch := omega) [-Nat.reducePow, decodeCommon, srcCOf, srcCBits_reg, srcCBits_imm, Nat.add_assoc]
  | sel gd d a b ps =>
    refine readsBack_of_common rfl rfl rfl (by decide) (by omega) fun _ _ _ => ?_
    simp (disch := omega) [-Nat.reducePow, decodeCommon, dec1, need, Nat.add_assoc]
  | br gd off | jmp gd off | call gd off =>
    refine readsBack_of_common rfl rfl rfl (by decide) (by omega) fun _ _ _ => ?_
    simp (disch := omega) [-Nat.reducePow, decodeCommon, decSJ, dec1, need]
  | jmpReg gd a | callReg gd a =>
    refine readsBack_of_common rfl rfl rfl (by decide) (by omega) fun _ _ _ => ?_
    simp (disch := omega) [-Nat.reducePow, decodeCommon, decSJ, need]
  | trap gd code =>
    refine readsBack_of_common rfl rfl rfl (by decide) (by omega) fun _ _ _ => ?_
    simp (disch := omega) [-Nat.reducePow, decodeCommon, dec1, need]
  | ret gd | fin gd =>
    refine readsBack_of_common rfl rfl rfl (by decide) (by decide) fun _ _ _ => ?_
    simp (disch := omega) [-Nat.reducePow, decodeCommon, dec1, need]
  | _ => cases hp

/-- Each wide form of the common map. -/
theorem readsBack_of_place_wide (i : Instr) (hp : i.place = .wide) : ReadsBack i := by
  cases i with
  | addWide gd d a v | subWide gd d a v | mulWide gd d a v | andWide gd d a v | andnWide gd d a v | orWide gd d a v
  | xorWide gd d a v | minWide gd d a v | minNWide gd d a v | maxWide gd d a v | maxNWide gd d a v =>
    exact readsBack_of_saw_wide gd d a v rfl rfl rfl (by decide) fun _ _ _ _ _ => rfl
  | moviWide gd d v | addiWide gd d v =>
    refine readsBack_of_wide rfl rfl rfl v.len_lt (by decide) (by omega) fun _ _ _ => ?_
    simp (disch := omega) [-Nat.reducePow, decodeCommon, need]
  | movhiWide gd d v =>
    refine readsBack_of_wide (len := 1) rfl rfl rfl (by decide) (by decide) (by omega) fun _ _ _ => ?_
    simp (disch := omega) [-Nat.reducePow, decodeCommon, need, List.getElem?_cons_zero]
  | cmpWide gd pd cc a v =>
    have hc := condCode_lt cc
    refine readsBack_of_wide rfl rfl rfl v.len_lt (by decide) (by omega) fun _ _ _ => ?_
    simp (disch := omega) [-Nat.reducePow, decodeCommon, need, Nat.add_assoc]
  | _ => cases hp

end Common

/-! ## The L-stream map (R135, R158 to R173) -/

section LStream

variable {len op : Nat} {gd : Guard} (a : BitVec 5)

/-- A sign-extended datum has fewer than eight bytes (R159). -/
theorem sz_ne_three {sz : BitVec 2} {sx : Bool} (h : (!(sx && sz == 3)) = true) : sx = true → ¬sz.toNat = 3 := by
  rintro rfl
  simpa [← BitVec.toNat_inj] using h

/-- The body of an LDL into a register, in the order of its bits. -/
theorem ldlFormBits_reg (d : BitVec 5) (sz : BitVec 2) (sx : Bool) : ldlFormBits (.reg d sz sx) + a.toNat * 2 ^ 8 =
    d.toNat * 2 ^ 13 + (a.toNat * 2 ^ 8 + (sz.toNat * 2 ^ 5 + flagBit sx * 2 ^ 4)) := by
  simp only [ldlFormBits]; ring

/-- The body of an LDL into a queue, in the order of its bits. -/
theorem ldlFormBits_queue (q : BitVec 3) (e : BitVec 5) : ldlFormBits (.queue q e) + a.toNat * 2 ^ 8 =
    q.toNat * 2 ^ 15 + (a.toNat * 2 ^ 8 + (2 ^ 7 + e.toNat * 2 ^ 2)) := by
  simp only [ldlFormBits]; ring

theorem ldlFormBits_lt (f : LdlForm) : ldlFormBits f + a.toNat * 2 ^ 8 < 2 ^ 18 := by
  cases f with
  | reg d sz sx => have := flagBit_lt sx; rw [ldlFormBits_reg]; omega
  | queue q e => rw [ldlFormBits_queue]; omega

/-- The form of an LDL is read back, with A, where it does not sign-extend eight bytes. -/
theorem ldlFormOf_bits (f : LdlForm) (v : Wide) (hf : (Instr.ldlOffset gd f a v).wf = true) :
    ldlFormOf (headSyl len op gd (ldlFormBits f + a.toNat * 2 ^ 8)) = .ok f ∧
      syl 5 8 (headSyl len op gd (ldlFormBits f + a.toNat * 2 ^ 8)) = a := by
  cases f with
  | reg d sz sx =>
    have hx := flagBit_lt sx
    rw [ldlFormBits_reg]
    simp (disch := omega) [-Nat.reducePow, ldlFormOf]
    exact sz_ne_three (Bool.and_eq_true_iff.1 hf).2
  | queue q e =>
    rw [ldlFormBits_queue]
    simp (disch := omega) [-Nat.reducePow, ldlFormOf]

/-- Each operation of the L stream. -/
theorem readsBack_of_place_l (i : Instr) (hp : i.place = .l) : ReadsBack i := by
  cases i with
  | ldr gd | ldlay gd | lds gd | qpush gd | recv gd | stcfg gd | stadv gd | stadvSkip gd =>
    refine readsBack_of_l rfl rfl id (by decide) (by decide) (by omega) fun _ _ _ => ?_
    simp (disch := omega) [-Nat.reducePow, decodeL, dec1, need, Nat.add_assoc]
  | gath gd q b | bqpush gd _ b =>
    have hb := flagBit_lt b
    refine readsBack_of_l rfl rfl id (by decide) (by decide) (by omega) fun _ _ _ => ?_
    simp (disch := omega) [-Nat.reducePow, decodeL, dec1, need, Nat.add_assoc]
  | fenceLayout gd =>
    refine readsBack_of_l rfl rfl id (by decide) (by decide) (by decide) fun _ _ _ => ?_
    simp (disch := omega) [-Nat.reducePow, decodeL, dec1, need]
  | ldrOffset gd _ _ _ v | stcfgOffset gd _ _ v | ldlayOffset gd _ _ _ v =>
    refine readsBack_of_l rfl rfl id v.len_lt (by decide) (by omega) fun _ _ _ => ?_
    simp (disch := omega) [-Nat.reducePow, decodeL, Nat.add_assoc]
  | recvTry gd q h e pd =>
    refine readsBack_of_l (len := 1) rfl rfl id (by decide) (by decide) (by omega) fun _ _ _ => ?_
    simp (disch := omega) [-Nat.reducePow, decodeL, need, Nat.add_assoc, List.getElem?_cons_zero]
  | ld gd d a sz sx =>
    have hx := flagBit_lt sx
    refine readsBack_of_l rfl rfl Bool.and_elim_left (by decide) (by decide) (by omega) fun hw _ _ => ?_
    simpa (disch := omega) [-Nat.reducePow, decodeL, Nat.add_assoc] using sz_ne_three (Bool.and_eq_true_iff.1 hw).2
  | ldOffset gd d a sz sx v =>
    have hx := flagBit_lt sx
    refine readsBack_of_l rfl rfl Bool.and_elim_left v.len_lt (by decide) (by omega) fun hw _ _ => ?_
    simpa (disch := omega) [-Nat.reducePow, decodeL, Nat.add_assoc] using sz_ne_three (Bool.and_eq_true_iff.1 hw).2
  | ldl gd d a sz sx =>
    refine readsBack_of_l rfl rfl Bool.and_elim_left (by decide) (by decide) (ldlFormBits_lt a _) fun hw _ _ => ?_
    obtain ⟨hf, ha⟩ := ldlFormOf_bits (len := 0) (op := 0x31) a (.reg d sz sx) (.i32 0) hw
    simp only [decodeL, hf, ha, guardOf_headSyl (ldlFormBits_lt a _), if_true]
  | ldlQ gd q a e =>
    refine readsBack_of_l rfl rfl id (by decide) (by decide) (ldlFormBits_lt a _) fun hw _ _ => ?_
    obtain ⟨hf, ha⟩ := ldlFormOf_bits (len := 0) (op := 0x31) a (.queue q e) (.i32 0) hw
    simp only [decodeL, hf, ha, guardOf_headSyl (ldlFormBits_lt a _), if_true]
  | ldlOffset gd f a v =>
    have hg : (Instr.ldlOffset gd f a v).wf = true → gd.wf = true := by
      cases f with
      | reg => exact Bool.and_elim_left
      | queue => exact id
    refine readsBack_of_l rfl rfl hg v.len_lt (by decide) (ldlFormBits_lt a f) fun hw _ _ => ?_
    obtain ⟨hf, ha⟩ := ldlFormOf_bits (len := v.len) (op := 0x31) a f v hw
    simp only [decodeL, hf, ha, guardOf_headSyl (ldlFormBits_lt a _), if_neg v.len_ne_zero]
    simp
  | gathN gd q sp esz a b n =>
    have hx := flagBit_lt sp
    refine readsBack_of_l (len := 1) rfl rfl Bool.and_elim_left (by decide) (by decide) (by omega) fun hw _ _ => ?_
    have hn : (n.toNat + 1) * 2 ^ esz.toNat ≤ 256 := of_decide_eq_true (Bool.and_eq_true_iff.1 hw).2
    simpa (disch := omega) [-Nat.reducePow, decodeL, need, Nat.add_assoc, List.getElem?_cons_zero,
      Nat.mod_eq_of_lt n.isLt] using hn
  | stadvImm gd st skip b imm =>
    have hx := flagBit_lt skip
    refine readsBack_of_l (len := 1) rfl rfl Bool.and_elim_left (by decide) (by decide) (by omega) fun hw _ _ => ?_
    simp (disch := omega) [-Nat.reducePow, decodeL, need, Nat.add_assoc, List.getElem?_cons_zero,
      zeros_eq_syl (lo := 3) (len := 5)]
    exact fun hs => by simpa [hs] using (Bool.and_eq_true_iff.1 hw).2
  | pref gd lvl a n =>
    refine readsBack_of_l rfl rfl Bool.and_elim_left (by decide) (by decide) (by omega) fun hw _ _ => ?_
    have hl : lvl.toNat < 2 := of_decide_eq_true (Bool.and_eq_true_iff.1 hw).2
    simp (disch := omega) [-Nat.reducePow, decodeL, Nat.add_assoc]
  | prefOffset gd lvl a n v =>
    refine readsBack_of_l rfl rfl Bool.and_elim_left v.len_lt (by decide) (by omega) fun hw _ _ => ?_
    have hl : lvl.toNat < 2 := of_decide_eq_true (Bool.and_eq_true_iff.1 hw).2
    simp (disch := omega) [-Nat.reducePow, decodeL, Nat.add_assoc]
  | _ => cases hp

end LStream
/-! ## The S-stream map (R136, R212 to R232) -/

section SStream

variable {len op : Nat} {gd : Guard} (a : BitVec 5)

/-- The body of a store from a register, in the order of its bits. -/
theorem stFormBits_reg (b : BitVec 5) (sz : BitVec 2) : stFormBits (.reg b sz) + a.toNat * 2 ^ 8 =
    b.toNat * 2 ^ 13 + (a.toNat * 2 ^ 8 + sz.toNat * 2 ^ 5) := by
  simp only [stFormBits]; ring

/-- The body of a store from a queue, in the order of its bits. -/
theorem stFormBits_queue (q : BitVec 3) (e : BitVec 5) : stFormBits (.queue q e) + a.toNat * 2 ^ 8 =
    q.toNat * 2 ^ 15 + (a.toNat * 2 ^ 8 + (2 ^ 7 + e.toNat * 2 ^ 2)) := by
  simp only [stFormBits]; ring

theorem stFormBits_lt (f : StForm) : stFormBits f + a.toNat * 2 ^ 8 < 2 ^ 18 := by
  cases f with
  | reg b sz => rw [stFormBits_reg]; omega
  | queue q e => rw [stFormBits_queue]; omega

/-- The form of a store is read back, with A. -/
theorem stFormOf_bits (f : StForm) : stFormOf (headSyl len op gd (stFormBits f + a.toNat * 2 ^ 8)) = .ok f ∧
    syl 5 8 (headSyl len op gd (stFormBits f + a.toNat * 2 ^ 8)) = a := by
  cases f with
  | reg b sz =>
    rw [stFormBits_reg]
    simp (disch := omega) [-Nat.reducePow, stFormOf]
  | queue q e =>
    rw [stFormBits_queue]
    simp (disch := omega) [-Nat.reducePow, stFormOf]

/-- A barrier operand's bits in the order of their places. -/
theorem barBits_shift (b : BarOp) : barBits b * 2 ^ 10 = scopeCode b.scope * 2 ^ 15 + b.n.toNat * 2 ^ 10 := by
  simp only [barBits]; ring

/-- A barrier operand is read back, whatever stands below it. -/
theorem barOf_bits (b : BarOp) {low : Nat} (h : low < 2 ^ 10) :
    barOf (headSyl len op gd (barBits b * 2 ^ 10 + low)) = some b := by
  have hlt := scopeCode_lt b.scope
  have hc : headSyl len op gd (barBits b * 2 ^ 10 + low) / 2 ^ 15 % 8 = scopeCode b.scope := by
    rw [code_headSyl (by decide), barBits_shift, Nat.add_assoc, code_this (by omega) hlt]
  have hn : syl 5 10 (headSyl len op gd (barBits b * 2 ^ 10 + low)) = b.n := by
    rw [syl_headSyl (by decide), barBits_shift, Nat.add_assoc, syl_step (by decide), syl_this _ h]
  rw [barOf, hc, scopeOf_scopeCode, hn]

theorem barBits_lt (b : BarOp) : barBits b < 2 ^ 8 := by
  have := scopeCode_lt b.scope
  simp only [barBits]; omega

/-- A POP names a queue and registers that it may name (R215). -/
theorem pop_fields {f : BitVec 4} {d : BitVec 5}
    (h : ((f == 1 && decide (d.toNat ≤ 30)) || (f == 2 && decide (d.toNat ≤ 30)) || (f == 3 && decide (d.toNat ≤ 28))) = true) :
    (f.toNat = 1 → 30 < d.toNat) → (f.toNat = 2 → 30 < d.toNat) → f.toNat = 3 ∧ d.toNat ≤ 28 := by
  simp [← BitVec.toNat_inj] at h
  omega

/-- Each operation of the S stream. -/
theorem readsBack_of_place_s (i : Instr) (hp : i.place = .s) : ReadsBack i := by
  cases i with
  | st gd b a sz =>
    refine readsBack_of_s rfl rfl id (by decide) (by decide) (stFormBits_lt a _) fun _ _ _ => ?_
    obtain ⟨hf, ha⟩ := stFormOf_bits (len := 0) (op := 0x30) (gd := gd) a (.reg b sz)
    simp only [decodeS, hf, ha, guardOf_headSyl (stFormBits_lt a _), if_true]
  | stl gd b a sz =>
    refine readsBack_of_s rfl rfl id (by decide) (by decide) (stFormBits_lt a _) fun _ _ _ => ?_
    obtain ⟨hf, ha⟩ := stFormOf_bits (len := 0) (op := 0x31) (gd := gd) a (.reg b sz)
    simp only [decodeS, hf, ha, guardOf_headSyl (stFormBits_lt a _), if_true]
  | stQ gd q a e =>
    refine readsBack_of_s rfl rfl id (by decide) (by decide) (stFormBits_lt a _) fun _ _ _ => ?_
    obtain ⟨hf, ha⟩ := stFormOf_bits (len := 0) (op := 0x30) (gd := gd) a (.queue q e)
    simp only [decodeS, hf, ha, guardOf_headSyl (stFormBits_lt a _), if_true]
  | stlQ gd q a e =>
    refine readsBack_of_s rfl rfl id (by decide) (by decide) (stFormBits_lt a _) fun _ _ _ => ?_
    obtain ⟨hf, ha⟩ := stFormOf_bits (len := 0) (op := 0x31) (gd := gd) a (.queue q e)
    simp only [decodeS, hf, ha, guardOf_headSyl (stFormBits_lt a _), if_true]
  | stOffset gd f a v =>
    refine readsBack_of_s rfl rfl id v.len_lt (by decide) (stFormBits_lt a f) fun _ _ _ => ?_
    obtain ⟨hf, ha⟩ := stFormOf_bits (len := v.len) (op := 0x30) (gd := gd) a f
    simp only [decodeS, hf, ha, guardOf_headSyl (stFormBits_lt a _), if_neg v.len_ne_zero]
    simp
  | stlOffset gd f a v =>
    refine readsBack_of_s rfl rfl id v.len_lt (by decide) (stFormBits_lt a f) fun _ _ _ => ?_
    obtain ⟨hf, ha⟩ := stFormOf_bits (len := v.len) (op := 0x31) (gd := gd) a f
    simp only [decodeS, hf, ha, guardOf_headSyl (stFormBits_lt a _), if_neg v.len_ne_zero]
    simp
  | str gd | rgx gd | waita gd | waitaNb gd | send gd =>
    refine readsBack_of_s rfl rfl id (by decide) (by decide) (by omega) fun _ _ _ => ?_
    simp (disch := omega) [-Nat.reducePow, decodeS, Nat.add_assoc]
  | strOffset gd q a f e off sc =>
    cases sc with
    | none =>
      refine readsBack_of_s (len := 1) rfl rfl Bool.and_elim_left (by decide) (by decide) (by omega) fun _ _ _ => ?_
      simp (disch := omega) [-Nat.reducePow, decodeS, Nat.add_assoc, List.getElem?_cons_zero]
    | some sc =>
      have hc := scopeCode_lt sc
      refine readsBack_of_s (len := 2) rfl rfl Bool.and_elim_left (by decide) (by decide) (by omega) fun hw _ _ => ?_
      have hf : f ≠ 0 := by simpa using (Bool.and_eq_true_iff.1 hw).2
      simp (disch := omega) [-Nat.reducePow, decodeS, need, Nat.add_assoc, List.getElem?_cons_zero,
        zeros_eq_syl (lo := 5) (len := 5), Nat.mod_eq_of_lt]
      exact hf
  | pushReg gd sc b =>
    have hc := scopeCode_lt sc
    refine readsBack_of_s rfl rfl Bool.and_elim_left (by decide) (by decide) (by omega) fun hw _ _ => ?_
    have hb : b.toNat % 8 = 0 := by simpa using (Bool.and_eq_true_iff.1 hw).2
    simp (disch := omega) [-Nat.reducePow, decodeS, dec1, need]
  | pushSq gd sc q =>
    have hc := scopeCode_lt sc
    refine readsBack_of_s rfl rfl id (by decide) (by decide) (by omega) fun _ _ _ => ?_
    simp (disch := omega) [-Nat.reducePow, decodeS, dec1, need, Nat.add_assoc]
  | pop gd f d =>
    refine readsBack_of_s rfl rfl Bool.and_elim_left (by decide) (by decide) (by omega) fun hw _ _ => ?_
    have hd : d.toNat % 32 = d.toNat := Nat.mod_eq_of_lt d.isLt
    simp (disch := omega) [-Nat.reducePow, decodeS, dec1, need, hd]
    exact pop_fields (Bool.and_eq_true_iff.1 hw).2
  | popTry gd f d pd =>
    refine readsBack_of_s rfl rfl Bool.and_elim_left (by decide) (by decide) (by omega) fun hw _ _ => ?_
    simp (disch := omega) [-Nat.reducePow, decodeS, dec1, need, Nat.add_assoc]
    exact pop_fields (Bool.and_eq_true_iff.1 hw).2
  | rgxImm gd d a exp new =>
    refine readsBack_of_s (len := 1) rfl rfl id (by decide) (by decide) (by omega) fun _ _ _ => ?_
    simp (disch := omega) [-Nat.reducePow, decodeS, need, List.getElem?_cons_zero]
  | sendTry gd q h e pd =>
    refine readsBack_of_s (len := 1) rfl rfl id (by decide) (by decide) (by omega) fun _ _ _ => ?_
    simp (disch := omega) [-Nat.reducePow, decodeS, need, Nat.add_assoc, List.getElem?_cons_zero]
  | fence gd sc =>
    have hc := scopeCode_lt sc
    refine readsBack_of_s rfl rfl id (by decide) (by decide) (by omega) fun _ _ _ => ?_
    simp (disch := omega) [-Nat.reducePow, decodeS, dec1, need, Nat.mod_eq_of_lt]
  | waitaOffset gd nb a b v =>
    have hx := flagBit_lt nb
    refine readsBack_of_s rfl rfl id v.len_lt (by decide) (by omega) fun _ _ _ => ?_
    simp (disch := omega) [-Nat.reducePow, decodeS, Nat.add_assoc]
  | barArrive gd bar =>
    have hlt := barBits_lt bar
    refine readsBack_of_s rfl rfl id (by decide) (by decide) (by omega) fun _ _ _ => ?_
    have hb := barOf_bits (len := 0) (op := 0x38) (gd := gd) bar (low := 0) (by decide)
    rw [Nat.add_zero] at hb
    simp only [decodeS, hb]
    simp (disch := omega) [-Nat.reducePow, dec1, need]
  | barWait gd bar d =>
    have hlt := barBits_lt bar
    refine readsBack_of_s rfl rfl id (by decide) (by decide) (by omega) fun _ _ _ => ?_
    simp only [decodeS, barOf_bits bar (low := d.toNat * 2 ^ 5) (by omega)]
    simp (disch := omega) [-Nat.reducePow, dec1, need]
  | barArwt gd bar d =>
    have hlt := barBits_lt bar
    refine readsBack_of_s rfl rfl id (by decide) (by decide) (by omega) fun _ _ _ => ?_
    simp only [decodeS, barOf_bits bar (low := d.toNat * 2 ^ 5) (by omega)]
    simp (disch := omega) [-Nat.reducePow, dec1, need]
  | trig gd =>
    refine readsBack_of_s rfl rfl id (by decide) (by decide) (by decide) fun _ _ _ => ?_
    simp (disch := omega) [-Nat.reducePow, decodeS, dec1, need]
  | _ => cases hp

end SStream
/-! ## The C-stream map (R124, R125, R137) -/

section CStream

variable {i : Instr} {op ty s : Nat} {gd : Guard} {d a b c : BitVec 5}

/-- A syllable with these fields of format V (R124). -/
structure VFields (s : Nat) (gd : Guard) (d a b : BitVec 5) (ty : Nat) : Prop where
  guard : guardOf s = gd
  d : syl 5 13 s = d
  a : syl 5 8 s = a
  b : syl 5 3 s = b
  ty : s % 8 = ty

theorem vBits_lt (h : ty < 8) : vBits d a b ty < 2 ^ 18 := by
  simp only [vBits]; omega

/-- The encoder writes the fields of format V. -/
theorem vFields_headSyl (h : ty < 8) : VFields (headSyl 0 op gd (vBits d a b ty)) gd d a b ty := by
  refine ⟨guardOf_headSyl (vBits_lt h), ?_, ?_, ?_, ?_⟩ <;>
    simp (disch := omega) [-Nat.reducePow, vBits, Nat.add_assoc, Nat.mod_eq_of_lt]

/-- An operation of format V reads back where the map of the vector operations reads its fields as it. -/
theorem readsBack_of_vFields (he : encodeOp i = one op gd (vBits d a b ty)) (hty : ty < 8) (hp : i.place = .c12)
    (hg : i.wf = true → gd.wf = true) (ho : 0x30 ≤ op ∧ op ≤ 0x61 ∧ isJoined op = false)
    (hd : i.wf = true → ∀ s, VFields s gd d a b ty → decodeVector op s = .ok i) : ReadsBack i :=
  readsBack_of_c12 he hp hg ho (vBits_lt hty) fun hw => hd hw _ (vFields_headSyl hty)

theorem decV_of_fields {f : Guard → BitVec 5 → BitVec 5 → BitVec 5 → IntTy → Instr} {ty : IntTy}
    (h : VFields s gd d a b (intTyCode ty)) : decV s f = .ok (f gd d a b ty) := by
  simp only [decV, h.guard, h.d, h.a, h.b, h.ty, intTyOf_intTyCode]

theorem decV1_of_fields {f : Guard → BitVec 5 → BitVec 5 → IntTy → Instr} {ty : IntTy}
    (h : VFields s gd d a 0 (intTyCode ty)) : decV1 s f = .ok (f gd d a ty) := by
  simp [decV1, need, zeros_eq_syl, h.guard, h.d, h.a, h.b, h.ty]

theorem decF_of_fields {f : Guard → BitVec 5 → BitVec 5 → BitVec 5 → FpTy → Instr} {ty : FpTy}
    (h : VFields s gd d a b (fpTyCode ty)) : decF s f = .ok (f gd d a b ty) := by
  simp only [decF, h.guard, h.d, h.a, h.b, h.ty, fpTyOf_fpTyCode]

theorem decF1_of_fields {f : Guard → BitVec 5 → BitVec 5 → FpTy → Instr} {ty : FpTy}
    (h : VFields s gd d a 0 (fpTyCode ty)) : decF1 s f = .ok (f gd d a ty) := by
  simp [decF1, need, zeros_eq_syl, h.guard, h.d, h.a, h.b, h.ty]

theorem decB_of_fields {f : Guard → BitVec 5 → BitVec 5 → BitVec 5 → Instr} (h : VFields s gd d a b 0) :
    decB s f = .ok (f gd d a b) := by
  simp [decB, need, zeros, h.guard, h.d, h.a, h.b, h.ty]

/-- The operation of a reduction stands where B of format V does (R201). -/
def redOpB (op : RedOp) : BitVec 5 := BitVec.ofNat 5 (redOpCode op)

theorem redOpB_toNat (op : RedOp) : (redOpB op).toNat = redOpCode op := by cases op <;> rfl

theorem vBits_redOpB (op : RedOp) :
    vBits d a (redOpB op) ty = d.toNat * 2 ^ 13 + a.toNat * 2 ^ 8 + redOpCode op * 2 ^ 3 + ty := by
  rw [vBits, redOpB_toNat]

/-- B of format V as a number. -/
theorem VFields.b_toNat (h : VFields s gd d a b ty) : s / 2 ^ 3 % 32 = b.toNat := by
  rw [← h.b]
  exact (BitVec.toNat_ofNat _ 5).symm

/-- Each vector operation that is not joined. -/
theorem readsBack_of_place_c12 (i : Instr) (hp : i.place = .c12) : ReadsBack i := by
  cases i with
  | vadd gd d a b ty | vsub gd d a b ty | vmul gd d a b ty | vmulh gd d a b ty | vmad gd d a b ty | vshl gd d a b ty
  | vshr gd d a b ty | vsar gd d a b ty | vmin gd d a b ty | vmax gd d a b ty | vcmpEq gd d a b ty | vcmpNe gd d a b ty
  | vcmpLt gd d a b ty | vcmpLe gd d a b ty | vperm gd d a b ty | vcomp gd d a b ty | vredm gd d a b ty =>
    exact readsBack_of_vFields rfl (intTyCode_lt ty) rfl id (by decide) fun _ _ h => decV_of_fields h
  | vpopc gd d a ty | vclz gd d a ty =>
    exact readsBack_of_vFields rfl (intTyCode_lt ty) rfl id (by decide) fun _ _ h => decV1_of_fields h
  | fadd gd d a b ty | fsub gd d a b ty | fmul gd d a b ty | ffma gd d a b ty | fmin gd d a b ty | fmax gd d a b ty
  | fcmpEq gd d a b ty | fcmpNe gd d a b ty | fcmpLt gd d a b ty | fcmpLe gd d a b ty | fredm gd d a b ty =>
    exact readsBack_of_vFields rfl (fpTyCode_lt ty) rfl id (by decide) fun _ _ h => decF_of_fields h
  | fabs gd d a ty | fneg gd d a ty | frcp gd d a ty | frsq gd d a ty | fexp2 gd d a ty | flog2 gd d a ty =>
    exact readsBack_of_vFields rfl (fpTyCode_lt ty) rfl id (by decide) fun _ _ h => decF1_of_fields h
  | vand gd d a b | vor gd d a b | vxor gd d a b =>
    exact readsBack_of_vFields rfl (by decide) rfl id (by decide) fun _ _ h => decB_of_fields h
  | vabs gd d a ty =>
    refine readsBack_of_vFields rfl (intTyCode_lt ty) rfl Bool.and_elim_left (by decide) fun hw s h => ?_
    have h3 : intTyCode ty < 3 := by
      obtain rfl | rfl | rfl : ty = .i8 ∨ ty = .i16 ∨ ty = .i32 := by simpa [or_assoc] using (Bool.and_eq_true_iff.1 hw).2
      all_goals decide
    simp [decodeVector, need, zeros_eq_syl, h.guard, h.d, h.a, h.b, h.ty, h3]
  | vred gd d a op ty =>
    refine readsBack_of_vFields (congrArg (one 0x5C gd) (vBits_redOpB op).symm) (intTyCode_lt ty) rfl id (by decide)
      fun _ s h => ?_
    simp [-Nat.reducePow, decodeVector, h.guard, h.d, h.a, h.b_toNat, redOpB_toNat, h.ty]
  | fred gd d a op ty =>
    refine readsBack_of_vFields (congrArg (one 0x5D gd) (vBits_redOpB op).symm) (fpTyCode_lt ty) rfl Bool.and_elim_left
      (by decide) fun hw s h => ?_
    have h3 : redOpCode op < 3 := by
      obtain rfl | rfl | rfl : op = .add ∨ op = .min ∨ op = .max := by simpa [or_assoc] using (Bool.and_eq_true_iff.1 hw).2
      all_goals decide
    simp [-Nat.reducePow, decodeVector, need, h.guard, h.d, h.a, h.b_toNat, redOpB_toNat, h.ty, h3]
  | qpop gd d q =>
    refine readsBack_of_c12 rfl rfl id (by decide) (by omega) fun _ => ?_
    simp (disch := omega) [-Nat.reducePow, decodeVector, need]
  | qput gd n8 q b =>
    refine readsBack_of_c12 rfl rfl id (by decide) (by omega) fun _ => ?_
    simp (disch := omega) [-Nat.reducePow, decodeVector, need, Nat.add_assoc]
  | _ => cases hp

/-- An extension syllable with these fields (R124). -/
structure ExtFields (x : Nat) (c : BitVec 5) (k : BitVec 8) : Prop where
  ext : isExt x = true
  c : syl 5 18 x = c
  k : syl 8 10 x = k

/-- The encoder writes the fields of an extension. -/
theorem extFields_extSyl (c : BitVec 5) (k : BitVec 8) : ExtFields (extSyl c k) c k := by
  have h : extSyl c k / 2 ^ 23 = 0x7F := by simp only [extSyl]; omega
  have hz : extSyl c k / 2 ^ 0 % 2 ^ 10 = 0 := by simp only [extSyl]; omega
  refine ⟨?_, ?_, ?_⟩
  · rw [isExt, h, zeros_eq_true hz]; rfl
  · simp (disch := omega) [-Nat.reducePow, extSyl, Nat.add_assoc]
  · simp (disch := omega) [-Nat.reducePow, extSyl, Nat.add_assoc]

/-- K8 of an extension as a number. -/
theorem ExtFields.k_toNat {x : Nat} {k : BitVec 8} (h : ExtFields x c k) : x / 2 ^ 10 % 256 = k.toNat := by
  rw [← h.k]
  exact (BitVec.toNat_ofNat _ 8).symm

/-- The extension of a funnel shift holds its amount (R196). -/
theorem funnel_fields (amt : FunnelAmt) :
    isExt (0x7F * 2 ^ 23 + funnelBits amt) = true ∧ funnelOf (0x7F * 2 ^ 23 + funnelBits amt) = some amt := by
  have hlt : funnelBits amt < 2 ^ 23 := by cases amt <;> simp only [funnelBits] <;> omega
  have h : (0x7F * 2 ^ 23 + funnelBits amt) / 2 ^ 23 = 0x7F := by omega
  refine ⟨?_, ?_⟩
  · have hz : funnelBits amt % 2 ^ 10 = 0 := by cases amt <;> simp only [funnelBits] <;> omega
    simp (disch := omega) [-Nat.reducePow, isExt, h]
  · cases amt <;> simp (disch := omega) [-Nat.reducePow, funnelOf, funnelBits]

theorem decFunnel_of_fields {f : Guard → BitVec 5 → BitVec 5 → BitVec 5 → FunnelAmt → IntTy → Instr} {ty : IntTy}
    {amt : FunnelAmt} {x : Nat} (h : VFields s gd d a b (intTyCode ty)) (hx : funnelOf x = some amt) :
    decFunnel s x f = .ok (f gd d a b amt ty) := by
  simp only [decFunnel, h.guard, h.d, h.a, h.b, h.ty, hx, intTyOf_intTyCode]

/-- A joined operation reads back where the map of the joined operations reads its fields and its extension as it. -/
theorem readsBack_of_extFields {k : BitVec 8} (he : encodeOp i = some [headSyl 0 op gd (vBits d a b ty), extSyl c k])
    (hty : ty < 8) (hp : i.place = .joined) (hg : i.wf = true → gd.wf = true)
    (ho : 0x30 ≤ op ∧ op < 0x70 ∧ isJoined op = true)
    (hd : i.wf = true → ∀ s x, VFields s gd d a b ty → ExtFields x c k → decodeJoined op s x = .ok i) : ReadsBack i :=
  readsBack_of_joined he hp hg ho (vBits_lt hty) fun hw => hd hw _ _ (vFields_headSyl hty) (extFields_extSyl c k)

/-- A funnel shift reads back where the map of the joined operations reads it as one. -/
theorem readsBack_of_funnel {f : Guard → BitVec 5 → BitVec 5 → BitVec 5 → FunnelAmt → IntTy → Instr} {ty : IntTy}
    {amt : FunnelAmt} (he : encodeOp (f gd d a b amt ty) =
      some [headSyl 0 op gd (vBits d a b (intTyCode ty)), 0x7F * 2 ^ 23 + funnelBits amt])
    (hp : (f gd d a b amt ty).place = .joined) (hg : (f gd d a b amt ty).wf = true → gd.wf = true)
    (ho : 0x30 ≤ op ∧ op < 0x70 ∧ isJoined op = true)
    (hd : ∀ s x, isExt x = true → decodeJoined op s x = decFunnel s x f) : ReadsBack (f gd d a b amt ty) := by
  obtain ⟨hx, hamt⟩ := funnel_fields amt
  exact readsBack_of_joined he hp hg ho (vBits_lt (intTyCode_lt ty)) fun _ =>
    (hd _ _ hx).trans (decFunnel_of_fields (vFields_headSyl (intTyCode_lt ty)) hamt)

/-- Each joined operation. -/
theorem readsBack_of_place_joined (i : Instr) (hp : i.place = .joined) : ReadsBack i := by
  cases i with
  | vlop3 gd d a b c k8 =>
    refine readsBack_of_extFields rfl (by decide) rfl id (by decide) fun _ s x h hx => ?_
    simp [decodeJoined, need, zeros, hx.ext, hx.c, hx.k, h.guard, h.d, h.a, h.b, h.ty]
  | vfshl gd d a b amt ty | vfshr gd d a b amt ty =>
    refine readsBack_of_funnel rfl rfl id (by decide) fun s x hx => ?_
    simp [decodeJoined, hx]
  | vsel gd d a b c ty =>
    refine readsBack_of_extFields rfl (intTyCode_lt ty) rfl id (by decide) fun _ s x h hx => ?_
    simp [decodeJoined, need, zeros_eq_syl, hx.ext, hx.c, hx.k, h.guard, h.d, h.a, h.b, h.ty]
  | vbcast gd d a k ty | vrotl gd d a k ty =>
    refine readsBack_of_extFields rfl (intTyCode_lt ty) rfl Bool.and_elim_left (by decide) fun hw s x h hx => ?_
    have hk : k.toNat < ty.lanes := of_decide_eq_true (Bool.and_eq_true_iff.1 hw).2
    simp [-Nat.reducePow, decodeJoined, decLane, need, zeros_eq_syl, hx.ext, hx.c, hx.k, hx.k_toNat, h.guard, h.d, h.a,
      h.b_toNat, h.ty, hk]
  | vbcastG gd d c ty =>
    refine readsBack_of_extFields rfl (intTyCode_lt ty) rfl id (by decide) fun _ s x h hx => ?_
    simp [-Nat.reducePow, decodeJoined, decLane, need, zeros_eq_syl, hx.ext, hx.c, hx.k, h.guard, h.d, h.a, h.b_toNat, h.ty]
  | vrotlG gd d a c ty =>
    refine readsBack_of_extFields rfl (intTyCode_lt ty) rfl id (by decide) fun _ s x h hx => ?_
    simp [-Nat.reducePow, decodeJoined, decLane, need, zeros_eq_syl, hx.ext, hx.c, hx.k, h.guard, h.d, h.a, h.b_toNat, h.ty]
  | _ => cases hp

/-- Each operation of slot 0 with a C-stream major, and BR with Q = 1, whose major is of the common map. -/
theorem readsBack_of_place_c0 (i : Instr) (hp : i.place = .c0) : ReadsBack i := by
  cases i with
  | brBq off =>
    intro ss st slot x y hw hs hst
    obtain rfl : [headSyl 0 0x1A { p := 0, neg := false } (2 ^ 17 + off.toNat)] = ss := Option.some.inj hs
    obtain ⟨rfl, rfl⟩ : st = .c ∧ slot = 0 := by cases st <;> simp_all [Instr.standsIn]
    refine (decodeOp_headSyl_common (by decide) (by decide) (by decide) (by omega) rfl).trans ?_
    have hz : zeros 18 5 (headSyl 0 0x1A { p := 0, neg := false } (2 ^ 17 + off.toNat)) = true := by
      refine zeros_eq_true ?_
      simp only [headSyl, show flagBit false = 0 from rfl, show (0 : BitVec 4).toNat = 0 from rfl]
      omega
    simp (disch := omega) [-Nat.reducePow, decodeCommon, dec1, need]
    exact hz
  | view gd k n w imm =>
    refine readsBack_of_c0 rfl rfl Bool.and_elim_left (by decide) (by omega) fun hw => ?_
    have hv := (Bool.and_eq_true_iff.1 hw).2
    simp (disch := omega) [-Nat.reducePow, decodeSlot0, need, Nat.add_assoc, hv]
  | rotb gd =>
    refine readsBack_of_c0 rfl rfl id (by decide) (by decide) fun _ => ?_
    simp (disch := omega) [-Nat.reducePow, decodeSlot0, need]
  | loopst gd ns rt =>
    have hx := flagBit_lt rt
    refine readsBack_of_c0 rfl rfl Bool.and_elim_left (by decide) (by omega) fun hw => ?_
    have hn : ns.toNat ≤ 8 := of_decide_eq_true (Bool.and_eq_true_iff.1 hw).2
    simp (disch := omega) [-Nat.reducePow, decodeSlot0, need, hn]
  | _ => cases hp

/-- Each operation of slot 2 alone. -/
theorem readsBack_of_place_c2 (i : Instr) (hp : i.place = .c2) : ReadsBack i := by
  cases i with
  | cvt gd | qtrl gd | qstat gd | qstatClr gd | mxsetHdr gd | mxsetLvl gd =>
    refine readsBack_of_c2 rfl rfl id (by decide) (by omega) fun _ => ?_
    simp (disch := omega) [-Nat.reducePow, decodeSlot2, need, Nat.add_assoc]
  | mxgo gd | mxcommit gd | mxcommitClr gd =>
    refine readsBack_of_c2 rfl rfl id (by decide) (by decide) fun _ => ?_
    simp (disch := omega) [-Nat.reducePow, decodeSlot2, need]
  | qmx gd d a cf part =>
    refine readsBack_of_c2 rfl rfl Bool.and_elim_left (by decide) (by omega) fun hw => ?_
    have hd : d.toNat % 2 = 0 := by simpa using (Bool.and_eq_true_iff.1 hw).2
    simp (disch := omega) [-Nat.reducePow, decodeSlot2, need, Nat.add_assoc]
  | mxbindG gd role b =>
    refine readsBack_of_c2 rfl rfl Bool.and_elim_left (by decide) (by omega) fun hw => ?_
    have hr : role.toNat ≤ 8 := of_decide_eq_true (Bool.and_eq_true_iff.1 hw).2
    simp (disch := omega) [-Nat.reducePow, decodeSlot2, need, hr]
  | mxbindView gd role kind n =>
    refine readsBack_of_c2 rfl rfl Bool.and_elim_left (by decide) (by omega) fun hw => ?_
    have hr := (Bool.and_eq_true_iff.1 hw).2
    simp (disch := omega) [-Nat.reducePow, decodeSlot2, need, Nat.add_assoc, hr]
  | mxgrp gd en gl gx =>
    have he := flagBit_lt en
    have hx := flagBit_lt gx
    refine readsBack_of_c2 rfl rfl (fun hw => Bool.and_elim_left (Bool.and_elim_left hw)) (by decide) (by omega) fun hw => ?_
    obtain ⟨⟨_, hgl⟩, hen⟩ : (gd.wf = true ∧ gl.toNat ≤ 5) ∧ (en = true ∨ gl = 0) := by simpa [Instr.wf] using hw
    simp (disch := omega) [-Nat.reducePow, decodeSlot2, need, Nat.add_assoc, zeros_eq_syl (lo := 14) (len := 3)]
    exact ⟨hgl, fun h => hen.resolve_left (by simp [h])⟩
  | mxwait gd d =>
    refine readsBack_of_c2 rfl rfl Bool.and_elim_left (by decide) (by omega) fun hw => ?_
    have hm : d.toNat % 32 = d.toNat := Nat.mod_eq_of_lt d.isLt
    have hd : d.toNat ≤ 30 := of_decide_eq_true (Bool.and_eq_true_iff.1 hw).2
    simp (disch := omega) [-Nat.reducePow, decodeSlot2, need, hm, hd]
  | mxswap gd n =>
    refine readsBack_of_c2 rfl rfl Bool.and_elim_left (by decide) (by omega) fun hw => ?_
    have hn : n ≠ 0 := by simpa using (Bool.and_eq_true_iff.1 hw).2
    simp (disch := omega) [-Nat.reducePow, decodeSlot2, need, zeros_eq_syl (lo := 8) (len := 10)]
    exact hn
  | _ => cases hp

end CStream

/-- NOP, in any stream and slot. -/
theorem readsBack_of_place_anywhere (i : Instr) (hp : i.place = .anywhere) : ReadsBack i := by
  cases i with
  | nop =>
    intro ss st slot x y _ hs _
    obtain rfl : [0] = ss := Option.some.inj hs
    have hm : misplaced st slot 0 0 = none := by cases st <;> simp [misplaced]
    simp [decodeOp, decodeFields, hm, decodeCommon, dec1, need, zeros, flag]
  | _ => cases hp

/-- Every operation reads back, by the place where it stands. -/
theorem readsBack (i : Instr) : ReadsBack i := by
  cases h : i.place with
  | common => exact readsBack_of_place_common i h
  | anywhere => exact readsBack_of_place_anywhere i h
  | wide => exact readsBack_of_place_wide i h
  | l => exact readsBack_of_place_l i h
  | s => exact readsBack_of_place_s i h
  | c0 => exact readsBack_of_place_c0 i h
  | c12 => exact readsBack_of_place_c12 i h
  | joined => exact readsBack_of_place_joined i h
  | c2 => exact readsBack_of_place_c2 i h
  | notStream => exact readsBack_of_notStream h

/-- Settles O2: the fields of what the encoder writes are read back one by one, in the map of the place where an operation
stands. -/
theorem operationRoundTrip : Obligations.OperationRoundTrip :=
  fun i ss st slot x y => readsBack i ss st slot x y

end Sys2Proof

/-! PROOFS. Headers, circuit words, command records and packets decode and encode to themselves (O3). -/

namespace Sys2Proof

/-- A header's two syllables are read back (R113). -/
theorem decodeHeader_encodeHeader (h : Header) :
    decodeHeader ((encodeHeader h).getD 0 0) ((encodeHeader h).getD 1 0) = .ok (.sectionHeader h) := by
  obtain ⟨sp, pp, ma, mb, len, na, nb⟩ := h
  have h1 := flagBit_lt sp
  have h2 := flagBit_lt pp
  have h3 := flagBit_lt ma
  have h4 := flagBit_lt mb
  simp only [encodeHeader, List.getD_cons_zero, List.getD_cons_succ, Nat.add_assoc]
  rw [decodeHeader, if_neg (not_not.2 (by omega)), zeros_eq_true (by omega)]
  simp (disch := omega) [-Nat.reducePow, need]

/-- Each circuit word fits 64 bits and is read back (R344 to R351). -/
theorem decodeCircuit_encodeCircuit (i : Instr) (w : Nat) (hw : i.wf = true) (he : encodeCircuit i = some w) :
    w < 2 ^ 64 ∧ decodeCircuit w = .ok i := by
  cases i with
  | connect h src dst sp dp rep =>
    have hw' := Option.some.inj he
    have hop : w / 2 ^ 58 % 64 = 1 := by omega
    refine ⟨by omega, ?_⟩
    simp only [decodeCircuit, hop]
    subst hw'
    simp (disch := omega) [-Nat.reducePow, need, Nat.add_assoc]
  | hold h tile all n =>
    have hx := flagBit_lt all
    have hw' := Option.some.inj he
    have hop : w / 2 ^ 58 % 64 = 2 := by omega
    refine ⟨by omega, ?_⟩
    simp only [decodeCircuit, hop]
    subst hw'
    clear hop he
    simp (disch := omega) [-Nat.reducePow, need, Nat.add_assoc]
    intro hall
    have ht : tile.toNat = 0 := by simpa [Instr.wf, hall, ← BitVec.toNat_inj] using hw
    exact zeros_eq_true (by omega)
  | tear h tile all =>
    have hx := flagBit_lt all
    have hw' := Option.some.inj he
    have hop : w / 2 ^ 58 % 64 = 3 := by omega
    refine ⟨by omega, ?_⟩
    simp only [decodeCircuit, hop]
    subst hw'
    clear hop he
    simp (disch := omega) [-Nat.reducePow, need, Nat.add_assoc]
    intro hall
    have ht : tile.toNat = 0 := by simpa [Instr.wf, hall, ← BitVec.toNat_inj] using hw
    exact zeros_eq_true (by omega)
  | step bar =>
    have hw' := Option.some.inj he
    have hop : w / 2 ^ 58 % 64 = 4 := by omega
    refine ⟨by omega, ?_⟩
    simp only [decodeCircuit, hop]
    subst hw'
    simp (disch := omega) [-Nat.reducePow, need]
  | settle addr =>
    have hw' := Option.some.inj he
    have hop : w / 2 ^ 58 % 64 = 5 := by omega
    refine ⟨by omega, ?_⟩
    simp only [decodeCircuit, hop]
    subst hw'
    simp (disch := omega) [-Nat.reducePow, need]
  | loopc count body =>
    have hw' := Option.some.inj he
    have hop : w / 2 ^ 58 % 64 = 6 := by omega
    refine ⟨by omega, ?_⟩
    simp only [decodeCircuit, hop]
    subst hw'
    simp (disch := omega) [-Nat.reducePow, need, Nat.add_assoc]
  | jumpc cnd off =>
    have hw' := Option.some.inj he
    have hop : w / 2 ^ 58 % 64 = 7 := by omega
    refine ⟨by omega, ?_⟩
    simp only [decodeCircuit, hop]
    subst hw'
    simp (disch := omega) [-Nat.reducePow, need, Nat.add_assoc]
    simpa [Instr.wf, ← BitVec.toNat_inj] using hw
  | mark v =>
    have hw' := Option.some.inj he
    have hop : w / 2 ^ 58 % 64 = 8 := by omega
    refine ⟨by omega, ?_⟩
    simp only [decodeCircuit, hop]
    subst hw'
    simp (disch := omega) [-Nat.reducePow, need]
  | query h tile kind minw =>
    have hw' := Option.some.inj he
    have hop : w / 2 ^ 58 % 64 = 9 := by omega
    refine ⟨by omega, ?_⟩
    simp only [decodeCircuit, hop]
    subst hw'
    have hm : minw.toNat % 16 = minw.toNat := Nat.mod_eq_of_lt minw.isLt
    simp (disch := omega) [-Nat.reducePow, need, Nat.add_assoc, hm,
      zeros_eq_syl (lo := 44) (len := 2)]
    obtain ⟨⟨hk, hmin⟩, hh⟩ : (¬kind.toNat = 3 ∧ minw.toNat ≤ 8) ∧ (kind = 0 ∨ h.toNat < 8) := by
      simpa [Instr.wf, ← BitVec.toNat_inj] using hw
    exact ⟨hmin, hk, fun h0 => zeros_eq_true (by have := hh.resolve_left h0; omega)⟩
  | endc =>
    obtain rfl := Option.some.inj he
    exact ⟨by decide, by decide⟩
  | _ => cases he

theorem encodeCommand_decodeCommand (r : CmdRecord) : encodeCommand (decodeCommand r) = some r := by
  unfold decodeCommand
  split <;> rfl

theorem encodePacket_decodePacket (p : Packet) : encodePacket (decodePacket p) = some p := by
  unfold decodePacket
  split
  case h_9 => split_ifs <;> rfl
  all_goals rfl

/-- Settles O3: a header and a circuit word by their fields, a record and a packet by the constructor that holds them. -/
theorem itemRoundTrip : Obligations.ItemRoundTrip :=
  ⟨fun h _ => decodeHeader_encodeHeader h, decodeCircuit_encodeCircuit, encodeCommand_decodeCommand,
    encodePacket_decodePacket⟩

end Sys2Proof

/-! PROOFS. A decoded word has at most three operations, one of them stream-specific in L and S (O4), and words written
out bit by bit (O1). -/

namespace Sys2Proof

/-! ## Operations of the common map -/

/-- An operation that only the L or the S stream has (R135, R136). -/
def Instr.ofOneStream (i : Instr) : Bool := i.place == .l || i.place == .s

/-- Whatever decodes here is of no single stream. -/
def DecodesShared (x : Except Reject Instr) : Prop := ∀ i, x = .ok i → i.ofOneStream = false

section DecodesShared

variable {i : Instr} {r : Reject} {len s s1 s2 : Nat}

theorem decodesShared_ok (h : i.ofOneStream = false) : DecodesShared (.ok i) := by
  rintro _ ⟨⟩
  exact h

theorem decodesShared_error : DecodesShared (.error r) := nofun

theorem decodesShared_ite {c : Prop} [Decidable c] {x y : Except Reject Instr} (hx : DecodesShared x)
    (hy : DecodesShared y) : DecodesShared (if c then x else y) := by
  split
  · exact hx
  · exact hy

theorem decodesShared_need {c : Bool} (h : i.ofOneStream = false) : DecodesShared (need c r i) :=
  decodesShared_ite (decodesShared_ok h) decodesShared_error

theorem decodesShared_dec1 {c : Bool} (h : i.ofOneStream = false) : DecodesShared (dec1 len c i) :=
  decodesShared_ite (decodesShared_need h) decodesShared_error

theorem decodesShared_decSA {f : Guard → BitVec 5 → BitVec 5 → SrcB → Instr}
    (h : ∀ gd d a b, (f gd d a b).ofOneStream = false) : DecodesShared (decSA len s f) := by
  refine decodesShared_ite ?_ decodesShared_error
  split
  · exact decodesShared_ok (h ..)
  · exact decodesShared_error

theorem decodesShared_decSAW {f : Guard → BitVec 5 → BitVec 5 → SrcB → Instr} {g : Guard → BitVec 5 → BitVec 5 → Wide → Instr}
    (hf : ∀ gd d a b, (f gd d a b).ofOneStream = false) (hg : ∀ gd d a w, (g gd d a w).ofOneStream = false) :
    DecodesShared (decSAW len s s1 s2 f g) :=
  decodesShared_ite (decodesShared_decSA hf) (decodesShared_need (hg ..))

theorem decodesShared_decSA1 {f : Guard → BitVec 5 → BitVec 5 → Instr} (h : ∀ gd d a, (f gd d a).ofOneStream = false) :
    DecodesShared (decSA1 len s f) :=
  decodesShared_ite (decodesShared_need (h ..)) decodesShared_error

theorem decodesShared_decSJ {f : Guard → BitVec 17 → Instr} {g : Guard → BitVec 5 → Instr}
    (hf : ∀ gd k, (f gd k).ofOneStream = false) (hg : ∀ gd a, (g gd a).ofOneStream = false) :
    DecodesShared (decSJ len s f g) :=
  decodesShared_ite (decodesShared_ite (decodesShared_need (hg ..)) (decodesShared_ok (hf ..))) decodesShared_error

/-- The common map has no operation of a single stream (R134). -/
theorem decodeCommon_shared (st : StreamId) (op : Nat) : DecodesShared (decodeCommon st len op s s1 s2) := by
  unfold decodeCommon
  split
  case h_1 | h_26 | h_30 | h_31 | h_32 | h_33 | h_34 | h_35 => exact decodesShared_dec1 rfl
  case h_2 | h_6 => exact decodesShared_ite (decodesShared_ok rfl) (decodesShared_need rfl)
  case h_3 =>
    exact decodesShared_ite (decodesShared_ok rfl) (decodesShared_ite (decodesShared_need rfl) decodesShared_error)
  case h_4 | h_19 | h_20 => exact decodesShared_decSA1 fun _ _ _ => rfl
  case h_25 => exact decodesShared_ite (decodesShared_ok rfl) (decodesShared_need rfl)
  case h_27 =>
    exact decodesShared_ite (decodesShared_ite (decodesShared_dec1 rfl) decodesShared_error) (decodesShared_dec1 rfl)
  case h_28 | h_29 => exact decodesShared_decSJ (fun _ _ => rfl) fun _ _ => rfl
  case h_5 | h_7 | h_8 | h_11 | h_12 | h_13 | h_14 | h_21 | h_22 | h_23 | h_24 =>
    exact decodesShared_decSAW (fun _ _ _ _ => rfl) fun _ _ _ _ => rfl
  case h_9 | h_10 | h_15 | h_16 | h_17 | h_18 => exact decodesShared_decSA fun _ _ _ _ => rfl
  case h_36 => exact decodesShared_error

end DecodesShared

/-! ## Words of the L and S streams -/

section Words

variable {st : StreamId}

theorem misplaced_of_ne_c {len op : Nat} (hst : st ≠ .c) : misplaced st 0 len op = none := by
  cases st with
  | l | s => rfl
  | c => exact absurd rfl hst

theorem decodeWord_of_ne_c {a b c : Nat} (hst : st ≠ .c) : decodeWord st a b c = decodeOps st 3 false [a, b, c] := by
  cases st with
  | l | s => rfl
  | c => exact absurd rfl hst

/-- An operation of the L or S stream alone has a stream-specific major (R118). -/
theorem specific_of_decodeOp {s x y : Nat} {i : Instr} (hst : st ≠ .c) (h : decodeOp st 0 s x y = .ok i)
    (hi : i.ofOneStream = true) : specific s = true := by
  by_contra hs
  have hop : ¬0x30 ≤ s / 2 ^ 23 % 128 := by simpa [specific] using hs
  have hc : DecodesShared (decodeOp st 0 s x y) := by
    rw [decodeOp, decodeFields, if_neg hop, misplaced_of_ne_c hst]
    exact decodesShared_ite decodesShared_error (decodesShared_ite decodesShared_error (decodeCommon_shared st _))
  exact Bool.false_ne_true ((hc i h).symm.trans hi)

/-- The operations of a word are at most its syllables, and at most one is of a single stream: none after the first. -/
theorem decodeOps_bounds (hst : st ≠ .c) : ∀ (n : Nat) (had : Bool) (ss : List Nat) (is : List Instr),
    decodeOps st n had ss = .ok is →
      is.length ≤ n ∧ (is.filter Instr.ofOneStream).length ≤ if had then 0 else 1 := by
  intro n
  induction n with
  | zero =>
    rintro had ss is ⟨⟩
    simp
  | succ n ih =>
    rintro had (_ | ⟨s, rest⟩) is h
    · cases h
      simp
    · simp only [decodeOps] at h
      split_ifs at h with h3 hrun hhad
      split at h
      · cases h
      next i hi =>
        split at h
        · cases h
        next js hjs =>
          obtain rfl := Except.ok.inj h
          obtain ⟨hlen, hone⟩ := ih _ _ _ hjs
          refine ⟨by simpa using hlen, ?_⟩
          cases ho : i.ofOneStream with
          | true =>
            have hs := specific_of_decodeOp hst hi ho
            have hf : had = false := by simpa [hs] using hhad
            simpa [ho, hs, hf] using hone
          | false =>
            refine le_trans (by simp [ho]) (hone.trans ?_)
            cases had <;> cases specific s <;> decide

end Words

/-- Settles O4: L and S words by their operations, C words by their slots. -/
theorem wordsHoldOneSpecificOperation : Obligations.WordsHoldOneSpecificOperation := by
  intro st a b c is h
  by_cases hst : st = .c
  · subst hst
    refine ⟨?_, fun hne => absurd rfl hne⟩
    simp only [decodeWord] at h
    split at h
    · cases h
    split at h
    · cases h
    split_ifs at h
    · cases h
      simp
    split at h
    · cases h
    · cases h
      simp
  · obtain ⟨hlen, hone⟩ := decodeOps_bounds hst 3 false _ is (decodeWord_of_ne_c hst ▸ h)
    exact ⟨hlen, fun _ => hone⟩

/-- Settles O1, by evaluating the decoder on each word. -/
theorem knownWordsDecode : Obligations.KnownWordsDecode := by
  unfold Obligations.KnownWordsDecode
  decide

end Sys2Proof

/-! PROOFS. JMP, CALL and RET go to the header at their target or trap (O10). -/

namespace Sys2Proof.Machine

/-- A transfer to `target` of the word at work: it goes to a header, leaving `g31` in g31 where it is a call's, and traps
at another target and in a loop (R123, R150, R152). -/
def Transfers (s : State) (r : Result) (target : Int) (g31 : Option W64) : Prop :=
  (s.headerAt target = true → (s.me.stream s.stream).loops = [] → ∃ t, r = .next t ∧ t.verdict = .moved ∧
    (t.me.stream s.stream).pc = target.toNat ∧
    (t.me.stream s.stream).phase = (if (s.me.stream s.stream).phase = .done then .done else .header) ∧
    (t.me.stream s.stream).inSection = false ∧
    (∀ k, t.gNow k = if k = 31 then g31.getD (s.gNow 31) else s.gNow k) ∧
    { t with verdict := s.verdict, cores := s.cores } = s ∧ ∀ c, c ≠ s.core → t.ctx c = s.ctx c) ∧
  (s.headerAt target = false → ∃ t, r = .next t ∧ TrapsAtWord s t 0x03 0 0) ∧
  (s.headerAt target = true → (s.me.stream s.stream).loops ≠ [] → ∃ t, r = .next t ∧ TrapsAtWord s t 0x05 0 0)

section Transfers

variable (s : State) (target : Int)

/-- Leaving a section ends it and writes no register. -/
@[simp] theorem StreamState.leaveSection_inSection (y : StreamState) (stamp : Nat) :
    (y.leaveSection stamp).inSection = false := by
  unfold StreamState.leaveSection
  split
  · rfl
  · simpa using ‹¬y.inSection = true›

@[simp] theorem StreamState.leaveSection_phase (y : StreamState) (stamp : Nat) :
    (y.leaveSection stamp).phase = y.phase := by
  unfold StreamState.leaveSection
  split <;> rfl

@[simp] theorem StreamState.leaveSection_g (y : StreamState) (stamp : Nat) : (y.leaveSection stamp).g = y.g := by
  unfold StreamState.leaveSection
  split <;> rfl

/-- A stream as a transfer to `t` leaves it, whose word has stamp `stamp`. -/
def StreamState.sentTo (y : StreamState) (stamp t : Nat) : StreamState :=
  { y.leaveSection stamp with pc := t, phase := if y.phase = .done then .done else .header }

theorem stream_toHeader (t : Nat) :
    (s.toHeader t).me.stream s.stream = (s.me.stream s.stream).sentTo (s.me.stamp s.stream + 1) t := by
  have hme : (s.toHeader t).me = (s.updMe fun x => x.updStream s.stream fun y =>
    y.sentTo (s.me.stamp s.stream + 1) t).me := rfl
  rw [hme, State.me_updMe, Ctx.stream_updStream_same]

theorem gNow_toHeader (t : Nat) (k : BitVec 5) : (s.toHeader t).gNow k = s.gNow k := by
  have hg : ((s.toHeader t).me.stream s.stream).g = (s.me.stream s.stream).g := by
    rw [stream_toHeader]
    exact StreamState.leaveSection_g ..
  change ((s.toHeader t).me.stream s.stream).getG k = (s.me.stream s.stream).getG k
  simp only [StreamState.getG, hg]

theorem ctx_toHeader_ne (t : Nat) {c : Nat} (h : c ≠ s.core) : (s.toHeader t).ctx c = s.ctx c :=
  State.ctx_updMe_ne s (fun x => x.updStream s.stream fun y => y.sentTo (s.me.stamp s.stream + 1) t) h

variable {s target}

theorem transfer_goes (hh : s.headerAt target = true) (hl : (s.me.stream s.stream).loops = []) :
    s.transfer target = s.toHeader target.toNat := by
  simp [State.transfer, hh, hl]

theorem transfer_noHeader (hh : s.headerAt target = false) : s.transfer target = s.trapNow 0x03 := by
  simp [State.transfer, hh]

theorem transfer_inLoop (hh : s.headerAt target = true) (hl : (s.me.stream s.stream).loops ≠ []) :
    s.transfer target = s.trapNow 0x05 := by
  simp [State.transfer, hh, hl]

theorem transfers_transfer : Transfers s (.next (s.transfer target)) target none := by
  refine ⟨fun hh hl => ⟨_, rfl, ?_⟩, fun hh => ⟨_, rfl, ?_⟩, fun hh hl => ⟨_, rfl, ?_⟩⟩
  · rw [transfer_goes hh hl, stream_toHeader]
    refine ⟨rfl, rfl, rfl, StreamState.leaveSection_inSection .., fun k => ?_, rfl, fun c hc => ctx_toHeader_ne s _ hc⟩
    rw [gNow_toHeader]
    split
    next h => exact h ▸ rfl
    · rfl
  · exact transfer_noHeader hh ▸ trapWith_traps s ..
  · exact transfer_inLoop hh hl ▸ trapWith_traps s ..

/-- A CALL's transfer also saves the offset of the item after its word. -/
theorem transfers_callTo :
    Transfers s (.next (s.callTo target)) target (some (BitVec.ofNat 64 (s.rd.pc + 3))) := by
  refine ⟨fun hh hl => ?_, fun hh => ⟨_, rfl, ?_⟩, fun hh hl => ⟨_, rfl, ?_⟩⟩
  · have hu : s.callTo target = (s.toHeader target.toNat).wg 31 (BitVec.ofNat 64 (s.rd.pc + 3)) := by
      simp only [State.callTo, transfer_goes hh hl]
      rfl
    have hy : (s.callTo target).me.stream s.stream =
        ((s.toHeader target.toNat).me.stream s.stream).setG 31 (BitVec.ofNat 64 (s.rd.pc + 3)) := by
      rw [hu]
      simp only [State.wg, State.updStream, State.me_updMe]
      exact Ctx.stream_updStream_same ..
    refine ⟨_, rfl, hu ▸ rfl, ?_, ?_, ?_, fun k => ?_, hu ▸ rfl, fun c hc => ?_⟩
    · rw [hy, stream_toHeader]; rfl
    · rw [hy, stream_toHeader]; rfl
    · rw [hy, stream_toHeader]
      exact StreamState.leaveSection_inSection ..
    · have hs : (s.callTo target).stream = s.stream := hu ▸ rfl
      rw [State.gNow, hs, hy]
      split
      next h => rw [h, StreamState.getG_setG_same]; rfl
      next h => exact (StreamState.getG_setG_ne _ _ h).trans (gNow_toHeader s _ k)
    · rw [hu]
      have hother : ((s.toHeader target.toNat).wg 31 (BitVec.ofNat 64 (s.rd.pc + 3))).ctx c =
        (s.toHeader target.toNat).ctx c := State.ctx_updMe_ne _ _ hc
      exact hother.trans (ctx_toHeader_ne s _ hc)
  · simp only [State.callTo, transfer_noHeader hh]
    exact trapWith_traps s ..
  · simp only [State.callTo, transfer_inLoop hh hl]
    exact trapWith_traps s ..

/-- A word with a CALL after which no header follows raises 0x03 before any of its operations runs (R117, R123). -/
theorem issueOps_badCall {is : List Instr} (hd : sameDest is = false) (hb : s.badCall is = true) :
    s.issueOps is = .next (s.trapNow 0x03) := by
  simp [State.issueOps, hd, hb]

theorem badCall_of_mem {gd : Guard} {off : BitVec 17} {a : BitVec 5} {is : List Instr}
    (hi : Instr.call gd off ∈ is ∨ Instr.callReg gd a ∈ is) (hh : s.headerAt ((s.rd.pc : Int) + 3) = false) :
    s.badCall is = true := by
  rw [State.badCall, hh, Bool.not_false, Bool.and_true, List.any_eq_true]
  obtain h | h := hi
  · exact ⟨_, h, rfl⟩
  · exact ⟨_, h, rfl⟩

end Transfers

/-- Settles O10: the five transfers are two forms, `transfer` and `callTo`, at their targets. -/
theorem transfersGoToTheirHeader : Obligations.TransfersGoToTheirHeader := by
  refine ⟨fun gd off a is s hi hd hh => ?_, fun gd off a s hg => ?_⟩
  · exact ⟨_, issueOps_badCall hd (badCall_of_mem hi hh), trapWith_traps s ..⟩
  · have run (f : State → State) {target : Int} {g31 : Option W64} (h : Transfers s (.next (f s)) target g31) :
        Transfers s (guarded gd s f) target g31 := by
      rwa [guarded_next, if_pos hg]
    change Transfers s (guarded gd s fun u => u.transfer (u.rd.pc + off.toInt)) (s.rd.pc + off.toInt) none ∧
      Transfers s (guarded gd s fun u => u.transfer (u.rg a).toNat) (s.rg a).toNat none ∧
      Transfers s (guarded gd s fun u => u.callTo (u.rd.pc + off.toInt)) (s.rd.pc + off.toInt)
        (some (BitVec.ofNat 64 (s.rd.pc + 3))) ∧
      Transfers s (guarded gd s fun u => u.callTo (u.rg a).toNat) (s.rg a).toNat
        (some (BitVec.ofNat 64 (s.rd.pc + 3))) ∧
      Transfers s (guarded gd s fun u => u.transfer (u.rg 31).toNat) (s.rg 31).toNat none
    exact ⟨run _ transfers_transfer, run _ transfers_transfer, run _ transfers_callTo, run _ transfers_callTo,
      run _ transfers_transfer⟩

end Sys2Proof.Machine

/-! PROOFS. A header enters its section or holds, a left section retires, and dependences hold as stated (O13). -/

namespace Sys2Proof.Machine

/-! ## Leaving a section -/

@[simp] theorem StreamState.leaveSection_pc (y : StreamState) (stamp : Nat) : (y.leaveSection stamp).pc = y.pc := by
  unfold StreamState.leaveSection
  split <;> rfl

@[simp] theorem StreamState.leaveSection_sect (y : StreamState) (stamp : Nat) : (y.leaveSection stamp).sect = y.sect := by
  unfold StreamState.leaveSection
  split <;> rfl

@[simp] theorem StreamState.leaveSection_fresh (y : StreamState) (stamp : Nat) :
    (y.leaveSection stamp).fresh = y.fresh := by
  unfold StreamState.leaveSection
  split <;> rfl

@[simp] theorem StreamState.leaveSection_noSwitch (y : StreamState) (stamp : Nat) :
    (y.leaveSection stamp).noSwitch = y.noSwitch := by
  unfold StreamState.leaveSection
  split <;> rfl

@[simp] theorem Ctx.updStream_preempt (x : Ctx) (st : StreamId) (f : StreamState → StreamState) :
    (x.updStream st f).preempt = x.preempt := by
  cases st <;> rfl

@[simp] theorem Ctx.updStream_vartab (x : Ctx) (st : StreamId) (f : StreamState → StreamState) :
    (x.updStream st f).vartab = x.vartab := by
  cases st <;> rfl

@[simp] theorem Ctx.updStream_varErr (x : Ctx) (st : StreamId) (f : StreamState → StreamState) :
    (x.updStream st f).varErr = x.varErr := by
  cases st <;> rfl

/-- The stream at work, having reached a header, has left the section before it. -/
def State.leaving (s : State) : State :=
  s.updMe fun x => x.updStream s.stream fun y => y.leaveSection (x.stamp s.stream)

/-! ## The layout cache -/

/-- Keeping a line in the layout cache changes the cache of that core and nothing else. -/
theorem keepLines_keeps (c : Nat) (ls : List LayoutLine) : ∀ (a : Nat) (s : State),
    { s.keepLines c a ls with cores := s.cores } = s ∧
      ∃ m, (s.keepLines c a ls).ctx c = { s.ctx c with layoutCache := m } := by
  induction ls with
  | nil => exact fun a s => ⟨rfl, _, rfl⟩
  | cons l ls ih =>
    intro a s
    obtain ⟨hframe, m, hm⟩ := ih (a + 64) (s.layoutKeep c a l)
    refine ⟨congrArg (fun t : State => { t with cores := s.cores }) hframe, m, ?_⟩
    rw [State.keepLines, hm, State.layoutKeep, State.ctx_updCtx_same]

/-- Reading the variant table leaves the core as it was but for its layout cache. -/
theorem variantTable_keeps {s u : State} {c : Nat} {recs : List (List Byte)} (h : s.variantTable c = .ok (recs, u)) :
    { u with cores := s.cores } = s ∧ ∃ m, u.ctx c = { s.ctx c with layoutCache := m } := by
  simp only [State.variantTable] at h
  split at h
  · cases h
  split_ifs at h
  split at h
  · cases h
  split_ifs at h
  cases h
  exact keepLines_keeps ..

/-! ## Entering and holding -/

/-- A state in which the stream that was at work in `s` stands at its header, out of the section before it. -/
structure AtHeader (s u : State) (err : Bool) : Prop where
  frame : { u with cores := s.cores } = s
  stream : u.me.stream s.stream = (s.me.stream s.stream).leaveSection (s.me.stamp s.stream)
  err : u.me.varErr = err

/-- The section of header `h` has been entered (R113, R114). -/
structure Entered (s t : State) (h : Header) (err : Bool) : Prop where
  moved : t.verdict = .moved
  sect : (t.me.stream s.stream).sect =
    if (s.me.stream s.stream).fresh then (s.me.stream s.stream).sect else (s.me.stream s.stream).sect + 1
  secStart : (t.me.stream s.stream).secStart = (s.me.stream s.stream).pc + 2
  pc : (t.me.stream s.stream).pc = (s.me.stream s.stream).pc + 2
  secLen : (t.me.stream s.stream).secLen = h.len.toNat
  inSection : (t.me.stream s.stream).inSection = true
  dep : (t.me.stream s.stream).dep = some h
  g : ∀ i, t.gNow i = s.gNow i
  err : t.me.varErr = err
  frame : { t with verdict := s.verdict, cores := s.cores } = s

section AtHeader

variable {s u : State} {err : Bool} {h : Header}

theorem AtHeader.focus (hu : AtHeader s u err) : u.focus = s.focus := (congrArg State.focus hu.frame :)

theorem AtHeader.stream_eq (hu : AtHeader s u err) : u.stream = s.stream := by
  simp only [State.stream, hu.focus]

theorem atHeader_leaving (s : State) : AtHeader s s.leaving s.me.varErr := by
  refine ⟨rfl, ?_, ?_⟩
  · rw [State.leaving, State.me_updMe, Ctx.stream_updStream_same]
  · rw [State.leaving, State.me_updMe, Ctx.updStream_varErr]

theorem AtHeader.setErr (hu : AtHeader s u err) (e : Bool) : AtHeader s (u.updMe fun x => { x with varErr := e }) e := by
  refine ⟨hu.frame, ?_, by rw [State.me_updMe]⟩
  rw [State.me_updMe, ← hu.stream]
  cases s.stream <;> rfl

theorem AtHeader.enter (hu : AtHeader s u err) : Entered s (u.enter h) h err := by
  have hme : (u.enter h).me = u.me.updStream s.stream fun y => y.enterSection h :=
    (State.me_updMe u fun x => x.updStream u.stream fun y => y.enterSection h).trans (by rw [hu.stream_eq])
  have hy : (u.enter h).me.stream s.stream =
      ((s.me.stream s.stream).leaveSection (s.me.stamp s.stream)).enterSection h := by
    rw [hme, Ctx.stream_updStream_same, hu.stream]
  have hg : ((u.enter h).me.stream s.stream).g = (s.me.stream s.stream).g := by
    rw [hy]
    exact StreamState.leaveSection_g ..
  refine
    { moved := rfl, sect := ?_, secStart := ?_, pc := ?_, secLen := by rw [hy]; rfl, inSection := by rw [hy]; rfl,
      dep := by rw [hy]; rfl, g := fun i => ?_, err := ?_, frame := ?_ }
  · rw [hy]
    simp [StreamState.enterSection]
  · rw [hy]
    simp [StreamState.enterSection]
  · rw [hy]
    simp [StreamState.enterSection]
  · have hst : (u.enter h).stream = s.stream := hu.stream_eq
    rw [State.gNow, hst, State.gNow, StreamState.getG, hg, StreamState.getG]
  · rw [hme, Ctx.updStream_varErr, hu.err]
  · exact congrArg (fun t : State => { t with verdict := s.verdict }) hu.frame

theorem stream_waitNow (s : State) (r : WaitReason) :
    (s.waitNow r).me.stream s.stream = { s.me.stream s.stream with wait := some r } := by
  have hme : (s.waitNow r).me = (s.updMe fun x => { x.updStream s.stream fun y => { y with wait := some r } with
    waitSince := if x.l.wait.isSome && x.c.wait.isSome && x.s.wait.isSome then x.waitSince else s.now }).me := rfl
  rw [hme, State.me_updMe]
  cases s.stream <;> rfl

/-- Holding at a header keeps the stream there, for its record. -/
theorem AtHeader.hold (hu : AtHeader s u err) (r : Nat) {f : Ctx → Ctx}
    (hf : ∀ x, (f x).stream s.stream = { x.stream s.stream with hold := some r }) :
    ((u.updMe f).waitNow .hold).verdict = .waits .hold ∧
      (((u.updMe f).waitNow .hold).me.stream s.stream).hold = some r ∧
      (((u.updMe f).waitNow .hold).me.stream s.stream).pc = (s.me.stream s.stream).pc ∧
      (((u.updMe f).waitNow .hold).me.stream s.stream).sect = (s.me.stream s.stream).sect ∧
      { (u.updMe f).waitNow .hold with verdict := s.verdict, cores := s.cores } = s := by
  have hy : ((u.updMe f).waitNow .hold).me.stream s.stream =
      { (s.me.stream s.stream).leaveSection (s.me.stamp s.stream) with hold := some r, wait := some .hold } := by
    have hw := stream_waitNow (u.updMe f) .hold
    rw [State.updMe_stream, hu.stream_eq, State.me_updMe, hf, hu.stream] at hw
    exact hw
  refine ⟨rfl, by rw [hy], by rw [hy]; simp, by rw [hy]; simp, ?_⟩
  exact congrArg (fun t : State => { t with verdict := s.verdict }) hu.frame

end AtHeader

/-! ## What a header does -/

section Header

variable {s : State} {h : Header}

theorem not_cutDue (hp : h.pp = true → s.me.preempt = false) : ¬(h.pp = true ∧ s.leaving.me.preempt = true) := by
  rintro ⟨h1, h2⟩
  rw [State.leaving, State.me_updMe, Ctx.updStream_preempt, hp h1] at h2
  cases h2

/-- A header that is no switch point, at no pre-emption point that is due, enters its section. -/
theorem exec_header_plain (hsp : h.sp = false) (hp : h.pp = true → s.me.preempt = false) :
    exec (.sectionHeader h) s = .next (s.leaving.enter h) := by
  change Host.Outcome.next (if h.pp ∧ s.leaving.me.preempt then _ else if h.sp ∧ _ then _ else s.leaving.enter h) = _
  rw [if_neg (not_cutDue hp), if_neg (by simp [hsp])]

/-- The stream holds at its header for record `r`; the time of the core's first hold is kept (R427). -/
def Ctx.holdFor (x : Ctx) (st : StreamId) (r now : Nat) : Ctx :=
  let first := x.l.hold.isNone && x.c.hold.isNone && x.s.hold.isNone
  { x.updStream st fun y => { y with hold := some r } with
    holdSince := if first then now else x.holdSince, heldAt := now }

theorem Ctx.stream_holdFor (x : Ctx) (st : StreamId) (r now : Nat) :
    (x.holdFor st r now).stream st = { x.stream st with hold := some r } := by
  cases st <;> rfl

/-- A header that is a switch point goes by what the stream finds there (R427). -/
theorem exec_header_switch (hsp : h.sp = true) (hp : h.pp = true → s.me.preempt = false)
    (hn : (s.me.stream s.stream).noSwitch = false) :
    exec (.sectionHeader h) s = .next (
      match s.leaving.switchLook (s.me.stream s.stream).pc with
      | (.enter, u) => u.enter h
      | (.later, u) => u.waitNow .access
      | (.hold r, u) => (u.updMe fun x => x.holdFor u.stream r u.now).waitNow .hold) := by
  have hy := (atHeader_leaving s).stream
  have hpc : (s.leaving.me.stream s.stream).pc = (s.me.stream s.stream).pc := by rw [hy, StreamState.leaveSection_pc]
  have hns : (!(s.leaving.me.stream s.stream).noSwitch) = true := by rw [hy, StreamState.leaveSection_noSwitch, hn]; rfl
  rw [← hpc]
  change Host.Outcome.next (if h.pp ∧ s.leaving.me.preempt then _
    else if h.sp ∧ (!(s.leaving.me.stream s.stream).noSwitch) then _ else s.leaving.enter h) = _
  rw [if_neg (not_cutDue hp), if_pos ⟨hsp, hns⟩]
  rfl

variable {recs : List (List Byte)} {u : State}

/-- The header names no record that the stream could hold for: VARTAB is 0 or ERR is set (R427). -/
theorem switchLook_off (o : Nat) (hv : s.me.vartab = 0 ∨ s.me.varErr = true) :
    s.switchLook o = (.enter, s) := by
  rw [State.switchLook]
  exact if_pos hv

/-- A table that is invalid sets ERR (R426). -/
theorem switchLook_invalid (o : Nat) (hv : ¬(s.me.vartab = 0 ∨ s.me.varErr = true)) {k : Cause}
    (ht : s.variantTable s.core = .error k) (hk : k ≠ retryCode) :
    s.switchLook o = (.enter, s.updMe fun x => { x with varErr := true }) := by
  simp only [State.switchLook, ht, if_neg hk]
  exact if_neg hv

theorem switchLook_unnamed {o : Nat} (hv : ¬(s.me.vartab = 0 ∨ s.me.varErr = true))
    (ht : s.variantTable s.core = .ok (recs, u)) (hr : findRecord s.stream o recs = none) :
    s.switchLook o = (.enter, u) := by
  simp only [State.switchLook, ht, hr]
  exact if_neg hv

theorem switchLook_here {o r : Nat} (hv : ¬(s.me.vartab = 0 ∨ s.me.varErr = true))
    (ht : s.variantTable s.core = .ok (recs, u)) (hr : findRecord s.stream o recs = some r)
    (ho : variantOffset (recs.getD r []) s.stream (s.powerLevel s.core) = o) : s.switchLook o = (.enter, u) := by
  simp only [State.switchLook, ht, hr, if_pos ho]
  exact if_neg hv

theorem switchLook_away {o r : Nat} (hv : ¬(s.me.vartab = 0 ∨ s.me.varErr = true))
    (ht : s.variantTable s.core = .ok (recs, u)) (hr : findRecord s.stream o recs = some r)
    (ho : variantOffset (recs.getD r []) s.stream (s.powerLevel s.core) ≠ o) : s.switchLook o = (.hold r, u) := by
  simp only [State.switchLook, ht, hr, if_neg ho]
  exact if_neg hv

/-- Reading the variant table leaves the stream at its header. -/
theorem AtHeader.variantTable {v : State} {err : Bool} (hv : AtHeader s v err)
    (ht : v.variantTable v.core = .ok (recs, u)) : AtHeader s u err := by
  obtain ⟨hframe, m, hm⟩ := variantTable_keeps ht
  have hfocus : u.focus = v.focus := (congrArg State.focus hframe :)
  have hme : u.me = { v.me with layoutCache := m } := by
    rw [State.me, State.core, hfocus]
    exact hm
  refine ⟨?_, ?_, hme ▸ hv.err⟩
  · exact (congrArg (fun t : State => { t with cores := s.cores }) hframe).trans hv.frame
  · rw [hme, ← hv.stream]
    cases s.stream <;> rfl

end Header

/-- A left section that is done retires (R114). -/
theorem exec_sectionRetire {s : State} {c : Nat} {st : StreamId} {stamp : Nat} {rest : List Nat}
    (hl : ((s.ctx c).stream st).left = stamp :: rest) (hd : (s.ctx c).sectionDone st stamp = true) :
    exec (.sectionRetire c st) s =
      .next (s.onCore c fun x => x.updStream st fun y => { y with retired := y.retired + 1, left := rest }) := by
  change Host.Outcome.next _ = _
  simp only [hl, hd, if_true]

/-- Settles O13: a header by what the stream finds there, with one lemma for each way to enter the section and one for the
hold. -/
theorem sectionsAreEnteredAndRetire : Obligations.SectionsAreEnteredAndRetire := by
  refine ⟨fun h s hsp hp => ?_, fun h s hsp hp hn => ?_, fun c st s stamp rest hl hd => ?_, fun n k retired => ⟨?_, ?_⟩⟩
  · have e := (atHeader_leaving s).enter (h := h)
    exact ⟨_, exec_header_plain hsp hp, e.moved, e.sect, e.secStart, e.pc, e.secLen, e.inSection, e.dep, e.g, e.frame⟩
  · have look := exec_header_switch hsp hp hn
    have at0 := atHeader_leaving s
    have htab : s.leaving.me.vartab = s.me.vartab := by rw [State.leaving, State.me_updMe, Ctx.updStream_vartab]
    have enters {u : State} {err : Bool} (hu : AtHeader s u err)
        (hl : s.leaving.switchLook (s.me.stream s.stream).pc = (.enter, u)) :
        ∃ t, exec (.sectionHeader h) s = .next t ∧ t.verdict = .moved ∧
          (t.me.stream s.stream).sect = (if (s.me.stream s.stream).fresh then (s.me.stream s.stream).sect
            else (s.me.stream s.stream).sect + 1) ∧
          (t.me.stream s.stream).secStart = (s.me.stream s.stream).pc + 2 ∧
          (t.me.stream s.stream).pc = (s.me.stream s.stream).pc + 2 ∧ (t.me.stream s.stream).dep = some h ∧
          t.me.varErr = err ∧ { t with verdict := s.verdict, cores := s.cores } = s := by
      have e := hu.enter (h := h)
      exact ⟨_, by rw [look, hl], e.moved, e.sect, e.secStart, e.pc, e.dep, e.err, e.frame⟩
    refine ⟨fun hv => enters at0 (switchLook_off _ (by rwa [htab, at0.err])), fun hv0 herr => ?_⟩
    have hv : ¬(s.leaving.me.vartab = 0 ∨ s.leaving.me.varErr = true) := by
      rw [htab, at0.err, herr]
      exact fun h0 => h0.elim hv0 Bool.false_ne_true
    have at1 : AtHeader s s.leaving false := herr ▸ at0
    refine ⟨fun k ht hk => ?_, fun recs u ht => ?_⟩
    · exact enters (at0.setErr true) (switchLook_invalid _ hv ht hk)
    · have hu : AtHeader s u false := at1.variantTable ht
      refine ⟨fun hnone => ?_, fun r hsome => ⟨fun hhere => ?_, fun haway => ?_⟩⟩
      · exact enters hu (switchLook_unnamed hv ht hnone)
      · exact enters hu (switchLook_here hv ht hsome hhere)
      · have hold := hu.hold r (f := fun x => x.holdFor u.stream r u.now) fun x => by
          rw [hu.stream_eq, Ctx.stream_holdFor]
        exact ⟨_, by rw [look, switchLook_away hv ht hsome haway], hold⟩
  · refine ⟨_, exec_sectionRetire hl hd, ?_, ?_, rfl⟩
    · rw [State.onCore, State.ctx_updCtx_same]
      cases st <;> rfl
    · rw [State.onCore, State.ctx_updCtx_same]
      cases st <;> rfl
  · simp [depHolds]
  · simp [depHolds]

end Sys2Proof.Machine

/-! PROOFS. RDSR and WRSR read and write the system registers or trap (O14). -/

namespace Sys2Proof.Machine

section SystemRegisters

variable {gd : Guard} {d a : BitVec 5} {n : BitVec 13} {s : State} {v : W64}

/-! ## Reads -/

/-- An RDSR of a register that its stream may read reads it under its guard. -/
theorem exec_rdsr (h : sysReadable s.stream n.toNat = true) : exec (.rdsr gd d n) s =
    guarded gd s fun s => (if n = 0x08 then s.countCycles else s).wgB d
      ((if n = 0x08 then s.countCycles else s).sysRead n.toNat) 2 := by
  change execRdsr gd d n s = _
  rw [execRdsr, h, Bool.not_true, if_neg Bool.false_ne_true]

theorem exec_rdsr_unreadable (h : sysReadable s.stream n.toNat = false) :
    exec (.rdsr gd d n) s = .next (s.trapNow 0x01) := by
  change execRdsr gd d n s = _
  rw [execRdsr, h, Bool.not_false, if_pos rfl]

/-- A read of CYCLES counts on, and changes no register. -/
theorem me_countCycles (s : State) :
    s.countCycles.me = { s.me with cycles := s.me.cycles + Config.anyNat (s.freeIx 8) } :=
  (State.me_updMe s fun x => { x with cycles := s.me.cycles + Config.anyNat (s.freeIx 8) } :)

theorem gNow_countCycles (s : State) (i : BitVec 5) : s.countCycles.gNow i = s.gNow i := by
  have hs : s.countCycles.stream = s.stream := rfl
  rw [State.gNow, me_countCycles, hs, State.gNow]
  cases s.stream <;> rfl

theorem sysRead_cycles (s : State) : s.countCycles.sysRead 0x08 = BitVec.ofNat 64 s.countCycles.me.cycles := by
  rw [me_countCycles]
  rfl

/-- What writes a g register counts no cycle. -/
theorem WroteG.cycles {t : State} (h : WroteG s t d v) : t.me.cycles = s.me.cycles := by
  obtain ⟨⟨-, hme⟩, -, -⟩ := h
  rw [← hme]
  cases s.stream <;> rfl

/-- CYCLES reads as a count that does not fall. -/
theorem exec_rdsr_cycles (gd : Guard) (d : BitVec 5) (s : State) :
    ∃ t, exec (.rdsr gd d 0x08) s = .next t ∧ Guarded gd s t
      (t.gNow d = (if d = 0 then 0 else BitVec.ofNat 64 t.me.cycles) ∧ s.me.cycles ≤ t.me.cycles ∧
        ∀ i, i ≠ d → t.gNow i = s.gNow i) := by
  refine ⟨_, (exec_rdsr rfl).trans (guarded_next gd s _), ?_⟩
  unfold Guarded
  split
  · have hw := wgB_wrote s.countCycles d (s.countCycles.sysRead 0x08) 2
    have hc := hw.cycles
    obtain ⟨-, hd, hi⟩ := hw
    have hval : (if d = 0 then (0 : W64) else s.countCycles.sysRead 0x08) = if d = 0 then 0 else
        BitVec.ofNat 64 (s.countCycles.wgB d (s.countCycles.sysRead 0x08) 2).me.cycles := by
      rw [hc, sysRead_cycles]
    refine ⟨hd.trans hval, ?_, fun i h => (hi i h).trans (gNow_countCycles s i)⟩
    rw [if_pos rfl]
    exact (by rw [me_countCycles]; exact Nat.le_add_right .. : s.me.cycles ≤ s.countCycles.me.cycles).trans_eq hc.symm
  · rfl

/-! ## Writes -/

theorem exec_wrsr (hw : sysWritable s.stream n.toNat = true) (hg : guardOk gd s = true) :
    exec (.wrsr gd a n) s = .next (s.sysWrite n.toNat (s.rg a)) := by
  change execWrsr gd a n s = _
  rw [execWrsr, hw, Bool.not_true, if_neg Bool.false_ne_true, guarded_next, if_pos hg]

theorem exec_wrsr_unwritable (h : sysWritable s.stream n.toNat = false) :
    exec (.wrsr gd a n) s = .next (s.trapNow 0x01) := by
  change execWrsr gd a n s = _
  rw [execWrsr, h, Bool.not_false, if_pos rfl]

/-- A register of the C stream that may be written. -/
theorem exec_wrsr_c {k : Nat} (hs : s.stream = .c) (hg : guardOk gd s = true) (hk : k < 2 ^ 13)
    (hw : sysWritable .c k = true) :
    exec (.wrsr gd a (BitVec.ofNat 13 k)) s = .next (s.sysWrite k (s.rg a)) := by
  have hn : (BitVec.ofNat 13 k).toNat = k := by rw [BitVec.toNat_ofNat, Nat.mod_eq_of_lt hk]
  rw [exec_wrsr (by rwa [hs, hn]) hg, hn]

theorem writable_viewT : ∀ k : Fin 8, sysWritable .c (0x48 + k.val) = true := by decide

theorem writable_viewA : ∀ k : Fin 8, sysWritable .c (0x50 + k.val) = true := by decide

theorem writable_qcfg : ∀ k : Fin 4, sysWritable .c (0x70 + k.val) = true := by decide

theorem sysWrite_viewT (s : State) (v : W64) (k : Fin 8) : s.sysWrite (0x48 + k.val) v = s.writeViewT k v := by
  fin_cases k <;> rfl

theorem sysWrite_viewA (s : State) (v : W64) (k : Fin 8) : s.sysWrite (0x50 + k.val) v = s.writeViewA k v := by
  fin_cases k <;> rfl

theorem sysWrite_qcfg (s : State) (v : W64) (k : Fin 4) : s.sysWrite (0x70 + k.val) v =
    if qcfgOk v then s.updMe fun x => { x with qcfg := x.qcfg.set k v } else s.trapNow 0x01 := by
  fin_cases k <;> rfl

/-- The reserved upper half of a 32-bit register. -/
theorem fld_upper (v : W64) : fld v 32 32 = 0 ↔ v.toNat < 2 ^ 32 := by
  unfold fld
  omega

/-- What VARTAB requires of an address (R425). -/
theorem vartabOk_iff (v : W64) : fld v 56 8 = 0 ∧ v.toNat % 64 = 0 ↔ v.toNat < 2 ^ 56 ∧ v.toNat % 64 = 0 := by
  unfold fld
  omega

end SystemRegisters

/-- Settles O14: RDSR by its guard, and WRSR register by register. -/
theorem systemRegistersReadAndWrite : Obligations.SystemRegistersReadAndWrite := by
  intro gd d a n s
  refine ⟨fun hr hn => ?rdsr, exec_rdsr_cycles gd d s, fun hr => ⟨_, exec_rdsr_unreadable hr, trapWith_traps s ..⟩,
    fun hw => ⟨_, exec_wrsr_unwritable hw, trapWith_traps s ..⟩, fun hs hg hv => ⟨?srstate, ?lostcnt⟩,
    fun hs hg hv => ?viewV, fun hs hg hv => ?badViewV, fun k hs hg => ⟨fun hv => ⟨?viewT, ?viewA⟩, fun hv => ?badView⟩,
    fun hs hg hv => ?bad32, fun k hs hg hq => ?badQcfg, fun hs hg hv => ?badVartab, fun k hs hg hq => ?qcfg,
    fun hs hg hlt hal => ?vartab, rfl, rfl, rfl, rfl, rfl, rfl, rfl, rfl⟩
  case rdsr =>
    refine ⟨_, (exec_rdsr hr).trans (guarded_next gd s _), ?_⟩
    simp only [Guarded, if_neg hn]
    split
    · exact wgB_wrote s ..
    · rfl
  case srstate =>
    refine ⟨_, exec_wrsr_c hs hg (by decide) rfl, ?_⟩
    rw [State.sysWrite, if_pos ((fld_upper _).2 hv)]
    exact onlyMe_updMe s _
  case lostcnt =>
    refine ⟨_, exec_wrsr_c hs hg (by decide) rfl, ?_⟩
    rw [State.sysWrite, if_pos ((fld_upper _).2 hv)]
    exact onlyMe_updMe s _
  case viewV =>
    refine ⟨_, exec_wrsr_c hs hg (by decide) rfl, ?_⟩
    rw [State.sysWrite, State.writeViewV, if_pos hv]
    exact onlyMe_updMe s _
  case badViewV =>
    refine ⟨_, exec_wrsr_c hs hg (by decide) rfl, ?_⟩
    rw [State.sysWrite, State.writeViewV, hv, if_neg Bool.false_ne_true]
    exact trapWith_traps s ..
  case viewT =>
    refine ⟨_, exec_wrsr_c hs hg (by omega) (writable_viewT k), ?_⟩
    rw [sysWrite_viewT, State.writeViewT, if_pos hv]
    exact onlyMe_updMe s _
  case viewA =>
    refine ⟨_, exec_wrsr_c hs hg (by omega) (writable_viewA k), ?_⟩
    rw [sysWrite_viewA, State.writeViewA, if_pos hv]
    exact onlyMe_updMe s _
  case badView =>
    have trapT : s.sysWrite (0x48 + k.val) (s.rg a) = s.trapNow 0x04 := by
      rw [sysWrite_viewT, State.writeViewT, hv, if_neg Bool.false_ne_true]
    have trapA : s.sysWrite (0x50 + k.val) (s.rg a) = s.trapNow 0x04 := by
      rw [sysWrite_viewA, State.writeViewA, hv, if_neg Bool.false_ne_true]
    rintro r hr
    obtain rfl | rfl : r = 0x48 + k.val ∨ r = 0x50 + k.val := by simpa using hr
    · exact ⟨_, exec_wrsr_c hs hg (by omega) (writable_viewT k), trapT ▸ trapWith_traps s ..⟩
    · exact ⟨_, exec_wrsr_c hs hg (by omega) (writable_viewA k), trapA ▸ trapWith_traps s ..⟩
  case bad32 =>
    have hne : ¬fld (s.rg a) 32 32 = 0 := by rw [fld_upper]; omega
    rintro r hr
    obtain rfl | rfl : r = 0x20 ∨ r = 0x21 := by simpa using hr
    · refine ⟨_, exec_wrsr_c hs hg (by decide) rfl, ?_⟩
      rw [State.sysWrite, if_neg hne]
      exact trapWith_traps s ..
    · refine ⟨_, exec_wrsr_c hs hg (by decide) rfl, ?_⟩
      rw [State.sysWrite, if_neg hne]
      exact trapWith_traps s ..
  case badQcfg =>
    refine ⟨_, exec_wrsr_c hs hg (by omega) (writable_qcfg k), ?_⟩
    rw [sysWrite_qcfg, hq, if_neg Bool.false_ne_true]
    exact trapWith_traps s ..
  case qcfg =>
    refine ⟨_, exec_wrsr_c hs hg (by omega) (writable_qcfg k), ?_⟩
    rw [sysWrite_qcfg, if_pos hq]
    exact onlyMe_updMe s _
  case badVartab =>
    refine ⟨_, exec_wrsr (by rw [hs]; rfl) hg, ?_⟩
    have hne : ¬(fld (s.rg a) 56 8 = 0 ∧ (s.rg a).toNat % 64 = 0) := by rw [vartabOk_iff]; omega
    have trap : s.sysWrite 0x0B (s.rg a) = s.trapNow 0x01 := if_neg hne
    exact trap ▸ trapWith_traps s ..
  case vartab =>
    refine ⟨_, exec_wrsr (by rw [hs]; rfl) hg, ?_⟩
    have write : s.sysWrite 0x0B (s.rg a) =
        s.updMe fun x => { x.note (.vartab x.vartab x.varErr) with vartab := s.rg a, varErr := false } :=
      if_pos ((vartabOk_iff _).2 ⟨hlt, hal⟩)
    have hme := State.me_updMe s fun x => { x.note (.vartab x.vartab x.varErr) with vartab := s.rg a, varErr := false }
    refine write ▸ ⟨sameButCore_updMe s _, ?_, ?_, ?_⟩
    all_goals rw [hme]
    rfl

end Sys2Proof.Machine

/-! PROOFS. A result reads as a free value before its bound and as itself from it on (O34). -/

namespace Sys2Proof.Machine

/-- Landing the bytes of a result writes them from its offset up. -/
theorem landOne_eq_writeN (bs : List Byte) : ∀ (m : Memory) (off : Nat),
    ((List.range bs.length).map fun i => (off + i, bs.getD i 0)).foldl (fun m e => Memory.write m e.1 e.2) m =
      Memory.writeN m off bs := by
  induction bs with
  | nil => exact fun _ _ => rfl
  | cons b bs ih =>
    intro m off
    rw [Memory.writeN, ← ih, List.length_cons, List.range_succ_eq_map]
    simp [Function.comp_def, Nat.add_right_comm, Nat.add_assoc]

/-- A byte that an earlier slot has still to write reads as a free value. -/
theorem opByte_undefined {s : State} {o : Nat} (h : s.me.undefinedAt o = true) :
    s.opByte o = Config.anyByte (s.freeIx o) := by
  rw [State.opByte, h, Bool.true_or, if_pos rfl]

theorem opByte_defined {s : State} {o : Nat} (h : s.me.undefinedAt o = false) (hd : s.me.mx.drains o = false) :
    s.opByte o = Memory.read s.me.opfile o := by
  rw [State.opByte, h, hd, Bool.or_self, if_neg Bool.false_ne_true]

/-! ## The one result of a core -/

section Results

variable {x : Ctx} {l : Landing} {off k i : Nat} {bs : List Byte}

theorem landDue_before (hl : x.landings = [l]) (h : ¬l.due ≤ k) :
    (x.landDue k).landings = [l] ∧ (x.landDue k).opfile = x.opfile := by
  simp [Ctx.landDue, hl, h]

theorem landDue_after (hl : x.landings = [l]) (h : l.due ≤ k) :
    (x.landDue k).landings = [] ∧ (x.landDue k).opfile = landOne x.opfile l := by
  simp [Ctx.landDue, hl, h]

theorem undefinedAt_inside (hl : x.landings = [l]) (hs : l.slot < x.slot)
    (hc : l.cells = (List.range bs.length).map fun i => (off + i, bs.getD i 0)) (hi : i < bs.length) :
    x.undefinedAt (off + i) = true := by
  simp [Ctx.undefinedAt, hl, hs, hc, hi]

theorem undefinedAt_outside {o : Nat} (hl : x.landings = [l]) (hg : l.ghosts = [])
    (hc : l.cells = (List.range bs.length).map fun i => (off + i, bs.getD i 0)) (ho : o < off ∨ off + bs.length ≤ o) :
    x.undefinedAt o = false := by
  have hne : ∀ j < bs.length, off + j ≠ o := by omega
  simpa [Ctx.undefinedAt, hl, hg, hc] using fun _ => hne

theorem undefinedAt_none {o : Nat} (hl : x.landings = []) : x.undefinedAt o = false := by
  rw [Ctx.undefinedAt, hl, List.any_nil]

end Results

/-- Settles O34, by whether the bound has passed after `k` words. -/
theorem resultsAreReadAtTheirBound : Obligations.ResultsAreReadAtTheirBound := by
  intro s off bs bound k i hi hb hk hnone _
  refine ⟨fun o ho => by rw [State.opByte, ho, Bool.or_true, if_pos rfl], ?_⟩
  intro t u hdrains
  obtain ⟨-, hrest, l, hl, hslot, hdue, hghosts, hcells⟩ := opWrite_onItsWay s off bs bound
  rw [hnone, List.map_nil, List.nil_append] at hl
  have hts : t.me.slot = s.me.slot := (congrArg Ctx.slot hrest :)
  have hto : t.me.opfile = s.me.opfile := (congrArg Ctx.opfile hrest :)
  have hu : u.me = ({ t.me with slot := t.me.slot + k } : Ctx).landDue (t.me.slot + k) := State.me_updMe t _
  have hslotU : u.me.slot = t.me.slot + k := hu ▸ rfl
  have hmx : u.me.mx = s.me.mx := hu ▸ (congrArg Ctx.mx hrest :)
  have hd (o : Nat) : u.me.mx.drains o = false := hmx ▸ hdrains o
  by_cases hkb : bound ≤ k
  · obtain ⟨hland, hop⟩ : u.me.landings = [] ∧ u.me.opfile = landOne t.me.opfile l :=
      hu ▸ landDue_after (x := { t.me with slot := t.me.slot + k }) hl (by omega)
    rw [landOne, hcells, landOne_eq_writeN, hto] at hop
    have hread (o : Nat) : u.opByte o = Memory.read (Memory.writeN s.me.opfile off bs) o := by
      rw [opByte_defined (undefinedAt_none hland) (hd o), hop]
    refine ⟨fun h => absurd hkb (by omega), fun _ => ?_, fun o ho => ?_⟩
    · rw [hread, Memory.read_writeN_inside _ _ _ _ hi, List.getD_eq_getElem _ _ hi]
    · rw [hread, Memory.read_writeN_outside _ _ _ _ ho]
  · obtain ⟨hland, hop⟩ : u.me.landings = [l] ∧ u.me.opfile = t.me.opfile :=
      hu ▸ landDue_before (x := { t.me with slot := t.me.slot + k }) hl (by omega)
    refine ⟨fun _ => ?_, fun h => absurd h hkb, fun o ho => ?_⟩
    · exact opByte_undefined (undefinedAt_inside hland (by omega) hcells hi)
    · rw [opByte_defined (undefinedAt_outside hland hghosts hcells ho) (hd o), hop, hto]

end Sys2Proof.Machine

/-! PROOFS. A step runs the instruction that its next item decodes to (O55). -/

namespace Sys2Proof.Machine

/-! ## The destinations of one operation -/

theorem twice_eq_false {α : Type} [DecidableEq α] {l : List α} (h : l.Nodup) : twice l = false := by
  induction l with
  | nil => rfl
  | cons a l ih =>
    rw [List.nodup_cons] at h
    simp [twice, h.1, ih h.2]

theorem nodup_pair : ∀ d : BitVec 5, [d, d + 1].Nodup := by decide

theorem nodup_quad : ∀ d : BitVec 5, [d, d + 1, d + 2, d + 3].Nodup := by decide

/-- An operation names no g register twice as a destination. -/
theorem gDests_nodup (i : Instr) : (gDests i).Nodup := by
  unfold gDests
  split
  case h_50 | h_51 =>
    split
    · exact nodup_quad _
    · exact nodup_pair _
  case h_52 => exact nodup_pair _
  case h_53 => exact List.nodup_nil
  all_goals exact List.nodup_singleton _

theorem pDests_nodup (i : Instr) : (pDests i).Nodup := by
  unfold pDests
  split <;> simp

/-- One operation beside NOPs shares no destination (R120). -/
theorem sameDest_alone (i : Instr) : sameDest [i, .nop, .nop] = false := by
  have hg : [i, .nop, .nop].flatMap gDests = gDests i := by
    simp [gDests]
  have hp : [i, .nop, .nop].flatMap pDests = pDests i := by
    simp [pDests]
  rw [sameDest, hg, hp, twice_eq_false ((gDests_nodup i).filter _), twice_eq_false ((pDests_nodup i).filter _)]
  rfl

/-! ## A word of one operation -/

section Word

variable {f t : State} {i : Instr}

theorem withVerdict_eq {v : Verdict} (h : t.verdict = v) : { t with verdict := v } = t := h ▸ rfl

/-- A NOP of a word changes nothing but the verdict of the operation before it. -/
theorem runOp_nop (base : State) (w : WordRun) : runOp base w .nop = { w with cur := { w.cur with verdict := .ran } } :=
  rfl

theorem runOp_of_exec (hf : f.verdict = .ran) (he : exec i f = .next t) : runOp f { cur := f } i =
    match t.verdict with
    | .ran => { cur := t }
    | .moved => { cur := t, moved := true }
    | .waits r => { cur := f, wait := some (r, f.waitAlone i r) }
    | .traps cause code addr => { cur := f, trap := some (i, cause, code, addr) } := by
  have he' : exec i { f with verdict := .ran } = .next t := by rw [withVerdict_eq hf, he]
  simp only [runOp, he']
  cases t.verdict <;> rfl

/-- A word of one operation ends as that operation does: it passes, or waits with what the operation left, or raises its
cause (R20, R138, R207). -/
theorem finish_alone (hf : f.verdict = .ran) (he : exec i f = .next t) :
    ([i, .nop, .nop].foldl (runOp f) { cur := f }).finish f =
      match t.verdict with
      | .ran => .next (t.commitWord f false)
      | .moved => .next (State.commitWord { t with verdict := .ran } f true)
      | .waits _ => .next (t.updMe fun x => x.atCut f.stream)
      | .traps cause code addr => f.wordTrap i cause code addr := by
  rw [List.foldl_cons, List.foldl_cons, List.foldl_cons, List.foldl_nil, runOp_nop, runOp_nop, runOp_of_exec hf he]
  cases hv : t.verdict with
  | ran =>
    change Host.Outcome.next (State.commitWord { t with verdict := .ran } f false) = _
    rw [withVerdict_eq hv]
  | moved => rfl
  | waits r =>
    change Host.Outcome.next ((f.waitAlone i r).updMe fun x => x.atCut f.stream) = _
    rw [State.waitAlone, he]
    simp only [hv]
  | traps cause code addr => rfl

theorem wordTrap_of_ne {cause : Cause} {code : Byte} {addr : W64} (h : ∀ gd n, i ≠ .trap gd n) :
    f.wordTrap i cause code addr = .next (f.trapWith cause code addr) := by
  unfold State.wordTrap
  split
  · exact absurd rfl (h _ _)
  · rfl

/-- With no access outstanding every result of an item stands. -/
theorem precise_of_not_busy (r : Result) (hb : f.accessBusy = false) : f.precise r = r := by
  unfold State.precise
  split
  · split
    · rw [hb, if_neg Bool.false_ne_true]
    · rfl
  · rfl

/-- A word that names no destination twice, holds no bad CALL and meets no interlock runs its operations. -/
theorem issueOps_runs {is : List Instr} (hd : sameDest is = false) (hc : f.badCall is = false)
    (hb : f.blockedByAccess is = false) (hi : f.me.interlocked is = []) :
    f.issueOps is = (is.foldl (runOp f) { cur := f }).finish f := by
  simp only [State.issueOps, hd, hc, hb, hi, Bool.false_eq_true, if_false]

end Word

/-! ## The item at a stream's pc -/

section Issue

variable {s : State} {c : Nat} {st : StreamId}

theorem ctx_keepPage (s : State) (c a : Nat) (k : Nat) : (s.keepPage c a).ctx k = s.ctx k := by
  unfold State.keepPage
  split
  · rfl
  · split <;> rfl

theorem ctx_keepCode (s : State) (c : Nat) (st : StreamId) (k : Nat) : (s.keepCode c st).ctx k = s.ctx k := by
  rw [State.keepCode, ctx_keepPage, ctx_keepPage]

/-- A stream that waits for no dependence issues its next item. -/
theorem issue_item (hcan : s.canIssue c st = true) (hdep : ((s.ctx c).stream st).dep = none)
    (hb : ((s.keepCode c st).focusOn c st).accessBusy = false) :
    s.issue c st = ((s.keepCode c st).focusOn c st).issueItem := by
  have hdep' : ((((s.keepCode c st).focusOn c st).ctx c).stream st).dep = none := by
    rw [← hdep, ← ctx_keepCode s c st c]
    rfl
  simp only [State.issue, hcan, Bool.not_true, Bool.false_eq_true, if_false, hdep']
  exact precise_of_not_busy _ hb

theorem me_focusOn_keepCode (s : State) (c : Nat) (st : StreamId) :
    ((s.keepCode c st).focusOn c st).me = s.ctx c :=
  ctx_keepCode s c st c

theorem issueItem_header (hp : (s.me.stream s.stream).phase = .header) : s.issueItem = s.issueHeader :=
  if_pos (Or.inl hp)

theorem issueItem_word (hp : (s.me.stream s.stream).phase = .body)
    (hpc : (s.me.stream s.stream).pc ≠ (s.me.stream s.stream).secStart + 3 * (s.me.stream s.stream).secLen) :
    s.issueItem = s.issueWord :=
  if_neg (by rw [hp]; exact fun h => h.elim nofun hpc)

theorem issueWord_decoded {a b d : Nat} {is : List Instr} (hx : s.itemSyls 3 = .ok [a, b, d]) (ha : a / 2 ^ 30 % 4 ≠ 3)
    (hdec : decodeWord s.stream a b d = .ok is) : s.issueWord = s.issueOps is := by
  simp only [State.issueWord, hx, List.getD_cons_zero, List.getD_cons_succ, if_neg ha, hdec]

theorem issueHeader_decoded {a b : Nat} {i : Instr} (hx : s.itemSyls 2 = .ok [a, b]) (hdec : decodeHeader a b = .ok i) :
    s.issueHeader = exec i s := by
  simp only [State.issueHeader, hx, List.getD_cons_zero, List.getD_cons_succ, hdec]

end Issue

/-- The move at the head of the agenda is the one that is made. -/
theorem step_of_agenda {s : State} {m : Move} {rest : List Move} (h : s.agenda = m :: rest) :
    step s = s.advance.move m := by
  rw [step, State.nextMove, h]

/-- Settles O55, move by move; a word of one operation by what the operation answers. -/
theorem stepRunsTheDecodedInstruction : Obligations.StepRunsTheDecodedInstruction := by
  intro s rest go
  refine ⟨?word, ?header, ?engine, ?packet, ?circuitWord, ?event⟩
  case word =>
    intro c st a b d i t hag f hcan hdep hbody hpc hx ha hdec hcall hblk hlock hbusy he
    have hme : f.me = go.ctx c := me_focusOn_keepCode go c st
    have hst : f.stream = st := rfl
    have hstep : step s = ([i, .nop, .nop].foldl (runOp f) { cur := f }).finish f := by
      rw [step_of_agenda hag]
      change go.issue c st = _
      rw [issue_item hcan hdep hbusy, issueItem_word (by rw [hme]; exact hbody) (by rw [hme]; exact hpc),
        issueWord_decoded hx ha hdec, issueOps_runs (sameDest_alone i) hcall hblk hlock]
    rw [finish_alone rfl he] at hstep
    refine ⟨fun hv => ?_, fun hv => ?_, fun r hv => ?_, fun k code addr hv hi => ?_⟩ <;> rw [hv] at hstep
    · exact hstep
    · exact hstep
    · exact hstep
    · exact hstep.trans (wordTrap_of_ne hi)
  case header =>
    intro c st a b h hag hcan hdep hphase f hx hdec hbusy
    have hme : f.me = go.ctx c := me_focusOn_keepCode go c st
    rw [step_of_agenda hag]
    change go.issue c st = _
    rw [issue_item hcan hdep hbusy, issueItem_header (by rw [hme]; exact hphase), issueHeader_decoded hx hdec]
  case engine =>
    intro c e r hag hf0 hheld hcan
    have hgo : (((go.ctx c).flock.isSome || decide (frontCore ≤ c)) && (go.ctx c).canStart e) = true := by
      change (((s.ctx c).flock.isSome || decide (frontCore ≤ c)) && (s.ctx c).canStart e) = true
      rw [hcan, Bool.and_true, Bool.or_eq_true, decide_eq_true_iff]
      exact hheld
    have hq : (go.ctx c).f0 = e :: r := hf0
    refine ⟨{ go.updCtx c (fun x => { x with f0 := r }.tookFifo 0 |>.wake) with focus := .engine c e, verdict := .ran },
      ?_, rfl, ?_, rfl⟩
    · rw [step_of_agenda hag]
      change go.engineMove c = _
      simp only [State.engineMove, hq, hgo, if_true]
    · exact congrArg Ctx.f0 (State.ctx_updCtx_same go c fun x => ({ x with f0 := r } : Ctx).tookFifo 0 |>.wake)
  case packet =>
    intro n q p hag hen hhead
    rw [step_of_agenda hag]
    change go.packetMove n q = _
    simp only [State.packetMove, hen, Bool.false_eq_true, if_false, hhead]
  case circuitWord =>
    intro n i hag hnext
    rw [step_of_agenda hag]
    change go.wordMove n = _
    simp only [State.wordMove, hnext]
  case event =>
    intro i hag henc hwf
    rw [step_of_agenda hag]
    change go.eventMove i = _
    rw [State.eventMove, henc, hwf]
    rfl

end Sys2Proof.Machine

/-! PROOFS. In every state the step answers a next state (O56). -/

namespace Sys2Proof.Machine

/-! ## Forms of a meaning -/

section Answers

variable {s : State} {gd : Guard} {f : State → State}

theorem answers_next (t : State) : Answers (.next t) := ⟨t, rfl⟩

theorem answers_guarded (gd : Guard) (s : State) (f : State → State) : Answers (guarded gd s f) := ⟨_, rfl⟩

theorem answers_ite {c : Prop} [Decidable c] {x y : Result} (hx : Answers x) (hy : Answers y) :
    Answers (if c then x else y) := by
  split
  · exact hx
  · exact hy

theorem answers_onLq {q : BitVec 3} : Answers (s.onLq q gd f) := answers_ite (answers_next _) (answers_guarded ..)

theorem answers_onSq {q : BitVec 3} : Answers (s.onSq q gd f) := answers_ite (answers_next _) (answers_guarded ..)

theorem answers_onSt {st : BitVec 4} : Answers (s.onSt st gd f) := answers_ite (answers_next _) (answers_guarded ..)

theorem answers_onBar {b : BarOp} : Answers (s.onBar b gd f) := answers_ite (answers_next _) (answers_guarded ..)

theorem answers_onMx : Answers (s.onMx gd f) := answers_ite (answers_next _) (answers_guarded ..)

end Answers

/-- Every arm of the dispatch answers a next state: most with one `next`, and those that check a register, a queue or a form
first in each of their branches. -/
theorem exec_answers (i : Instr) (s : State) : Answers (exec i s) := by
  cases i with
  | ldlQ | ldr | ldrOffset | gath | gathN | qpush | recv | recvTry | qpop => exact answers_onLq
  | stQ | stlQ | str | strOffset | pushSq | send | sendTry | qput => exact answers_onSq
  | stcfg | stcfgOffset | stadv | stadvSkip | stadvImm => exact answers_onSt
  | barArrive | barWait | barArwt => exact answers_onBar
  | mxsetHdr | mxsetLvl | mxbindG | mxbindView | mxgrp | mxgo | mxcommit | mxcommitClr => exact answers_onMx
  | brBq => exact answers_ite (answers_next _) (answers_next _)
  | bqpush | rdsr | wrsr => exact answers_ite (answers_next _) (answers_guarded ..)
  | lds => exact answers_ite (answers_next _) answers_onSt
  | qmx => exact answers_ite (answers_next _) (answers_guarded ..)
  | mxwait | mxswap => exact answers_ite (answers_next _) answers_onMx
  | ldlOffset gd f =>
    cases f with
    | reg => exact ⟨_, rfl⟩
    | queue => exact answers_onLq
  | stOffset gd f | stlOffset gd f =>
    cases f with
    | reg => exact ⟨_, rfl⟩
    | queue => exact answers_onSq
  | vfshl gd d a b amt | vfshr gd d a b amt =>
    cases amt with
    | imm | reg => exact ⟨_, rfl⟩
  | _ => exact ⟨_, rfl⟩

/-! ## The issue of a stream -/

section Issue

variable {s base : State} {i : Instr} {is : List Instr} {w : WordRun}

/-- No operation of a word is refused. -/
theorem runOp_refused (base : State) (w : WordRun) (i : Instr) : (runOp base w i).refused = w.refused := by
  obtain ⟨t, ht⟩ := exec_answers i { w.cur with verdict := .ran }
  simp only [runOp, ht]
  split
  case h_4 =>
    split
    · rfl
    · split <;> rfl
  all_goals rfl

theorem runOps_refused (base : State) (is : List Instr) (w : WordRun) :
    (is.foldl (runOp base) w).refused = w.refused := by
  induction is generalizing w with
  | nil => rfl
  | cons i is ih => exact (ih _).trans (runOp_refused base w i)

theorem answers_wordTrap {cause : Cause} {code : Byte} {addr : W64} : Answers (base.wordTrap i cause code addr) := by
  unfold State.wordTrap
  split
  next gd n =>
    obtain ⟨t, ht⟩ := exec_answers (.trap gd n) base
    rw [ht]
    exact answers_next _
  · exact answers_next _

theorem answers_finish (h : w.refused = none) : Answers (w.finish base) := by
  unfold WordRun.finish
  rw [h]
  dsimp only
  split
  · exact answers_wordTrap
  · exact answers_ite answers_wordTrap (answers_next _)
  · exact answers_next _
  · exact answers_next _

theorem answers_issueOps : Answers (s.issueOps is) := by
  unfold State.issueOps
  refine answers_ite (answers_next _) (answers_ite (answers_next _) (answers_ite (answers_next _) ?_))
  split
  · exact answers_finish (runOps_refused s is _)
  · exact answers_next _

theorem answers_issueWord : Answers s.issueWord := by
  unfold State.issueWord
  split
  · exact answers_next _
  · refine answers_ite (answers_next _) ?_
    split
    · exact answers_next _
    · exact answers_issueOps

theorem answers_issueHeader : Answers s.issueHeader := by
  unfold State.issueHeader
  split
  · exact answers_next _
  · split
    · exact answers_next _
    · exact exec_answers _ _

theorem answers_precise {r : Result} (h : Answers r) : Answers (s.precise r) := by
  obtain ⟨t, rfl⟩ := h
  unfold State.precise
  dsimp only
  split
  · exact answers_ite (answers_next _) (answers_next _)
  · exact answers_next _

theorem answers_issueItem : Answers s.issueItem := answers_ite answers_issueHeader answers_issueWord

theorem answers_issue {c : Nat} {st : StreamId} : Answers (s.issue c st) := by
  refine answers_ite (answers_next _) ?_
  dsimp only
  split
  · exact answers_precise answers_issueItem
  · exact answers_ite (answers_precise answers_issueItem) (answers_next _)

end Issue

/-! ## The other moves -/

section Moves

variable {s : State}

theorem answers_engineMove {c : Nat} : Answers (s.engineMove c) := by
  unfold State.engineMove
  dsimp only
  split
  · exact answers_next _
  · exact answers_ite (exec_answers _ _) (answers_next _)

theorem answers_packetMove {part q : Nat} : Answers (s.packetMove part q) := by
  unfold State.packetMove
  dsimp only
  split
  · exact answers_next _
  · exact exec_answers _ _

theorem answers_wordMove {part : Nat} : Answers (s.wordMove part) := by
  unfold State.wordMove
  split
  case h_4 => exact exec_answers _ _
  all_goals exact answers_next _

theorem answers_move (m : Move) : Answers (s.move m) := by
  cases m with
  | issue => exact answers_issue
  | engine => exact answers_engineMove
  | packet => exact answers_packetMove
  | circuitWord => exact answers_wordMove
  | event i => exact answers_ite (exec_answers _ _) (answers_next _)
  | _ => exact answers_next _

end Moves

/-- Settles O56: each move answers, since each arm of the dispatch does. -/
theorem everyStepGoesOn : Obligations.EveryStepGoesOn := fun s => answers_move (s := s.advance) s.nextMove

end Sys2Proof.Machine

/-! PROOFS. The quantiser's run over its elements (O35): what each element adds, and what a list of them leaves. -/

namespace Sys2Proof.Machine

/-- The generator after `k` elements, where each steps it (R96). -/
def srAt (steps : Bool) (sr : W32) (k : Nat) : W32 := if steps then srNext^[k] sr else sr

theorem srAt_add (steps : Bool) (sr : W32) (k j : Nat) : srAt steps (srAt steps sr k) j = srAt steps sr (k + j) := by
  cases steps with
  | false => rfl
  | true =>
    rw [Nat.add_comm]
    exact (Function.iterate_add_apply srNext j k sr).symm

/-- What elements with these conversions make of a run (R244, R248, R256). -/
structure QuantRun.Leads (r t : QuantRun) (steps : Bool) (ys : List Conv) : Prop where
  sr : t.sr = srAt steps r.sr ys.length
  out : t.out = (ys.map Conv.bits).reverse ++ r.out
  trap : t.trap = (r.trap || ys.any Conv.trap)
  elems : t.stats.elems = ys.foldl (fun m _ => satAdd (2 ^ 64 - 1) m 1) r.stats.elems
  sat : t.stats.sat = ys.foldl (fun m y => sat32 m (b2n y.sat)) r.stats.sat
  flush : t.stats.flush = ys.foldl (fun m y => sat32 m (b2n y.flush)) r.stats.flush
  nan : t.stats.nan = ys.foldl (fun m y => sat32 m (b2n y.nan)) r.stats.nan

section Leads

variable {r t u : QuantRun} {steps : Bool} {ys zs : List Conv} {α : Type}

theorem QuantRun.Leads.refl (r : QuantRun) (steps : Bool) : r.Leads r steps [] :=
  ⟨by cases steps <;> rfl, rfl, by simp, rfl, rfl, rfl, rfl⟩

theorem QuantRun.Leads.trans (h : r.Leads t steps ys) (k : t.Leads u steps zs) : r.Leads u steps (ys ++ zs) where
  sr := by rw [k.sr, h.sr, srAt_add, List.length_append]
  out := by rw [k.out, h.out]; simp
  trap := by rw [k.trap, h.trap, List.any_append, Bool.or_assoc]
  elems := by rw [k.elems, h.elems, List.foldl_append]
  sat := by rw [k.sat, h.sat, List.foldl_append]
  flush := by rw [k.flush, h.flush, List.foldl_append]
  nan := by rw [k.nan, h.nan, List.foldl_append]

/-- One element: the generator's step, and then the element's conversion. -/
theorem QuantRun.leads_take (r : QuantRun) (steps : Bool) (x v : FVal) (y : Conv) :
    r.Leads (({ r with sr := srAt steps r.sr 1 } : QuantRun).take x y v) steps [y] :=
  ⟨rfl, rfl, by simp [QuantRun.take], rfl, rfl, rfl, rfl⟩

/-- A function that takes one element, of the conversion that `conv` gives with the generator as it then stands. -/
def TakesOne (steps : Bool) (conv : W32 → α → Conv) (one : QuantRun → α → QuantRun) : Prop :=
  ∀ r a, ∃ x v, one r a =
    ({ r with sr := srAt steps r.sr 1 } : QuantRun).take x (conv (srAt steps r.sr 1) a) v

/-- A list of elements, each with the generator as the elements before it leave it. -/
theorem leads_foldl {conv : W32 → α → Conv} {one : QuantRun → α → QuantRun} (h : TakesOne steps conv one) (d : α)
    (as : List α) : ∀ r : QuantRun, r.Leads (as.foldl one r) steps
      ((List.range as.length).map fun j => conv (srAt steps r.sr (j + 1)) (as.getD j d)) := by
  induction as with
  | nil => exact fun r => QuantRun.Leads.refl r steps
  | cons a as ih =>
    intro r
    obtain ⟨x, v, hone⟩ := h r a
    have hfirst := r.leads_take steps x v (conv (srAt steps r.sr 1) a)
    rw [← hone] at hfirst
    have hrest := hfirst.trans (ih (one r a))
    rw [List.foldl_cons, List.length_cons, List.range_succ_eq_map, List.map_cons, List.map_map]
    convert hrest using 1
    rw [hfirst.sr]
    simp [srAt_add, Function.comp_def, Nat.add_comm 1]

/-! ## Counts that saturate -/

/-- Counting the elements of a list one by one counts them at once (R256). -/
theorem foldl_satAdd (limit : Nat) (f : Conv → Bool) (ys : List Conv) (hys : ys ≠ []) : ∀ m : Nat,
    ys.foldl (fun m y => satAdd limit m (b2n (f y))) m = min limit (m + ys.countP f) := by
  induction ys with
  | nil => exact absurd rfl hys
  | cons y ys ih =>
    intro m
    have hy : (y :: ys).countP f = b2n (f y) + ys.countP f := by
      rw [List.countP_cons, b2n, Nat.add_comm]
    rw [List.foldl_cons, hy]
    cases ys with
    | nil => rfl
    | cons z zs =>
      rw [ih (List.cons_ne_nil _ _), satAdd]
      omega

end Leads

/-! ## CVT -/

/-- The conversion of an element of CVT, with the generator as it stands for it (R244). -/
def cvtConv (q : W64) (sr : W32) (e : Nat) : Conv :=
  if convExact (numFmt (cfgSfmt q)) (numFmt (cfgDfmt q)) then
    downConv (numFmt (cfgDfmt q)) .rne 0 (readNum (numFmt (cfgSfmt q)) e)
  else downConv (numFmt (cfgDfmt q)) (rmodeOf (cfgRm q) sr) (cfgOvp q) (readNum (numFmt (cfgSfmt q)) e)

/-- Whether an element of CVT steps the generator. -/
def cvtSteps (q : W64) : Bool := cfgRm q == 4 && !convExact (numFmt (cfgSfmt q)) (numFmt (cfgDfmt q))

theorem advance_eq (r : QuantRun) (rm : Nat) : r.advance rm = { r with sr := srAt (rm == 4) r.sr 1 } := by
  by_cases h : rm = 4
  · simp [QuantRun.advance, h, srAt]
  · simp [QuantRun.advance, h, srAt]

theorem takesOne_cvt (q : W64) : TakesOne (cvtSteps q) (cvtConv q) (cvtOne q) := by
  intro r e
  refine ⟨readNum (numFmt (cfgSfmt q)) e,
    readNum (numFmt (cfgDfmt q)) (cvtConv q (srAt (cvtSteps q) r.sr 1) e).bits, ?_⟩
  cases hx : convExact (numFmt (cfgSfmt q)) (numFmt (cfgDfmt q)) with
  | true =>
    simp only [cvtOne, cvtConv, cvtSteps, hx, if_true, Bool.not_true, Bool.and_false]
    rfl
  | false =>
    simp only [cvtOne, cvtConv, cvtSteps, hx, Bool.not_false, Bool.and_true, advance_eq]
    rfl

/-! ## QMX -/

/-- The conversion of an element of a block, over the block's scale, with the generator as it stands for it (R246). -/
def qmxConv (q : W64) (scale : FVal) (sr : W32) (x : FVal) : Conv :=
  match scale with
  | .fin _ num den =>
    downConv (numFmt (cfgDfmt q)) (rmodeOf (cfgRm q) sr) (cfgOvp q) (x.divPos num (den * 2 ^ mxQ (cfgDfmt q)))
  | _ => { bits := 0, nan := true, trap := cfgOvp q == 3 }

/-- The scale byte of block `k` of a source. -/
def scaleOf (q : W64) (blk : Nat) (xs : List FVal) (k : Nat) : Nat :=
  blockScale (cfgDfmt q) ((xs.drop (blk * k)).take blk)

/-- The conversion of element `j` of a source, the generator standing at `sr` before the first. -/
def qmxCode (q : W64) (blk : Nat) (xs : List FVal) (sr : W32) (j : Nat) : Conv :=
  qmxConv q (scaleVal (cfgDfmt q) (scaleOf q blk xs (j / blk))) (srAt (cfgRm q == 4) sr (j + 1)) (xs.getD j .nan)

theorem takesOne_qmx (q : W64) (scale : FVal) : TakesOne (cfgRm q == 4) (qmxConv q scale) (qmxOne q scale) := by
  intro r x
  cases scale with
  | nan | inf =>
    refine ⟨x, .nan, ?_⟩
    simp only [qmxOne, qmxConv, advance_eq]
  | fin sg num den =>
    refine ⟨x, (readNum (numFmt (cfgDfmt q)) (qmxConv q (.fin sg num den) (srAt (cfgRm q == 4) r.sr 1) x).bits).mul
      (.fin false num (den * 2 ^ mxQ (cfgDfmt q))), ?_⟩
    simp only [qmxOne, qmxConv, advance_eq]

section Blocks

variable {q : W64} {blk : Nat}

theorem scaleOf_drop (xs : List FVal) (k : Nat) : scaleOf q blk (xs.drop blk) k = scaleOf q blk xs (k + 1) := by
  rw [scaleOf, scaleOf, List.drop_drop, Nat.mul_succ, Nat.add_comm]

/-- An element of a later block is one of the source without its first block. -/
theorem qmxCode_drop (hb : 0 < blk) (xs : List FVal) (sr : W32) (j : Nat) :
    qmxCode q blk (xs.drop blk) (srAt (cfgRm q == 4) sr blk) j = qmxCode q blk xs sr (blk + j) := by
  rw [qmxCode, qmxCode, scaleOf_drop, srAt_add, Nat.add_div_left j hb]
  simp [List.getD, List.getElem?_drop, Nat.add_assoc]

/-- An element of the first block. -/
theorem qmxCode_first {xs : List FVal} {sr : W32} {j : Nat} (hj : j < blk) :
    qmxCode q blk xs sr j = qmxConv q (scaleVal (cfgDfmt q) (blockScale (cfgDfmt q) (xs.take blk)))
      (srAt (cfgRm q == 4) sr (j + 1)) ((xs.take blk).getD j .nan) := by
  rw [qmxCode, scaleOf, Nat.div_eq_of_lt hj, Nat.mul_zero, List.drop_zero]
  simp [List.getD, hj]

/-- The first block of a source, over its scale. -/
theorem leads_firstBlock {xs : List FVal} (hlen : blk ≤ xs.length) (r : QuantRun) :
    r.Leads ((xs.take blk).foldl (qmxOne q (scaleVal (cfgDfmt q) (blockScale (cfgDfmt q) (xs.take blk)))) r)
      (cfgRm q == 4) ((List.range blk).map (qmxCode q blk xs r.sr)) := by
  have hblock := leads_foldl (takesOne_qmx q (scaleVal (cfgDfmt q) (blockScale (cfgDfmt q) (xs.take blk)))) .nan
    (xs.take blk) r
  rw [List.length_take_of_le hlen] at hblock
  convert hblock using 1
  exact List.map_congr_left fun j hj => qmxCode_first (List.mem_range.1 hj)

/-- The blocks of a source, in ascending order (R245). -/
theorem leads_qmxBlocks (hb : 0 < blk) (n : Nat) : ∀ (xs : List FVal) (r : QuantRun), blk * n ≤ xs.length →
    r.Leads (qmxBlocks q blk r xs n).1 (cfgRm q == 4) ((List.range (blk * n)).map (qmxCode q blk xs r.sr)) ∧
      (qmxBlocks q blk r xs n).2 = (List.range n).map (scaleOf q blk xs) := by
  induction n with
  | zero => exact fun xs r _ => ⟨QuantRun.Leads.refl r _, rfl⟩
  | succ n ih =>
    intro xs r hlen
    have hsplit : blk * (n + 1) = blk + blk * n := by ring
    have hfirst := leads_firstBlock (q := q) (by omega : blk ≤ xs.length) r
    simp only [qmxBlocks]
    generalize (xs.take blk).foldl (qmxOne q (scaleVal (cfgDfmt q) (blockScale (cfgDfmt q) (xs.take blk)))) r = t at hfirst ⊢
    have hsr : t.sr = srAt (cfgRm q == 4) r.sr blk := by rw [hfirst.sr, List.length_map, List.length_range]
    obtain ⟨hrest, hscales⟩ := ih (xs.drop blk) t (by rw [List.length_drop]; omega)
    refine ⟨?_, ?_⟩
    · have hall := hfirst.trans hrest
      rw [hsr, List.map_congr_left fun j _ => qmxCode_drop hb xs r.sr j] at hall
      rw [hsplit, List.range_add, List.map_append, List.map_map]
      exact hall
    · rw [hscales, List.range_succ_eq_map, List.map_cons, List.map_map, scaleOf, Nat.mul_zero, List.drop_zero,
        List.map_congr_left fun k _ => scaleOf_drop xs k]
      rfl

end Blocks

/-! ## How many elements there are -/

theorem length_unpackElems (w : Nat) (bs : List Byte) : (unpackElems w bs).length = 8 * bs.length / w := by
  simp [unpackElems]

theorem length_vRead (s : State) (a : BitVec 5) : (s.vRead a).length = 256 := by
  simp [State.vRead, State.opBytes]

/-- The widths of the formats that CVT takes (R92, R240). -/
theorem fmtBits_of_cvtFmt {f : Nat} (h : cvtFmt f = true) : fmtBits f ∈ [1, 2, 4, 6, 8, 16, 32] := by
  obtain hle | rfl : f ≤ 0x10 ∨ f = 0x1B := by simpa [cvtFmt] using h
  · interval_cases f <;> decide
  · decide

/-- A CVT has whole bytes of elements on each side (R243). -/
theorem cvtCount_of_widths : ∀ ws ∈ [1, 2, 4, 6, 8, 16, 32], ∀ wd ∈ [1, 2, 4, 6, 8, 16, 32],
    0 < ws ∧ 0 < cvtCount ws wd ∧ cvtCount ws wd % 8 = 0 := by decide

/-- The source side of a CVT holds its elements. -/
theorem length_cvtSource {ws wd part : Nat} {bs : List Byte} (hbs : bs.length = 256) (hs : ws ∈ [1, 2, 4, 6, 8, 16, 32])
    (hd : wd ∈ [1, 2, 4, 6, 8, 16, 32])
    (hp : partOk (cvtCount ws wd * ws / 8) (cvtCount ws wd * wd / 8) part = true) :
    (unpackElems ws ((bs.drop (sideAt (cvtCount ws wd * ws / 8) part)).take (cvtCount ws wd * ws / 8))).length =
      cvtCount ws wd := by
  obtain ⟨hw, hn, h8⟩ := cvtCount_of_widths ws hs wd hd
  have hbytes : 8 * (cvtCount ws wd * ws / 8) = cvtCount ws wd * ws :=
    Nat.mul_div_cancel' (Dvd.dvd.mul_right (Nat.dvd_of_mod_eq_zero h8) ws)
  generalize hB : cvtCount ws wd * ws / 8 = bS at hp hbytes ⊢
  have hside : sideAt bS part + bS ≤ 256 := by
    unfold partOk at hp
    unfold sideAt
    split
    · omega
    next hne =>
      rw [if_neg fun h => hne h.1, Bool.and_eq_true] at hp
      have hfit : (part + 1) * bS ≤ 256 := by simpa [hne] using hp.1
      rwa [Nat.succ_mul] at hfit
  rw [length_unpackElems, List.length_take, List.length_drop, hbs, Nat.min_eq_left (by omega), hbytes,
    Nat.mul_div_cancel _ hw]

/-! ## What a finished conversion leaves of the core -/

section TakeRun

variable {x : Ctx} {tid k : Nat} {cf : BitVec 2} {q : W64} {steps : Bool} {r : QuantRun} {bs : List Byte}

theorem getStats_setStats_same (h : tid < 64) (v : TensorStats) : (x.setStats tid v).getStats tid = v := by
  simp [Ctx.getStats, Ctx.setStats, List.getD, Nat.mod_eq_of_lt h, h]

theorem getStats_setStats_ne (h : tid < 64) (hk : k ≠ tid) (v : TensorStats) :
    (x.setStats tid v).getStats k = x.getStats k := by
  simp [Ctx.getStats, Ctx.setStats, List.getD, Nat.mod_eq_of_lt h, Vector.getElem?_set_ne _ hk.symm]

theorem cfgTid_lt (q : W64) : cfgTid q < 64 := Nat.mod_lt _ (by decide)

theorem getElem_toFin {α : Type} (v : Vector α 4) (cf : BitVec 2) (d : α) : v[cf.toFin] = v.toList.getD cf.toNat d := by
  have h : cf.toNat < v.toList.length := by simpa using cf.isLt
  rw [List.getD_eq_getElem _ _ h]
  simp

theorem getD_set_toFin {α : Type} (v : Vector α 4) (cf : BitVec 2) (a d : α) :
    (v.set cf.toFin a).toList.getD cf.toNat d = a := by
  simp [List.getD]

theorem getElem?_set_toFin_ne {α : Type} (v : Vector α 4) (cf : BitVec 2) (a : α) {k : Nat} (h : k ≠ cf.toNat) :
    (v.set cf.toFin a).toList[k]? = v.toList[k]? := by
  simp [Vector.getElem?_set_ne _ h.symm]

@[simp] theorem takeRun_srstate : (x.takeRun cf q steps r bs).srstate = if steps then r.sr else x.srstate := by
  simp only [Ctx.takeRun, Ctx.setStats]
  split_ifs <;> rfl

@[simp] theorem takeRun_stats :
    (x.takeRun cf q steps r bs).stats = if cfgSte q then (x.setStats (cfgTid q) r.stats).stats else x.stats := by
  simp only [Ctx.takeRun, Ctx.setStats]
  split_ifs <;> rfl

@[simp] theorem takeRun_acc : (x.takeRun cf q steps r bs).acc =
    if cfgTre q then x.acc.set cf.toFin ((x.acc[cf.toFin]).fold bs r.sat r.amax) else x.acc := by
  simp only [Ctx.takeRun, Ctx.setStats]
  split_ifs <;> rfl

/-- A finished conversion changes the generator, the statistics and the accumulators of the core, and nothing else. -/
theorem takeRun_frame : { x.takeRun cf q steps r bs with srstate := x.srstate, stats := x.stats, acc := x.acc } = x := by
  simp only [Ctx.takeRun, Ctx.setStats]
  split_ifs <;> rfl

end TakeRun

/-- What a conversion of `n` elements leaves besides its bytes: the generator, the statistics and the accumulator
(R96, R250, R256). -/
def QuantKeeps (s u : State) (q : W64) (cf : BitVec 2) (n : Nat) (steps : Bool) (code : Nat → Conv) (bs : List Byte) :
    Prop :=
  SameButCore s u ∧
    { u.me with srstate := s.me.srstate, stats := s.me.stats, acc := s.me.acc, busy := s.me.busy } = s.me ∧
    u.me.srstate = (if steps then srNext^[n - 1 + 1] s.rd.old.srstate else s.me.srstate) ∧
    (cfgSte q = false → u.me.stats = s.me.stats) ∧
    (cfgSte q = true → (∀ k, k < 64 → k ≠ cfgTid q → u.me.getStats k = s.me.getStats k) ∧
      let old := s.me.getStats (cfgTid q)
      let new := u.me.getStats (cfgTid q)
      let counts := fun (f : Conv → Bool) (m : Nat) => min (2 ^ 32 - 1) (m + (List.range n).countP fun j => f (code j))
      new.elems = min (2 ^ 64 - 1) (old.elems + n) ∧ new.sat = counts (·.sat) old.sat ∧
        new.flush = counts (·.flush) old.flush ∧ new.nan = counts (·.nan) old.nan) ∧
    (cfgTre q = false → u.me.acc = s.me.acc) ∧
    (cfgTre q = true → let acc := s.me.acc.toList.getD cf.toNat {}
      let new := u.me.acc.toList.getD cf.toNat {}
      new.crc = crcFold acc.crc bs ∧ new.bytes = min (2 ^ 32 - 1) (acc.bytes + bs.length) ∧
        ∀ k, k ≠ cf.toNat → u.me.acc.toList[k]? = s.me.acc.toList[k]?)

section Keeps

variable {s u : State} {q : W64} {cf : BitVec 2} {n : Nat} {steps : Bool} {code : Nat → Conv} {bs : List Byte}

/-- The counters of an identifier after a run of `n` elements, at least one. -/
theorem QuantRun.Leads.stats {r t : QuantRun} (h : r.Leads t steps ((List.range n).map code)) (hn : 0 < n) :
    t.stats.elems = min (2 ^ 64 - 1) (r.stats.elems + n) ∧
      t.stats.sat = min (2 ^ 32 - 1) (r.stats.sat + (List.range n).countP fun j => (code j).sat) ∧
      t.stats.flush = min (2 ^ 32 - 1) (r.stats.flush + (List.range n).countP fun j => (code j).flush) ∧
      t.stats.nan = min (2 ^ 32 - 1) (r.stats.nan + (List.range n).countP fun j => (code j).nan) := by
  have hne : (List.range n).map code ≠ [] := by simpa using hn.ne'
  have count (f : Conv → Bool) (m : Nat) : ((List.range n).map code).foldl (fun m y => sat32 m (b2n (f y))) m =
      min (2 ^ 32 - 1) (m + (List.range n).countP fun j => f (code j)) :=
    (foldl_satAdd _ f _ hne m).trans (by rw [List.countP_map]; rfl)
  refine ⟨?_, h.sat.trans (count _ _), h.flush.trans (count _ _), h.nan.trans (count _ _)⟩
  have helems := foldl_satAdd (2 ^ 64 - 1) (fun _ => true) _ hne r.stats.elems
  rw [List.countP_true, List.length_map, List.length_range] at helems
  exact h.elems.trans helems

/-- A run of elements, taken by the core. -/
theorem quantKeeps_takeRun {r : QuantRun}
    (h : QuantRun.Leads { sr := s.rd.old.srstate, stats := s.me.getStats (cfgTid q) } r steps ((List.range n).map code))
    (hn : 0 < n) : QuantKeeps s (s.updMe fun x => x.takeRun cf q steps r bs) q cf n steps code bs := by
  obtain ⟨helems, hsat, hflush, hnan⟩ := h.stats hn
  unfold QuantKeeps
  rw [State.me_updMe]
  refine ⟨sameButCore_updMe s _, ?_, ?_, fun hste => ?_, fun hste => ⟨fun k _ hk => ?_, ?_⟩, fun htre => ?_, fun htre => ?_⟩
  · exact congrArg (fun x : Ctx => { x with busy := s.me.busy }) takeRun_frame
  · rw [takeRun_srstate, Nat.sub_add_cancel hn]
    cases hs : steps with
    | false => rfl
    | true => simpa [hs, srAt] using h.sr
  · simp [hste]
  · have hst := getStats_setStats_ne (x := s.me) (cfgTid_lt q) hk r.stats
    simpa [Ctx.getStats, hste] using hst
  · have hst := getStats_setStats_same (x := s.me) (cfgTid_lt q) r.stats
    have hnew : (s.me.takeRun cf q steps r bs).getStats (cfgTid q) = r.stats := by
      simpa [Ctx.getStats, hste] using hst
    rw [hnew]
    exact ⟨helems, hsat, hflush, hnan⟩
  · simp [htre]
  · rw [takeRun_acc, if_pos htre]
    rw [getD_set_toFin, getElem_toFin _ cf {}]
    exact ⟨rfl, rfl, fun k hk => getElem?_set_toFin_ne _ cf _ hk⟩

/-- Marking the generator as busy keeps all that. -/
theorem QuantKeeps.busyC (h : QuantKeeps s u q cf n steps code bs) (d : Scoreboard) (bound : Nat) :
    QuantKeeps s (u.busyC d bound) q cf n steps code bs := by
  unfold State.busyC
  split
  · obtain ⟨hcore, hframe, hrest⟩ := h
    unfold QuantKeeps
    rw [State.me_updMe]
    exact ⟨sameButCore_trans hcore (sameButCore_updMe u _), hframe, hrest⟩
  · exact h

end Keeps

/-! ## QTRL and QSTAT -/

section Records

variable {s : State} {gd : Guard}

/-- QTRL writes the trailer of its accumulator, which is left empty (R251, R252). -/
theorem exec_qtrl (hg : guardOk gd s = true) (d : BitVec 5) (cf : BitVec 2) : exec (.qtrl gd d cf) s =
    .next ((s.updMe fun x => { x with acc := x.acc.set cf.toFin {} }).vWrite d 0
      (trailerBytes (s.me.acc.toList.getD cf.toNat {}) (s.rd.old.qcfg.toList.getD cf.toNat 0)) 2) := by
  change execQtrl gd d cf s = _
  rw [execQtrl, guarded_next, if_pos hg, getElem_toFin _ cf {}, getElem_toFin _ cf 0]

theorem exec_qstat (hg : guardOk gd s = true) (tid : BitVec 6) :
    exec (.qstat gd tid) s = .next (s.qstatWith tid false) := by
  change execQstat gd tid s = _
  rw [execQstat, guarded_next, if_pos hg]

theorem exec_qstatClr (hg : guardOk gd s = true) (tid : BitVec 6) :
    exec (.qstatClr gd tid) s = .next (s.qstatWith tid true) := by
  change execQstatClr gd tid s = _
  rw [execQstatClr, guarded_next, if_pos hg]

theorem qstatWith_full (tid : BitVec 6) (clr : Bool) (h : 16 ≤ s.me.f3.length) :
    s.qstatWith tid clr = s.waitNow .queueFull := if_pos h

/-- With room in f3 the record of the identifier is appended (R257, R258). -/
theorem qstatWith_room (tid : BitVec 6) (clr : Bool) (h : s.me.f3.length < 16) :
    SameButCore s (s.qstatWith tid clr) ∧
      (s.qstatWith tid clr).me.f3 = s.me.f3 ++ [statRecord (s.me.getStats tid.toNat) tid.toNat 0] ∧
      (clr = false → (s.qstatWith tid clr).me.stats = s.me.stats) ∧
      (clr = true → (s.qstatWith tid clr).me.getStats tid.toNat = {}) := by
  have hroom : ¬fifoDepth 3 ≤ s.me.f3.length := Nat.not_le.2 h
  rw [State.qstatWith, if_neg hroom, State.me_updMe]
  refine ⟨sameButCore_updMe s _, ?_, ?_, ?_⟩
  · cases clr <;> rfl
  · rintro rfl
    rfl
  · rintro rfl
    exact getStats_setStats_same tid.isLt {}

end Records

/-! ## What CVT and QMX leave -/

/-- The core takes a finished run; a generator that it has stepped is not to be read before the bound (R180). -/
def State.takesRun (s : State) (cf : BitVec 2) (q : W64) (steps : Bool) (r : QuantRun) (bs : List Byte) (bound : Nat) :
    State :=
  let u := s.updMe fun x => x.takeRun cf q steps r bs
  if steps then u.busyC .srstate bound else u

section Finish

variable {s : State} {cf : BitVec 2} {q : W64} {steps : Bool} {r : QuantRun} {bs : List Byte} {n bound : Nat}
  {code : Nat → Conv}

theorem takesRun_outside : (s.takesRun cf q steps r bs bound).verdict = s.verdict ∧
    (s.takesRun cf q steps r bs bound).rd = s.rd := by
  unfold State.takesRun State.busyC
  cases steps
  · exact ⟨rfl, rfl⟩
  · dsimp only
    rw [if_pos rfl]
    split <;> exact ⟨rfl, rfl⟩

theorem quantKeeps_takesRun
    (h : QuantRun.Leads { sr := s.rd.old.srstate, stats := s.me.getStats (cfgTid q) } r steps ((List.range n).map code))
    (hn : 0 < n) : QuantKeeps s (s.takesRun cf q steps r bs bound) q cf n steps code bs := by
  have base := quantKeeps_takeRun (cf := cf) (bs := bs) h hn
  cases steps with
  | false => exact base
  | true => exact base.busyC .srstate bound

/-- A write of a v register of the word at work, from a state that the word has reached. -/
theorem vWrite_onItsWay {u : State} (h : u.rd = s.rd) (d : BitVec 5) (off : Nat) (bs : List Byte) (bound : Nat) :
    OnItsWay u (u.vWrite d off bs bound) (vOffset s.rd.viewV d + off) bs bound :=
  h ▸ opWrite_onItsWay u (vOffset u.rd.viewV d + off) bs bound

theorem QuantRun.Leads.out_reverse {r0 : QuantRun} (h : r0.Leads r steps ((List.range n).map code)) (h0 : r0.out = []) :
    r.out.reverse = (List.range n).map fun j => (code j).bits := by
  rw [h.out, h0, List.append_nil, List.reverse_reverse, List.map_map]
  rfl

theorem QuantRun.Leads.trap_iff {r0 : QuantRun} (h : r0.Leads r steps ((List.range n).map code)) (h0 : r0.trap = false) :
    r.trap = true ↔ ∃ j, j < n ∧ (code j).trap = true := by
  simp [h.trap, h0]

end Finish

/-! ## CVT -/

section Cvt

variable {s : State} {gd : Guard}

/-- The elements of CVT's source side (R243). -/
def State.cvtSource (s : State) (a : BitVec 5) (q : W64) (part : Nat) : List Nat :=
  let bS := cvtCount (fmtBits (cfgSfmt q)) (fmtBits (cfgDfmt q)) * fmtBits (cfgSfmt q) / 8
  unpackElems (fmtBits (cfgSfmt q)) (((s.vRead a).drop (sideAt bS part)).take bS)

/-- Whether a configuration and PART are those of a CVT (R240, R243). -/
def cvtOk (q : W64) (part : Nat) : Bool :=
  let n := cvtCount (fmtBits (cfgSfmt q)) (fmtBits (cfgDfmt q))
  cvtFmt (cfgSfmt q) && cvtFmt (cfgDfmt q) && partOk (n * fmtBits (cfgSfmt q) / 8) (n * fmtBits (cfgDfmt q) / 8) part

/-- CVT's run over its source. -/
def State.cvtRun (s : State) (a : BitVec 5) (q : W64) (part : Nat) : QuantRun :=
  (s.cvtSource a q part).foldl (cvtOne q) { sr := s.rd.old.srstate, stats := s.me.getStats (cfgTid q) }

/-- The conversion of element `j` of a CVT's source (R244). -/
def cvtCode (q : W64) (xs : List Nat) (sr : W32) (j : Nat) : Conv := cvtConv q (srAt (cvtSteps q) sr (j + 1)) (xs.getD j 0)

theorem exec_cvt (hg : guardOk gd s = true) (d a : BitVec 5) (cf : BitVec 2) (part : BitVec 3) {q : W64}
    (hq : s.rd.old.qcfg.toList.getD cf.toNat 0 = q) : exec (.cvt gd d a cf part) s = .next (
      if !cvtOk q part.toNat then s.trapNow 0x17
      else if (s.cvtRun a q part.toNat).trap then s.trapNow 0x11
      else
        let bs := packElems (fmtBits (cfgDfmt q)) (s.cvtRun a q part.toNat).out.reverse
        (s.takesRun cf q (cvtSteps q) (s.cvtRun a q part.toNat) bs 4).vWrite d
          (sideAt (cvtCount (fmtBits (cfgSfmt q)) (fmtBits (cfgDfmt q)) * fmtBits (cfgDfmt q) / 8) part.toNat) bs 4) := by
  have hq' : s.rd.old.qcfg[cf.toFin] = q := (getElem_toFin _ cf 0).trans hq
  subst hq'
  change execCvt gd d a cf part s = _
  rw [execCvt, guarded_next, if_pos hg]
  rfl

/-- CVT's run, and how many elements it takes. -/
theorem leads_cvtRun (a : BitVec 5) {q : W64} {part : Nat} (hok : cvtOk q part = true) :
    QuantRun.Leads { sr := s.rd.old.srstate, stats := s.me.getStats (cfgTid q) } (s.cvtRun a q part) (cvtSteps q)
      ((List.range (cvtCount (fmtBits (cfgSfmt q)) (fmtBits (cfgDfmt q)))).map
        (cvtCode q (s.cvtSource a q part) s.rd.old.srstate)) ∧
      0 < cvtCount (fmtBits (cfgSfmt q)) (fmtBits (cfgDfmt q)) := by
  rw [cvtOk, Bool.and_eq_true, Bool.and_eq_true] at hok
  obtain ⟨⟨hsrc, hdst⟩, hpart⟩ := hok
  have hs := fmtBits_of_cvtFmt hsrc
  have hd := fmtBits_of_cvtFmt hdst
  obtain ⟨-, hn, -⟩ := cvtCount_of_widths _ hs _ hd
  have hlen : (s.cvtSource a q part).length = cvtCount (fmtBits (cfgSfmt q)) (fmtBits (cfgDfmt q)) :=
    length_cvtSource (length_vRead s a) hs hd hpart
  exact ⟨hlen ▸ leads_foldl (takesOne_cvt q) 0 (s.cvtSource a q part) _, hn⟩

/-- CVT under its guard (R240, R242 to R244). -/
theorem cvt_writes (hg : guardOk gd s = true) (d a : BitVec 5) (cf : BitVec 2) (part : BitVec 3) {q : W64}
    (hq : s.rd.old.qcfg.toList.getD cf.toNat 0 = q) {code : Nat → Conv}
    (hcode : ∀ j, code j = cvtCode q (s.cvtSource a q part.toNat) s.rd.old.srstate j) :
    let n := cvtCount (fmtBits (cfgSfmt q)) (fmtBits (cfgDfmt q))
    let bs := packElems (fmtBits (cfgDfmt q)) ((List.range n).map fun j => (code j).bits)
    (cvtOk q part.toNat = false → ∃ t, exec (.cvt gd d a cf part) s = .next t ∧ TrapsAtWord s t 0x17 0 0) ∧
    (cvtOk q part.toNat = true → (∃ j, j < n ∧ (code j).trap = true) →
      ∃ t, exec (.cvt gd d a cf part) s = .next t ∧ TrapsAtWord s t 0x11 0 0) ∧
    (cvtOk q part.toNat = true → (∀ j, j < n → (code j).trap = false) →
      ∃ t u, exec (.cvt gd d a cf part) s = .next t ∧ t.verdict = s.verdict ∧
        QuantKeeps s u q cf n (cvtSteps q) code bs ∧
        OnItsWay u t (vOffset s.rd.viewV d + sideAt (n * fmtBits (cfgDfmt q) / 8) part.toNat) bs 4) := by
  intro n bs
  obtain rfl : code = cvtCode q (s.cvtSource a q part.toNat) s.rd.old.srstate := funext hcode
  have run := exec_cvt hg d a cf part hq
  refine ⟨fun hok => ?_, fun hok htrap => ?_, fun hok htrap => ?_⟩
  · rw [hok, Bool.not_false, if_pos rfl] at run
    exact ⟨_, run, trapWith_traps s ..⟩
  · rw [hok, Bool.not_true, if_neg Bool.false_ne_true] at run
    obtain ⟨hrun, -⟩ := leads_cvtRun (s := s) a hok
    rw [if_pos ((hrun.trap_iff rfl).2 htrap)] at run
    exact ⟨_, run, trapWith_traps s ..⟩
  · rw [hok, Bool.not_true, if_neg Bool.false_ne_true] at run
    obtain ⟨hrun, hn⟩ := leads_cvtRun (s := s) a hok
    have hnone : ¬(s.cvtRun a q part.toNat).trap = true := fun h => by
      obtain ⟨j, hj, hj'⟩ := (hrun.trap_iff rfl).1 h
      exact Bool.false_ne_true ((htrap j hj).symm.trans hj')
    rw [if_neg hnone, hrun.out_reverse rfl] at run
    have hout := takesRun_outside (s := s) (cf := cf) (q := q) (steps := cvtSteps q) (r := s.cvtRun a q part.toNat)
      (bs := bs) (bound := 4)
    refine ⟨_, s.takesRun cf q (cvtSteps q) (s.cvtRun a q part.toNat) bs 4, run, hout.1, quantKeeps_takesRun hrun hn, ?_⟩
    exact vWrite_onItsWay hout.2 ..

end Cvt

/-! ## QMX -/

section Qmx

variable {s : State} {gd : Guard}

/-- The values of QMX's source (R245). -/
def State.qmxSource (s : State) (a : BitVec 5) (q : W64) : List FVal :=
  (unpackElems (fmtBits (cfgSfmt q)) (s.vRead a)).map (readNum (numFmt (cfgSfmt q)))

/-- Whether a configuration and PART are those of a QMX (R245). -/
def qmxOk (q : W64) (part : Nat) : Bool :=
  (cfgSfmt q == 0 || cfgSfmt q == 2 || cfgSfmt q == 3) && decide (0x11 ≤ cfgDfmt q ∧ cfgDfmt q ≤ 0x19) &&
    partOk 256 (2048 / fmtBits (cfgSfmt q) * fmtBits (cfgDfmt q) / 8) part

/-- QMX's run over the blocks of its source, with their scales. -/
def State.qmxRun (s : State) (a : BitVec 5) (q : W64) : QuantRun × List Nat :=
  qmxBlocks q (blockLen (cfgDfmt q)) { sr := s.rd.old.srstate, stats := s.me.getStats (cfgTid q) } (s.qmxSource a q)
    (2048 / fmtBits (cfgSfmt q) / blockLen (cfgDfmt q))

theorem exec_qmx_odd {d a : BitVec 5} {cf : BitVec 2} {part : BitVec 3} (hd : d.toNat % 2 = 1) :
    exec (.qmx gd d a cf part) s = .next (s.trapNow 0x01) := by
  change execQmx gd d a cf part s = _
  rw [execQmx, if_pos hd]

theorem exec_qmx (hg : guardOk gd s = true) {d : BitVec 5} (hd : d.toNat % 2 = 0) (a : BitVec 5) (cf : BitVec 2)
    (part : BitVec 3) {q : W64} (hq : s.rd.old.qcfg.toList.getD cf.toNat 0 = q) :
    exec (.qmx gd d a cf part) s = .next (
      if !qmxOk q part.toNat then s.trapNow 0x17
      else if (s.qmxRun a q).1.trap then s.trapNow 0x11
      else
        let bs := packElems (fmtBits (cfgDfmt q)) (s.qmxRun a q).1.out.reverse
        ((s.takesRun cf q (cfgRm q == 4) (s.qmxRun a q).1 bs 6).vWrite d
          (part.toNat * (2048 / fmtBits (cfgSfmt q) * fmtBits (cfgDfmt q) / 8)) bs 6).vWrite (d + 1)
          (part.toNat * (2048 / fmtBits (cfgSfmt q) / blockLen (cfgDfmt q)))
          ((s.qmxRun a q).2.map (BitVec.ofNat 8)) 6) := by
  have hq' : s.rd.old.qcfg[cf.toFin] = q := (getElem_toFin _ cf 0).trans hq
  subst hq'
  change execQmx gd d a cf part s = _
  rw [execQmx, if_neg (by omega), guarded_next, if_pos hg]
  refine congrArg Host.Outcome.next (if_congr ?_ rfl rfl)
  simp only [qmxOk, Bool.not_and, Bool.decide_and, Bool.or_assoc, Bool.and_assoc]

/-- A QMX takes whole blocks of a whole register (R245). -/
theorem qmx_counts {q : W64} {part : Nat} (hok : qmxOk q part = true) :
    0 < blockLen (cfgDfmt q) ∧ 0 < 2048 / fmtBits (cfgSfmt q) ∧
      blockLen (cfgDfmt q) * (2048 / fmtBits (cfgSfmt q) / blockLen (cfgDfmt q)) = 2048 / fmtBits (cfgSfmt q) := by
  rw [qmxOk, Bool.and_eq_true, Bool.and_eq_true, decide_eq_true_iff] at hok
  obtain ⟨⟨hsrc, hlo, hhi⟩, -⟩ := hok
  have hw : fmtBits (cfgSfmt q) = 32 ∨ fmtBits (cfgSfmt q) = 16 := by
    obtain (h | h) | h : (cfgSfmt q = 0 ∨ cfgSfmt q = 2) ∨ cfgSfmt q = 3 := by simpa using hsrc
    all_goals rw [h]; decide
  have hb : blockLen (cfgDfmt q) = 32 ∨ blockLen (cfgDfmt q) = 16 := by
    unfold blockLen
    split_ifs <;> omega
  obtain hw | hw := hw <;> obtain hb | hb := hb <;> rw [hw, hb] <;> decide

/-- QMX's run, and how many elements it takes. -/
theorem leads_qmxRun (a : BitVec 5) {q : W64} {part : Nat} (hok : qmxOk q part = true) :
    QuantRun.Leads { sr := s.rd.old.srstate, stats := s.me.getStats (cfgTid q) } (s.qmxRun a q).1 (cfgRm q == 4)
      ((List.range (2048 / fmtBits (cfgSfmt q))).map
        (qmxCode q (blockLen (cfgDfmt q)) (s.qmxSource a q) s.rd.old.srstate)) ∧
      (s.qmxRun a q).2 = (List.range (2048 / fmtBits (cfgSfmt q) / blockLen (cfgDfmt q))).map
        (scaleOf q (blockLen (cfgDfmt q)) (s.qmxSource a q)) := by
  obtain ⟨hb, -, hn⟩ := qmx_counts hok
  have hlen : (s.qmxSource a q).length = 2048 / fmtBits (cfgSfmt q) := by
    rw [State.qmxSource, List.length_map, length_unpackElems, length_vRead]
  obtain ⟨hrun, hscales⟩ := leads_qmxBlocks (q := q) hb (2048 / fmtBits (cfgSfmt q) / blockLen (cfgDfmt q))
    (s.qmxSource a q) { sr := s.rd.old.srstate, stats := s.me.getStats (cfgTid q) } (by rw [hn, hlen])
  rw [hn] at hrun
  exact ⟨hrun, hscales⟩

/-- QMX to an even register under its guard (R245 to R248). -/
theorem qmx_writes (hg : guardOk gd s = true) {d : BitVec 5} (hd : d.toNat % 2 = 0) (a : BitVec 5) (cf : BitVec 2)
    (part : BitVec 3) {q : W64} (hq : s.rd.old.qcfg.toList.getD cf.toNat 0 = q) {code : Nat → Conv}
    (hcode : ∀ j, code j = qmxCode q (blockLen (cfgDfmt q)) (s.qmxSource a q) s.rd.old.srstate j) :
    let n := 2048 / fmtBits (cfgSfmt q)
    let bs := packElems (fmtBits (cfgDfmt q)) ((List.range n).map fun j => (code j).bits)
    (qmxOk q part.toNat = false → ∃ t, exec (.qmx gd d a cf part) s = .next t ∧ TrapsAtWord s t 0x17 0 0) ∧
    (qmxOk q part.toNat = true → (∃ j, j < n ∧ (code j).trap = true) →
      ∃ t, exec (.qmx gd d a cf part) s = .next t ∧ TrapsAtWord s t 0x11 0 0) ∧
    (qmxOk q part.toNat = true → (∀ j, j < n → (code j).trap = false) →
      ∃ t u v, exec (.qmx gd d a cf part) s = .next t ∧ t.verdict = s.verdict ∧
        QuantKeeps s u q cf n (cfgRm q == 4) code bs ∧
        OnItsWay u v (vOffset s.rd.viewV d + part.toNat * (n * fmtBits (cfgDfmt q) / 8)) bs 6 ∧
        OnItsWay v t (vOffset s.rd.viewV (d + 1) + part.toNat * (n / blockLen (cfgDfmt q)))
          ((List.range (n / blockLen (cfgDfmt q))).map fun k =>
            BitVec.ofNat 8 (scaleOf q (blockLen (cfgDfmt q)) (s.qmxSource a q) k)) 6) := by
  intro n bs
  obtain rfl : code = qmxCode q (blockLen (cfgDfmt q)) (s.qmxSource a q) s.rd.old.srstate := funext hcode
  have run := exec_qmx hg hd a cf part hq
  refine ⟨fun hok => ?_, fun hok htrap => ?_, fun hok htrap => ?_⟩
  · rw [hok, Bool.not_false, if_pos rfl] at run
    exact ⟨_, run, trapWith_traps s ..⟩
  · rw [hok, Bool.not_true, if_neg Bool.false_ne_true] at run
    obtain ⟨hrun, -⟩ := leads_qmxRun (s := s) a hok
    rw [if_pos ((hrun.trap_iff rfl).2 htrap)] at run
    exact ⟨_, run, trapWith_traps s ..⟩
  · rw [hok, Bool.not_true, if_neg Bool.false_ne_true] at run
    obtain ⟨hrun, hscales⟩ := leads_qmxRun (s := s) a hok
    obtain ⟨-, hn, -⟩ := qmx_counts hok
    have hnone : ¬(s.qmxRun a q).1.trap = true := fun h => by
      obtain ⟨j, hj, hj'⟩ := (hrun.trap_iff rfl).1 h
      exact Bool.false_ne_true ((htrap j hj).symm.trans hj')
    rw [if_neg hnone, hrun.out_reverse rfl, hscales, List.map_map] at run
    obtain ⟨hverdict, hrd⟩ := takesRun_outside (s := s) (cf := cf) (q := q) (steps := cfgRm q == 4)
      (r := (s.qmxRun a q).1) (bs := bs) (bound := 6)
    exact ⟨_, _, _, run, hverdict, quantKeeps_takesRun hrun hn, vWrite_onItsWay hrd d _ bs 6,
      vWrite_onItsWay (u := (s.takesRun cf q (cfgRm q == 4) (s.qmxRun a q).1 bs 6).vWrite d _ bs 6) hrd ..⟩

end Qmx

/-- The generator for element `j`, stepped in mode SR alone. -/
theorem srAt_mode (rm : Nat) (sr : W32) (k : Nat) : srAt (rm == 4) sr k = if rm = 4 then srNext^[k] sr else sr := by
  by_cases h : rm = 4
  · simp [h, srAt]
  · simp [h, srAt]

/-- The conversion of element `j` of CVT, in the words of R244. -/
theorem cvtCode_eq (q : W64) (xs : List Nat) (sr : W32) (j : Nat) :
    cvtCode q xs sr j = if convExact (numFmt (cfgSfmt q)) (numFmt (cfgDfmt q)) then
        downConv (numFmt (cfgDfmt q)) .rne 0 (readNum (numFmt (cfgSfmt q)) (xs.getD j 0))
      else downConv (numFmt (cfgDfmt q)) (rmodeOf (cfgRm q) (if cfgRm q = 4 then srNext^[j + 1] sr else sr)) (cfgOvp q)
        (readNum (numFmt (cfgSfmt q)) (xs.getD j 0)) := by
  rw [← srAt_mode, cvtCode, cvtConv, cvtSteps]
  cases convExact (numFmt (cfgSfmt q)) (numFmt (cfgDfmt q)) with
  | true => rfl
  | false => rw [Bool.not_false, Bool.and_true]

/-- Settles O35: QTRL and QSTAT directly, CVT and QMX by what their runs lead to. -/
theorem quantiserWritesItsResults : Obligations.QuantiserWritesItsResults := by
  intro gd d a cf part tid s hg q src dst acc
  refine ⟨?qtrl, fun hroom => ⟨?qstat, ?qstatClr⟩, fun hfull => ⟨?full, ?fullClr⟩, ?convert⟩
  case qtrl =>
    have hway := vWrite_onItsWay (u := s.updMe fun x => { x with acc := x.acc.set cf.toFin {} }) (s := s) rfl d 0
      (trailerBytes acc q) 2
    rw [Nat.add_zero] at hway
    exact ⟨_, exec_qtrl hg d cf, rfl, hway⟩
  case qstat =>
    obtain ⟨hcore, hf3, hkeep, -⟩ := qstatWith_room tid false hroom
    exact ⟨_, exec_qstat hg tid, hcore, hkeep rfl, hf3⟩
  case qstatClr =>
    obtain ⟨hcore, hf3, -, hclear⟩ := qstatWith_room tid true hroom
    exact ⟨_, exec_qstatClr hg tid, hcore, hclear rfl, hf3⟩
  case full => exact ⟨_, (exec_qstat hg tid).trans (by rw [qstatWith_full tid false hfull]), rfl⟩
  case fullClr => exact ⟨_, (exec_qstatClr hg tid).trans (by rw [qstatWith_full tid true hfull]), rfl⟩
  case convert =>
    intro sr keeps ws wd mode
    refine ⟨?cvt, fun hodd => ⟨_, exec_qmx_odd hodd, trapWith_traps s ..⟩, fun heven => ?qmx⟩
    case cvt => exact cvt_writes hg d a cf part rfl fun j => (cvtCode_eq q _ _ j).symm
    case qmx =>
      refine qmx_writes hg heven a cf part (q := q) rfl fun j => ?_
      rw [qmxCode, srAt_mode]
      rfl

end Sys2Proof.Machine

/-! PROOFS. The scalar subset writes its value (O5 to O8): what each value is in the words of R145 and R146. -/

namespace Sys2Proof.Machine

/-! ## Values -/

theorem movhiVal_eq (h : W32) (old : W64) : movhiVal h.toNat old = h ++ old.setWidth 32 := by
  apply BitVec.eq_of_toNat_eq
  have := h.isLt
  rw [movhiVal, BitVec.toNat_append, BitVec.toNat_ofNat, BitVec.toNat_setWidth,
    ← Nat.shiftLeft_add_eq_or_of_lt (Nat.mod_lt _ (by decide)), Nat.shiftLeft_eq]
  omega

theorem mul_eq_ofInt (a b : W64) : a * b = BitVec.ofInt 64 (a.toInt * b.toInt) := by
  rw [BitVec.ofInt_mul, BitVec.ofInt_toInt, BitVec.ofInt_toInt]

theorem shiftAmount_eq (b : W64) : shiftAmount b = (b.setWidth 6).toNat := (BitVec.toNat_setWidth 6 b).symm

/-- The leading zeros below position `n` of a number below 2^n. -/
theorem clzFrom_eq (x n : Nat) (h : x < 2 ^ n) : clzFrom x n = if x = 0 then n else n - 1 - x.log2 := by
  induction n with
  | zero => simp [clzFrom]
  | succ n ih =>
    have hpow : 2 ^ (n + 1) = 2 * 2 ^ n := Nat.pow_succ'
    rw [clzFrom]
    by_cases hx : x < 2 ^ n
    · rw [Nat.div_eq_of_lt hx, if_neg (by decide), ih hx]
      split_ifs with h0
      · rfl
      · have := (Nat.log2_lt h0).2 hx
        omega
    · have hbit : x / 2 ^ n = 1 := by
        rw [Nat.div_eq_iff (by positivity)]
        omega
      have h0 : x ≠ 0 := fun h0 => hx (h0 ▸ by positivity)
      have hlog : x.log2 = n := (Nat.log2_eq_iff h0).2 ⟨Nat.not_lt.1 hx, h⟩
      rw [hbit, if_pos (by decide), if_neg h0, hlog]
      omega

theorem clz_eq (a : W64) :
    BitVec.ofNat 64 (clzFrom a.toNat 64) = if a = 0 then 64 else BitVec.ofNat 64 (63 - a.toNat.log2) := by
  rw [clzFrom_eq a.toNat 64 a.isLt, apply_ite (BitVec.ofNat 64)]
  exact if_congr (BitVec.toNat_inj (y := 0#64)) rfl rfl

theorem popFrom_eq (a : W64) (n : Nat) : popFrom a.toNat n = (List.range n).countP fun i => a.getLsbD i := by
  induction n with
  | zero => rfl
  | succ n ih =>
    rw [popFrom, ih, List.range_succ, List.countP_append, List.countP_singleton, Nat.add_comm, BitVec.getLsbD,
      Nat.testBit_eq_decide_div_mod_eq]
    split <;> simp_all

section
variable {α : Type} [LinearOrder α] {v : W64 → α} {back : α → W64} (hback : ∀ x, back (v x) = x) {a b : W64} {lt : Bool}
  (hlt : lt = true ↔ v a < v b)

include hback hlt

/-- The smaller of two words in an order of their values, signed or unsigned. -/
theorem select_min : (if lt then a else b) = back (min (v a) (v b)) := by
  rcases lt_or_ge (v a) (v b) with h | h
  · rw [if_pos (hlt.2 h), min_eq_left h.le, hback]
  · rw [if_neg fun hc => not_lt.2 h (hlt.1 hc), min_eq_right h, hback]

/-- The larger of two words in an order of their values. -/
theorem select_max : (if lt then b else a) = back (max (v a) (v b)) := by
  rcases lt_or_ge (v a) (v b) with h | h
  · rw [if_pos (hlt.2 h), max_eq_right h.le, hback]
  · rw [if_neg fun hc => not_lt.2 h (hlt.1 hc), max_eq_left h, hback]

end

theorem ofNat_toNat_self (x : W64) : BitVec.ofNat 64 x.toNat = x := by simp

theorem minS_eq (a b : W64) : minS a b = BitVec.ofInt 64 (min a.toInt b.toInt) :=
  select_min (fun _ => BitVec.ofInt_toInt) BitVec.slt_iff_toInt_lt

theorem minU_eq (a b : W64) : minU a b = BitVec.ofNat 64 (min a.toNat b.toNat) :=
  select_min ofNat_toNat_self BitVec.ult_iff_lt

theorem maxS_eq (a b : W64) : maxS a b = BitVec.ofInt 64 (max a.toInt b.toInt) :=
  select_max (fun _ => BitVec.ofInt_toInt) BitVec.slt_iff_toInt_lt

theorem maxU_eq (a b : W64) : maxU a b = BitVec.ofNat 64 (max a.toNat b.toNat) :=
  select_max ofNat_toNat_self BitVec.ult_iff_lt

/-- The condition of CMP in the words of R121: as signed numbers, or with .n as unsigned ones. -/
theorem condHolds_eq (cc : Cond) (x y : W64) : condHolds cc x y = match cc with
    | .eq => x == y
    | .ne => x != y
    | .lt => decide (x.toInt < y.toInt)
    | .le => decide (x.toInt ≤ y.toInt)
    | .gt => decide (y.toInt < x.toInt)
    | .ge => decide (y.toInt ≤ x.toInt)
    | .ltn => decide (x.toNat < y.toNat)
    | .len => decide (x.toNat ≤ y.toNat) := by
  cases cc <;> rfl

/-! ## One write of a g register -/

/-- An operation that is one write of a g register gives the value that its meaning computes. -/
theorem givesG_scalarOp {i : Instr} {gd : Guard} {d : BitVec 5} (bound : Nat) {v val : State → W64}
    (hexec : ∀ s, exec i s = scalarOp gd d (val s) bound s) (hval : ∀ s, val s = v s) : GivesG i gd d v :=
  givesG_of i gd d v bound fun s => by rw [hexec, hval]; rfl

/-- Settles O5: each operation is one write of a g register, of the value shown. -/
theorem scalarSumsGiveTheirValue : Obligations.ScalarSumsGiveTheirValue := by
  intro gd d a b k w h
  refine ⟨?movi, ?moviWide, ?movhi, ?movhiWide, ?mov, ?add, ?addWide, ?addi, ?addiWide, ?sub, ?subWide, ?mul, ?mulWide,
    ?mulh, ?mulhN⟩
  case movhi =>
    refine givesG_scalarOp 1 (fun _ => rfl) fun s => ?_
    rw [← movhiVal_eq, BitVec.toNat_setWidth_of_le (by decide)]
  case movhiWide => exact givesG_scalarOp 1 (fun _ => rfl) fun s => movhiVal_eq h (s.rg d)
  case mul => exact givesG_scalarOp 3 (fun _ => rfl) fun s => mul_eq_ofInt _ _
  case mulWide => exact givesG_scalarOp 3 (fun _ => rfl) fun s => mul_eq_ofInt _ _
  case mulh => exact givesG_scalarOp 3 (fun _ => rfl) fun _ => rfl
  case mulhN => exact givesG_scalarOp 3 (fun _ => rfl) fun _ => rfl
  all_goals exact givesG_scalarOp 1 (fun _ => rfl) fun _ => rfl

/-- Settles O6: the amounts of the shifts are bits [5:0], and the two counts are those of the recursion. -/
theorem scalarLogicAndShiftsGiveTheirValue : Obligations.ScalarLogicAndShiftsGiveTheirValue := by
  intro gd d a b w
  refine ⟨?and, ?andWide, ?andn, ?andnWide, ?or, ?orWide, ?xor, ?xorWide, ?shl, ?shr, ?sar, ?rot, ?clz, ?popc⟩
  case shl | shr | sar | rot => exact givesG_scalarOp 1 (fun _ => rfl) fun s => by rw [shiftAmount_eq]
  case clz => exact givesG_scalarOp 1 (fun _ => rfl) fun s => clz_eq (s.rg a)
  case popc => exact givesG_scalarOp 1 (fun _ => rfl) fun s => congrArg (BitVec.ofNat 64) (popFrom_eq (s.rg a) 64)
  all_goals exact givesG_scalarOp 1 (fun _ => rfl) fun _ => rfl

/-- Settles O7: each selection is one write of a g register, of the word that it selects. -/
theorem scalarSelectionsGiveTheirValue : Obligations.ScalarSelectionsGiveTheirValue := by
  intro gd d a c b w ps
  refine ⟨?min, ?minWide, ?minN, ?minNWide, ?max, ?maxWide, ?maxN, ?maxNWide, ?sel⟩
  case min | minWide => exact givesG_scalarOp 1 (fun _ => rfl) fun _ => minS_eq _ _
  case minN | minNWide => exact givesG_scalarOp 1 (fun _ => rfl) fun _ => minU_eq _ _
  case max | maxWide => exact givesG_scalarOp 1 (fun _ => rfl) fun _ => maxS_eq _ _
  case maxN | maxNWide => exact givesG_scalarOp 1 (fun _ => rfl) fun _ => maxU_eq _ _
  case sel => exact givesG_scalarOp 1 (fun _ => rfl) fun _ => rfl

/-! ## CMP -/

theorem stagePred_iff (x : Ctx) (pd : BitVec 4) :
    x.stagePred pd = true ↔ x.le.ns ≠ 0 ∧ 8 ≤ pd.toNat ∧ pd.toNat ≤ 7 + x.le.ns.toNat := by
  simp [Ctx.stagePred, and_assoc]

/-- CMP under its guard: 0x05 on a stage predicate of the C stream's pipelined level, else one predicate is written. -/
theorem cmpWrite_gives (gd : Guard) (pd : BitVec 4) (v : Bool) (s : State) :
    ∃ t, cmpWrite gd pd v s = .next t ∧ Guarded gd s t
      (if s.stream = .c ∧ s.me.le.ns ≠ 0 ∧ 8 ≤ pd.toNat ∧ pd.toNat ≤ 7 + s.me.le.ns.toNat then TrapsAtWord s t 0x05 0 0
        else WroteP s t pd v) := by
  refine ⟨_, guarded_next gd s _, ?_⟩
  simp only [Guarded, stagePred_iff]
  by_cases hg : guardOk gd s = true
  · rw [if_pos hg, if_pos hg]
    split
    · exact trapWith_traps s 0x05 0 0
    · exact wp_wrote s pd v
  · rw [if_neg hg, if_neg hg]

/-- Settles O8: both forms write the condition of R121 as CMP does. -/
theorem compareWritesItsPredicate : Obligations.CompareWritesItsPredicate := by
  intro gd pd cc a b w s truth stage
  have htruth : ∀ x y, truth x y = condHolds cc x y := fun x y => (condHolds_eq cc x y).symm
  rw [htruth, htruth]
  exact ⟨cmpWrite_gives gd pd _ s, cmpWrite_gives gd pd _ s⟩

end Sys2Proof.Machine

/-! PROOFS. BR, LOOP, TRAP and FIN (O9, O11, O12): where a branch goes, what the end of a word leaves of its core, and what a
LOOP pushes. -/

namespace Sys2Proof.Machine

/-! ## BR -/

/-- The stream at work goes to word `w` of its section. -/
def State.goTo (s : State) (w : Nat) : State :=
  { s.updStream fun y => { y with pc := y.secStart + 3 * w } with verdict := .moved }

theorem State.me_goTo (s : State) (w : Nat) :
    (s.goTo w).me = s.me.updStream s.stream fun y => { y with pc := y.secStart + 3 * w } :=
  State.me_updMe s fun x => x.updStream s.stream fun y => { y with pc := y.secStart + 3 * w }

theorem State.goTo_frame (s : State) (w : Nat) : { s.goTo w with verdict := s.verdict, cores := s.cores } = s := rfl

theorem State.ctx_goTo_ne (s : State) (w : Nat) {c : Nat} (h : c ≠ s.core) : (s.goTo w).ctx c = s.ctx c :=
  State.ctx_updMe_ne s (fun x => x.updStream s.stream fun y => { y with pc := y.secStart + 3 * w }) h

/-- The innermost loop ends: it is popped, and a pipelined level is active no more (R152, R184). -/
def Ctx.popLoop (x : Ctx) (st : StreamId) (rest : List LoopLevel) : Ctx :=
  (if st = .c ∧ x.le.ns ≠ 0 then { x with le := { x.le with ns := 0, drn := false } } else x).updStream st
    fun y => { y with loops := rest }

/-- But for the loop engine, popping the loop changes the levels alone. -/
theorem Ctx.popLoop_le (x : Ctx) (st : StreamId) (rest : List LoopLevel) :
    { x.popLoop st rest with le := x.le } = x.updStream st fun y => { y with loops := rest } := by
  unfold Ctx.popLoop
  split <;> cases st <;> rfl

section Branch
variable {s : State} {off : BitVec 17}

theorem branch_outside
    (h : (s.rd.ix : Int) + off.toInt < 0 ∨ ((s.me.stream s.stream).secLen : Int) ≤ (s.rd.ix : Int) + off.toInt) :
    s.branch off = s.trapNow 0x03 := by
  rw [State.branch]
  exact if_pos h

variable {w : Nat} (hw : (s.rd.ix : Int) + off.toInt = w) (hlen : w < (s.me.stream s.stream).secLen)

include hw hlen

/-- A branch to a word of its section, by the innermost active level. -/
theorem branch_inside : s.branch off =
    match (s.me.stream s.stream).loops with
    | [] => s.goTo w
    | l :: rest =>
      if l.first ≤ w ∧ w ≤ l.last then s.goTo w
      else if w = l.last + 1 then (s.updMe fun x => x.popLoop s.stream rest).goTo w
      else s.trapNow 0x05 := by
  have hin : ¬((w : Int) < 0 ∨ ((s.me.stream s.stream).secLen : Int) ≤ (w : Int)) := by omega
  rw [State.branch]
  dsimp only
  rw [hw, if_neg hin]
  rfl

theorem branch_noLoop (hl : (s.me.stream s.stream).loops = []) : s.branch off = s.goTo w := by
  rw [branch_inside hw hlen, hl]

variable {l : LoopLevel} {rest : List LoopLevel} (hl : (s.me.stream s.stream).loops = l :: rest)

include hl

theorem branch_inBody (h : l.first ≤ w ∧ w ≤ l.last) : s.branch off = s.goTo w := by
  rw [branch_inside hw hlen, hl]
  exact if_pos h

theorem branch_afterBody (h : w = l.last + 1) : s.branch off = (s.updMe fun x => x.popLoop s.stream rest).goTo w := by
  rw [branch_inside hw hlen, hl]
  exact (if_neg (by omega)).trans (if_pos h)

theorem branch_outOfBody (h : ¬(l.first ≤ w ∧ w ≤ l.last)) (h' : w ≠ l.last + 1) : s.branch off = s.trapNow 0x05 := by
  rw [branch_inside hw hlen, hl]
  exact (if_neg h).trans (if_neg h')

end Branch

/-- BR answers what the branch does under its guard. -/
theorem br_gives (gd : Guard) (off : BitVec 17) {s u : State} {effect : State → Prop} (hu : s.branch off = u)
    (he : effect u) : ∃ t, exec (.br gd off) s = .next t ∧ Guarded gd s t (effect t) := by
  refine ⟨_, guarded_next gd s fun s => s.branch off, ?_⟩
  rw [hu, Guarded]
  split
  · exact he
  · rfl

/-- The stream at work has gone to a word of its section, with the levels given. -/
def GoesTo (s t : State) (w : Nat) (loops : List LoopLevel) : Prop :=
  t.verdict = .moved ∧ { t with verdict := s.verdict, cores := s.cores } = s ∧ (∀ c, c ≠ s.core → t.ctx c = s.ctx c) ∧
    { t.me with le := s.me.le } = s.me.updStream s.stream fun y => { y with pc := y.secStart + 3 * w, loops := loops }

theorem goesTo_goTo (s : State) (w : Nat) : GoesTo s (s.goTo w) w (s.me.stream s.stream).loops := by
  refine ⟨rfl, rfl, fun c hc => s.ctx_goTo_ne w hc, ?_⟩
  rw [State.me_goTo]
  cases s.stream <;> rfl

theorem le_goTo (s : State) (w : Nat) : (s.goTo w).me.le = s.me.le := by
  rw [State.me_goTo]
  cases s.stream <;> rfl

/-- A branch to the word after the body leaves the loop. -/
theorem goesTo_popLoop (s : State) (w : Nat) (rest : List LoopLevel) :
    GoesTo s ((s.updMe fun x => x.popLoop s.stream rest).goTo w) w rest := by
  refine ⟨rfl, rfl, fun c hc => (State.ctx_goTo_ne (s.updMe _) w hc).trans (State.ctx_updMe_ne s _ hc), ?_⟩
  rw [State.me_goTo, State.me_updMe, State.updMe_stream]
  have hle := s.me.popLoop_le s.stream rest
  generalize s.me.popLoop s.stream rest = x at hle ⊢
  rw [← Ctx.updStream_updStream s.me s.stream (fun y => { y with loops := rest }) fun y => { y with pc := y.secStart + 3 * w },
    ← hle]
  cases s.stream <;> rfl

/-! ### BR on the head of bq -/

/-- The head of bq that the C stream may read (R154, R155). -/
theorem readable_head {x : Ctx} {q : Queue} {e : QEntry} {rest : List QEntry} (hq : q.entries = e :: rest)
    (hr : e.ready = true) (ha : ∀ a ∈ x.laccess, e.tk ≤ a.tk) : x.readable q = some e := by
  have hnone : (x.laccess.any fun a => decide (a.tk < e.tk)) = false :=
    List.any_eq_false.2 fun a h => by simpa using ha a h
  simp [Ctx.readable, hq, hr, hnone]

/-- The state after BR has taken the head of bq. -/
def State.popBq (s : State) : State := s.updMe fun x => { x with bq := x.bq.popHead }

theorem State.me_popBq (s : State) : s.popBq.me = { s.me with bq := s.me.bq.popHead } := State.me_updMe _ _

theorem popBq_stream (s : State) (st : StreamId) : s.popBq.me.stream st = s.me.stream st := by
  rw [State.me_popBq]
  cases st <;> rfl

section BrBq
variable {off : BitVec 17} {s : State} {e : QEntry} {rest : List QEntry} (hd : s.me.bq.depth ≠ 0)
  (hq : s.me.bq.entries = e :: rest) (hr : e.ready = true) (ha : ∀ a ∈ s.me.laccess, e.tk ≤ a.tk)

include hd hq hr ha

theorem brBq_eq : exec (.brBq off) s = .next (if e.data.headD 0 = 1 then s.popBq.branch off else s.popBq) := by
  change execBrBq off s = _
  rw [execBrBq, if_neg hd, readable_head hq hr ha]
  rfl

theorem brBq_outside (hs : s.stream = .c) (h1 : e.data.headD 0 = 1)
    (hout : (s.rd.ix : Int) + off.toInt < 0 ∨ (s.me.c.secLen : Int) ≤ (s.rd.ix : Int) + off.toInt) :
    ∃ t, exec (.brBq off) s = .next t ∧ t.verdict = .traps 0x03 0 0 := by
  refine ⟨_, brBq_eq hd hq hr ha, ?_⟩
  have hlen : (s.popBq.me.stream s.popBq.stream).secLen = s.me.c.secLen := by
    rw [popBq_stream]
    exact congrArg (fun st => (s.me.stream st).secLen) hs
  rw [if_pos h1, branch_outside (by rw [hlen]; exact hout)]
  rfl

theorem brBq_goes {w : Nat} (hs : s.stream = .c) (hw : (s.rd.ix : Int) + off.toInt = w)
    (hlen : w < (s.me.stream s.stream).secLen) (hl : (s.me.stream s.stream).loops = []) :
    ∃ t, exec (.brBq off) s = .next t ∧ t.me.bq = { s.me.bq with entries := rest, head := s.me.bq.head + 1 } ∧
      t.me.c.pc = (if e.data.headD 0 = 1 then s.me.c.secStart + 3 * w else s.me.c.pc) ∧
      { t.me with bq := s.me.bq, c := { t.me.c with pc := s.me.c.pc } } = s.me ∧
      { t with verdict := s.verdict, cores := s.cores } = s := by
  have hpop : s.me.bq.popHead = { s.me.bq with entries := rest, head := s.me.bq.head + 1 } := by
    rw [Queue.popHead, hq]; rfl
  refine ⟨_, brBq_eq hd hq hr ha, ?_⟩
  by_cases h1 : e.data.headD 0 = 1
  · have hgo : s.popBq.branch off = s.popBq.goTo w :=
      branch_noLoop hw (by rw [popBq_stream]; exact hlen) (by rw [popBq_stream]; exact hl)
    have hme : (s.popBq.goTo w).me = { s.me with
        bq := s.me.bq.popHead, c := { s.me.c with pc := s.me.c.secStart + 3 * w } } := by
      rw [State.me_goTo, State.me_popBq, show s.popBq.stream = .c from hs]; rfl
    rw [if_pos h1, if_pos h1, hgo, hme]
    exact ⟨hpop, rfl, rfl, rfl⟩
  · rw [if_neg h1, if_neg h1, State.me_popBq]
    exact ⟨hpop, rfl, rfl, rfl⟩

end BrBq

/-- Settles O9: a branch by where its word lies, and BR on bq as the same branch after the head is taken. -/
theorem branchesGoToTheirWord : Obligations.BranchesGoToTheirWord := by
  refine ⟨fun s => rfl, fun off s h0 => ⟨_, if_pos h0, trapWith_traps s 0x01 0 0⟩, fun gd off s => ?br,
    fun off s e rest hs hd hq hr ha h1 hout => brBq_outside hd hq hr ha hs h1 hout,
    fun gd off s w hw hlen hl => ⟨?noLoop, fun e rest hs hd hq hr ha => brBq_goes hd hq hr ha hs hw hlen hl⟩⟩
  case br =>
    intro y w moves gives
    refine ⟨fun hout => br_gives gd off (branch_outside hout) (trapWith_traps s 0x03 0 0), fun h0 hlen l rest hl => ?_⟩
    have hw : (s.rd.ix : Int) + off.toInt = (w.toNat : Nat) := (Int.toNat_of_nonneg h0).symm
    have hin : w.toNat < (s.me.stream s.stream).secLen := (Int.toNat_lt h0).2 hlen
    refine ⟨fun hf hla => ?_, fun hla _ => ?_, fun hout hfl => ?_⟩
    · exact br_gives gd off (branch_inBody hw hin hl (by omega)) ⟨goesTo_goTo s _, le_goTo s _⟩
    · exact br_gives gd off (branch_afterBody hw hin hl (by omega)) (goesTo_popLoop s _ rest)
    · exact br_gives gd off (branch_outOfBody hw hin hl (by omega) (by omega)) (trapWith_traps s 0x05 0 0)
  case noLoop =>
    exact br_gives gd off (branch_noLoop hw hlen hl)
      ⟨rfl, s.goTo_frame w, fun c hc => s.ctx_goTo_ne w hc, s.me_goTo w⟩

/-! ## The end of a word (R151, R183) -/

/-- A reading of a context that the end of a word leaves alone: a stream's place and levels, VIEW_V, the stages of a
pipelined level, the parts of the loop engine that are not pending, and the marks of a cut may change. -/
structure WordEndKeeps {α : Type} (p : Ctx → α) : Prop where
  place : ∀ x st loops next,
    p (Ctx.updStream x st fun y => { y with loops := loops, pc := y.secStart + 3 * next }) = p x
  view : ∀ (x : Ctx) v, p { x with viewV := v } = p x
  engine : ∀ (x : Ctx) e, e.pns = x.le.pns → e.prt = x.le.prt → p { x with le := e } = p x
  stages : ∀ (x : Ctx) q, p { x with c := { x.c with p := q } } = p x
  cut : ∀ x st, p (Ctx.atCut x st) = p x

theorem atCut_trap (x : Ctx) (st : StreamId) : (x.atCut st).trap = x.trap := by
  unfold Ctx.atCut
  split
  · cases st <;> rfl
  · rfl

theorem atCut_stream (x : Ctx) (st k : StreamId) : (x.atCut st).stream k = x.stream k := by
  unfold Ctx.atCut
  split
  · cases st <;> cases k <;> rfl
  · rfl

theorem atCut_le (x : Ctx) (st : StreamId) : (x.atCut st).le = x.le := by
  unfold Ctx.atCut
  split
  · cases st <;> rfl
  · rfl

theorem wordEndKeeps_trap : WordEndKeeps Ctx.trap where
  place x st loops next := by cases st <;> rfl
  view _ _ := rfl
  engine _ _ _ _ := rfl
  stages _ _ := rfl
  cut := atCut_trap

theorem wordEndKeeps_g (k : StreamId) : WordEndKeeps fun x => (x.stream k).g where
  place x st loops next := by cases st <;> cases k <;> rfl
  view _ _ := by cases k <;> rfl
  engine _ _ _ _ := by cases k <;> rfl
  stages _ _ := by cases k <;> rfl
  cut x st := congrArg StreamState.g (atCut_stream x st k)

theorem wordEndKeeps_pending : WordEndKeeps fun x => (x.le.pns, x.le.prt) where
  place x st loops next := by cases st <;> rfl
  view _ _ := rfl
  engine _ _ hpns hprt := Prod.ext hpns hprt
  stages _ _ := rfl
  cut x st := by rw [atCut_le]

/-- Whether the loop engine starts another iteration (R183, R187). -/
def LoopEngine.more (e : LoopEngine) : Bool := !e.drn && decide (e.k < e.n)

/-- The loop engine at an iteration boundary under a pending pre-emption: it starts to drain (R186, R187). -/
def Ctx.drained (x : Ctx) (v : W64) : LoopEngine :=
  if x.preempt && !x.le.drn && decide (x.le.k < x.le.n) then
    { x.le with drn := true, rbd := BitVec.ofNat 5 (fld v 19 5) }
  else x.le

/-- A pipelined level has moved on by one boundary: VIEW_V, the loop engine and the stages (R183). -/
def Ctx.pipeAdvance (x : Ctx) (t : LoopLevel) : Ctx :=
  let e := x.drained (t.view x.viewV)
  { x with
    viewV := t.view x.viewV
    le := if e.more then { e with k := e.k + 1 } else e
    c := { x.c with p := shiftStages x.le.ns.toNat x.c.p e.more } }

theorem pipeBoundary_eq (x : Ctx) (w : Nat) (t : LoopLevel) (rest : List LoopLevel) :
    x.pipeBoundary w t rest =
      let y := x.pipeAdvance t
      let stay : Passed := { loops := t :: rest, next := t.first, view := y.viewV, boundary := false }
      if stagesOff x.le.ns.toNat y.c.p then
        if y.le.drn then
          let z := y.settle .c { stay with view := withRB y.viewV y.le.rbd.toNat }
          if z.preempt then z.atCut .c else z.refill
        else { y with le := { y.le with ns := 0 } }.settle .c (passLevels w rest y.viewV false)
      else y.settle .c stay := rfl

section WordEnd
variable {α : Type} {p : Ctx → α} (hp : WordEndKeeps p)

include hp

theorem settle_keeps (x : Ctx) (st : StreamId) (r : Passed) : p (x.settle st r) = p x := by
  unfold Ctx.settle
  dsimp only
  split
  · rw [hp.cut]
    split
    · rw [hp.view, hp.place]
    · exact hp.place x st _ _
  · split
    · rw [hp.view, hp.place]
    · exact hp.place x st _ _

theorem pipeAdvance_keeps (x : Ctx) (t : LoopLevel) : p (x.pipeAdvance t) = p x := by
  have hdrained : (x.drained (t.view x.viewV)).pns = x.le.pns ∧ (x.drained (t.view x.viewV)).prt = x.le.prt := by
    unfold Ctx.drained
    split <;> exact ⟨rfl, rfl⟩
  unfold Ctx.pipeAdvance
  generalize x.drained (t.view x.viewV) = e at hdrained ⊢
  have hmore (k : W32) : p { x with viewV := t.view x.viewV, le := { e with k := k } } = p x :=
    (hp.engine { x with viewV := t.view x.viewV } { e with k := k } hdrained.1 hdrained.2).trans (hp.view x _)
  dsimp only
  split
  · exact (hp.stages { x with viewV := t.view x.viewV, le := { e with k := e.k + 1 } } _).trans (hmore _)
  · exact (hp.stages { x with viewV := t.view x.viewV, le := e } _).trans (hmore e.k)

theorem refill_keeps (x : Ctx) : p x.refill = p x :=
  (hp.stages { x with le := { x.le with drn := false, k := x.le.k + 1 } } _).trans (hp.engine x _ rfl rfl)

theorem pipeBoundary_keeps (x : Ctx) (w : Nat) (t : LoopLevel) (rest : List LoopLevel) :
    p (x.pipeBoundary w t rest) = p x := by
  have hmoved := pipeAdvance_keeps hp x t
  rw [pipeBoundary_eq]
  dsimp only
  split
  · split
    · split
      · rw [hp.cut, settle_keeps hp, hmoved]
      · rw [refill_keeps hp, settle_keeps hp, hmoved]
    · rw [settle_keeps hp, ← hmoved]
      exact hp.engine _ _ rfl rfl
  · rw [settle_keeps hp, hmoved]

theorem pass_keeps (x : Ctx) (st : StreamId) (w : Nat) : p (x.pass st w) = p x := by
  unfold Ctx.pass
  dsimp only
  split
  · split
    · exact pipeBoundary_keeps hp ..
    · exact settle_keeps hp ..
  · exact settle_keeps hp ..

end WordEnd

/-! ## What a word leaves of the registers -/

/-- No g register of the stream at work has changed, and nothing outside the core but the outcome of the word. -/
def KeepsG (s t : State) : Prop :=
  (∀ i, t.gNow i = s.gNow i) ∧ { t with verdict := s.verdict, cores := s.cores } = s ∧ ∀ c, c ≠ s.core → t.ctx c = s.ctx c

/-- A change of the context at work that leaves the g registers of its stream, with an outcome of the word. -/
theorem keepsG_updMe (s : State) (f : Ctx → Ctx) (v : Verdict)
    (hf : ((f s.me).stream s.stream).g = (s.me.stream s.stream).g) : KeepsG s { s.updMe f with verdict := v } := by
  refine ⟨fun i => ?_, rfl, fun c hc => State.ctx_updMe_ne s f hc⟩
  change ((s.updMe f).me.stream s.stream).getG i = (s.me.stream s.stream).getG i
  rw [State.me_updMe]
  simp only [StreamState.getG, hf]

/-- The context at work after a change of it, with an outcome of the word. -/
theorem State.me_updMe_verdict (s : State) (f : Ctx → Ctx) (v : Verdict) :
    State.me { s.updMe f with verdict := v } = f s.me := State.me_updMe s f

theorem KeepsG.trans {s t u : State} (h : KeepsG s t) (k : KeepsG t u) : KeepsG s u := by
  obtain ⟨hg, hrest, hctx⟩ := h
  obtain ⟨kg, krest, kctx⟩ := k
  have hcore : t.core = s.core := by rw [← hrest]; rfl
  refine ⟨fun i => (kg i).trans (hg i), ?_, fun c hc => (kctx c (hcore ▸ hc)).trans (hctx c hc)⟩
  rw [← hrest, ← krest]

theorem keepsG_trapNow (s : State) (cause : Cause) : KeepsG s (s.trapNow cause) := by
  obtain ⟨-, hrest, hctx, hme, -⟩ := trapWith_traps s cause 0 0
  have hcore : { s.trapNow cause with verdict := s.verdict, cores := s.cores } = s := hrest
  refine ⟨fun i => ?_, hcore, hctx⟩
  have hstream : (s.trapNow cause).me.stream s.stream = s.me.stream s.stream := by
    rw [← hme]
    cases s.stream <;> rfl
  exact congrArg (fun y => y.getG i) hstream

/-- A context with no pending configuration of the C stream's LOOP (R182). -/
def Ctx.noPending (x : Ctx) : Ctx := { x with le := { x.le with pns := 0, prt := false } }

theorem Ctx.stream_noPending (x : Ctx) (st : StreamId) : x.noPending.stream st = x.stream st := by cases st <;> rfl

theorem keepsG_takePending (s : State) : KeepsG s s.takePending := by
  unfold State.takePending
  split
  · exact keepsG_updMe s Ctx.noPending s.verdict (by rw [Ctx.stream_noPending])
  · exact ⟨fun _ => rfl, rfl, fun _ _ => rfl⟩

/-! ## LOOP -/

theorem me_takePending (s : State) : s.takePending.me = if s.stream = .c then s.me.noPending else s.me := by
  unfold State.takePending
  split
  · exact State.me_updMe s _
  · rfl

theorem stream_takePending (s : State) (st : StreamId) : s.takePending.me.stream st = s.me.stream st := by
  rw [me_takePending]
  split
  · exact Ctx.stream_noPending _ _
  · rfl

@[simp] theorem takePending_rd (s : State) : s.takePending.rd = s.rd := by
  unfold State.takePending
  split <;> rfl

@[simp] theorem takePending_verdict (s : State) : s.takePending.verdict = s.verdict := by
  unfold State.takePending
  split <;> rfl

@[simp] theorem takePending_focus (s : State) : s.takePending.focus = s.focus := by
  unfold State.takePending
  split <;> rfl

theorem takePending_stream (s : State) : s.takePending.stream = s.stream := by simp [State.stream]

theorem takePending_guardOk (gd : Guard) (s : State) : guardOk gd s.takePending = guardOk gd s := by
  simp [guardOk, State.rp]

theorem takePending_rg (s : State) (a : BitVec 5) : s.takePending.rg a = s.rg a := by simp [State.rg]

/-- The pending configuration is cleared in the C stream. -/
def ClearsPending (s t : State) : Prop := s.stream = .c → t.me.le.pns = 0 ∧ t.me.le.prt = false

theorem clearsPending_takePending (s : State) : ClearsPending s s.takePending := by
  intro hs
  rw [me_takePending, if_pos hs]
  exact ⟨rfl, rfl⟩

/-- The stages that the C stream's LOOP finds pending; the other streams have none (R182). -/
def State.pendingNs (s : State) : BitVec 4 := if s.stream = .c then s.me.le.pns else 0

/-- Whether the C stream's LOOP finds a rotating level pending. -/
def State.pendingRot (s : State) : Bool := decide (s.stream = .c) && s.me.le.prt

/-- The state after a LOOP that pushes its level. -/
def State.looped (s : State) (a : BitVec 5) (body : BitVec 13) : State :=
  { s.takePending.updMe fun x => x.pushLoop s.stream s.rd.ix body.toNat (s.rg a) s.pendingNs s.pendingRot with
    verdict := .moved }

/-- LOOP, by the order of its checks (R151, R182 to R184). -/
theorem loop_eq (gd : Guard) (a : BitVec 5) (body : BitVec 13) (s : State) :
    exec (.loop gd a body) s = .next (
      if guardOk gd s = false then s.takePending
      else if body = 0 ∨ (s.me.stream s.stream).secLen ≤ s.rd.ix + body.toNat then s.takePending.trapNow 0x03
      else if 2 ^ 32 ≤ (s.rg a).toNat ∨ (s.me.stream s.stream).loops.length = 4 then s.takePending.trapNow 0x05
      else if ¬∀ l ∈ (s.me.stream s.stream).loops.head?, s.rd.ix + body.toNat ≤ l.last then s.takePending.trapNow 0x05
      else if s.stream = .c ∧ s.me.le.ns ≠ 0 then s.takePending.trapNow 0x05
      else if s.rg a = 0 then s.takePending.passOver (s.rd.ix + body.toNat)
      else s.looped a body) := by
  have hinner : (((s.me.stream s.stream).loops.head?.map fun l => decide (l.last < s.rd.ix + body.toNat)) = some true) =
      ¬∀ l ∈ (s.me.stream s.stream).loops.head?, s.rd.ix + body.toNat ≤ l.last := by
    cases (s.me.stream s.stream).loops.head? <;> simp
  have hns : s.takePending.me.le.ns = s.me.le.ns := by
    rw [me_takePending]
    split <;> rfl
  change execLoop gd a body s = _
  simp only [execLoop, takePending_guardOk, takePending_rg, takePending_rd, takePending_stream]
  simp only [← hinner, ← hns, State.looped, State.pendingNs, State.pendingRot, Bool.not_eq_true']

/-- The level that a LOOP pushes over the words after its own: a pipelined one counts by the loop engine (R183). -/
def loopLevel (ix body : Nat) (n : W64) (ns : BitVec 4) (rot : Bool) : LoopLevel :=
  { first := ix + 1, last := ix + body, left := if ns = 0 then n.toNat else 0, rot := rot }

/-- A LOOP with no pending stages pushes a level that counts. -/
theorem pushLoop_counting (x : Ctx) (st : StreamId) (ix body : Nat) (n : W64) (rot : Bool) :
    x.pushLoop st ix body n 0 rot = x.updStream st fun y =>
      { y with loops := loopLevel ix body n 0 rot :: y.loops, pc := y.secStart + 3 * (ix + 1) } := rfl

/-- A LOOP with pending stages pushes a pipelined level in the C stream: the loop engine counts, and the stages start. -/
theorem pushLoop_pipelined (x : Ctx) (ix body : Nat) (n : W64) {ns : BitVec 4} (rot : Bool) (hns : ns ≠ 0) :
    x.pushLoop .c ix body n ns rot = { x with
      le := { x.le with ns := ns, n := BitVec.ofNat 32 n.toNat, k := 1, drn := false }
      c := { x.c with
        loops := loopLevel ix body n ns rot :: x.c.loops
        pc := x.c.secStart + 3 * (ix + 1)
        p := startStages ns.toNat x.c.p } } := by
  unfold Ctx.pushLoop
  rw [if_neg hns]
  rfl

/-- As a pipelined level starts, p8 is true and the later stages are false (R183). -/
theorem getP_startStages (y : StreamState) (ns : Nat) (i : BitVec 4) :
    ({ y with p := startStages ns y.p } : StreamState).getP i =
      if i.toNat = 8 then true else if 9 ≤ i.toNat ∧ i.toNat ≤ 7 + ns then false else y.getP i := by
  unfold StreamState.getP startStages
  by_cases h0 : i = 0
  · subst h0; rfl
  · rw [if_neg h0, if_neg h0, Vector.getElem_ofFn]
    rfl

section Loop
variable {gd : Guard} {a : BitVec 5} {body : BitVec 13} {s : State}

/-- What the core is after a LOOP that pushes its level, in the C stream and in another. -/
theorem me_looped (s : State) (a : BitVec 5) (body : BitVec 13) :
    (s.looped a body).me =
      s.takePending.me.pushLoop s.stream s.rd.ix body.toNat (s.rg a) s.pendingNs s.pendingRot :=
  State.me_updMe_verdict _ _ _

/-- Stages are pending in the C stream alone. -/
theorem pendingNs_stream (h : s.pendingNs ≠ 0) : s.stream = .c := by
  by_contra hs
  exact h (if_neg hs)

theorem looped_level (s : State) (a : BitVec 5) (body : BitVec 13) :
    ((s.looped a body).me.stream s.stream).loops =
        loopLevel s.rd.ix body.toNat (s.rg a) s.pendingNs s.pendingRot :: (s.me.stream s.stream).loops ∧
      ((s.looped a body).me.stream s.stream).pc = (s.me.stream s.stream).secStart + 3 * (s.rd.ix + 1) ∧
      ((s.looped a body).me.stream s.stream).g = (s.me.stream s.stream).g := by
  rw [me_looped, ← stream_takePending s s.stream]
  by_cases hns : s.pendingNs = 0
  · rw [hns, pushLoop_counting, Ctx.stream_updStream_same]
    exact ⟨rfl, rfl, rfl⟩
  · rw [pendingNs_stream hns, pushLoop_pipelined _ _ _ _ _ hns]
    exact ⟨rfl, rfl, rfl⟩

theorem looped_clearsPending (s : State) (a : BitVec 5) (body : BitVec 13) : ClearsPending s (s.looped a body) := by
  intro hs
  have hclear := clearsPending_takePending s hs
  rw [me_looped]
  by_cases hns : s.pendingNs = 0
  · rw [hns, pushLoop_counting, hs]
    exact hclear
  · rw [hs, pushLoop_pipelined _ _ _ _ _ hns]
    exact hclear

theorem looped_keepsG (s : State) (a : BitVec 5) (body : BitVec 13) : KeepsG s (s.looped a body) := by
  refine (keepsG_takePending s).trans (keepsG_updMe _ _ _ ?_)
  obtain ⟨-, -, hg⟩ := looped_level s a body
  rw [me_looped] at hg
  rw [takePending_stream, hg, stream_takePending]

theorem looped_pNow (s : State) (a : BitVec 5) (body : BitVec 13) (h : s.pendingNs = 0) (i : BitVec 4) :
    (s.looped a body).pNow i = s.pNow i := by
  have hstream : (s.looped a body).stream = s.stream := takePending_stream s
  rw [State.pNow, State.pNow, hstream, me_looped, h, pushLoop_counting, Ctx.stream_updStream_same,
    stream_takePending]
  rfl

/-- A pipelined level starts with its stages as R183 says. -/
theorem looped_stages (s : State) (a : BitVec 5) (body : BitVec 13) (h : s.pendingNs ≠ 0) :
    (s.looped a body).me.le.ns = s.pendingNs ∧ (s.looped a body).me.le.n = (s.rg a).setWidth 32 ∧
      (s.looped a body).me.le.k = 1 ∧ (s.looped a body).me.le.drn = false ∧ (s.looped a body).pNow 8 = true ∧
      ∀ i : BitVec 4, 8 < i.toNat → i.toNat ≤ 7 + s.pendingNs.toNat → (s.looped a body).pNow i = false := by
  have hs : s.stream = .c := pendingNs_stream h
  have hme := (me_looped s a body).trans (by rw [hs, pushLoop_pipelined _ _ _ _ _ h])
  have hp (i : BitVec 4) : (s.looped a body).pNow i = if i.toNat = 8 then true
      else if 9 ≤ i.toNat ∧ i.toNat ≤ 7 + s.pendingNs.toNat then false else s.takePending.me.c.getP i := by
    rw [← getP_startStages, State.pNow, show (s.looped a body).stream = .c from (takePending_stream s).trans hs, hme]
    rfl
  rw [hme]
  refine ⟨rfl, rfl, rfl, rfl, (hp 8).trans (if_pos rfl), fun i h8 hi => ?_⟩
  rw [hp, if_neg (by omega), if_pos ⟨h8, hi⟩]

theorem me_passOver (s : State) (w : Nat) : (s.passOver w).me = s.me.pass s.stream w := State.me_updMe_verdict _ _ _

/-- A LOOP whose count is 0 passes over its body (R151). -/
theorem passOver_takePending (s : State) (last : Nat) :
    (s.takePending.passOver last).me =
      (if s.stream = .c then { s.me with le := { s.me.le with pns := 0, prt := false } } else s.me).pass s.stream last := by
  rw [me_passOver, me_takePending, takePending_stream]
  rfl

theorem passOver_keepsG (s : State) (last : Nat) : KeepsG s (s.takePending.passOver last) :=
  (keepsG_takePending s).trans (keepsG_updMe _ _ _ (pass_keeps (wordEndKeeps_g _) _ _ _))

theorem passOver_clearsPending (s : State) (last : Nat) : ClearsPending s (s.takePending.passOver last) := by
  intro hs
  have hpass := pass_keeps wordEndKeeps_pending s.takePending.me s.takePending.stream last
  rw [me_passOver]
  obtain ⟨hpns, hprt⟩ := Prod.mk.inj hpass
  rw [hpns, hprt]
  exact clearsPending_takePending s hs

/-- The end of a word in no loop goes to the next word. -/
theorem pass_noLoop (x : Ctx) (st : StreamId) (w : Nat) (h : (x.stream st).loops = []) :
    ((x.pass st w).stream st).loops = [] ∧ ((x.pass st w).stream st).pc = (x.stream st).secStart + 3 * (w + 1) := by
  have hpass : x.pass st w = x.settle st { loops := [], next := w + 1, view := x.viewV, boundary := false } := by
    unfold Ctx.pass
    dsimp only
    rw [h]
    rfl
  rw [hpass]
  cases st <;> exact ⟨rfl, rfl⟩

theorem passOver_noLoop (s : State) (last : Nat) (h : (s.me.stream s.stream).loops = []) :
    ((s.takePending.passOver last).me.stream s.stream).loops = [] ∧
      ((s.takePending.passOver last).me.stream s.stream).pc = (s.me.stream s.stream).secStart + 3 * (last + 1) := by
  rw [me_passOver, takePending_stream, ← stream_takePending s s.stream]
  exact pass_noLoop _ _ _ (by rw [stream_takePending, h])

end Loop

/-- Settles O11: LOOP by the first of its checks that applies. -/
theorem loopStartsItsLevel : Obligations.LoopStartsItsLevel := by
  intro gd a body s y last ns rot cleared inner plain keeps
  have heq := loop_eq gd a body s
  have hkeeps (cause : Cause) : KeepsG s (s.takePending.trapNow cause) := (keepsG_takePending s).trans (keepsG_trapNow _ _)
  refine ⟨fun hg => ?off, fun hg hbody => ?section_, fun hg hbody hlast hlim => ?limits,
    fun hg hbody hlast hcount hdepth hinner hplain => ?starts⟩
  case off =>
    refine ⟨_, heq, ?_⟩
    rw [if_pos hg]
    exact ⟨takePending_verdict s, clearsPending_takePending s, keepsG_takePending s, stream_takePending s _⟩
  case section_ =>
    refine ⟨_, heq, ?_⟩
    rw [if_neg (by simp [hg]), if_pos hbody]
    exact ⟨rfl, hkeeps 0x03⟩
  case limits =>
    have htraps : exec (.loop gd a body) s = .next (s.takePending.trapNow 0x05) := by
      rw [heq, if_neg (by simp [hg]), if_neg (not_or.2 ⟨hbody, Nat.not_le.2 hlast⟩)]
      by_cases hn : 2 ^ 32 ≤ (s.rg a).toNat ∨ y.loops.length = 4
      · rw [if_pos hn]
      · rw [if_neg hn]
        by_cases hi : inner
        · have hp : s.stream = .c ∧ s.me.le.ns ≠ 0 := by
            obtain h | h | h | h := hlim
            · exact absurd (Or.inl h) hn
            · exact absurd (Or.inr h) hn
            · exact absurd hi h
            · exact not_not.1 h
          rw [if_pos hp, ite_self]
        · rw [if_pos hi]
    exact ⟨_, htraps, rfl, hkeeps 0x05⟩
  case starts =>
    rw [if_neg (by simp [hg]), if_neg (not_or.2 ⟨hbody, Nat.not_le.2 hlast⟩),
      if_neg (not_or.2 ⟨Nat.not_le.2 hcount, hdepth⟩), if_neg (not_not.2 hinner), if_neg hplain] at heq
    refine ⟨fun h0 => ?_, fun h0 => ?_⟩
    · rw [if_pos h0] at heq
      exact ⟨_, heq, rfl, passOver_clearsPending s last, passOver_keepsG s last, passOver_takePending s last,
        passOver_noLoop s last⟩
    · rw [if_neg h0] at heq
      obtain ⟨hloops, hpc, -⟩ := looped_level s a body
      exact ⟨s.looped a body, heq, rfl, looped_clearsPending s a body, looped_keepsG s a body, hloops, hpc,
        looped_pNow s a body, looped_stages s a body⟩

/-! ## TRAP and FIN -/

/-- TRAP stands the core at its trap, and the end of the word changes neither the trap nor a g register. -/
theorem trap_stands (gd : Guard) (code : BitVec 8) (s : State) (hg : guardOk gd s = true) (ht : s.me.trap = none) :
    ∃ t, exec (.trap gd code) s = .next t ∧ t.verdict = .traps 0x14 code 0 ∧
      t.me.trap =
        some { cause := 0x14, stream := s.stream, code := code, addr := 0, seq := (s.me.stream s.stream).seq, syl := s.rd.pc } ∧
      (∀ i, t.gNow i = s.gNow i) ∧ { t with verdict := s.verdict, cores := s.cores } = s := by
  obtain ⟨-, -, -, hme, htrap⟩ := trapWith_traps s 0x14 code 0
  let u := s.trapWith 0x14 code 0
  let t : State := { u.updMe fun x => x.pass s.stream s.rd.ix with verdict := .traps 0x14 code 0 }
  have hexec : exec (.trap gd code) s = .next t := by
    change execTrap gd code s = _
    rw [execTrap, guarded_next, if_pos hg]
  have htme : t.me = u.me.pass s.stream s.rd.ix := State.me_updMe_verdict _ _ _
  refine ⟨t, hexec, rfl, ?_, fun i => ?_, rfl⟩
  · rw [htme, pass_keeps wordEndKeeps_trap, htrap, ht]
    rfl
  · have hpass : ((u.me.pass s.stream s.rd.ix).stream s.stream).g = (u.me.stream s.stream).g :=
      pass_keeps (wordEndKeeps_g s.stream) _ _ _
    have hu : u.me.stream s.stream = s.me.stream s.stream := by
      rw [← hme]
      cases s.stream <;> rfl
    change (t.me.stream s.stream).getG i = (s.me.stream s.stream).getG i
    rw [htme]
    simp only [StreamState.getG, hpass, hu]

/-- A stream as FIN leaves it, whose word has stamp `stamp` (R147, R152). -/
def StreamState.finished (y : StreamState) (stamp : Nat) : StreamState :=
  { StreamState.leaveSection { y with loops := [] } stamp with phase := .done }

theorem StreamState.finished_inSection (y : StreamState) (stamp : Nat) : (y.finished stamp).inSection = false :=
  StreamState.leaveSection_inSection ..

/-- Leaving a section changes nothing but its marks. -/
theorem StreamState.finished_keeps (y : StreamState) (stamp : Nat) :
    (y.finished stamp).loops = [] ∧ (y.finished stamp).g = y.g ∧ (y.finished stamp).p = y.p := by
  unfold StreamState.finished StreamState.leaveSection
  dsimp only
  split <;> exact ⟨rfl, rfl, rfl⟩

/-- FIN ends the stream at work. -/
theorem fin_ends (gd : Guard) (s : State) (hg : guardOk gd s = true) :
    ∃ t, exec (.fin gd) s = .next t ∧ t.verdict = .moved ∧ { t with verdict := s.verdict, cores := s.cores } = s ∧
      t.stream = s.stream ∧ t.me.stream s.stream = (s.me.stream s.stream).finished (s.me.stamp s.stream + 1) := by
  have hexec : exec (.fin gd) s = .next { s.takePending.updMe fun x =>
      (x.dropLoops s.takePending.stream).updStream s.takePending.stream fun y =>
        { y.leaveSection (s.me.stamp s.stream + 1) with phase := .done } with verdict := .moved } := by
    change execFin gd s = _
    rw [execFin, guarded_next, if_pos hg]
  obtain ⟨-, hrest, -⟩ := keepsG_takePending s
  refine ⟨_, hexec, rfl, hrest, takePending_stream s, ?_⟩
  rw [State.me_updMe_verdict, takePending_stream, Ctx.stream_updStream_same]
  have hdrop : (s.takePending.me.dropLoops s.stream).stream s.stream = { s.me.stream s.stream with loops := [] } := by
    rw [← stream_takePending s s.stream]
    cases s.stream <;> rfl
  rw [hdrop]
  rfl

/-- Settles O12: TRAP's record and registers, and the stream that FIN leaves. -/
theorem trapAndFinEndTheirStream : Obligations.TrapAndFinEndTheirStream := by
  intro gd code s hg
  refine ⟨trap_stands gd code s hg, ?_⟩
  obtain ⟨t, hexec, hverdict, hrest, hstream, hy⟩ := fin_ends gd s hg
  obtain ⟨hloops, hkeepsG, hkeepsP⟩ := (s.me.stream s.stream).finished_keeps (s.me.stamp s.stream + 1)
  refine ⟨t, hexec, hverdict, ?_, ?_, ?_, fun i => ?_, fun i => ?_, hrest⟩
  · rw [hy]; rfl
  · rw [hy, hloops]
  · rw [hy, StreamState.finished_inSection]
  · rw [State.gNow, State.gNow, hstream, hy]
    simp only [StreamState.getG, hkeepsG]
  · rw [State.pNow, State.pNow, hstream, hy]
    simp only [StreamState.getP, hkeepsP]

end Sys2Proof.Machine

/-! PROOFS. Loads, prefetches and layout loads enter the L access queue (O16), and STADV moves a stream register (O18). -/

namespace Sys2Proof.Machine

/-! ## Entering the access queue -/

/-- The status with which an access of a unit enters, as the manual orders its checks: alignment before range. -/
def unitStatus (lm : Bool) (a : W64) (unit : Nat) : AccStatus :=
  if a.toNat % unit ≠ 0 then .fail 0x02 a else if lm = false ∧ 2 ^ 56 ≤ a.toNat then .fail 0x27 a else .sent

theorem accessStatus_unit (lm : Bool) (a : W64) (unit : Nat) :
    accessStatus lm (a.toNat % unit == 0) a = unitStatus lm a unit := by
  rw [accessStatus_eq, issueStatus, unitStatus]
  exact if_congr beq_eq_false_iff_ne rfl rfl

/-- An operation has entered the access queue, sent the request of a load that has not failed, and done nothing else. -/
def EnteredAccess (s t : State) (kind : LKind) (st : AccStatus) (sends : Option (W64 × Nat)) : Prop :=
  t.verdict = s.verdict ∧
    t.me.laccess = s.me.laccess ++ [({ tk := s.me.tk, kind := kind, status := st } : LAccess)] ∧
    { t.me with laccess := s.me.laccess } = s.me ∧ { t with cores := s.cores, reqs := s.reqs } = s ∧
    (match sends with
      | none => t.reqs = s.reqs
      | some (addr, n) => if st = .sent then ∃ r, t.reqs = s.reqs ++ [r] ∧ r.addr = addr ∧ r.op = .load n ∧
          r.core = s.core ∧ r.tk = s.me.tk ∧ r.lstream = true else t.reqs = s.reqs) ∧
    ∀ c, c ≠ s.core → t.ctx c = s.ctx c

theorem enteredAccess_pushL (s : State) (kind : LKind) (st : AccStatus) :
    EnteredAccess s (s.pushL kind st) kind st none :=
  ⟨rfl, by rw [State.me_pushL], by rw [State.me_pushL], rfl, rfl, fun _ hc => State.ctx_updMe_ne s _ hc⟩

theorem unitStatus_sent_or_fail (lm : Bool) (a : W64) (unit : Nat) :
    unitStatus lm a unit = .sent ∨ ∃ cause, unitStatus lm a unit = .fail cause a := by
  unfold unitStatus
  split_ifs
  · exact .inr ⟨_, rfl⟩
  · exact .inr ⟨_, rfl⟩
  · exact .inl rfl

/-- A load of a register from the global space sends its request unless it has failed at its issue. -/
theorem enteredAccess_pushLoad (s : State) (kind : LKind) (lm : Bool) (a : W64) (n : Nat) :
    EnteredAccess s (s.pushLoad kind (unitStatus lm a n) a n) kind (unitStatus lm a n) (some (a, n)) := by
  obtain ⟨hverdict, hacc, hme, hrest, hreqs, hctx⟩ := enteredAccess_pushL s kind (unitStatus lm a n)
  obtain h | ⟨cause, h⟩ := unitStatus_sent_or_fail lm a n <;> rw [h] at hacc hme hrest hreqs hctx ⊢
  · exact ⟨hverdict, hacc, hme, hrest, ⟨_, rfl, rfl, rfl, rfl, rfl, rfl⟩, hctx⟩
  · exact ⟨hverdict, hacc, hme, hrest, hreqs, hctx⟩

theorem lFull_iff (x : Ctx) : x.lFull = true ↔ 32 ≤ x.laccess.length := decide_eq_true_iff

/-- The operation waits while the access queue is full, and enters it otherwise (R153). -/
def EntersAccess (s : State) (i : Instr) (kind : LKind) (st : AccStatus) (sends : Option (W64 × Nat)) : Prop :=
  (s.me.laccess.length < 32 → ∃ t, exec i s = .next t ∧ EnteredAccess s t kind st sends) ∧
    (32 ≤ s.me.laccess.length → ∃ t, exec i s = .next t ∧ t.verdict = .waits .access)

theorem entersAccess_of {s u : State} {i : Instr} {kind : LKind} {st : AccStatus} {sends : Option (W64 × Nat)}
    (hexec : exec i s = .next (if s.me.lFull then s.waitNow .access else u)) (hu : EnteredAccess s u kind st sends) :
    EntersAccess s i kind st sends := by
  refine ⟨fun h => ⟨u, ?_, hu⟩, fun h => ⟨s.waitNow .access, ?_, rfl⟩⟩
  · rw [hexec, if_neg (mt (lFull_iff _).1 (Nat.not_le.2 h))]
  · rw [hexec, if_pos ((lFull_iff _).2 h)]

section Enters
variable {gd : Guard} {s : State} {i : Instr} (hg : guardOk gd s = true)

include hg

/-- LD and LDL into a register, in both forms of address (R158, R159): `lm` says which. -/
theorem entersAccess_loadReg {lm : Bool} {d : BitVec 5} {a : W64} {sz : BitVec 2} {sx : Bool}
    (hexec : exec i s = guarded gd s fun s => s.loadReg lm d a sz sx) :
    EntersAccess s i (.reg lm a (2 ^ sz.toNat) d sx) (unitStatus lm a (2 ^ sz.toNat))
      (if lm then none else some (a, 2 ^ sz.toNat)) := by
  rw [guarded_next, if_pos hg, State.loadReg] at hexec
  simp only [accessStatus_unit] at hexec
  refine entersAccess_of hexec ?_
  cases lm with
  | true => exact enteredAccess_pushL s _ _
  | false => exact enteredAccess_pushLoad s _ _ a _

/-- PREF, LDLAY and STCFG make their reads themselves (R164, R168, R172). -/
theorem entersAccess_pushL {kind : LKind} {st : AccStatus}
    (hexec : exec i s = guarded gd s fun s => if s.me.lFull then s.waitNow .access else s.pushL kind st) :
    EntersAccess s i kind st none := by
  rw [guarded_next, if_pos hg] at hexec
  exact entersAccess_of hexec (enteredAccess_pushL s kind st)

end Enters

/-- An operation on a stream register that the LAUNCH declares is one under its guard; on another it raises 0x01. -/
theorem onSt_declared {s : State} {r : BitVec 4} (gd : Guard) (f : State → State) (h : r.toNat < s.myFlock.nst) :
    s.onSt r gd f = guarded gd s f := if_neg (Nat.not_le.2 h)

theorem onSt_undeclared {s : State} {r : BitVec 4} (gd : Guard) (f : State → State) (h : s.myFlock.nst ≤ r.toNat) :
    ∃ t, s.onSt r gd f = .next t ∧ TrapsAtWord s t 0x01 0 0 :=
  ⟨_, if_pos h, trapWith_traps s 0x01 0 0⟩

/-- Settles O16: register loads by `loadReg`, and the operations that read for themselves by what they enter. -/
theorem loadsEnterTheAccessQueue : Obligations.LoadsEnterTheAccessQueue := by
  intro gd d a sz sx w lvl n k s hg status enters at0 at1 bytes
  have hat0 : s.addr a 0 = at0 := s.addr_zero a
  have hrecord (x : W64) : unitStatus false x 64 = accessStatus false (x.toNat % 64 == 0) x := (accessStatus_unit ..).symm
  refine ⟨?ld, ?ldOffset, ?ldl, ?ldlOffset, ?pref, ?prefOffset, ?ldlay, ?ldlayOffset, fun r hr => ⟨?stcfg, ?stcfgOffset⟩,
    fun r hr => ⟨onSt_undeclared gd _ hr, onSt_undeclared gd _ hr⟩⟩
  case ld => exact hat0 ▸ entersAccess_loadReg (lm := false) hg rfl
  case ldOffset => exact entersAccess_loadReg (lm := false) hg rfl
  case ldl => exact hat0 ▸ entersAccess_loadReg (lm := true) hg rfl
  case ldlOffset => exact entersAccess_loadReg (lm := true) hg rfl
  case pref => exact hat0 ▸ entersAccess_pushL hg rfl
  case prefOffset => exact entersAccess_pushL hg rfl
  case ldlay => exact hat0 ▸ entersAccess_pushL (st := unitStatus _ _ _) hg (hrecord _ ▸ rfl)
  case ldlayOffset => exact entersAccess_pushL (st := unitStatus _ _ _) hg (hrecord _ ▸ rfl)
  case stcfg => exact hat0 ▸ entersAccess_pushL (st := unitStatus _ _ _) hg (hrecord _ ▸ onSt_declared gd _ hr)
  case stcfgOffset => exact entersAccess_pushL (st := unitStatus _ _ _) hg (hrecord _ ▸ onSt_declared gd _ hr)

/-! ## STADV -/

/-- A stream register walks again from moved bases (R171). -/
theorem rebase_again (u : StreamReg) (da db : W64) :
    let v := u.rebase da db
    v.lay.base = u.lay.base + da ∧ v.lay.sbase = u.lay.sbase + db ∧ v.j = 0 ∧ v.i0 = 0 ∧ v.i1 = 0 ∧ v.i2 = 0 ∧ v.i3 = 0 ∧
      v.crc = 0xFFFFFFFF ∧ { v.lay with base := u.lay.base, sbase := u.lay.sbase } = u.lay := by
  simp [StreamReg.rebase, StreamReg.at]

theorem skip_allowed {u : StreamReg} {n : W64} (htc : u.lay.tc = false) (hn : u.j + n.toNat ≤ u.lay.total) :
    u.skip n = some (u.at (u.j + n.toNat)) := if_neg (by simp [htc, hn])

theorem skip_refused {u : StreamReg} {n : W64} (h : u.lay.tc = true ∨ u.lay.total < u.j + n.toNat) : u.skip n = none :=
  if_pos h

section StadvWith
variable {s : State} {r : BitVec 4} {move : StreamReg → Option StreamReg} (hacc : s.me.laccess = [])

include hacc

theorem stadvWith_unconfigured (hc : (s.me.getSt r).conf = false) : s.stadvWith r move = s.trapNow 0x06 := by
  simp [State.stadvWith, hacc, hc]

theorem stadvWith_refused (hc : (s.me.getSt r).conf = true) (h : move (s.me.getSt r) = none) :
    s.stadvWith r move = s.trapNow 0x06 := by
  simp [State.stadvWith, hacc, hc, h]

theorem stadvWith_moves (hc : (s.me.getSt r).conf = true) {u : StreamReg} (h : move (s.me.getSt r) = some u) :
    s.stadvWith r move = s.updMe fun x => x.setSt r u := by
  simp [State.stadvWith, hacc, hc, h]

end StadvWith

section Stadv
variable {gd : Guard} {r : BitVec 4} {s : State} {i : Instr} {move : State → StreamReg → Option StreamReg}
  (hexec : exec i s = s.onSt r gd fun s => s.stadvWith r (move s)) (hg : guardOk gd s = true)
  (hr : r.toNat < s.myFlock.nst) (hacc : s.me.laccess = [])

include hexec hg hr

/-- STADV under its guard on a declared register. -/
theorem stadv_eq : exec i s = .next (s.stadvWith r (move s)) := by
  rw [hexec, onSt_declared gd _ hr, guarded_next, if_pos hg]

include hacc

theorem stadv_unconfigured (hc : (s.me.getSt r).conf = false) : ∃ t, exec i s = .next t ∧ TrapsAtWord s t 0x06 0 0 :=
  ⟨_, stadv_eq hexec hg hr, stadvWith_unconfigured hacc hc ▸ trapWith_traps s 0x06 0 0⟩

theorem stadv_refused (hc : (s.me.getSt r).conf = true) (h : move s (s.me.getSt r) = none) :
    ∃ t, exec i s = .next t ∧ TrapsAtWord s t 0x06 0 0 :=
  ⟨_, stadv_eq hexec hg hr, stadvWith_refused hacc hc h ▸ trapWith_traps s 0x06 0 0⟩

/-- STADV moves its register and changes nothing else. -/
theorem stadv_moves {u : StreamReg} (hc : (s.me.getSt r).conf = true) (h : move s (s.me.getSt r) = some u) :
    ∃ t, exec i s = .next t ∧ t.me.getSt r = u ∧ { t.me with st := s.me.st } = s.me ∧ SameButCore s t := by
  refine ⟨_, stadv_eq hexec hg hr, ?_⟩
  rw [stadvWith_moves hacc hc h, State.me_updMe]
  exact ⟨Ctx.getSt_setSt_same .., rfl, sameButCore_updMe s _⟩

/-- A walk again from moved bases. -/
theorem stadv_again {da db : W64} (hc : (s.me.getSt r).conf = true)
    (h : move s (s.me.getSt r) = some ((s.me.getSt r).rebase da db)) :
    ∃ t, exec i s = .next t ∧
      (let u := s.me.getSt r
       let v := t.me.getSt r
       v.lay.base = u.lay.base + da ∧ v.lay.sbase = u.lay.sbase + db ∧ v.j = 0 ∧ v.i0 = 0 ∧ v.i1 = 0 ∧ v.i2 = 0 ∧
         v.i3 = 0 ∧ v.crc = 0xFFFFFFFF ∧ { v.lay with base := u.lay.base, sbase := u.lay.sbase } = u.lay) ∧
      { t.me with st := s.me.st } = s.me ∧ SameButCore s t := by
  obtain ⟨t, ht, hu, hrest, hsame⟩ := stadv_moves hexec hg hr hacc hc h
  exact ⟨t, ht, hu ▸ rebase_again _ da db, hrest, hsame⟩

/-- A skip of entries inside the walk of an unchecked tile. -/
theorem stadv_skips {n : W64} (hc : (s.me.getSt r).conf = true) (h : move s (s.me.getSt r) = (s.me.getSt r).skip n)
    (htc : (s.me.getSt r).lay.tc = false) (hn : (s.me.getSt r).j + n.toNat ≤ (s.me.getSt r).lay.total) :
    ∃ t, exec i s = .next t ∧ (t.me.getSt r).j = (s.me.getSt r).j + n.toNat ∧
      (t.me.getSt r).lay = (s.me.getSt r).lay ∧ { t.me with st := s.me.st } = s.me ∧ SameButCore s t := by
  obtain ⟨t, ht, hu, hrest, hsame⟩ := stadv_moves hexec hg hr hacc hc (h.trans (skip_allowed htc hn))
  exact ⟨t, ht, by rw [hu]; rfl, by rw [hu]; rfl, hrest, hsame⟩

end Stadv

/-- Settles O18: each form of STADV is one move of its stream register, or a skip that is refused. -/
theorem streamRegistersAdvance : Obligations.StreamRegistersAdvance := by
  intro gd r a b imm s hg hr hacc u again
  refine ⟨fun hc => stadv_unconfigured rfl hg hr hacc hc, fun hc => ⟨?again, ?againImm, fun htc hn => ?skip,
    fun htc hn => ?skipImm, fun h => ?refused, fun h => ?refusedImm⟩⟩
  case again => exact stadv_again rfl hg hr hacc hc rfl
  case againImm => exact stadv_again rfl hg hr hacc hc rfl
  case skip => exact stadv_skips rfl hg hr hacc hc rfl htc hn
  case skipImm => exact stadv_skips rfl hg hr hacc hc rfl htc hn
  case refused => exact stadv_refused rfl hg hr hacc hc (skip_refused h)
  case refusedImm => exact stadv_refused rfl hg hr hacc hc (skip_refused h)

end Sys2Proof.Machine

/-! PROOFS. The head of the L access queue completes or is cut (O20). -/

namespace Sys2Proof.Machine

theorem ctx_onCore_same (s : State) (c : Nat) (f : Ctx → Ctx) : (s.onCore c f).ctx c = (f (s.ctx c)).wake :=
  State.ctx_updCtx_same s c _

section LComplete
variable {c : Nat} {s : State} {e : LAccess} {rest : List LAccess} (hq : (s.ctx c).laccess = e :: rest)
  (hp : e.resendAt = none)

/-- A core whose access queue has lost its head. -/
def State.dropHead (s : State) (c : Nat) (rest : List LAccess) : State := s.updCtx c fun x => { x with laccess := rest }

theorem ctx_dropHead (s : State) (c : Nat) (rest : List LAccess) :
    (s.dropHead c rest).ctx c = { s.ctx c with laccess := rest } := State.ctx_updCtx_same s c _

include hq hp

/-- A load of a register whose data has come completes. -/
theorem lComplete_reg {lm : Bool} {addr : W64} {n : Nat} {d : BitVec 5} {sx : Bool} {bs : List Byte}
    (hk : e.kind = .reg lm addr n d sx) (hs : e.status = .data bs) :
    exec (.lAccessComplete c) s =
      .next ((s.dropHead c rest).onCore c fun x => x.loadG d (extendData sx n bs)) := by
  have hdone : s.lDone c e rest.head? = .reg d (extendData sx n bs) := by simp [State.lDone, hs, hk]
  change execLAccessComplete c s = _
  simp only [execLAccessComplete, hq, LAccess.paused, hp, Option.any_none, Bool.false_eq_true, if_false, hdone]
  rfl

/-- A load of an lq entry whose data has come completes. -/
theorem lComplete_entry {lm : Bool} {addr : W64} {n : Nat} {q : BitVec 3} {bs : List Byte}
    (hk : e.kind = .entry lm addr n q) (hs : e.status = .data bs) :
    exec (.lAccessComplete c) s =
      .next ((s.dropHead c rest).onCore c fun x => x.updLq q fun y => y.fill e.tk bs) := by
  have hdone : s.lDone c e rest.head? = .entries [(q, bs)] none := by simp [State.lDone, hs, hk]
  change execLAccessComplete c s = _
  simp only [execLAccessComplete, hq, LAccess.paused, hp, Option.any_none, Bool.false_eq_true, if_false, hdone]
  rfl

/-- An access that has failed is cut before its word (R155). -/
theorem lComplete_fail {cause : Cause} {addr : W64} (hs : e.status = .fail cause addr) (hc : cause ≠ retryCode) :
    exec (.lAccessComplete c) s = .next (s.faultL c e cause addr) := by
  have hdone : s.lDone c e rest.head? = .fail cause addr := by simp [State.lDone, hs]
  change execLAccessComplete c s = _
  simp only [execLAccessComplete, hq, LAccess.paused, hp, Option.any_none, Bool.false_eq_true, if_false, hdone, if_neg hc]

end LComplete

/-- What a load of a register leaves of the L stream of its core, beside the wait mark. -/
theorem loadG_wake_l (x : Ctx) (d : BitVec 5) (v : W64) : (x.loadG d v).wake.l = { x.l.setG d v with wait := none } := rfl

theorem getG_wait (y : StreamState) (w : Option WaitReason) (i : BitVec 5) :
    ({ y with wait := w } : StreamState).getG i = y.getG i := rfl

theorem getP_wait (y : StreamState) (w : Option WaitReason) (i : BitVec 4) :
    ({ y with wait := w } : StreamState).getP i = y.getP i := rfl

theorem getLq_wake (x : Ctx) (q : BitVec 3) : x.wake.getLq q = x.getLq q := rfl

/-- A core that has been cut before a failed access of its L stream. -/
def Ctx.cutBefore (x : Ctx) (a : LAccess) : Ctx :=
  { x with
    l := { a.undo with retired := x.l.retired, left := x.l.left.filter fun t => t ≤ a.tk }
    st := a.undoSt
    laccess := []
    lq := x.lq.map fun q => q.withdraw a.tk
    bq := x.bq.withdraw a.tk }

theorem ctx_withdrawL (s : State) (c : Nat) (a : LAccess) : (s.withdrawL c a).ctx c = (s.ctx c).cutBefore a :=
  State.ctx_updCtx_same _ c _

/-- A fault stands the core at its trap, unless the stream stands at a cut. -/
theorem faultL_eq {s : State} {c : Nat} (a : LAccess) (cause : Cause) (addr : W64) (h : (s.ctx c).lcut = false) :
    s.faultL c a cause addr = takeTrap (s.withdrawL c a) c .l cause 0 addr a.seq a.syl := by
  simp only [State.faultL, h, Bool.false_eq_true, if_false]

/-- Settles O20: the head's register, its queue entry, and its cut. -/
theorem loadsCompleteInOrder : Obligations.LoadsCompleteInOrder := by
  intro c s e rest hq hp
  refine ⟨fun lm addr n d sx bs hk hs => ⟨_, lComplete_reg hq hp hk hs, rfl, ?_⟩,
    fun lm addr n q bs hk hs => ⟨_, lComplete_entry hq hp hk hs, rfl, ?_⟩,
    fun cause addr hs hc hcut htrap => ⟨_, lComplete_fail hq hp hs hc, ?_⟩⟩
  · rw [ctx_onCore_same, ctx_dropHead, loadG_wake_l]
    refine ⟨List.length_map _, ?_, fun i hi => ?_, fun i => ?_⟩
    · rw [getG_wait, StreamState.getG_setG_same]
      rfl
    · rw [getG_wait, StreamState.getG_setG_ne _ _ hi]
    · rw [getP_wait, StreamState.getP_setG]
  · rw [ctx_onCore_same, ctx_dropHead, getLq_wake, Ctx.getLq_updLq_same]
    exact ⟨rfl, rfl⟩
  · rw [faultL_eq e cause addr hcut, ctx_takeTrap, ctx_withdrawL]
    refine ⟨rfl, ?_, rfl, rfl, rfl, rfl, rfl, rfl⟩
    exact congrArg (fun x => some (Option.getD x _)) htrap

end Sys2Proof.Machine

/-! PROOFS. QPUSH, BQPUSH, RECV and FENCE.LAYOUT (O19). -/

namespace Sys2Proof.Machine

/-- An operation under its guard on an lq of a depth other than 0. -/
theorem onLq_eq {s : State} {q : BitVec 3} {gd : Guard} (f : State → State) (hd : (s.me.getLq q).depth ≠ 0)
    (hg : guardOk gd s = true) : s.onLq q gd f = .next (f s) := by
  rw [State.onLq, if_neg hd, guarded_next, if_pos hg]

theorem room_one (q : Queue) : q.room 1 = true ↔ q.entries.length + 1 ≤ q.depth := decide_eq_true_iff

theorem room_one_full {q : Queue} (h : q.depth ≤ q.entries.length) : q.room 1 = false :=
  decide_eq_false (by omega)

/-- One entry has been appended to an lq, and every other lq is as it was. -/
def Appends (s t : State) (q : BitVec 3) (x : QEntry) : Prop :=
  t.me.getLq q = { s.me.getLq q with entries := (s.me.getLq q).entries ++ [x], tail := (s.me.getLq q).tail + 1 } ∧
    ∀ k, k ≠ q → t.me.getLq k = s.me.getLq k

theorem appends_of_me {s t : State} {q : BitVec 3} {x : QEntry} (h : t.me = s.me.updLq q fun y => y.push x) :
    Appends s t q x := by
  rw [Appends, h]
  exact ⟨Ctx.getLq_updLq_same .., fun k hk => Ctx.getLq_updLq_ne _ _ hk⟩

/-! ## QPUSH and BQPUSH -/

section Push
variable {gd : Guard} {s : State} (hg : guardOk gd s = true)

include hg

theorem qpush_appends {q : BitVec 3} (sz : BitVec 2) (a : BitVec 5) (hd : (s.me.getLq q).depth ≠ 0)
    (hroom : (s.me.getLq q).entries.length + 1 ≤ (s.me.getLq q).depth) :
    ∃ t, exec (.qpush gd q sz a) s = .next t ∧ t.verdict = s.verdict ∧ SameButCore s t ∧
      { t.me with lq := s.me.lq } = s.me ∧
      Appends s t q { data := (wordLE (s.rg a)).take (2 ^ sz.toNat), ready := true, tk := s.me.tk } := by
  refine ⟨_, onLq_eq _ hd hg, ?_⟩
  rw [(room_one _).2 hroom]
  have hme := State.me_updMe s fun x => x.updLq q fun y =>
    y.push { data := (wordLE (s.rg a)).take (szBytes sz), ready := true, tk := x.tk }
  exact ⟨rfl, sameButCore_updMe s _, congrArg (fun x : Ctx => { x with lq := s.me.lq }) hme, appends_of_me hme⟩

theorem qpush_waits {q : BitVec 3} (sz : BitVec 2) (a : BitVec 5) (hd : (s.me.getLq q).depth ≠ 0)
    (hfull : (s.me.getLq q).depth ≤ (s.me.getLq q).entries.length) :
    ∃ t, exec (.qpush gd q sz a) s = .next t ∧ t.verdict = .waits .queueFull := by
  refine ⟨_, onLq_eq _ hd hg, ?_⟩
  rw [room_one_full hfull]
  rfl

theorem bqpush_appends (ps : BitVec 4) (inv : Bool) (hd : s.me.bq.depth ≠ 0)
    (hroom : s.me.bq.entries.length + 1 ≤ s.me.bq.depth) :
    ∃ t, exec (.bqpush gd ps inv) s = .next t ∧ t.verdict = s.verdict ∧ SameButCore s t ∧
      t.me.bq = { s.me.bq with
        entries := s.me.bq.entries ++ [{ data := [if s.rp ps != inv then 1 else 0], ready := true, tk := s.me.tk }]
        tail := s.me.bq.tail + 1 } ∧ { t.me with bq := s.me.bq } = s.me := by
  refine ⟨_, (if_neg hd).trans ((guarded_next gd s _).trans (by rw [if_pos hg])), ?_⟩
  rw [(room_one _).2 hroom]
  have hme := State.me_updMe s fun x =>
    { x with bq := x.bq.push { data := [if s.rp ps != inv then 1 else 0], ready := true, tk := x.tk } }
  exact ⟨rfl, sameButCore_updMe s _, congrArg Ctx.bq hme, congrArg (fun x : Ctx => { x with bq := s.me.bq }) hme⟩

theorem bqpush_waits (ps : BitVec 4) (inv : Bool) (hd : s.me.bq.depth ≠ 0)
    (hfull : s.me.bq.depth ≤ s.me.bq.entries.length) :
    ∃ t, exec (.bqpush gd ps inv) s = .next t ∧ t.verdict = .waits .queueFull := by
  refine ⟨_, (if_neg hd).trans ((guarded_next gd s _).trans (by rw [if_pos hg])), ?_⟩
  rw [room_one_full hfull]
  rfl

end Push

/-! ## What a RECV finds -/

section RecvFind
variable {s : State} {q : BitVec 3} {h : BitVec 6} {n : Nat}

theorem recvFind_earlier (ha : s.me.laccess ≠ []) : s.recvFind q h n = .earlier := if_pos ha

theorem recvFind_noCircuit (ha : s.me.laccess = [])
    (hk : ((s.circuits s.core).find? fun k => k.inbound h s.me.logical) = none)
    (hw : ∀ w, s.me.recvOn = some w → w.1 ≠ h) : s.recvFind q h n = .traps 0x41 := by
  have hany : (s.me.recvOn.any fun w => w.1 == h) = false := by
    rw [Option.any_eq_false_iff_get]
    exact fun hs => beq_eq_false_iff_ne.2 (hw _ (Option.some_get hs).symm)
  simp only [State.recvFind, ha, hk, hany]
  rfl

variable {k : Circuit} (ha : s.me.laccess = [])
  (hk : ((s.circuits s.core).find? fun k => k.inbound h s.me.logical) = some k) (hl : k.live = true)
  (hw : ∀ w, s.me.recvOn = some w → w.1 = h → w.2 = k.step)

include ha hk hl hw

/-- RECV on a live circuit on which it has not waited as another: by its bytes and the room (R163). -/
theorem recvFind_live : s.recvFind q h n =
    if k.rx.length < n then .short k.step
    else if !(s.me.getLq q).room 1 then .full k.step
    else if k.rxBad n then .traps 0x24
    else .ready (k.rx.take n) := by
  have hany : (s.me.recvOn.any fun w => w.1 == h && w.2 != k.step) = false := by
    rw [Option.any_eq_false_iff_get]
    intro hs
    have := hw _ (Option.some_get hs).symm
    simpa using this
  simp [State.recvFind, ha, hk, hany, hl]

end RecvFind

/-! ## What a RECV takes -/

/-- The bytes of a RECV have left the receive buffer of the circuits inbound on its handle, and nothing else of the
partitions has changed. -/
def TookRx (s t : State) (h : BitVec 6) (n : Nat) : Prop :=
  t.circuits s.core = (s.circuits s.core).map (fun j => if j.inbound h s.me.logical then j.took n else j) ∧
    (∀ m, m ≠ s.partOf s.core → t.part m = s.part m) ∧
    { t.part (s.partOf s.core) with
        drover := { (t.part (s.partOf s.core)).drover with circuits := s.circuits s.core } } = s.part (s.partOf s.core)

/-- A state whose partitions are those after `takeRx`, and whose core holds the same flock. -/
theorem tookRx_of_parts {s t : State} {h : BitVec 6} {n : Nat}
    (hparts : t.parts = (s.takeRx s.core (fun k => k.inbound h s.me.logical) n).parts) (hflocks : t.flocks = s.flocks)
    (hflock : (t.ctx s.core).flock = s.me.flock) : TookRx s t h n := by
  have hpart (m : Nat) : t.part m = (s.takeRx s.core (fun k => k.inbound h s.me.logical) n).part m := by
    rw [State.part, hparts]
    rfl
  have hof : t.partOf s.core = s.partOf s.core := by
    simp only [State.partOf, State.flock, hflocks, hflock]
    rfl
  have hmine := hpart (s.partOf s.core)
  rw [State.takeRx, State.part_updPart_same] at hmine
  refine ⟨?_, fun m hm => (hpart m).trans (State.part_updPart_ne s _ hm), ?_⟩
  · rw [State.circuits, hof, hmine]
    rfl
  · rw [hmine]
    rfl

theorem me_recvTake (s : State) (q : BitVec 3) (h : BitVec 6) (bs : List Byte) :
    (s.recvTake q h bs).me = s.me.updLq q fun y => y.push { data := bs, ready := true, tk := s.me.tk } :=
  State.me_updMe _ _

/-- What RECV leaves: its entry, and the circuits without its bytes. -/
def RecvTook (s t : State) (q : BitVec 3) (h : BitVec 6) (n : Nat) (k : Circuit) : Prop :=
  t.verdict = s.verdict ∧ Appends s t q { data := k.rx.take n, ready := true, tk := s.me.tk } ∧
    t.circuits s.core = (s.circuits s.core).map (fun j => if j.inbound h s.me.logical then j.took n else j) ∧
    (k.took n).rx = k.rx.drop n ∧ { k.took n with rx := k.rx, taken := k.taken } = k ∧
    { t with cores := s.cores, parts := s.parts } = s ∧ (∀ c, c ≠ s.core → t.ctx c = s.ctx c) ∧
    (∀ m, m ≠ s.partOf s.core → t.part m = s.part m) ∧
    { t.part (s.partOf s.core) with
        drover := { (t.part (s.partOf s.core)).drover with circuits := s.circuits s.core } } = s.part (s.partOf s.core)

/-- A state that differs from the one before a RECV in the entry, in the receive buffers, and beside that in its own core's
other fields alone. -/
theorem recvTook_of {s t : State} {q : BitVec 3} {h : BitVec 6} {n : Nat} {k : Circuit} (hverdict : t.verdict = s.verdict)
    (hlq : t.me.lq = (s.me.updLq q fun y => y.push { data := k.rx.take n, ready := true, tk := s.me.tk }).lq)
    (hflock : t.me.flock = s.me.flock) (hparts : t.parts = (s.takeRx s.core (fun k => k.inbound h s.me.logical) n).parts)
    (hrest : { t with cores := s.cores, parts := s.parts } = s) (hctx : ∀ c, c ≠ s.core → t.ctx c = s.ctx c) :
    RecvTook s t q h n k := by
  have hcore : t.core = s.core := by rw [← hrest]; rfl
  have hflocks : t.flocks = s.flocks := by rw [← hrest]
  obtain ⟨hcircuits, hothers, hmine⟩ : TookRx s t h n := tookRx_of_parts hparts hflocks (hcore ▸ hflock)
  refine ⟨hverdict, ⟨?_, fun j hj => ?_⟩, hcircuits, rfl, rfl, hrest, hctx, hothers, hmine⟩
  · rw [Ctx.getLq, hlq]
    exact Ctx.getLq_updLq_same ..
  · rw [Ctx.getLq, hlq]
    exact Ctx.getLq_updLq_ne s.me _ hj

/-- What RECV takes are `n` bytes where so many have come. -/
theorem recvTake_parts (s : State) (q : BitVec 3) (h : BitVec 6) {n : Nat} {rx : List Byte} (hn : n ≤ rx.length) :
    (s.recvTake q h (rx.take n)).parts = (s.takeRx s.core (fun k => k.inbound h s.me.logical) n).parts := by
  rw [State.recvTake, List.length_take_of_le hn]
  rfl

theorem recvTook_recvTake (s : State) (q : BitVec 3) (h : BitVec 6) {n : Nat} {k : Circuit} (hn : n ≤ k.rx.length) :
    RecvTook s (s.recvTake q h (k.rx.take n)) q h n k ∧
      { (s.recvTake q h (k.rx.take n)).me with lq := s.me.lq } = s.me := by
  have hme := me_recvTake s q h (k.rx.take n)
  refine ⟨recvTook_of rfl (congrArg Ctx.lq hme) (by rw [hme]; rfl) (recvTake_parts s q h hn) rfl
    fun c hc => State.ctx_updMe_ne _ _ hc, ?_⟩
  rw [hme]
  rfl

theorem me_wp (s : State) (d : BitVec 4) (v : Bool) :
    (s.wp d v).me = s.me.updStream s.stream fun y => y.setP d v := State.me_updMe _ _

/-- RECV.try leaves what RECV leaves, and writes its predicate. -/
theorem recvTook_wp (s : State) (q : BitVec 3) (h : BitVec 6) {n : Nat} {k : Circuit} (pd : BitVec 4)
    (hn : n ≤ k.rx.length) :
    let t := (s.recvTake q h (k.rx.take n)).wp pd true
    RecvTook s t q h n k ∧ t.pNow pd = true ∧ (∀ i, i ≠ pd → t.pNow i = s.pNow i) ∧
      { t.me.updStream s.stream (fun y => { y with p := (s.me.stream s.stream).p }) with lq := s.me.lq } = s.me := by
  intro t
  have hme : t.me = (s.me.updLq q fun y => y.push { data := k.rx.take n, ready := true, tk := s.me.tk }).updStream s.stream
      fun y => y.setP pd true := (me_wp _ pd true).trans (by rw [me_recvTake]; rfl)
  have hp : t.me.stream s.stream = (s.me.stream s.stream).setP pd true := by
    rw [hme]
    cases s.stream <;> rfl
  refine ⟨recvTook_of rfl ?_ ?_ (recvTake_parts s q h hn) rfl fun c hc => ?_, ?_, fun i hi => ?_, ?_⟩
  · rw [hme]
    cases s.stream <;> rfl
  · rw [hme]
    cases s.stream <;> rfl
  · exact (State.ctx_updMe_ne (s.recvTake q h (k.rx.take n)) _ hc).trans (State.ctx_updMe_ne _ _ hc)
  · change (t.me.stream s.stream).getP pd = true
    rw [hp, StreamState.getP_setP_same, ite_self]
  · change (t.me.stream s.stream).getP i = (s.me.stream s.stream).getP i
    rw [hp, StreamState.getP_setP_ne _ _ hi]
  · rw [hme, Ctx.updStream_updStream]
    have hundo := (s.me.stream s.stream).setP_undo pd true
    cases hs : s.stream <;> rw [hs] at hundo
    · exact congrArg (fun y => { s.me with l := y }) hundo
    · exact congrArg (fun y => { s.me with c := y }) hundo
    · exact congrArg (fun y => { s.me with s := y }) hundo

/-! ## RECV and RECV.try -/

section Recv
variable {gd : Guard} {s : State} {q : BitVec 3} (h : BitVec 6) (e : BitVec 5) (pd : BitVec 4) (hg : guardOk gd s = true)
  (hd : (s.me.getLq q).depth ≠ 0)

include hg hd

theorem recv_eq : exec (.recv gd q h e) s = .next (match s.recvFind q h (8 * (e.toNat + 1)) with
    | .earlier => s.waitNow .access
    | .traps c => s.trapNow c
    | .short step => s.recvWait h step .recvBytes
    | .full step => s.recvWait h step .queueFull
    | .ready bs => s.recvTake q h bs) := onLq_eq _ hd hg

theorem recvTry_eq : exec (.recvTry gd q h e pd) s = .next (match s.recvFind q h (8 * (e.toNat + 1)) with
    | .earlier => s.waitNow .access
    | .traps c => s.trapNow c
    | .short _ => s.wp pd false
    | .full step => s.recvWait h step .queueFull
    | .ready bs => (s.recvTake q h bs).wp pd true) := onLq_eq _ hd hg

/-- Where both forms of RECV do the same: a wait, or a cause. -/
theorem recv_both {u : State} {P : State → Prop} (hu : P u)
    (hfind : (s.recvFind q h (8 * (e.toNat + 1)) = .earlier ∧ u = s.waitNow .access) ∨
      (∃ c, s.recvFind q h (8 * (e.toNat + 1)) = .traps c ∧ u = s.trapNow c) ∨
      ∃ step, s.recvFind q h (8 * (e.toNat + 1)) = .full step ∧ u = s.recvWait h step .queueFull) :
    ∀ i ∈ [Instr.recv gd q h e, .recvTry gd q h e pd], ∃ t, exec i s = .next t ∧ P t := by
  have hboth : exec (.recv gd q h e) s = .next u ∧ exec (.recvTry gd q h e pd) s = .next u := by
    rw [recv_eq h e hg hd, recvTry_eq h e pd hg hd]
    obtain ⟨hf, rfl⟩ | ⟨c, hf, rfl⟩ | ⟨step, hf, rfl⟩ := hfind <;> rw [hf] <;> exact ⟨rfl, rfl⟩
  intro i hi
  obtain rfl | rfl := by simpa using hi
  · exact ⟨u, hboth.1, hu⟩
  · exact ⟨u, hboth.2, hu⟩

end Recv

/-! ## FENCE.LAYOUT -/

theorem fenceLayout_empties {gd : Guard} {s : State} (hg : guardOk gd s = true)
    (h : ∀ x ∈ s.me.laccess, x.readsLayout = false) :
    ∃ t, exec (.fenceLayout gd) s = .next t ∧ t.verdict = s.verdict ∧ OnlyMe s t fun x => { x with layoutCache := [] } := by
  refine ⟨s.updMe fun x => { x with layoutCache := [] }, ?_, rfl, onlyMe_updMe s _⟩
  change execFenceLayout gd s = _
  rw [execFenceLayout, guarded_next, if_pos hg, if_neg (by simpa using h)]

theorem fenceLayout_waits {gd : Guard} {s : State} (hg : guardOk gd s = true)
    (h : ∃ x ∈ s.me.laccess, x.readsLayout = true) :
    ∃ t, exec (.fenceLayout gd) s = .next t ∧ t.verdict = .waits .access := by
  refine ⟨s.waitNow .access, ?_, rfl⟩
  change execFenceLayout gd s = _
  rw [execFenceLayout, guarded_next, if_pos hg, if_pos (List.any_eq_true.2 h)]

/-- Settles O19: the pushes by the room of their queue, the receives by what `recvFind` finds, and FENCE.LAYOUT. -/
theorem pushesAndReceives : Obligations.PushesAndReceives := by
  intro gd q sz a e ps pd inv h s hg lq appends n
  refine ⟨fun hd => ⟨qpush_appends hg sz a hd, qpush_waits hg sz a hd, fun ha => ?earlier, fun ha hk hw => ?noCircuit,
      fun k ha hk hl hw => ⟨fun hn hroom => ⟨fun hbad => ⟨?recv, ?recvTry⟩, fun hbad => ?poisoned⟩, fun hn hfull => ?full,
        fun hn => ⟨?tryShort, ?short⟩⟩⟩,
    fun hd => ⟨bqpush_appends hg ps inv hd, bqpush_waits hg ps inv hd⟩, fenceLayout_empties hg, fenceLayout_waits hg⟩
  case earlier => exact recv_both h e pd hg hd (waitNow_verdict s .access) (.inl ⟨recvFind_earlier ha, rfl⟩)
  case noCircuit =>
    exact recv_both h e pd hg hd (trapWith_traps s 0x41 0 0) (.inr (.inl ⟨_, recvFind_noCircuit ha hk hw, rfl⟩))
  all_goals have hfind : s.recvFind q h (8 * (e.toNat + 1)) = _ := recvFind_live ha hk hl hw
  case recv =>
    rw [if_neg (Nat.not_lt.2 hn), (room_one _).2 hroom, hbad] at hfind
    obtain ⟨htook, hme⟩ := recvTook_recvTake s q h hn
    exact ⟨_, (recv_eq h e hg hd).trans (by rw [hfind]; rfl), htook, hme⟩
  case recvTry =>
    rw [if_neg (Nat.not_lt.2 hn), (room_one _).2 hroom, hbad] at hfind
    exact ⟨_, (recvTry_eq h e pd hg hd).trans (by rw [hfind]; rfl), recvTook_wp s q h pd hn⟩
  case poisoned =>
    rw [if_neg (Nat.not_lt.2 hn), (room_one _).2 hroom, hbad] at hfind
    exact recv_both h e pd hg hd (trapWith_traps s 0x24 0 0) (.inr (.inl ⟨_, hfind, rfl⟩))
  case full =>
    rw [if_neg (Nat.not_lt.2 hn), room_one_full hfull] at hfind
    exact recv_both h e pd hg hd rfl (.inr (.inr ⟨_, hfind, rfl⟩))
  case tryShort =>
    rw [if_pos hn] at hfind
    exact ⟨_, (recvTry_eq h e pd hg hd).trans (by rw [hfind]), wp_wrote s pd false⟩
  case short =>
    rw [if_pos hn] at hfind
    exact ⟨_, (recv_eq h e hg hd).trans (by rw [hfind]), rfl⟩

end Sys2Proof.Machine

/-! PROOFS. The frame of the words (O59): what every update of the state that a word makes leaves outside its core. The lemmas
stand in the order of the model's definitions. -/

namespace Sys2Proof.Machine

/-! ## What stands outside the core at work -/

/-- What no word changes: the item at work, tile storage, the local memories, host memory but for the S stream (`host`), and
every other core beside its wait marks. -/
def State.outside (host : Bool) (s : State) : Focus × Memory × Memory × Memory × (Nat → Ctx) :=
  (s.focus, s.mem, s.lm, if host then [] else s.hostMem, fun c => if c = s.core then {} else (s.ctx c).wake)

variable {host : Bool}

theorem core_of_outside {s t : State} (h : t.outside host = s.outside host) : t.core = s.core := by
  have hfocus : t.focus = s.focus := congrArg Prod.fst h
  rw [State.core, hfocus]
  rfl

/-- What `outside` says, part by part. -/
theorem frame_of_outside {s t : State} (h : t.outside host = s.outside host) :
    t.mem = s.mem ∧ t.lm = s.lm ∧ (host = false → t.hostMem = s.hostMem) ∧
      ∀ c, c ≠ s.core → (t.ctx c).wake = (s.ctx c).wake := by
  have hcore := core_of_outside h
  obtain ⟨-, hmem, hlm, hhost, hctx⟩ : t.focus = s.focus ∧ t.mem = s.mem ∧ t.lm = s.lm ∧
      (if host then [] else t.hostMem) = (if host then [] else s.hostMem) ∧
      (fun c => if c = t.core then {} else (t.ctx c).wake) = fun c => if c = s.core then {} else (s.ctx c).wake := by
    simpa only [State.outside, Prod.mk.injEq] using h
  refine ⟨hmem, hlm, fun hf => ?_, fun c hc => ?_⟩
  · subst hf
    exact hhost
  · have := congrFun hctx c
    rwa [if_neg hc, if_neg (hcore ▸ hc)] at this

@[simp] theorem outside_ite (c : Prop) [Decidable c] (s t : State) :
    (if c then s else t).outside host = if c then s.outside host else t.outside host :=
  apply_ite (State.outside host) c s t

@[simp] theorem outside_with_verdict (s : State) (v : Verdict) :
    State.outside host { s with verdict := v } = s.outside host := rfl

/-! ## The core, its registers and its traps -/

@[simp] theorem outside_updMe (s : State) (f : Ctx → Ctx) : (s.updMe f).outside host = s.outside host := by
  have hctx : (fun c => if c = (s.updMe f).core then ({} : Ctx) else ((s.updMe f).ctx c).wake) =
      fun c => if c = s.core then {} else (s.ctx c).wake := by
    funext c
    rw [State.updMe_core]
    split
    · rfl
    · rename_i hc
      rw [State.ctx_updMe_ne s f hc]
  exact congrArg (fun g => (s.focus, s.mem, s.lm, if host then [] else s.hostMem, g)) hctx

/-- A change of the core at work after which its item ends in some other way. -/
theorem outside_updMe_verdict (s : State) (f : Ctx → Ctx) (v : Verdict) :
    State.outside host { s.updMe f with verdict := v } = s.outside host := outside_updMe s f

/-- A change of the core at work, named by its number. -/
theorem outside_updCtx {s : State} {c : Nat} (f : Ctx → Ctx) (hc : c = s.core) :
    (s.updCtx c f).outside host = s.outside host := hc ▸ outside_updMe s f

@[simp] theorem outside_updStream (s : State) (f : StreamState → StreamState) :
    (s.updStream f).outside host = s.outside host := outside_updMe s _
@[simp] theorem outside_wg (s : State) (i : BitVec 5) (v : W64) : (s.wg i v).outside host = s.outside host :=
  outside_updMe s _
@[simp] theorem outside_wp (s : State) (i : BitVec 4) (v : Bool) : (s.wp i v).outside host = s.outside host :=
  outside_updMe s _
@[simp] theorem outside_busyC (s : State) (d : Scoreboard) (bound : Nat) :
    (s.busyC d bound).outside host = s.outside host := by simp [State.busyC]
@[simp] theorem outside_wgB (s : State) (d : BitVec 5) (v : W64) (bound : Nat) :
    (s.wgB d v bound).outside host = s.outside host := by simp [State.wgB]
@[simp] theorem outside_waitNow (s : State) (r : WaitReason) : (s.waitNow r).outside host = s.outside host :=
  outside_updMe_verdict s (fun x =>
    { x.updStream s.stream fun y => { y with wait := some r } with
      waitSince := if x.l.wait.isSome && x.c.wait.isSome && x.s.wait.isSome then x.waitSince else s.now }) _
theorem outside_takeTrap (s : State) (st : StreamId) (cause : Cause) (code : Byte) (addr : W64) (seq : W32) (syl : Nat) :
    (takeTrap s s.core st cause code addr seq syl).outside host = s.outside host := outside_updCtx _ rfl
@[simp] theorem outside_trapWith (s : State) (cause : Cause) (code : Byte) (addr : W64) :
    (s.trapWith cause code addr).outside host = s.outside host :=
  outside_takeTrap s s.stream cause code addr (s.me.stream s.stream).seq s.rd.pc
@[simp] theorem outside_trapNow (s : State) (cause : Cause) : (s.trapNow cause).outside host = s.outside host :=
  outside_trapWith s cause 0 0
@[simp] theorem outside_vWrite (s : State) (i : BitVec 5) (at_ : Nat) (bs : List Byte) (bound : Nat) :
    (s.vWrite i at_ bs bound).outside host = s.outside host := outside_updMe s _
@[simp] theorem outside_putElems (s : State) (ty : IntTy) (d : BitVec 5) (xs : List Nat) (bound : Nat) :
    (s.putElems ty d xs bound).outside host = s.outside host := outside_vWrite ..
@[simp] theorem outside_putFelems (s : State) (ty : FpTy) (d : BitVec 5) (xs : List Nat) (bound : Nat) :
    (s.putFelems ty d xs bound).outside host = s.outside host := outside_vWrite ..
@[simp] theorem outside_putFirst (s : State) (d : BitVec 5) (bs : List Byte) (bound : Nat) :
    (s.putFirst d bs bound).outside host = s.outside host := outside_vWrite ..

/-- A barrier stands in a flock, or in a group of flocks. -/
@[simp] theorem outside_updBar (s : State) (fl key : Nat) (h : BarInst → BarInst) :
    (s.updBar fl key h).outside host = s.outside host := by
  unfold State.updBar
  dsimp only
  split <;> rfl

/-! ## Control flow -/

@[simp] theorem outside_toHeader (s : State) (t : Nat) : (s.toHeader t).outside host = s.outside host :=
  outside_updMe_verdict s (fun x => x.updStream s.stream fun y =>
    { y.leaveSection (s.me.stamp s.stream + 1) with pc := t, phase := if y.phase = .done then .done else .header }) _
@[simp] theorem outside_transfer (s : State) (t : Int) : (s.transfer t).outside host = s.outside host := by
  simp [State.transfer]
@[simp] theorem outside_callTo (s : State) (t : Int) : (s.callTo t).outside host = s.outside host := by simp [State.callTo]
@[simp] theorem outside_takePending (s : State) : s.takePending.outside host = s.outside host := by
  simp [State.takePending]
@[simp] theorem outside_passOver (s : State) (w : Nat) : (s.passOver w).outside host = s.outside host :=
  outside_updMe_verdict s (fun x => x.pass s.stream w) _

@[simp] theorem outside_goTo (s : State) (w : Nat) : (s.goTo w).outside host = s.outside host := outside_updStream s _

@[simp] theorem outside_branch (s : State) (off : BitVec 17) : (s.branch off).outside host = s.outside host := by
  unfold State.branch
  dsimp only
  split
  · simp
  · split
    · exact outside_goTo s _
    · split_ifs
      · exact outside_goTo s _
      · exact (outside_goTo _ _).trans (outside_updMe s _)
      · simp

/-! ## System registers and views -/

@[simp] theorem outside_countCycles (s : State) : s.countCycles.outside host = s.outside host :=
  outside_updMe s fun x => { x with cycles := s.me.cycles + Config.anyNat (s.freeIx 8) }
@[simp] theorem outside_writeViewV (s : State) (v : W64) : (s.writeViewV v).outside host = s.outside host := by
  simp [State.writeViewV]
@[simp] theorem outside_writeViewT (s : State) (n : Fin 8) (v : W64) :
    (s.writeViewT n v).outside host = s.outside host := by simp [State.writeViewT]
@[simp] theorem outside_writeViewA (s : State) (n : Fin 8) (v : W64) :
    (s.writeViewA n v).outside host = s.outside host := by simp [State.writeViewA]
@[simp] theorem outside_sysWrite (s : State) (n : Nat) (v : W64) : (s.sysWrite n v).outside host = s.outside host := by
  unfold State.sysWrite
  split <;> simp

/-! ## The L stream -/

/-- A request leaves the core at work. -/
theorem outside_sendReq {s : State} {c : Nat} (tk : Nat) (lstream : Bool) (addr : W64) (op : ReqOp) (hc : c = s.core) :
    (s.sendReq c tk lstream addr op).outside host = s.outside host := by
  unfold State.sendReq
  dsimp only
  split
  · rfl
  · exact outside_updCtx (s := { s with reqs := _ }) _ hc

@[simp] theorem outside_pushL (s : State) (kind : LKind) (st : AccStatus) :
    (s.pushL kind st).outside host = s.outside host := outside_updMe s _
@[simp] theorem outside_pushLoad (s : State) (kind : LKind) (st : AccStatus) (addr : W64) (n : Nat) :
    (s.pushLoad kind st addr n).outside host = s.outside host := by
  unfold State.pushLoad
  split
  · exact (outside_sendReq _ _ _ _ rfl).trans (outside_pushL s _ _)
  · simp
@[simp] theorem outside_allocLq (s : State) (q : BitVec 3) : (s.allocLq q).outside host = s.outside host :=
  outside_updMe s _
@[simp] theorem outside_loadReg (s : State) (lm : Bool) (d : BitVec 5) (a : W64) (sz : BitVec 2) (sx : Bool) :
    (s.loadReg lm d a sz sx).outside host = s.outside host := by simp [State.loadReg]
@[simp] theorem outside_loadEntry (s : State) (lm : Bool) (q : BitVec 3) (a : W64) (e : BitVec 5) :
    (s.loadEntry lm q a e).outside host = s.outside host := by simp [State.loadEntry]
@[simp] theorem outside_gather (s : State) (q : BitVec 3) (lm : Bool) (e n : Nat) (base idx : W64) :
    (s.gather q lm e n base idx).outside host = s.outside host := by simp [State.gather]
@[simp] theorem outside_stcfgAt (s : State) (st : BitVec 4) (a : W64) : (s.stcfgAt st a).outside host = s.outside host := by
  simp [State.stcfgAt]
@[simp] theorem outside_stadvWith (s : State) (st : BitVec 4) (move : StreamReg → Option StreamReg) :
    (s.stadvWith st move).outside host = s.outside host := by
  unfold State.stadvWith
  dsimp only
  split
  · simp
  · split
    · simp
    · split <;> simp
@[simp] theorem outside_prefAt (s : State) (lvl : BitVec 2) (a : W64) (n : BitVec 8) :
    (s.prefAt lvl a n).outside host = s.outside host := by simp [State.prefAt]
@[simp] theorem outside_ldlayAt (s : State) (d : BitVec 5) (a : W64) (k : BitVec 3) :
    (s.ldlayAt d a k).outside host = s.outside host := by simp [State.ldlayAt]
@[simp] theorem outside_recvWait (s : State) (h : BitVec 6) (step : Nat) (r : WaitReason) :
    (s.recvWait h step r).outside host = s.outside host := (outside_waitNow _ r).trans (outside_updMe s _)
/-- The circuits are the drover's, and no core's. -/
@[simp] theorem outside_recvTake (s : State) (q : BitVec 3) (h : BitVec 6) (bs : List Byte) :
    (s.recvTake q h bs).outside host = s.outside host := outside_updMe (s.takeRx ..) _

/-! ## The S stream -/

@[simp] theorem outside_pushS (s : State) (kind : SKind) (st : AccStatus) :
    (s.pushS kind st).outside host = s.outside host := outside_updMe s _
@[simp] theorem outside_pushStore (s : State) (lm : Bool) (a : W64) (bs : List Byte) :
    (s.pushStore lm a bs).outside host = s.outside host := by
  unfold State.pushStore
  split
  · simp
  · split
    · simp
    · exact (outside_sendReq _ _ _ _ rfl).trans (outside_pushS s _ _)
@[simp] theorem outside_storeReg (s : State) (lm : Bool) (b : BitVec 5) (a : W64) (sz : BitVec 2) :
    (s.storeReg lm b a sz).outside host = s.outside host := by
  unfold State.storeReg
  dsimp only
  split
  · simp
  · split <;> simp
@[simp] theorem outside_popSq (s : State) (q : BitVec 3) (e : QEntry) : (s.popSq q e).outside host = s.outside host :=
  outside_updMe s _
@[simp] theorem outside_meet (s : State) (a : W64) (m : WaitReason ⊕ Cause) : (s.meet a m).outside host = s.outside host := by
  cases m <;> simp [State.meet]
@[simp] theorem outside_storeEntry (s : State) (lm : Bool) (q : BitVec 3) (a : W64) (e : BitVec 5) :
    (s.storeEntry lm q a e).outside host = s.outside host := by
  unfold State.storeEntry
  split
  · simp
  · split <;> simp
@[simp] theorem outside_pushStr (s : State) (a : W64) (bs : List Byte) (flag : W64) (sc : Scope) :
    (s.pushStr a bs flag sc).outside host = s.outside host := by
  unfold State.pushStr
  split
  · simp
  · split
    · simp
    · exact (outside_sendReq _ _ _ _ rfl).trans (outside_pushS s _ _)
@[simp] theorem outside_storeFlag (s : State) (q : BitVec 3) (a : W64) (f e : BitVec 5) (sc : Scope) :
    (s.storeFlag q a f e sc).outside host = s.outside host := by
  unfold State.storeFlag
  dsimp only
  split
  · simp
  · split
    · simp
    · split
      · simp
      · split <;> simp

/-- What a host port hands on changes host memory. -/
theorem outside_drainPort (s : State) (port n : Nat) : (s.drainPort port n).outside true = s.outside true := by
  unfold State.drainPort
  split <;> rfl

theorem outside_visibleAt (s : State) (sc : Scope) : (s.visibleAt sc).outside true = s.outside true := by
  unfold State.visibleAt
  split
  · refine foldl_keeps (State.outside true) _ (fun s p => ?_) _ s
    split
    · exact outside_drainPort s _ _
    · rfl
  · rfl

theorem outside_rgxAt (s : State) (d : BitVec 5) (a : W64) (exp new : W32) :
    (s.rgxAt d a exp new).outside true = s.outside true := by
  have hv := outside_visibleAt s (s.rgxScope a)
  unfold State.rgxAt
  split
  · simp
  · split
    · simp
    · rw [outside_sendReq _ _ _ _ (core_of_outside ((outside_pushS _ _ _).trans hv)).symm, outside_pushS, hv]

@[simp] theorem outside_waitaStart (s : State) (nb : Bool) (a e : W64) :
    (s.waitaStart nb a e).outside host = s.outside host := outside_updMe s _
@[simp] theorem outside_waitaAt (s : State) (nb : Bool) (a e : W64) :
    (s.waitaAt nb a e).outside host = s.outside host := by
  unfold State.waitaAt
  dsimp only
  split <;> simp

/-- A FIFO's words are written one by one. -/
@[simp] theorem outside_wgs (s : State) (d : BitVec 5) (ws : List W64) : (s.wgs d ws).outside host = s.outside host :=
  foldl_keeps (State.outside host) _ (fun s _ => outside_wg s _ _) _ s

theorem outside_flushSends {s : State} {c : Nat} (hc : c = s.core) : (s.flushSends c).outside host = s.outside host := by
  have hput := foldl_keeps (State.outside host) (fun s (b : SentBytes) => s.putOnCircuit c b.h b.bs) (fun _ _ => rfl)
    ((s.ctx c).sends.filter fun b => !(s.ctx c).saccess.any fun a => decide (a.tk ≤ b.tk)) s
  exact (outside_updCtx _ (hc.trans (core_of_outside hput).symm)).trans hput

theorem outside_flushOvers {s : State} {c : Nat} (hc : c = s.core) : (s.flushOvers c).outside host = s.outside host := by
  unfold State.flushOvers
  have hmark := fun overs => foldl_keeps (State.outside host)
    (fun u (o : Nat × Nat × Nat) => u.updBar ((s.ctx c).flock.getD 0) o.2.1 fun b => b.markError o.2.2 0x16)
    (fun u _ => outside_updBar u _ _ _) overs s
  refine (outside_updCtx _ ?_).trans (hmark _)
  exact hc.trans (core_of_outside (hmark _)).symm

@[simp] theorem outside_countBytes (s : State) (r : CmdRecord) : (s.countBytes r).2.outside host = s.outside host := by
  unfold State.countBytes
  dsimp only
  split
  · rfl
  · split <;> simp

@[simp] theorem outside_pushRecord (s : State) (sc : Scope) (r : CmdRecord) :
    (s.pushRecord sc r).outside host = s.outside host := by
  unfold State.pushRecord
  dsimp only
  split
  · simp
  · split
    · simp
    · have hcount := (outside_updMe (s.countBytes r).2 fun x =>
          ({ x with f0 := (x.f0 ++
              [({ cmd := r, scope := sc, tk := x.tk, bar := (s.countBytes r).1, circ := s.stepOf s.core r } : F0Entry)]) } :
            Ctx).gaveFifo 0).trans (outside_countBytes (host := host) s r)
      exact (outside_flushOvers (core_of_outside hcount).symm).trans hcount

@[simp] theorem outside_sendEntry (s : State) (q : BitVec 3) (h : BitVec 6) (e : QEntry) :
    (s.sendEntry q h e).outside host = s.outside host :=
  (outside_flushSends rfl).trans ((outside_updMe _ _).trans (outside_popSq s q e))

/-! ## Barriers -/

@[simp] theorem outside_arrive (s : State) (b : BarOp) : (s.arrive b).outside host = s.outside host := by
  simp [State.arrive]
@[simp] theorem outside_barrierWait (s : State) (b : BarOp) (d : BitVec 5) :
    (s.barrierWait b d).outside host = s.outside host := by simp [State.barrierWait]
@[simp] theorem outside_setAwp (s : State) (awp : Bool) (bar : Nat) : (s.setAwp awp bar).outside host = s.outside host :=
  outside_updMe s _

/-! ## The C stream -/

@[simp] theorem outside_putBits (s : State) (d : BitVec 5) (x : BitVec 2048) :
    (s.putBits d x).outside host = s.outside host := outside_vWrite ..
@[simp] theorem outside_countLost (s : State) (mask : Nat) : (s.countLost mask).outside host = s.outside host := by
  simp [State.countLost]
@[simp] theorem outside_qstatWith (s : State) (tid : BitVec 6) (clr : Bool) :
    (s.qstatWith tid clr).outside host = s.outside host := by simp [State.qstatWith]
theorem outside_onStaging {s : State} {f : State → State} (hf : (f s).outside host = s.outside host) :
    (s.onStaging f).outside host = s.outside host := by
  unfold State.onStaging
  split
  · simp
  · exact hf
@[simp] theorem outside_handNest (s : State) (commit : Option Bool) : (s.handNest commit).outside host = s.outside host :=
  outside_updMe s _
@[simp] theorem outside_onHand (s : State) (check : Bank → Option Cause) (commit : Option Bool) :
    (s.onHand check commit).outside host = s.outside host := by
  refine outside_onStaging ?_
  split
  · simp
  · split <;> simp

/-! ## Results, and the forms that several operations share -/

/-- A word that goes on leaves what stands outside its core. -/
def LeavesOutside (host : Bool) (s : State) (r : Result) : Prop := ∀ t, r = .next t → t.outside host = s.outside host

@[simp] theorem leavesOutside_next (s t : State) : LeavesOutside host s (.next t) ↔ t.outside host = s.outside host :=
  ⟨fun h => h t rfl, fun h u hu => by cases hu; exact h⟩

@[simp] theorem leavesOutside_guarded {gd : Guard} {s : State} {f : State → State}
    (hf : (f s).outside host = s.outside host) : LeavesOutside host s (guarded gd s f) := by
  simp [guarded, hf]

@[simp] theorem leavesOutside_scalarOp {gd : Guard} {d : BitVec 5} {v : W64} {bound : Nat} {s : State} :
    LeavesOutside host s (scalarOp gd d v bound s) :=
  leavesOutside_guarded (by simp)

@[simp] theorem leavesOutside_cmpWrite {gd : Guard} {pd : BitVec 4} {v : Bool} {s : State} :
    LeavesOutside host s (cmpWrite gd pd v s) :=
  leavesOutside_guarded (by simp)

@[simp] theorem leavesOutside_vecUn {gd : Guard} {d a : BitVec 5} {ty : IntTy} {bound : Nat} {f : Nat → Nat} {s : State} :
    LeavesOutside host s (vecUn gd d a ty bound f s) :=
  leavesOutside_guarded (by simp)

@[simp] theorem leavesOutside_vecBin {gd : Guard} {d a b : BitVec 5} {ty : IntTy} {bound : Nat} {f : Nat → Nat → Nat}
    {s : State} : LeavesOutside host s (vecBin gd d a b ty bound f s) :=
  leavesOutside_guarded (by simp)

@[simp] theorem leavesOutside_vecTri {gd : Guard} {d a b c : BitVec 5} {ty : IntTy} {bound : Nat}
    {f : Nat → Nat → Nat → Nat} {s : State} : LeavesOutside host s (vecTri gd d a b c ty bound f s) :=
  leavesOutside_guarded (by simp)

@[simp] theorem leavesOutside_fvecUn {gd : Guard} {d a : BitVec 5} {ty : FpTy} {bound : Nat} {f : Nat → Nat} {s : State} :
    LeavesOutside host s (fvecUn gd d a ty bound f s) :=
  leavesOutside_guarded (by simp)

@[simp] theorem leavesOutside_fvecBin {gd : Guard} {d a b : BitVec 5} {ty : FpTy} {bound : Nat} {f : Nat → Nat → Nat}
    {s : State} : LeavesOutside host s (fvecBin gd d a b ty bound f s) :=
  leavesOutside_guarded (by simp)

@[simp] theorem leavesOutside_trapNow_or {c : Prop} [Decidable c] {s : State} {cause : Cause} {r : Result}
    (hr : LeavesOutside host s r) : LeavesOutside host s (if c then .next (s.trapNow cause) else r) := by
  split
  · simp
  · exact hr

@[simp] theorem leavesOutside_onLq {s : State} {q : BitVec 3} {gd : Guard} {f : State → State}
    (hf : (f s).outside host = s.outside host) : LeavesOutside host s (s.onLq q gd f) :=
  leavesOutside_trapNow_or (leavesOutside_guarded hf)

@[simp] theorem leavesOutside_onSq {s : State} {q : BitVec 3} {gd : Guard} {f : State → State}
    (hf : (f s).outside host = s.outside host) : LeavesOutside host s (s.onSq q gd f) :=
  leavesOutside_trapNow_or (leavesOutside_guarded hf)

@[simp] theorem leavesOutside_onSt {s : State} {st : BitVec 4} {gd : Guard} {f : State → State}
    (hf : (f s).outside host = s.outside host) : LeavesOutside host s (s.onSt st gd f) :=
  leavesOutside_trapNow_or (leavesOutside_guarded hf)

@[simp] theorem leavesOutside_onBar {s : State} {b : BarOp} {gd : Guard} {f : State → State}
    (hf : (f s).outside host = s.outside host) : LeavesOutside host s (s.onBar b gd f) :=
  leavesOutside_trapNow_or (leavesOutside_guarded hf)

@[simp] theorem leavesOutside_onMx {s : State} {gd : Guard} {f : State → State}
    (hf : (f s).outside host = s.outside host) : LeavesOutside host s (s.onMx gd f) :=
  leavesOutside_trapNow_or (leavesOutside_guarded hf)

/-! ## Words with a lemma of their own -/

theorem leavesOutside_brBq (off : BitVec 17) (s : State) : LeavesOutside host s (exec (.brBq off) s) := by
  refine leavesOutside_trapNow_or ((leavesOutside_next _ _).2 ?_)
  split <;> simp

theorem leavesOutside_loop (gd : Guard) (a : BitVec 5) (body : BitVec 13) (s : State) :
    LeavesOutside host s (exec (.loop gd a body) s) := by
  have hloop : (s.looped a body).outside host = s.outside host :=
    (outside_updMe_verdict s.takePending _ _).trans (outside_takePending s)
  rw [loop_eq, leavesOutside_next]
  simp [hloop]

theorem leavesOutside_trap (gd : Guard) (code : BitVec 8) (s : State) : LeavesOutside host s (exec (.trap gd code) s) := by
  simp only [exec, execTrap]
  exact leavesOutside_guarded
    ((outside_updMe_verdict (s.trapWith 0x14 code 0) _ _).trans (outside_trapWith s 0x14 code 0))

theorem leavesOutside_fin (gd : Guard) (s : State) : LeavesOutside host s (exec (.fin gd) s) := by
  simp only [exec, execFin]
  exact leavesOutside_guarded ((outside_updMe_verdict s.takePending _ _).trans (outside_takePending s))

theorem leavesOutside_pushSq (gd : Guard) (sc : Scope) (q : BitVec 3) (s : State) :
    LeavesOutside host s (exec (.pushSq gd sc q) s) := by
  refine leavesOutside_onSq ?_
  split
  · simp
  · split <;> simp

theorem leavesOutside_barArwt (gd : Guard) (bar : BarOp) (d : BitVec 5) (s : State) :
    LeavesOutside host s (exec (.barArwt gd bar d) s) := by
  refine leavesOutside_onBar ?_
  dsimp only
  split
  · simp
  · split <;> simp

theorem leavesOutside_mxwait (gd : Guard) (d : BitVec 5) (s : State) : LeavesOutside host s (exec (.mxwait gd d) s) := by
  refine leavesOutside_trapNow_or (leavesOutside_onMx ?_)
  dsimp only
  split
  · simp
  · split <;> simp

/-- FENCE makes visible what the host ports hold (R217). -/
theorem leavesOutside_fence (gd : Guard) (sc : Scope) (s : State) : LeavesOutside true s (exec (.fence gd sc) s) := by
  simp only [exec, execFence]
  refine leavesOutside_guarded ?_
  split
  · exact outside_visibleAt s sc
  · simp

/-! ## The dispatch -/

/-- No word writes tile storage or a local memory, nor changes another core but in its wait marks; none but those of the S
stream writes host memory. -/
theorem exec_leavesOutside (i : Instr) (s : State) (hplace : i.place ≠ .notStream) (hhost : i.place = .s → host = true) :
    LeavesOutside host s (exec i s) := by
  cases i with
  -- Control flow
  | nop | br | jmp | jmpReg | call | callReg | ret =>
    simp [exec, execNop, execBr, execJmp, execJmpReg, execCall, execCallReg, execRet]
  | brBq off => exact leavesOutside_brBq off s
  | loop gd a body => exact leavesOutside_loop gd a body s
  | trap gd code => exact leavesOutside_trap gd code s
  | fin gd => exact leavesOutside_fin gd s
  -- Scalar operations
  | movi | moviWide | movhi | movhiWide | mov | add | addWide | addi | addiWide | sub | subWide | mul | mulWide | mulh
  | mulhN | and | andWide | andn | andnWide | or | orWide | xor | xorWide | shl | shr | sar | rot | clz | popc | min
  | minWide | minN | minNWide | max | maxWide | maxN | maxNWide | cmp | cmpWide | sel =>
    simp [exec, execMovi, execMoviWide, execMovhi, execMovhiWide, execMov, execAdd, execAddWide, execAddi, execAddiWide,
      execSub, execSubWide, execMul, execMulWide, execMulh, execMulhN, execAnd, execAndWide, execAndn, execAndnWide, execOr,
      execOrWide, execXor, execXorWide, execShl, execShr, execSar, execRot, execClz, execPopc, execMin, execMinWide,
      execMinN, execMinNWide, execMax, execMaxWide, execMaxN, execMaxNWide, execCmp, execCmpWide, execSel]
  -- System registers and views
  | rdsr | wrsr | rotb | loopst => simp [exec, execRdsr, execWrsr, execRotb, execLoopst]
  | view =>
    simp only [exec, execView]
    refine leavesOutside_guarded ?_
    split <;> simp
  -- The L stream
  | ld | ldOffset | ldl | ldlQ | ldr | ldrOffset | lds | gath | gathN | stcfg | stcfgOffset | stadv | stadvSkip | stadvImm
  | pref | prefOffset | ldlay | ldlayOffset | fenceLayout | qpush | bqpush =>
    simp [exec, execLd, execLdOffset, execLdl, execLdlQ, execLdr, execLdrOffset, execLds, execGath, execGathN, execStcfg,
      execStcfgOffset, execStadv, execStadvSkip, execStadvImm, execPref, execPrefOffset, execLdlay, execLdlayOffset,
      execFenceLayout, execQpush, execBqpush]
  -- The S stream
  | st | stQ | stl | stlQ | str | strOffset | waita | waitaNb | waitaOffset | trig =>
    simp [exec, execSt, execStQ, execStl, execStlQ, execStr, execStrOffset, execWaita, execWaitaNb, execWaitaOffset,
      execTrig]
  | rgx | rgxImm =>
    cases hhost rfl
    simp only [exec, execRgx, execRgxImm]
    exact leavesOutside_guarded (outside_rgxAt ..)
  | fence gd sc =>
    cases hhost rfl
    exact leavesOutside_fence gd sc s
  | pushReg | pop | popTry =>
    simp only [exec, execPushReg, execPop, execPopTry]
    refine leavesOutside_guarded ?_
    split <;> simp
  | pushSq gd sc q => exact leavesOutside_pushSq gd sc q s
  -- Circuits, and the queues between the streams
  | recv | recvTry | qpop =>
    refine leavesOutside_onLq ?_
    split <;> simp
  | send | sendTry =>
    refine leavesOutside_onSq ?_
    split <;> simp
  -- Barriers
  | barArrive | barWait => simp [exec, execBarArrive, execBarWait]
  | barArwt gd bar d => exact leavesOutside_barArwt gd bar d s
  -- Vectors
  | vadd | vsub | vmul | vmulh | vmad | vand | vor | vxor | vlop3 | vshl | vshr | vsar | vpopc | vclz | vmin | vmax | vabs
  | vcmpEq | vcmpNe | vcmpLt | vcmpLe | vsel | vperm | vbcast | vbcastG | vrotl | vrotlG | vcomp | vred | vredm | qput =>
    simp [exec, execVadd, execVsub, execVmul, execVmulh, execVmad, execVand, execVor, execVxor, execVlop3, execVshl,
      execVshr, execVsar, execVpopc, execVclz, execVmin, execVmax, execVabs, execVcmpEq, execVcmpNe, execVcmpLt, execVcmpLe,
      execVsel, execVperm, execVbcast, execVbcastG, execVrotl, execVrotlG, execVcomp, execVred, execVredm, execQput]
  -- Floating-point vectors
  | fadd | fsub | fmul | ffma | fmin | fmax | fabs | fneg | fcmpEq | fcmpNe | fcmpLt | fcmpLe | frcp | frsq | fexp2 | flog2
  | fred | fredm =>
    simp [exec, execFadd, execFsub, execFmul, execFfma, execFmin, execFmax, execFabs, execFneg, execFcmpEq, execFcmpNe,
      execFcmpLt, execFcmpLe, execFrcp, execFrsq, execFexp2, execFlog2, execFred, execFredm]
  -- The quantiser
  | cvt | qmx | qtrl | qstat | qstatClr => simp [exec, execCvt, execQmx, execQtrl, execQstat, execQstatClr]
  -- The matrix engine
  | mxgo | mxcommit | mxcommitClr | mxswap => simp [exec, execMxgo, execMxcommit, execMxcommitClr, execMxswap]
  | mxsetHdr | mxsetLvl | mxbindG | mxbindView | mxgrp => exact leavesOutside_onMx (outside_onStaging (by simp))
  | mxwait gd d => exact leavesOutside_mxwait gd d s
  -- Operations with two forms
  | ldlOffset | stOffset | stlOffset | vfshl | vfshr =>
    simp only [exec, execLdlOffset, execStOffset, execStlOffset, execVfshl, execVfshr]
    split <;> simp
  -- Rows that no word carries
  | _ => exact absurd rfl hplace

/-- Settles O59: the frame of the words, from what `exec_leavesOutside` says of each of them. -/
theorem wordsChangeNoMemoryAndNoOtherCore : Obligations.WordsChangeNoMemoryAndNoOtherCore := by
  intro i s t hplace ht
  have hwords {host : Bool} (hhost : i.place = .s → host = true) :=
    frame_of_outside (exec_leavesOutside i s hplace hhost t ht)
  obtain ⟨hmem, hlm, -, hwake⟩ := hwords fun _ => rfl
  refine ⟨hmem, hlm, fun hs => ?_, hwake⟩
  obtain ⟨-, -, hhost, -⟩ := hwords (host := false) fun h => absurd h hs
  exact hhost rfl

end Sys2Proof.Machine

/-! PROOFS. VIEW, ROTB and LOOPST (O15): each view register takes its edited value or raises 0x04. -/

namespace Sys2Proof.Machine

theorem getElem_toFin_eight {α : Type} (v : Vector α 8) (n : BitVec 3) (d : α) : v[n.toFin] = v.toList.getD n.toNat d := by
  have h : n.toNat < v.toList.length := by simpa using n.isLt
  rw [List.getD_eq_getElem _ _ h]
  simp

/-! ## Writes of the view registers (R128, R129) -/

section Writes

variable {s : State} {v : W64} {n : Fin 8}

theorem writeViewV_valid (h : viewVOk s.units v = true) : OnlyMe s (s.writeViewV v) fun x => { x with viewV := v } := by
  rw [State.writeViewV, if_pos h]
  exact onlyMe_updMe s _

theorem writeViewV_invalid (h : viewVOk s.units v = false) : TrapsAtWord s (s.writeViewV v) 0x04 0 0 := by
  rw [State.writeViewV, h, if_neg Bool.false_ne_true]
  exact trapWith_traps s 0x04 0 0

theorem writeViewT_valid {n : BitVec 3} (h : viewOk s.units v = true) : let t := s.writeViewT n.toFin v
    t.me.viewT.toList = s.me.viewT.toList.set n.toNat v ∧ { t.me with viewT := s.me.viewT } = s.me ∧ SameButCore s t := by
  intro t
  have hwrite : t = s.updMe fun x => { x with viewT := x.viewT.set n.toFin v } := if_pos h
  have hme : t.me = { s.me with viewT := s.me.viewT.set n.toFin v } := hwrite ▸ State.me_updMe s _
  refine ⟨?_, by rw [hme], hwrite ▸ sameButCore_updMe s _⟩
  rw [hme]
  exact Vector.toList_set n.toFin.isLt

theorem writeViewT_invalid (h : viewOk s.units v = false) : TrapsAtWord s (s.writeViewT n v) 0x04 0 0 := by
  rw [State.writeViewT, h, if_neg Bool.false_ne_true]
  exact trapWith_traps s 0x04 0 0

theorem writeViewA_valid {n : BitVec 3} (h : viewOk s.units v = true) : let t := s.writeViewA n.toFin v
    t.me.viewA.toList = s.me.viewA.toList.set n.toNat v ∧ { t.me with viewA := s.me.viewA } = s.me ∧ SameButCore s t := by
  intro t
  have hwrite : t = s.updMe fun x => { x with viewA := x.viewA.set n.toFin v } := if_pos h
  have hme : t.me = { s.me with viewA := s.me.viewA.set n.toFin v } := hwrite ▸ State.me_updMe s _
  refine ⟨?_, by rw [hme], hwrite ▸ sameButCore_updMe s _⟩
  rw [hme]
  exact Vector.toList_set n.toFin.isLt

theorem writeViewA_invalid (h : viewOk s.units v = false) : TrapsAtWord s (s.writeViewA n v) 0x04 0 0 := by
  rw [State.writeViewA, h, if_neg Bool.false_ne_true]
  exact trapWith_traps s 0x04 0 0

end Writes

/-! ## The words (R182, R205, R206) -/

section Words

variable {gd : Guard} {s : State} (hg : guardOk gd s = true) {n : BitVec 3} {w : BitVec 2} {imm : BitVec 11}

include hg

theorem exec_rotb : exec (.rotb gd) s = .next (s.updMe fun x => { x with viewV := rotate x.viewV }) := by
  change execRotb gd s = _
  rw [execRotb, guarded_of_ok hg]

theorem exec_loopst (ns : BitVec 4) (rt : Bool) : exec (.loopst gd ns rt) s =
    .next (s.updMe fun x => { x with le := { x.le with pns := ns, prt := rt } }) := by
  change execLoopst gd ns rt s = _
  rw [execLoopst, guarded_of_ok hg]

theorem exec_viewV : exec (.view gd 0 n w imm) s = .next (s.writeViewV (viewEdit s.me.viewV w imm)) := by
  change execView gd 0 n w imm s = _
  rw [execView, guarded_of_ok hg]
  rfl

theorem exec_viewT : exec (.view gd 1 n w imm) s =
    .next (s.writeViewT n.toFin (viewEdit (s.me.viewT.toList.getD n.toNat 0) w imm)) := by
  change execView gd 1 n w imm s = _
  rw [execView, guarded_of_ok hg, ← getElem_toFin_eight]
  rfl

theorem exec_viewA : exec (.view gd 2 n w imm) s =
    .next (s.writeViewA n.toFin (viewEdit (s.me.viewA.toList.getD n.toNat 0) w imm)) := by
  change execView gd 2 n w imm s = _
  rw [execView, guarded_of_ok hg, ← getElem_toFin_eight]
  rfl

end Words

/-- Settles O15: VIEW by its kind and by whether the edited value is valid; ROTB and LOOPST are one change of the core. -/
theorem viewsAndLoopStages : Obligations.ViewsAndLoopStages := by
  intro gd n w imm ns rt s hg
  refine ⟨?viewV, ?badViewV, ?viewT, ?badViewT, ?viewA, ?badViewA, ?rotb, ?loopst⟩
  case viewV =>
    intro hv
    obtain ⟨hcore, hme⟩ := writeViewV_valid hv
    exact ⟨_, exec_viewV hg, hcore, hme⟩
  case badViewV => exact fun hv => ⟨_, exec_viewV hg, writeViewV_invalid hv⟩
  case viewT => exact fun hv => ⟨_, exec_viewT hg, writeViewT_valid hv⟩
  case badViewT => exact fun hv => ⟨_, exec_viewT hg, writeViewT_invalid hv⟩
  case viewA => exact fun hv => ⟨_, exec_viewA hg, writeViewA_valid hv⟩
  case badViewA => exact fun hv => ⟨_, exec_viewA hg, writeViewA_invalid hv⟩
  case rotb => exact ⟨_, exec_rotb hg, onlyMe_updMe s _⟩
  case loopst => exact ⟨_, exec_loopst hg ns rt, onlyMe_updMe s _⟩

end Sys2Proof.Machine

/-! PROOFS. The integer, bit and lane operations of the C stream (O28, O29, O30): one form for what reads one, two or three
registers, and what each operation counts, selects or moves. -/

namespace Sys2Proof.Machine

/-! ## Elements -/

theorem wrap_eq (w : Nat) (x : Int) : wrap w x = (x % 2 ^ w).toNat := by
  rw [wrap, Nat.cast_pow, Nat.cast_ofNat]

theorem lanes_mul_intBytes (ty : IntTy) : ty.lanes * intBytes ty = 256 := by
  cases ty <;> rfl

@[simp] theorem length_chunks (n : Nat) (bs : List Byte) : (chunks n bs).length = bs.length / n := by
  simp [chunks]

@[simp] theorem length_elems (s : State) (ty : IntTy) (a : BitVec 5) : (s.elems ty a).length = ty.lanes := by
  rw [State.elems, length_chunks, length_vRead]
  cases ty <;> rfl

/-- A list of numbers mapped is a list of places mapped. -/
theorem map_eq_map_range (f : Nat → Nat) {xs : List Nat} {n : Nat} (h : xs.length = n) :
    xs.map f = (List.range n).map fun j => f (xs.getD j 0) := by
  subst h
  refine List.ext_getElem (by simp) fun j hj _ => ?_
  rw [List.length_map] at hj
  simp [hj]

/-- A list filled up with zeros, place by place. -/
theorem append_zeros_eq_map_range {xs : List Nat} {n : Nat} (h : xs.length ≤ n) :
    xs ++ List.replicate (n - xs.length) 0 = (List.range n).map fun j => xs.getD j 0 := by
  refine List.ext_getElem (by simp [Nat.add_sub_cancel' h]) fun j _ _ => ?_
  by_cases hj : j < xs.length
  · simp [List.getElem_append_left hj, hj]
  · simp [List.getElem_append_right (Nat.not_lt.1 hj), hj]

/-! ## What writes a v register -/

/-- A write from the first byte of a v register of the word at work, from a state that the word has reached. -/
theorem vWrite_start_onItsWay {s u : State} (h : u.rd = s.rd) (d : BitVec 5) (bs : List Byte) (bound : Nat) :
    OnItsWay u (u.vWrite d 0 bs bound) (vOffset s.rd.viewV d) bs bound := by
  simpa only [Nat.add_zero] using vWrite_onItsWay h d 0 bs bound

section Vectors

variable {i : Instr} {gd : Guard} {d a b c : BitVec 5} {ty : IntTy} {bound : Nat}

/-- An operation that writes integer elements gives their bytes. -/
theorem givesV_of_putElems {xs ys : State → List Nat}
    (hexec : ∀ s, exec i s = guarded gd s fun s => s.putElems ty d (xs s) bound) (h : ∀ s, xs s = ys s) :
    GivesV i gd d bound fun s => unchunks (intBytes ty) (ys s) :=
  givesV_of_onItsWay _ hexec fun s => h s ▸ putElems_onItsWay s ty d (xs s) bound

/-- An operation on the elements of one register gives what it makes of each. -/
theorem givesV_of_vecUn {f g : Nat → Nat} (hexec : ∀ s, exec i s = vecUn gd d a ty bound f s) (h : ∀ x, f x = g x) :
    GivesV i gd d bound fun s => unchunks (intBytes ty) ((s.elems ty a).map g) := by
  obtain rfl : f = g := funext h
  exact givesV_of_putElems hexec fun _ => rfl

/-- An operation on the elements of two registers gives what it makes of each pair. -/
theorem givesV_of_vecBin {f g : Nat → Nat → Nat} (hexec : ∀ s, exec i s = vecBin gd d a b ty bound f s)
    (h : ∀ x y, f x y = g x y) :
    GivesV i gd d bound fun s => unchunks (intBytes ty) (List.zipWith g (s.elems ty a) (s.elems ty b)) := by
  obtain rfl : f = g := funext₂ h
  exact givesV_of_putElems hexec fun _ => rfl

/-- An operation on the elements of three registers gives what it makes of each triple. -/
theorem givesV_of_vecTri {f g : Nat → Nat → Nat → Nat} (hexec : ∀ s, exec i s = vecTri gd d a b c ty bound f s)
    (h : ∀ x y z, f x y z = g x y z) :
    GivesV i gd d bound fun s => unchunks (intBytes ty) (zipWith3 g (s.elems ty a) (s.elems ty b) (s.elems ty c)) := by
  obtain rfl : f = g := funext₃ h
  exact givesV_of_putElems hexec fun _ => rfl

/-- An operation that writes bytes from the start of its register gives those. -/
theorem givesV_of_vWrite (bs : State → List Byte) (hexec : ∀ s, exec i s = guarded gd s fun s => s.vWrite d 0 (bs s) bound) :
    GivesV i gd d bound bs :=
  givesV_of_onItsWay _ hexec fun s => vWrite_start_onItsWay rfl d (bs s) bound

end Vectors

/-! ## Counts -/

theorem popFrom_eq_countP (x n : Nat) : popFrom x n = (List.range n).countP fun i => x.testBit i := by
  induction n with
  | zero => rfl
  | succ n ih =>
    rw [popFrom, ih, List.range_succ, List.countP_append, List.countP_singleton, Nat.add_comm, Nat.testBit_eq_decide_div_mod_eq]
    rcases Nat.mod_two_eq_zero_or_one (x / 2 ^ n) with h | h <;> simp [h]

/-- One more than the place of the highest one bit below position `n`, or 0. -/
def topBit (x n : Nat) : Nat := (List.range n).foldl (fun k i => if x.testBit i then i + 1 else k) 0

theorem topBit_succ (x n : Nat) : topBit x (n + 1) = if x.testBit n then n + 1 else topBit x n := by
  rw [topBit, List.range_succ, List.foldl_append]
  rfl

theorem topBit_le (x n : Nat) : topBit x n ≤ n := by
  induction n with
  | zero => rfl
  | succ n ih =>
    rw [topBit_succ]
    split <;> omega

/-- The zeros above the highest one bit. -/
theorem clzFrom_eq_sub_topBit (x n : Nat) : clzFrom x n = n - topBit x n := by
  induction n with
  | zero => rfl
  | succ n ih =>
    have := topBit_le x n
    rw [clzFrom, topBit_succ, ih, Nat.testBit_eq_decide_div_mod_eq]
    simp only [decide_eq_true_eq]
    split <;> omega

/-- Settles O28: sums, products and selections wrap an exact value, comparisons test one, and the two counts are those of the
recursion. -/
theorem integerElementsCompute : Obligations.IntegerElementsCompute := by
  intro gd d a b ty w val two test each
  refine ⟨?vadd, ?vsub, ?vmul, ?vmulh, ?vmad, ?vmin, ?vmax, ?vabs, ?vpopc, ?vclz, ?vcmpEq, ?vcmpNe, ?vcmpLt, ?vcmpLe⟩
  case vadd | vsub | vmul | vmin | vmax => exact givesV_of_vecBin (fun _ => rfl) fun _ _ => wrap_eq w _
  case vmulh => exact givesV_of_vecBin (fun _ => rfl) fun _ _ => by rw [wrap2, wrap_eq, upperHalf, Nat.cast_pow, Nat.cast_ofNat]
  case vmad => exact givesV_of_vecTri (fun _ => rfl) fun _ _ _ => wrap_eq w _
  case vabs => exact givesV_of_vecUn (fun _ => rfl) fun _ => wrap_eq w _
  case vpopc => exact givesV_of_vecUn (fun _ => rfl) fun x => popFrom_eq_countP x w
  case vclz => exact givesV_of_vecUn (fun _ => rfl) fun x => clzFrom_eq_sub_topBit x w
  case vcmpEq | vcmpNe | vcmpLt | vcmpLe => exact givesV_of_vecBin (fun _ => rfl) fun _ _ => rfl

/-! ## Bits -/

/-- Of the eight terms of a truth table, those of the three bits' own index are left (R194). -/
theorem getLsbD_lop3 (k : BitVec 8) (x y z : BitVec 2048) {i : Nat} (hi : i < 2048) : (lop3 k x y z).getLsbD i =
    k.getLsbD (4 * (x.getLsbD i).toNat + 2 * (y.getLsbD i).toNat + (z.getLsbD i).toNat) := by
  have hterm (j : Nat) (v : BitVec 2048) : (if k.getLsbD j then v else 0).getLsbD i = (k.getLsbD j && v.getLsbD i) := by
    cases k.getLsbD j <;> simp
  simp only [lop3, BitVec.getLsbD_or, hterm, BitVec.getLsbD_and, BitVec.getLsbD_not, hi, decide_true, Bool.true_and]
  cases x.getLsbD i <;> cases y.getLsbD i <;> cases z.getLsbD i <;> simp

/-- Settles O29: each operation takes its elements, or its bits, one by one as its definition says; VLOP3 by its table. -/
theorem bitsShiftsAndSelections : Obligations.BitsShiftsAndSelections := by
  intro gd d a b c ty k k8 w two three bits
  refine ⟨?vand, ?vor, ?vxor, ⟨lop3 k8, fun x y z i => getLsbD_lop3 k8 x y z, ?vlop3⟩, ?vshl, ?vshr, ?vsar, ?vfshl, ?vfshr,
    ?vfshlReg, ?vfshrReg, ?vsel⟩
  case vand | vor | vxor | vlop3 => exact givesV_of_vWrite _ fun _ => rfl
  case vshl | vshr | vsar | vfshl | vfshr => exact givesV_of_vecBin (fun _ => rfl) fun _ _ => rfl
  case vfshlReg | vfshrReg | vsel => exact givesV_of_vecTri (fun _ => rfl) fun _ _ _ => rfl

/-! ## Lanes -/

theorem turnLanes_eq (k : Nat) {xs : List Nat} {n : Nat} (h : xs.length = n) :
    turnLanes k xs = (List.range n).map fun j => xs.getD ((j + k) % n) 0 := by
  rw [turnLanes, h]

theorem compress_eq {n : Nat} {xs ys : List Nat} (h : xs.length ≤ n) : compress n xs ys =
    (List.range n).map fun j => (((List.zip xs ys).filter fun e => e.2 != 0).map (·.1)).getD j 0 := by
  refine append_zeros_eq_map_range ?_
  calc (((List.zip xs ys).filter fun e => e.2 != 0).map (·.1)).length
      ≤ (List.zip xs ys).length := by rw [List.length_map]; exact List.length_filter_le ..
    _ ≤ xs.length := by rw [List.length_zip]; exact Nat.min_le_left ..
    _ ≤ n := h

/-- Settles O30: each operation writes as many elements as its register has lanes, each at its place. -/
theorem lanesMove : Obligations.LanesMove := by
  intro gd d a b c ty k n out
  have hlen (s : State) (r : BitVec 5) : (s.elems ty r).length = n := length_elems s ty r
  have hsame (x : Nat) : List.replicate n x = (List.range n).map fun _ => x := by simp
  refine ⟨?vperm, ?vbcast, ?vbcastG, ?vrotl, ?vrotlG, ?vcomp⟩
  case vperm => exact givesV_of_putElems (fun _ => rfl) fun s => map_eq_map_range _ (hlen s b)
  case vbcast | vbcastG => exact givesV_of_putElems (fun _ => rfl) fun s => hsame _
  case vrotl | vrotlG => exact givesV_of_putElems (fun _ => rfl) fun s => turnLanes_eq _ (hlen s a)
  case vcomp => exact givesV_of_putElems (fun _ => rfl) fun s => compress_eq (hlen s a).le

end Sys2Proof.Machine

/-! PROOFS. Reductions (O32): the tree over adjacent pairs is the levels of R110, and what a masked reduction keeps, counts and
scales. -/

namespace Sys2Proof.Machine

/-! ## Bytes -/

@[simp] theorem length_natLE (n v : Nat) : (natLE n v).length = n := by
  induction n generalizing v with
  | zero => rfl
  | succ n ih => rw [natLE, List.length_cons, ih]

theorem natLE_zero (n : Nat) : natLE n 0 = List.replicate n 0 := by
  induction n with
  | zero => rfl
  | succ n ih => rw [natLE, Nat.zero_div, ih, List.replicate_succ, BitVec.ofNat_eq_ofNat]

/-- The first bytes of a register and zeros behind them, from a state that the word has reached. -/
theorem putFirst_onItsWay {s u : State} (h : u.rd = s.rd) (d : BitVec 5) (bs : List Byte) (bound : Nat) :
    OnItsWay u (u.putFirst d bs bound) (vOffset s.rd.viewV d) (bs ++ List.replicate (256 - bs.length) 0) bound :=
  vWrite_start_onItsWay h d _ bound

theorem putFirst_natLE_onItsWay {s u : State} (h : u.rd = s.rd) (d : BitVec 5) (n v bound : Nat) :
    OnItsWay u (u.putFirst d (natLE n v) bound) (vOffset s.rd.viewV d) (natLE n v ++ List.replicate (256 - n) 0) bound := by
  simpa only [length_natLE] using putFirst_onItsWay h d (natLE n v) bound

theorem natLE_zero_append {n : Nat} (hn : n ≤ 256) : natLE n 0 ++ List.replicate (256 - n) 0 = List.replicate 256 0 := by
  rw [natLE_zero, List.replicate_append_replicate, Nat.add_sub_cancel' hn]

/-- An operation that, under its guard, writes a number to the first bytes of vD, from a state that the word has reached. -/
theorem exists_putFirst {i : Instr} {gd : Guard} {s u u' : State} {d : BitVec 5} {n v v' bound : Nat}
    (hexec : exec i s = .next (if guardOk gd s = true then u.putFirst d (natLE n v) bound else s)) (hu : u = u') (hv : v = v')
    (hrd : u'.rd = s.rd) : ∃ t, exec i s = .next t ∧ Guarded gd s t
      (OnItsWay u' t (vOffset s.rd.viewV d) (natLE n v' ++ List.replicate (256 - n) 0) bound) := by
  subst hu hv
  refine ⟨_, hexec, ?_⟩
  unfold Guarded
  split
  · exact putFirst_natLE_onItsWay hrd d n v bound
  · rfl

/-! ## The tree (R110) -/

theorem length_pairUp (f : Nat → Nat → Nat) : ∀ {xs : List Nat} {n : Nat}, xs.length = 2 * n → (pairUp f xs).length = n
  | [], 0, _ => rfl
  | [_], _, h => absurd h (by rw [List.length_singleton]; omega)
  | _ :: _ :: _, n + 1, h => congrArg Nat.succ (length_pairUp f (by simpa [Nat.mul_succ] using h))

theorem getD_pairUp (f : Nat → Nat → Nat) : ∀ {xs : List Nat} {i : Nat}, 2 * i + 1 < xs.length →
    (pairUp f xs).getD i 0 = f (xs.getD (2 * i) 0) (xs.getD (2 * i + 1) 0)
  | _ :: _ :: _, 0, _ => rfl
  | _ :: _ :: _, i + 1, h => getD_pairUp f (i := i) (by simp only [List.length_cons] at h; omega)

/-- The levels over the pairs are the levels over the elements, one further up. -/
theorem treeLevel_pairUp (f : Nat → Nat → Nat) (xs : List Nat) (k i : Nat) (h : (i + 1) * 2 ^ (k + 1) ≤ xs.length) :
    treeLevel f (pairUp f xs) k i = treeLevel f xs (k + 1) i := by
  induction k generalizing i with
  | zero => exact getD_pairUp f (by omega)
  | succ k ih =>
    have hpow : (i + 1) * 2 ^ (k + 1 + 1) = (2 * i + 1 + 1) * 2 ^ (k + 1) := by ring
    have hleft : (2 * i + 1) * 2 ^ (k + 1) ≤ (2 * i + 1 + 1) * 2 ^ (k + 1) := Nat.mul_le_mul_right _ (Nat.le_succ _)
    rw [treeLevel, ih _ (by omega), ih _ (by omega)]
    rfl

/-- Pairing up what is one element already leaves it. -/
theorem treeReduce_singleton (f : Nat → Nat → Nat) (x j : Nat) : treeReduce f j [x] = x := by
  induction j with
  | zero => rfl
  | succ j ih => exact ih

/-- The tree over 2^k elements gives the value of its top level, in k rounds or more. -/
theorem treeReduce_eq_treeLevel (f : Nat → Nat → Nat) (j : Nat) {k : Nat} {xs : List Nat} (h : xs.length = 2 ^ k) :
    treeReduce f (k + j) xs = treeLevel f xs k 0 := by
  induction k generalizing xs with
  | zero =>
    obtain ⟨x, rfl⟩ := List.length_eq_one_iff.1 h
    rw [Nat.zero_add, treeReduce_singleton]
    rfl
  | succ k ih =>
    have hlen : (pairUp f xs).length = 2 ^ k := length_pairUp f (by rw [h, Nat.pow_succ'])
    rw [Nat.succ_add, treeReduce, ih hlen, treeLevel_pairUp f xs k 0 (by rw [h, Nat.zero_add, Nat.one_mul])]

theorem treeReduce_lanes (f : Nat → Nat → Nat) (ty : IntTy) {xs : List Nat} (h : xs.length = ty.lanes) :
    treeReduce f 8 xs = treeLevel f xs ty.lanes.log2 0 := by
  have hlog : ty.lanes = 2 ^ ty.lanes.log2 ∧ ty.lanes.log2 ≤ 8 := by cases ty <;> decide
  obtain ⟨hpow, hle⟩ := hlog
  rw [← treeReduce_eq_treeLevel f (8 - ty.lanes.log2) (h.trans hpow), Nat.add_sub_cancel' hle]

theorem length_felems (s : State) (ty : FpTy) (a : BitVec 5) : (s.felems ty a).length = 2 ^ fpLevels ty := by
  rw [State.felems, length_chunks, length_vRead]
  cases ty <;> rfl

theorem treeReduce_fpLevels (f : Nat → Nat → Nat) (ty : FpTy) {xs : List Nat} (h : xs.length = 2 ^ fpLevels ty) :
    treeReduce f (fpLevels ty) xs = treeLevel f xs (fpLevels ty) 0 := treeReduce_eq_treeLevel f 0 h

/-! ## Masks (R111) -/

theorem testBit_mask (v : W64) {i : Nat} (h : i < 4) : (v.toNat % 16).testBit i = v.getLsbD i := by
  rw [show 16 = 2 ^ 4 from rfl, Nat.testBit_mod_two_pow, decide_eq_true h, Bool.true_and, BitVec.getLsbD]

theorem popFrom_mask (v : W64) : popFrom (v.toNat % 16) 4 = (List.range 4).countP fun i => v.getLsbD i := by
  rw [popFrom_eq_countP]
  exact List.countP_congr fun i hi => by rw [testBit_mask v (List.mem_range.1 hi)]

/-- The mask is clear just where it counts no block. -/
theorem popFrom_mask_eq_zero (m : Nat) : popFrom (m % 16) 4 = 0 ↔ m % 16 = 0 := by
  have hmask : ∀ k < 16, popFrom k 4 = 0 ↔ k = 0 := by decide
  exact hmask _ (Nat.mod_lt m (by decide))

/-- The elements with those of the lost blocks replaced, place by place. -/
theorem maskBlocks_eq (bytes : Nat) (v : W64) {xs : List Nat} (h : xs.length * bytes ≤ 256) :
    maskBlocks bytes (v.toNat % 16) xs =
      (List.range xs.length).map fun i => if v.getLsbD (i * bytes / 64) then xs.getD i 0 else 0 := by
  refine List.ext_getElem (by simp [maskBlocks]) fun i hi _ => ?_
  have hi : i < xs.length := by simpa [maskBlocks] using hi
  have hblock : i * bytes / 64 < 4 := by
    by_cases h0 : bytes = 0
    · simp [h0]
    · have := Nat.mul_lt_mul_of_pos_right hi (Nat.pos_of_ne_zero h0)
      omega
  have hbit : v.toNat % 16 / 2 ^ (i * bytes / 64) % 2 = 1 ↔ v.getLsbD (i * bytes / 64) = true := by
    rw [← testBit_mask v hblock, Nat.testBit_eq_decide_div_mod_eq, decide_eq_true_iff]
  simp [maskBlocks, hbit, hi]

/-! ## Scaling (R111) -/

/-- Rounding the quotient of a magnitude to nearest, ties to even. -/
theorem roundStep_rne_nearest (m d : Nat) (hd : 0 < d) : let r := roundStep .rne false (m / d) (m % d) d
    2 * ((m : Int) - r * d).natAbs ≤ d ∧ (2 * ((m : Int) - r * d).natAbs = d → r % 2 = 0) := by
  have hm : (m : Int) = (m / d : Nat) * d + (m % d : Nat) := by exact_mod_cast (Nat.div_add_mod' m d).symm
  have hlt := Nat.mod_lt m hd
  generalize m / d = q at *
  generalize m % d = e at *
  have hlow : ((m : Int) - q * d).natAbs = e := by omega
  have hhigh : ((m : Int) - (q + 1 : Nat) * d).natAbs = d - e := by
    have : ((q + 1 : Nat) : Int) * d = q * d + d := by push_cast; ring
    omega
  simp only [roundStep]
  split_ifs <;> simp only [hlow, hhigh] <;> omega

/-- The quotient rounded is the nearest integer, the even one of two (R95). -/
theorem divRne_nearest (x : Int) {d : Nat} (hd : 0 < d) : NearestEven x d (divRne x d) := by
  obtain ⟨hle, heven⟩ := roundStep_rne_nearest x.natAbs d hd
  unfold divRne
  dsimp only
  generalize roundStep .rne false (x.natAbs / d) (x.natAbs % d) d = r at *
  rw [NearestEven]
  split
  · next hx =>
    have hneg : (x - -(r : Int) * d).natAbs = ((x.natAbs : Int) - r * d).natAbs := by
      rw [Int.neg_mul]
      omega
    rw [hneg]
    exact ⟨hle, fun h => by have := heven h; omega⟩
  · next hx =>
    rw [Int.natAbs_of_nonneg (Int.not_lt.1 hx)] at hle heven
    exact ⟨hle, fun h => by have := heven h; omega⟩

/-! ## The operations -/

/-- An operation of VRED in the words of R201. -/
theorem redInt_eq (ty : IntTy) (op : RedOp) (x y : Nat) : redInt ty op x y = match op with
    | .add => ((intVal ty x + intVal ty y) % 2 ^ intBits ty).toNat
    | .min => (min (intVal ty x) (intVal ty y) % 2 ^ intBits ty).toNat
    | .max => (max (intVal ty x) (intVal ty y) % 2 ^ intBits ty).toNat
    | .and => x &&& y
    | .or => x ||| y
    | .xor => x ^^^ y := by
  cases op
  case add | min | max => exact wrap_eq _ _
  all_goals rfl

/-- An operation of FRED: one rounding in FP32 (R201). -/
theorem redFp_eq {op : RedOp} {f : FVal → FVal → FVal}
    (h : op = .add ∧ f = FVal.add ∨ op = .min ∧ f = FVal.lower ∨ op = .max ∧ f = FVal.upper) :
    redFp op = fun x y => fencode fmtFP32 .rne (f (fdecode fmtFP32 x) (fdecode fmtFP32 y)) := by
  obtain ⟨rfl, rfl⟩ | ⟨rfl, rfl⟩ | ⟨rfl, rfl⟩ := h <;> rfl

theorem redmInt_valid {ty : IntTy} {m : Nat} {xs : List Nat} (h : popFrom m 4 ≠ 0) : redmInt ty m xs =
    (divRne (intVal ty (treeReduce (redInt ty .add) 8 (maskBlocks (intBytes ty) m xs)) * 4) (popFrom m 4) %
      2 ^ intBits ty).toNat := by
  rw [redmInt, if_neg h, wrap_eq]

theorem redmFp_valid {ty : FpTy} {m : Nat} {xs : List Nat} (h : popFrom m 4 ≠ 0) : redmFp ty m xs =
    let t := treeReduce (redFp .add) (fpLevels ty) ((maskBlocks (fpBytes ty) m xs).map (widen ty))
    if popFrom m 4 = 4 then t else fencode fmtFP32 .rne ((fdecode fmtFP32 t).mul (.fin false 4 (popFrom m 4))) := by
  rw [redmFp, if_neg h]

theorem redmInt_lost {ty : IntTy} {m : Nat} {xs : List Nat} (h : popFrom m 4 = 0) : redmInt ty m xs = 0 := if_pos h

theorem redmFp_lost {ty : FpTy} {m : Nat} {xs : List Nat} (h : popFrom m 4 = 0) : redmFp ty m xs = 0 := if_pos h

theorem countLost_valid {s : State} {m : Nat} (h : m ≠ 0) : s.countLost m = s := if_neg h

theorem countLost_lost {s : State} {m : Nat} (h : m = 0) : s.countLost m =
    s.updMe fun x => { x with lostcnt := BitVec.ofNat 32 (min (2 ^ 32 - 1) (x.lostcnt.toNat + 1)) } := if_pos h

/-- Settles O32: VRED and FRED by their tree; VREDM and FREDM by the same tree over what the mask keeps, then scaled, or, with
every block lost, as zeros. -/
theorem reductionsGiveTheirValue : Obligations.ReductionsGiveTheirValue := by
  intro gd d a b ty op ft s first at_ w val wrapped iop f32 fop levels wide kept valid isum fsum fscaled lost
  have hiop (op : RedOp) : redInt ty op = iop op := funext₂ fun x y => redInt_eq ty op x y
  have hvalid : popFrom ((s.rg b).toNat % 16) 4 = valid := popFrom_mask (s.rg b)
  have hmask : (s.rg b).toNat % 16 = 0 ↔ valid = 0 := hvalid ▸ (popFrom_mask_eq_zero _).symm
  have hints : maskBlocks (intBytes ty) ((s.rg b).toNat % 16) (s.elems ty a) = kept (intBytes ty) (s.elems ty a) :=
    maskBlocks_eq _ _ (by rw [length_elems, lanes_mul_intBytes])
  have hfps : maskBlocks (fpBytes ft) ((s.rg b).toNat % 16) (s.felems ft a) = kept (fpBytes ft) (s.felems ft a) :=
    maskBlocks_eq _ _ (by rw [length_felems]; cases ft <;> decide)
  have hisum : treeReduce (redInt ty .add) 8 (kept (intBytes ty) (s.elems ty a)) = isum := by
    rw [hiop]
    exact treeReduce_lanes _ ty (by simp [kept])
  have hfsum : treeReduce (redFp .add) (fpLevels ft) ((kept (fpBytes ft) (s.felems ft a)).map (widen ft)) = fsum := by
    rw [redFp_eq (.inl ⟨rfl, rfl⟩)]
    exact treeReduce_fpLevels _ ft (by simp [kept, length_felems])
  refine ⟨?vred, fun f hf => ?fred, fun hv => ⟨?vredm, ?fredm⟩, fun hv => ⟨?vredmLost, ?fredmLost⟩⟩
  case vred =>
    have htree := treeReduce_lanes (redInt ty op) ty (length_elems s ty a)
    rw [hiop] at htree
    exact exists_putFirst rfl rfl (hiop op ▸ htree) rfl
  case fred =>
    have hfop : redFp op = fop f := redFp_eq hf
    rw [← hfop]
    exact exists_putFirst rfl rfl (treeReduce_fpLevels _ ft (by simp [length_felems])) rfl
  case vredm =>
    have hscaled : redmInt ty ((s.rg b).toNat % 16) (s.elems ty a) = wrapped (divRne (val isum * 4) valid) := by
      rw [redmInt_valid (hvalid ▸ hv), hints, hisum, hvalid]
    obtain ⟨t, hexec, hway⟩ := exists_putFirst (i := .vredm gd d a b ty) rfl (countLost_valid (mt hmask.1 hv)) hscaled rfl
    exact ⟨t, _, divRne_nearest _ (Nat.pos_of_ne_zero hv), hexec, hway⟩
  case fredm =>
    have hscaled : redmFp ft ((s.rg b).toNat % 16) (s.felems ft a) = fscaled := by
      rw [redmFp_valid (hvalid ▸ hv), hfps, hfsum, hvalid]
    exact exists_putFirst rfl (countLost_valid (mt hmask.1 hv)) hscaled rfl
  case vredmLost =>
    rw [← natLE_zero_append (n := intBytes ty) (by cases ty <;> decide)]
    exact exists_putFirst rfl (countLost_lost (hmask.2 hv)) (redmInt_lost (hvalid.trans hv)) rfl
  case fredmLost =>
    rw [← natLE_zero_append (n := 4) (by decide)]
    exact exists_putFirst rfl (countLost_lost (hmask.2 hv)) (redmFp_lost (hvalid.trans hv)) rfl

end Sys2Proof.Machine

/-! PROOFS. QPOP, QPUT and the landing of a result (O33): what each takes and leaves, and where a result's bytes land. -/

namespace Sys2Proof.Machine

/-! ## Queues -/

@[simp] theorem Ctx.getSq_updSq_same (x : Ctx) (q : BitVec 3) (f : Queue → Queue) :
    (x.updSq q f).getSq q = f (x.getSq q) := by
  simp [Ctx.getSq, Ctx.updSq]

theorem Ctx.getSq_updSq_ne (x : Ctx) {q k : BitVec 3} (f : Queue → Queue) (h : k ≠ q) :
    (x.updSq q f).getSq k = x.getSq k := by
  have : q.toNat ≠ k.toNat := fun e => h (BitVec.eq_of_toNat_eq e.symm)
  simp [Ctx.getSq, Ctx.updSq, this]

/-- An operation under its guard on an sq of a depth other than 0. -/
theorem onSq_eq {s : State} {q : BitVec 3} {gd : Guard} (f : State → State) (hd : (s.me.getSq q).depth ≠ 0)
    (hg : guardOk gd s = true) : s.onSq q gd f = .next (f s) := by
  rw [State.onSq, if_neg hd, guarded_of_ok hg]

/-- A queue that L writes is not readable while its head has no data or an earlier access can still fault (R154, R155). -/
theorem readable_none {x : Ctx} {q : Queue}
    (h : ∀ e rest, q.entries = e :: rest → e.ready = false ∨ ∃ a ∈ x.laccess, a.tk < e.tk) : x.readable q = none := by
  unfold Ctx.readable
  split
  · rfl
  · next e rest hq =>
    refine if_neg fun hr => ?_
    obtain ⟨hready, hearlier⟩ := Bool.and_eq_true_iff.1 hr
    rcases h e rest hq with hnot | ⟨a, ha, hlt⟩
    · exact Bool.false_ne_true (hnot.symm.trans hready)
    · exact List.any_eq_false.1 ((Bool.not_eq_true' _).mp hearlier) a ha (decide_eq_true hlt)

/-! ## QPOP and QPUT -/

section QueueOps

variable {gd : Guard} {s : State} {q : BitVec 3}

section UnderGuard

variable (hg : guardOk gd s = true)

include hg

theorem exec_qpop_none (d : BitVec 5) (hd : (s.me.getLq q).depth ≠ 0) (h : s.me.readable (s.me.getLq q) = none) :
    exec (.qpop gd d q) s = .next (s.waitNow .queueEmpty) := by
  change execQpop gd d q s = _
  rw [execQpop, onLq_eq _ hd hg, h]

theorem exec_qpop_some (d : BitVec 5) {e : QEntry} (hd : (s.me.getLq q).depth ≠ 0)
    (h : s.me.readable (s.me.getLq q) = some e) :
    exec (.qpop gd d q) s = .next ((s.updMe fun x => x.updLq q Queue.popHead).putFirst d e.data 2) := by
  change execQpop gd d q s = _
  rw [execQpop, onLq_eq _ hd hg, h]

theorem qpop_waits (d : BitVec 5) (hd : (s.me.getLq q).depth ≠ 0)
    (hnone : ∀ e rest, (s.me.getLq q).entries = e :: rest → e.ready = false ∨ ∃ a ∈ s.me.laccess, a.tk < e.tk) :
    ∃ t, exec (.qpop gd d q) s = .next t ∧ t.verdict = .waits .queueEmpty :=
  ⟨_, exec_qpop_none hg d hd (readable_none hnone), waitNow_verdict s .queueEmpty⟩

theorem qpop_pops (d : BitVec 5) {e : QEntry} {rest : List QEntry} (hd : (s.me.getLq q).depth ≠ 0)
    (hq : (s.me.getLq q).entries = e :: rest) (hr : e.ready = true) (ha : ∀ a ∈ s.me.laccess, e.tk ≤ a.tk) :
    let u := s.updMe fun x => x.updLq q fun y => { y with entries := rest, head := y.head + 1 }
    ∃ t, exec (.qpop gd d q) s = .next t ∧ t.verdict = s.verdict ∧
      OnItsWay u t (vOffset s.rd.viewV d) (e.data ++ List.replicate (256 - e.data.length) 0) 2 := by
  intro u
  have hpop : s.me.updLq q Queue.popHead = s.me.updLq q fun y => { y with entries := rest, head := y.head + 1 } := by
    simp only [Ctx.updLq, Queue.popHead, hq, List.tail_cons]
  have hu : s.updMe (fun x => x.updLq q Queue.popHead) = u := congrArg (s.setCtx s.core) hpop
  refine ⟨u.putFirst d e.data 2, ?_, rfl, putFirst_onItsWay rfl d e.data 2⟩
  rw [exec_qpop_some hg d hd (readable_head hq hr ha), hu]

/-- QPUT, by whether its queue has room. -/
theorem exec_qput (n8 b : BitVec 5) (hd : (s.me.getSq q).depth ≠ 0) : exec (.qput gd n8 q b) s = .next (
    if !(s.me.getSq q).room 1 then s.waitNow .queueFull else s.updMe fun x => x.updSq q fun y =>
      y.push { data := (s.vRead b).take (8 * (n8.toNat + 1)), ready := true, tk := x.tk }) := by
  change execQput gd n8 q b s = _
  rw [execQput, onSq_eq _ hd hg]

theorem qput_waits (n8 b : BitVec 5) (hd : (s.me.getSq q).depth ≠ 0)
    (hfull : (s.me.getSq q).depth ≤ (s.me.getSq q).entries.length) :
    ∃ t, exec (.qput gd n8 q b) s = .next t ∧ t.verdict = .waits .queueFull := by
  refine ⟨_, exec_qput hg n8 b hd, ?_⟩
  rw [room_one_full hfull]
  exact waitNow_verdict s .queueFull

theorem qput_appends (n8 b : BitVec 5) (hroom : (s.me.getSq q).entries.length + 1 ≤ (s.me.getSq q).depth) :
    ∃ t, exec (.qput gd n8 q b) s = .next t ∧ t.verdict = s.verdict ∧ SameButCore s t ∧ { t.me with sq := s.me.sq } = s.me ∧
      (∀ k, k ≠ q → t.me.getSq k = s.me.getSq k) ∧
      t.me.getSq q = { s.me.getSq q with
        entries := (s.me.getSq q).entries ++
          [{ data := (s.vRead b).take (8 * (n8.toNat + 1)), ready := true, tk := s.me.tk }]
        tail := (s.me.getSq q).tail + 1 } := by
  have hme := State.me_updMe s fun x => x.updSq q fun y =>
    y.push { data := (s.vRead b).take (8 * (n8.toNat + 1)), ready := true, tk := x.tk }
  refine ⟨_, exec_qput hg n8 b (by omega), ?_⟩
  rw [(room_one _).2 hroom]
  refine ⟨rfl, sameButCore_updMe s _, congrArg (fun x : Ctx => { x with sq := s.me.sq }) hme, fun k hk => ?_, ?_⟩
  · exact (congrArg (·.getSq k) hme).trans (Ctx.getSq_updSq_ne _ _ hk)
  · exact (congrArg (·.getSq q) hme).trans (Ctx.getSq_updSq_same ..)

end UnderGuard

theorem qpop_undeclared (d : BitVec 5) (hd : (s.me.getLq q).depth = 0) :
    ∃ t, exec (.qpop gd d q) s = .next t ∧ TrapsAtWord s t 0x01 0 0 := ⟨_, if_pos hd, trapWith_traps s 0x01 0 0⟩

theorem qput_undeclared (n8 b : BitVec 5) (hd : (s.me.getSq q).depth = 0) :
    ∃ t, exec (.qput gd n8 q b) s = .next t ∧ TrapsAtWord s t 0x01 0 0 := ⟨_, if_pos hd, trapWith_traps s 0x01 0 0⟩

end QueueOps

/-! ## Landing -/

/-- Writing listed bytes leaves every address that the list does not name. -/
theorem read_writes_of_notMem {es : List (Nat × Byte)} (m : Memory) {a : Nat} (h : a ∉ es.map (·.1)) :
    Memory.read (es.foldl (fun m e => Memory.write m e.1 e.2) m) a = Memory.read m a := by
  induction es generalizing m with
  | nil => rfl
  | cons e es ih =>
    obtain ⟨hne, hrest⟩ : a ≠ e.1 ∧ a ∉ es.map (·.1) := by simpa using h
    rw [List.foldl_cons, ih _ hrest, Memory.read_write_ne _ _ hne]

/-- Of bytes listed for addresses that differ, each reads back at its own. -/
theorem read_writes_of_mem {es : List (Nat × Byte)} (m : Memory) (hnd : (es.map (·.1)).Nodup) {e : Nat × Byte} (h : e ∈ es) :
    Memory.read (es.foldl (fun m e => Memory.write m e.1 e.2) m) e.1 = e.2 := by
  induction es generalizing m with
  | nil => cases h
  | cons e' es ih =>
    obtain ⟨hnot, hrest⟩ := List.nodup_cons.1 hnd
    rw [List.foldl_cons]
    rcases List.mem_cons.1 h with rfl | h
    · rw [read_writes_of_notMem _ hnot, Memory.read_write_same]
    · exact ih _ hrest h

theorem exec_resultLanding {s : State} {c ix : Nat} {l : Landing} (h : (s.ctx c).landings[ix]? = some l) :
    exec (.resultLanding c ix) s =
      .next (s.updCtx c fun x => { x with opfile := landOne x.opfile l, landings := x.landings.eraseIdx ix }) := by
  change execResultLanding c ix s = _
  rw [execResultLanding, h]

/-- Settles O33: QPOP and QPUT by what their queues hold, and a landing by the addresses of its bytes. -/
theorem vectorQueuesAndLanding : Obligations.VectorQueuesAndLanding := by
  refine ⟨fun gd d b n8 q s hg => ?queues, fun c ix l s hl hnd => ?landing⟩
  case queues =>
    exact ⟨fun e rest hd hq hr ha => qpop_pops hg d hd hq hr ha, fun hd hnone => qpop_waits hg d hd hnone,
      fun hd => qpop_undeclared d hd, fun hroom => qput_appends hg n8 b hroom, fun hd hfull => qput_waits hg n8 b hd hfull,
      fun hd => qput_undeclared n8 b hd⟩
  case landing =>
    have hctx := State.ctx_updCtx_same s c fun x =>
      { x with opfile := landOne x.opfile l, landings := x.landings.eraseIdx ix }
    refine ⟨_, exec_resultLanding hl, rfl, fun d hd => State.ctx_updCtx_ne s _ hd, ?_⟩
    rw [hctx]
    exact ⟨rfl, rfl, fun e he => read_writes_of_mem _ hnd he, fun o ho => read_writes_of_notMem _ ho⟩

end Sys2Proof.Machine

/-! PROOFS. The store at the head of the S access queue (O22): what it changes where it is performed, and its fault. -/

namespace Sys2Proof.Machine

/-! ## Places in tile storage and in the local memories -/

/-- A place in tile storage or in a local memory, which a store performs at its home; a host-bound one goes into the commit
buffer (R209, R234). -/
def Loc.inside : Loc → Prop
  | .panel _ _ | .lm _ _ => True
  | .host _ _ _ | .foreign _ => False

/-- The bytes among which those of a place are kept. -/
def State.bytesAt (s : State) : Loc → Memory
  | .panel _ _ => s.mem
  | .lm _ _ => s.lm
  | .host _ _ _ | .foreign _ => s.hostMem

/-- The key of the first byte of a place. -/
def State.keyAt (s : State) : Loc → Nat
  | .panel t o => s.panelKey t o
  | .lm c o => lmKey c o
  | .host _ a _ => a
  | .foreign p => p

/-- Of tile storage, the local memories and the host's memory, those in which a place does not lie are the same. -/
def SameElsewhere (s t : State) : Loc → Prop
  | .panel _ _ => t.lm = s.lm ∧ t.hostMem = s.hostMem
  | .lm _ _ => t.mem = s.mem ∧ t.hostMem = s.hostMem
  | .host _ _ _ | .foreign _ => t.mem = s.mem ∧ t.lm = s.lm

theorem sameElsewhere_trans {s t u : State} {loc : Loc} (h : SameElsewhere s t loc) (k : SameElsewhere t u loc) :
    SameElsewhere s u loc := by
  cases loc <;> exact ⟨k.1.trans h.1, k.2.trans h.2⟩

theorem sameElsewhere_shift {s t : State} {loc : Loc} {n : Nat} : SameElsewhere s t (loc.shift n) ↔ SameElsewhere s t loc := by
  cases loc <;> exact Iff.rfl

theorem inside_shift {loc : Loc} {n : Nat} (h : loc.inside) : (loc.shift n).inside := by
  cases loc <;> exact h

theorem bytesAt_shift (s : State) (loc : Loc) (n : Nat) : s.bytesAt (loc.shift n) = s.bytesAt loc := by
  cases loc <;> rfl

theorem bytesAt_congr {s t : State} (h : t.bytes = s.bytes) (loc : Loc) : t.bytesAt loc = s.bytesAt loc := by
  obtain ⟨-, hmem, hlm, hhost⟩ := (bytes_eq_iff s t).1 h
  cases loc
  · exact hmem
  · exact hlm
  · exact hhost
  · exact hhost

theorem sameElsewhere_of_bytes {s t : State} (h : t.bytes = s.bytes) (loc : Loc) : SameElsewhere s t loc := by
  obtain ⟨-, hmem, hlm, hhost⟩ := (bytes_eq_iff s t).1 h
  cases loc
  · exact ⟨hlm, hhost⟩
  · exact ⟨hmem, hhost⟩
  · exact ⟨hmem, hlm⟩
  · exact ⟨hmem, hlm⟩

/-- Where an offset of a tile is stored depends on the tile's backing and partition alone (R54). -/
theorem panelKey_updTile (s : State) (k tile off : Nat) (f : TileSt → TileSt)
    (hf : ∀ x, ((f x).noShadeBacking, (f x).part) = (x.noShadeBacking, x.part)) :
    (s.updTile k f).panelKey tile off = s.panelKey tile off := by
  have htile : (((s.updTile k f).tile tile).noShadeBacking, ((s.updTile k f).tile tile).part) =
      ((s.tile tile).noShadeBacking, (s.tile tile).part) := by
    by_cases h : tile = k
    · rw [h, State.tile_updTile_same, hf]
    · rw [State.tile_updTile_ne s f h]
  obtain ⟨hbacking, hpart⟩ := Prod.mk.injEq .. ▸ htile
  rw [State.panelKey, State.backOff, hbacking, hpart]
  rfl

/-! ## What a write does at its place -/

/-- A write has been performed at a place: its bytes stand there, the other memories, the cores and the places themselves are as
they were. -/
structure WroteLoc (s t : State) (loc : Loc) (bs : List Byte) : Prop where
  bytes : t.bytesAt loc = Memory.writeN (s.bytesAt loc) (s.keyAt loc) bs
  elsewhere : SameElsewhere s t loc
  cores : t.cores = s.cores
  keys : ∀ l, t.keyAt l = s.keyAt l

theorem writeLoc_wrote (s : State) {loc : Loc} (bs : List Byte) (h : loc.inside) : WroteLoc s (s.writeLoc loc bs) loc bs := by
  have hcores := ((crew_eq_iff s _).1 (crew_writeLoc s loc bs)).2.1
  cases loc with
  | panel t o =>
    refine ⟨?_, ⟨?_, ?_⟩, hcores, fun l => ?_⟩
    · simp only [State.writeLoc, State.bytesAt]; split <;> rfl
    · simp only [State.writeLoc]; split <;> rfl
    · simp only [State.writeLoc]; split <;> rfl
    · cases l with
      | panel t' o' =>
        simp only [State.writeLoc, State.keyAt, panelKey_fireMonitors]
        split
        · exact panelKey_updTile _ t t' o' _ fun _ => rfl
        · rfl
      | lm | host | foreign => rfl
  | lm c o =>
    refine ⟨rfl, ⟨rfl, rfl⟩, hcores, fun l => ?_⟩
    cases l with
    | panel t' o' => exact panelKey_fireMonitors ..
    | lm | host | foreign => rfl
  | host | foreign => exact h.elim

/-- What the pieces `is` of a write may leave: only bytes of theirs have changed. -/
structure WrotePieces (s t : State) (loc : Loc) (is : List Nat) : Prop where
  bytes : ∀ a, (∀ i ∈ is, a < s.keyAt (loc.shift (8 * i)) ∨ s.keyAt (loc.shift (8 * i)) + 8 ≤ a) →
    Memory.read (t.bytesAt loc) a = Memory.read (s.bytesAt loc) a
  elsewhere : SameElsewhere s t loc
  cores : t.cores = s.cores

theorem storePieces_wrote {loc : Loc} (bs : List Byte) (h : loc.inside) (is : List Nat) : ∀ s : State,
    WrotePieces s (is.foldl (fun s i => s.storeOne loc bs i) s) loc is := by
  induction is with
  | nil => exact fun s => ⟨fun _ _ => rfl, sameElsewhere_of_bytes rfl loc, rfl⟩
  | cons i is ih =>
    intro s
    have hone : WroteLoc s (s.storeOne loc bs i) (loc.shift (8 * i)) ((bs.drop (8 * i)).take 8) :=
      writeLoc_wrote s _ (inside_shift h)
    have hrest := ih (s.storeOne loc bs i)
    refine ⟨fun a ha => ?_, sameElsewhere_trans (sameElsewhere_shift.1 hone.elsewhere) hrest.elsewhere,
      hrest.cores.trans hone.cores⟩
    have hi := ha i List.mem_cons_self
    have hlen : ((bs.drop (8 * i)).take 8).length ≤ 8 := List.length_take_le ..
    calc Memory.read ((is.foldl (fun s i => s.storeOne loc bs i) (s.storeOne loc bs i)).bytesAt loc) a
        = Memory.read ((s.storeOne loc bs i).bytesAt loc) a :=
          hrest.bytes a fun j hj => by rw [hone.keys]; exact ha j (List.mem_cons_of_mem i hj)
      _ = Memory.read (s.bytesAt loc) a := by
          rw [← bytesAt_shift _ loc (8 * i), hone.bytes, Memory.read_writeN_outside _ _ _ _ (by omega), bytesAt_shift]

/-! ## A committed store is performed -/

theorem cores_clearLoc (s : State) (loc : Loc) (n : Nat) : (s.clearLoc loc n).cores = s.cores := by cases loc <;> rfl

theorem cores_writeLeft (s : State) {loc : Loc} (bs : List Byte) (todo : Option (List Nat)) (bad : Bool) (h : loc.inside) :
    (s.writeLeft loc bs todo bad).cores = s.cores := by
  have hbad (u : State) : (if bad then u.poisonLoc loc bs.length else u).cores = u.cores := by
    split
    · exact cores_poisonLoc ..
    · rfl
  cases todo with
  | none => exact (hbad _).trans (writeLoc_wrote s bs h).cores
  | some is => exact (hbad _).trans ((cores_clearLoc ..).trans (storePieces_wrote bs h is s).cores)

/-- Poison that a write brings or clears changes no byte. -/
theorem bytes_writeLeft_whole (s : State) (loc : Loc) (bs : List Byte) (bad : Bool) :
    (s.writeLeft loc bs none bad).bytes = (s.writeLoc loc bs).bytes := by
  simp [State.writeLeft]

theorem bytes_writeLeft_pieces (s : State) (loc : Loc) (bs : List Byte) (is : List Nat) (bad : Bool) :
    (s.writeLeft loc bs (some is) bad).bytes = (is.foldl (fun s i => s.storeOne loc bs i) s).bytes := by
  simp [State.writeLeft]

/-! ## An operation leaves the S access queue -/

theorem Ctx.saccess_trimLog (x : Ctx) : x.trimLog.saccess = x.saccess := by
  unfold Ctx.trimLog; split <;> simp_all

theorem cores_putOnCircuit (s : State) (c h : Nat) (bs : List Byte) : (s.putOnCircuit c h bs).cores = s.cores := rfl

/-- The machine without its flocks and barrier objects: what a change of one barrier leaves alone. -/
def State.offBars (s : State) : State := { s with flocks := [], dgrps := [] }

theorem offBars_updBar (s : State) (fl key : Nat) (h : BarInst → BarInst) : (s.updBar fl key h).offBars = s.offBars := by
  simp only [State.updBar]
  split <;> rfl

theorem cores_of_offBars {s t : State} (h : t.offBars = s.offBars) : t.cores = s.cores := (congrArg State.cores h :)

theorem cores_updBar (s : State) (fl key : Nat) (h : BarInst → BarInst) : (s.updBar fl key h).cores = s.cores :=
  cores_of_offBars (offBars_updBar s fl key h)

/-- Sends that leave change no core but for what the core still keeps back. -/
theorem ctx_flushSends (s : State) (c : Nat) : (s.flushSends c).ctx c = { s.ctx c with
    sends := (s.ctx c).sends.filter fun b => (s.ctx c).saccess.any fun a => decide (a.tk ≤ b.tk) } := by
  have hcores := foldl_keeps State.cores (fun s (b : SentBytes) => s.putOnCircuit c b.h b.bs) (fun _ _ => rfl)
  simp only [State.flushSends, State.ctx_updCtx_same, ctx_congr (hcores _ s), Bool.not_not]

theorem ctx_flushOvers (s : State) (c : Nat) : (s.flushOvers c).ctx c = { s.ctx c with
    overs := (s.ctx c).overs.filter fun o => (s.ctx c).saccess.any fun a => decide (a.tk ≤ o.1) } := by
  have hcores := foldl_keeps State.cores
    (fun u (o : Nat × Nat × Nat) => u.updBar ((s.ctx c).flock.getD 0) o.2.1 fun b => b.markError o.2.2 0x16)
    (fun _ _ => cores_updBar ..)
  simp only [State.flushOvers, State.ctx_updCtx_same, ctx_congr (hcores _ s), Bool.not_not]

theorem saccess_leftQueue (s : State) (c : Nat) (f : Ctx → Ctx) :
    ((s.leftQueue c f).ctx c).saccess = (f (s.ctx c)).saccess := by
  rw [State.leftQueue, ctx_flushOvers, ctx_flushSends, ctx_onCore_same]
  exact Ctx.saccess_trimLog _

/-- The core without the store at the head of its S access queue. -/
def State.dropStore (s : State) (c : Nat) (rest : List SAccess) : State := s.updCtx c fun x => { x with saccess := rest }

/-- A store that is performed at its place leaves the queue, and what it changes in the memories is what is left of its
write. -/
theorem performStore_inside {s : State} {c : Nat} {a : SAccess} {loc : Loc} {bs : List Byte} (rest : List SAccess)
    (h : loc.inside) (harm : s.armBefore c a.tk loc bs.length = false) :
    (s.performStore c a rest loc bs none).bytes = ((s.dropStore c rest).writeLeft loc bs a.todo a.bad).bytes ∧
      ((s.performStore c a rest loc bs none).ctx c).saccess = rest := by
  have hcommit : (s.dropStore c rest).commitStore c a loc bs = (s.dropStore c rest).writeLeft loc bs a.todo a.bad := by
    cases loc with
    | panel | lm => rfl
    | host | foreign => exact h.elim
  have ht : s.performStore c a rest loc bs none = ((s.dropStore c rest).writeLeft loc bs a.todo a.bad).leftQueue c id := by
    rw [← hcommit]
    exact if_neg (by simp [harm])
  rw [ht, saccess_leftQueue, ctx_congr (cores_writeLeft _ _ _ _ h), State.dropStore, State.ctx_updCtx_same]
  exact ⟨bytes_leftQueue .., rfl⟩

section StoreHead

variable {s : State} {c : Nat} {e : SAccess} {rest : List SAccess} (hq : (s.ctx c).saccess = e :: rest)

include hq

theorem exec_sAccessComplete_write {loc : Loc} {bs : List Byte} (hdone : s.sDone c e = .write loc bs none) :
    exec (.sAccessComplete c) s = .next (s.performStore c e rest loc bs none) := by
  change execSAccessComplete c s = _
  simp only [execSAccessComplete, hq, hdone]

theorem exec_sAccessComplete_fail {cause : Cause} {addr : W64} (hdone : s.sDone c e = .fail cause addr) :
    exec (.sAccessComplete c) s = .next (s.faultS c e cause addr) := by
  change execSAccessComplete c s = _
  simp only [execSAccessComplete, hq, hdone]

section Performed

variable {loc : Loc} {bs : List Byte} (hdone : s.sDone c e = .write loc bs none)
  (harm : s.armBefore c e.tk loc bs.length = false) (h : loc.inside)

include hdone harm h

/-- A store of which no piece has gone ahead puts its bytes at its place and changes no other byte (R208, R209). -/
theorem sAccessComplete_whole (htodo : e.todo = none) : ∃ t, exec (.sAccessComplete c) s = .next t ∧
    (t.ctx c).saccess = rest ∧ Memory.readN (t.bytesAt loc) (s.keyAt loc) bs.length = bs ∧
    (∀ a, (a < s.keyAt loc ∨ s.keyAt loc + bs.length ≤ a) → Memory.read (t.bytesAt loc) a = Memory.read (s.bytesAt loc) a) ∧
    SameElsewhere s t loc := by
  obtain ⟨hbytes, hsacc⟩ := performStore_inside rest h harm
  rw [htodo, bytes_writeLeft_whole] at hbytes
  have hwrote := writeLoc_wrote (s.dropStore c rest) bs h
  have hmem : (s.performStore c e rest loc bs none).bytesAt loc = Memory.writeN (s.bytesAt loc) (s.keyAt loc) bs :=
    (bytesAt_congr hbytes loc).trans hwrote.bytes
  refine ⟨_, exec_sAccessComplete_write hq hdone, hsacc, ?_, fun a ha => ?_, ?_⟩
  · rw [hmem, Memory.readN_writeN]
  · rw [hmem, Memory.read_writeN_outside _ _ _ _ ha]
  · exact sameElsewhere_trans hwrote.elsewhere (sameElsewhere_of_bytes hbytes loc)

/-- A store some of whose pieces have gone ahead changes bytes of the pieces that are left alone (R74). -/
theorem sAccessComplete_pieces {is : List Nat} (htodo : e.todo = some is) : ∃ t, exec (.sAccessComplete c) s = .next t ∧
    (t.ctx c).saccess = rest ∧
    (∀ a, (∀ i ∈ is, a < s.keyAt (loc.shift (8 * i)) ∨ s.keyAt (loc.shift (8 * i)) + 8 ≤ a) →
      Memory.read (t.bytesAt loc) a = Memory.read (s.bytesAt loc) a) ∧
    SameElsewhere s t loc := by
  obtain ⟨hbytes, hsacc⟩ := performStore_inside rest h harm
  rw [htodo, bytes_writeLeft_pieces] at hbytes
  have hwrote := storePieces_wrote bs h is (s.dropStore c rest)
  refine ⟨_, exec_sAccessComplete_write hq hdone, hsacc, fun a ha => ?_, ?_⟩
  · rw [bytesAt_congr hbytes]
    exact hwrote.bytes a ha
  · exact sameElsewhere_trans hwrote.elsewhere (sameElsewhere_of_bytes hbytes loc)

end Performed

end StoreHead

/-! ## A store that fails -/

theorem trap_undoNote (s : State) (c : Nat) (u : SUndo) : ((s.undoNote c u).ctx c).trap = (s.ctx c).trap := by
  cases u with
  | waited key w => exact congrArg Ctx.trap (ctx_congr (cores_updBar ..) c)
  | sq | f1 | f2 | f3 | awp | vartab => exact ctx_updCtx_proj Ctx.trap s c c _ fun _ => rfl

theorem trap_undoNotes (c : Nat) (notes : List (Nat × SUndo)) (s : State) :
    ((notes.foldr (fun e s => s.undoNote c e.2) s).ctx c).trap = (s.ctx c).trap := by
  induction notes with
  | nil => rfl
  | cons e notes ih => rw [List.foldr_cons, trap_undoNote, ih]

theorem trap_takeBack (s : State) (c tk : Nat) : ((s.takeBack c tk).ctx c).trap = (s.ctx c).trap := by
  rw [State.takeBack, ctx_updCtx_proj Ctx.trap _ c c _ (by intro x; rfl)]
  refine congrArg Ctx.trap (ctx_congr ?_ c)
  refine (foldl_keeps State.cores _ (fun u e => ?_) _ _).trans (foldl_keeps State.cores _ (fun u a => cores_updBar ..) _ _)
  split
  · rfl
  · exact cores_updBar ..

/-- The cut before a store leaves its queue empty and takes no trap. -/
theorem ctx_withdrawS (s : State) (c : Nat) (a : SAccess) :
    ((s.withdrawS c a).ctx c).saccess = [] ∧ ((s.withdrawS c a).ctx c).trap = (s.ctx c).trap := by
  rw [State.withdrawS, State.ctx_updCtx_same]
  exact ⟨rfl, (trap_takeBack ..).trans (trap_undoNotes ..)⟩

theorem faultS_traps {s : State} {c : Nat} {a : SAccess} (cause : Cause) (addr : W64) (hcut : (s.ctx c).scut = false)
    (htrap : (s.ctx c).trap = none) : ((s.faultS c a cause addr).ctx c).saccess = [] ∧
      ((s.faultS c a cause addr).ctx c).trap = some { cause, stream := .s, code := 0, addr, seq := a.seq, syl := a.syl } := by
  obtain ⟨hsacc, hnone⟩ := ctx_withdrawS s c a
  have ht : s.faultS c a cause addr = takeTrap (s.withdrawS c a) c .s cause 0 addr a.seq a.syl := by
    rw [State.faultS, hcut, if_neg Bool.false_ne_true]
  rw [ht, ctx_takeTrap, hnone, htrap]
  exact ⟨hsacc, rfl⟩

/-! ## What the head of the queue is to do -/

section StoreDone

variable {s : State} {c : Nat} {e : SAccess} {addr : W64} {bs : List Byte}

theorem sDone_glob {loc : Loc} (hk : e.kind = .glob addr bs) (hs : e.status = .held [loc]) :
    s.sDone c e = .write loc bs none := by
  simp only [State.sDone, hk, hs]

theorem sDone_loc (hk : e.kind = .loc addr bs) (hs : e.status = .sent) : s.sDone c e =
    if s.lmOk c addr.toNat bs.length then .write (.lm c addr.toNat) bs none else .fail 0x22 addr := by
  simp only [State.sDone, hk, hs]

end StoreDone

/-- Settles O22: a store performed at its place, in tile storage and in a local memory, and one beyond the declared bytes. -/
theorem storesWriteTheirBytesAndNoOther : Obligations.StoresWriteTheirBytesAndNoOther := by
  intro c s e rest hq
  refine ⟨fun addr bs tile off hk hs harm => ?panel, fun addr bs hk hs hok harm => ?lm, fun addr bs hk hs hok hcut htrap => ?beyond⟩
  case panel =>
    have hdone : s.sDone c e = _ := sDone_glob hk hs
    exact ⟨sAccessComplete_whole hq hdone harm trivial, fun is => sAccessComplete_pieces hq hdone harm trivial⟩
  case lm =>
    have hdone : s.sDone c e = _ := (sDone_loc hk hs).trans (if_pos hok)
    refine ⟨sAccessComplete_whole hq hdone harm trivial, fun is htodo => ?_⟩
    obtain ⟨t, ht, hsacc, hframe, helse⟩ := sAccessComplete_pieces hq hdone harm trivial htodo
    refine ⟨t, ht, hsacc, fun a ha => hframe a fun i hi => ?_, helse⟩
    rw [Loc.shift, State.keyAt, lmKey, ← Nat.add_assoc]
    exact ha i hi
  case beyond =>
    have hdone : s.sDone c e = _ := (sDone_loc hk hs).trans (if_neg (by simp [hok]))
    obtain ⟨-, hmem, hlm, hhost⟩ := (bytes_eq_iff s _).1 (bytes_faultS s c e 0x22 addr)
    obtain ⟨hsacc, hrecord⟩ := faultS_traps (a := e) 0x22 addr hcut htrap
    exact ⟨_, exec_sAccessComplete_fail hq hdone, hsacc, hmem, hlm, hhost, hrecord⟩

end Sys2Proof.Machine

/-! PROOFS. Stores enter the S access queue (O21): from a register, from an sq entry, and with a flag. -/

namespace Sys2Proof.Machine

/-! ## The registers of the stream at work -/

/-- The core and the stream at work are those of the focus. -/
theorem core_of_focus {s t : State} (h : t.focus = s.focus) : t.core = s.core := by rw [State.core, h]; rfl

theorem stream_of_focus {s t : State} (h : t.focus = s.focus) : t.stream = s.stream := by rw [State.stream, h]; rfl

/-- The registers of the stream at work read as before. -/
def SameRegs (s t : State) : Prop := (∀ i, t.gNow i = s.gNow i) ∧ ∀ i, t.pNow i = s.pNow i

theorem sameRegs_of_stream {s t : State} (hst : t.stream = s.stream) (h : t.me.stream s.stream = s.me.stream s.stream) :
    SameRegs s t := by
  refine ⟨fun i => ?_, fun i => ?_⟩
  · rw [State.gNow, hst, h]; rfl
  · rw [State.pNow, hst, h]; rfl

/-- A context of which only queues, the S access queue and request numbers differ has the same streams. -/
theorem stream_of_streams {x y : Ctx} (hl : y.l = x.l) (hc : y.c = x.c) (hs : y.s = x.s) (st : StreamId) :
    y.stream st = x.stream st := by
  cases st
  · exact hl
  · exact hc
  · exact hs

/-! ## The entry that a queue form takes -/

/-- The state in which a store enters the access queue: the one at its issue, or that without the sq entry of its bytes. -/
structure Issues (s u : State) : Prop where
  core : SameButCore s u
  me : { u.me with sq := s.me.sq, slog := s.me.slog } = s.me

theorem Issues.refl (s : State) : Issues s s := ⟨SameButCore.refl s, rfl⟩

theorem issues_popSq (s : State) (q : BitVec 3) (e : QEntry) : Issues s (s.popSq q e) :=
  ⟨sameButCore_updMe s _, by rw [State.popSq, State.me_updMe]; rfl⟩

namespace Issues

variable {s u : State} (h : Issues s u)

include h

theorem focus : u.focus = s.focus := (congrArg State.focus h.core.1 :)
theorem verdict : u.verdict = s.verdict := (congrArg State.verdict h.core.1 :)
theorem reqs : u.reqs = s.reqs := (congrArg State.reqs h.core.1 :)
theorem core_eq : u.core = s.core := core_of_focus h.focus
theorem stream_eq : u.stream = s.stream := stream_of_focus h.focus
theorem saccess : u.me.saccess = s.me.saccess := (congrArg Ctx.saccess h.me :)
theorem tk : u.me.tk = s.me.tk := (congrArg Ctx.tk h.me :)
theorem seqno : u.me.seqno = s.me.seqno := (congrArg Ctx.seqno h.me :)

theorem sameStream (st : StreamId) : u.me.stream st = s.me.stream st :=
  stream_of_streams (congrArg Ctx.l h.me :) (congrArg Ctx.c h.me :) (congrArg Ctx.s h.me :) st

end Issues

/-! ## A store in the access queue -/

/-- A store has entered the access queue and sent this request, or none, and neither a register nor anything outside its core
has changed. -/
def SentStore (s t : State) (kind : SKind) (op : Option (W64 × ReqOp)) : Prop :=
  t.verdict = s.verdict ∧
    (∃ x, t.me.saccess = s.me.saccess ++ [x] ∧ x.kind = kind ∧ x.status = .sent ∧ x.tk = s.me.tk) ∧
    (match op with
      | none => t.reqs = s.reqs
      | some (addr, op) => ∃ r, t.reqs = s.reqs ++ [r] ∧ r.addr = addr ∧ r.op = op ∧ r.num = s.me.seqno ∧ r.core = s.core) ∧
    { t with cores := s.cores, reqs := s.reqs } = s ∧ (∀ c, c ≠ s.core → t.ctx c = s.ctx c) ∧
    (∀ i, t.gNow i = s.gNow i) ∧ (∀ i, t.pNow i = s.pNow i)

theorem ctx_sendReq_ne (s : State) {c k : Nat} (tk : Nat) (lstream : Bool) (addr : W64) (op : ReqOp) (h : k ≠ c) :
    (s.sendReq c tk lstream addr op).ctx k = s.ctx k := by
  unfold State.sendReq
  dsimp only
  split
  · rfl
  · exact State.ctx_updCtx_ne _ _ h

/-- A store enters the access queue and its request leaves for its home. -/
def State.pushSent (u : State) (kind : SKind) (addr : W64) (op : ReqOp) : State :=
  (u.pushS kind .sent).sendReq u.core u.me.tk false addr op

theorem me_pushSent (u : State) (kind : SKind) (addr : W64) (op : ReqOp) : (u.pushSent kind addr op).me =
    { (u.pushS kind .sent).me with
      seqno := (u.pushS kind .sent).me.seqno + 1
      unanswered := (u.pushS kind .sent).me.unanswered ++ [(u.pushS kind .sent).me.seqno] } :=
  ctx_sendReq_numbered (u.pushS kind .sent) u.core u.me.tk addr op

section Entering

variable {s u : State} (hu : Issues s u)

include hu

theorem saccess_pushS (kind : SKind) (status : AccStatus) :
    (u.pushS kind status).me.saccess = s.me.saccess ++ [{ tk := s.me.tk, kind := kind, status := status }] := by
  rw [State.me_pushS, ← hu.saccess, ← hu.tk]
  rfl

theorem stream_pushS (kind : SKind) (status : AccStatus) (st : StreamId) :
    (u.pushS kind status).me.stream st = s.me.stream st := by
  rw [State.me_pushS, ← hu.sameStream st]
  cases st <;> rfl

theorem ctx_pushS_ne (kind : SKind) (status : AccStatus) {c : Nat} (hc : c ≠ s.core) :
    (u.pushS kind status).ctx c = s.ctx c :=
  (State.ctx_updMe_ne u _ (hu.core_eq ▸ hc)).trans (hu.core.2 c hc)

/-- A store of local memory stays on its core. -/
theorem sentStore_local (kind : SKind) : SentStore s (u.pushS kind .sent) kind none := by
  obtain ⟨hg, hp⟩ := sameRegs_of_stream (t := u.pushS kind .sent) hu.stream_eq (stream_pushS hu kind .sent s.stream)
  exact ⟨hu.verdict, ⟨_, saccess_pushS hu kind .sent, rfl, rfl, rfl⟩, hu.reqs,
    (congrArg (fun v : State => { v with reqs := s.reqs }) hu.core.1 :), fun c hc => ctx_pushS_ne hu kind .sent hc, hg, hp⟩

/-- A global store sends its request under the core's next number. -/
theorem sentStore_global (kind : SKind) (addr : W64) (op : ReqOp) :
    SentStore s (u.pushSent kind addr op) kind (some (addr, op)) := by
  obtain ⟨r, hreqs, hcore, haddr, hop, hnum, -⟩ := sendReq_sentBy (u.pushS kind .sent) u.core u.me.tk addr op
  have hme := me_pushSent u kind addr op
  have hpush : (u.pushS kind .sent).ctx u.core = _ := State.me_pushS u kind .sent
  have hnumber : r.num = s.me.seqno := by rw [hnum, hpush, ← hu.seqno]
  have hstream : (u.pushSent kind addr op).me.stream s.stream = s.me.stream s.stream := by
    rw [hme, ← stream_pushS hu kind .sent s.stream]
    exact stream_of_streams rfl rfl rfl _
  obtain ⟨hg, hp⟩ := sameRegs_of_stream (t := u.pushSent kind addr op) hu.stream_eq hstream
  refine ⟨hu.verdict, ⟨{ tk := s.me.tk, kind := kind, status := .sent }, ?_, rfl, rfl, rfl⟩,
    ⟨r, hreqs.trans (congrArg (· ++ [r]) hu.reqs), haddr, hop, hnumber, hcore.trans hu.core_eq⟩,
    (congrArg (fun v : State => { v with reqs := s.reqs }) hu.core.1 :), fun c hc => ?_, hg, hp⟩
  · rw [hme]
    exact saccess_pushS hu kind .sent
  · exact (ctx_sendReq_ne _ _ _ _ _ (hu.core_eq ▸ hc)).trans (ctx_pushS_ne hu kind .sent hc)

end Entering

/-! ## Why a store waits at its issue -/

/-- The commit buffer has room for a store to an address, and for a second host-bound write beside it (R234). -/
def Ctx.admits (x : Ctx) (a : W64) : Prop :=
  inHostWindow a = true → x.commit.length + (x.saccess.map SAccess.hostBound).sum + 2 ≤ 8

theorem admits_of_beyond (x : Ctx) {a : W64} (h : 2 ^ 56 ≤ a.toNat) : x.admits a := by
  simp [Ctx.admits, inHostWindow, (beyondGlobal_iff a).2 h]

theorem admits_of_panel {x : Ctx} {a : W64}
    (h : panelOf a.toNat = 0xFF → x.commit.length + (x.saccess.map SAccess.hostBound).sum + 2 ≤ 8) : x.admits a := by
  intro hhost
  simp only [inHostWindow, Bool.and_eq_true, beq_iff_eq] at hhost
  exact h hhost.2

theorem storeWait_none {s : State} {lm : Bool} {as : List W64} (hacc : s.me.saccess.length < 32)
    (hun : s.me.unanswered.length < 64) (hlen : as.length ≤ 2) (has : lm = false → ∀ a ∈ as, s.me.admits a) :
    s.storeWait lm as = none := by
  have hfull : s.me.sFull = false := decide_eq_false (Nat.not_le.2 hacc)
  cases lm with
  | true => simp [State.storeWait, hfull]
  | false =>
    have hroom : ¬(as.countP inHostWindow ≠ 0 ∧ s.me.commitFull (as.countP inHostWindow) = true) := by
      rintro ⟨hhost, hcommit⟩
      obtain ⟨a, ha, hin⟩ := List.countP_pos_iff.1 (Nat.pos_of_ne_zero hhost)
      have hroom := has rfl a ha hin
      have hcount : as.countP inHostWindow ≤ as.length := List.countP_le_length
      have hover : 8 < s.me.commit.length + (s.me.saccess.map SAccess.hostBound).sum + as.countP inHostWindow :=
        of_decide_eq_true hcommit
      omega
    simp only [State.storeWait, hfull, (s.me.canSend_iff).2 hun, if_neg hroom]
    rfl

theorem storeWait_one {s : State} {lm : Bool} {a : W64} (hacc : s.me.saccess.length < 32)
    (hun : s.me.unanswered.length < 64) (ha : lm = false → s.me.admits a) : s.storeWait lm [a] = none :=
  storeWait_none hacc hun (Nat.le_succ 1) fun hlm => List.forall_mem_singleton.2 (ha hlm)

/-! ## Stores from a register -/

theorem pushStore_inside {a : W64} (u : State) (bs : List Byte) (h : a.toNat < 2 ^ 56) :
    u.pushStore false a bs = u.pushSent (.glob a bs) a (.store bs) := by
  rw [State.pushStore, if_neg Bool.false_ne_true, if_neg fun hb => Nat.not_le.2 h ((beyondGlobal_iff a).1 hb)]
  rfl

theorem pushStore_beyond {a : W64} (u : State) (bs : List Byte) (h : 2 ^ 56 ≤ a.toNat) :
    u.pushStore false a bs = u.pushS (.glob a bs) (.fail 0x27 a) := by
  rw [State.pushStore, if_neg Bool.false_ne_true, if_pos ((beyondGlobal_iff a).2 h)]

/-- A store beyond the global space enters as one that has failed, and sends nothing (R209, R212). -/
def FailedStore (s t : State) (kind : SKind) (a : W64) : Prop :=
  t.verdict = s.verdict ∧
    t.me.saccess = s.me.saccess ++ [({ tk := s.me.tk, kind := kind, status := .fail 0x27 a } : SAccess)] ∧ t.reqs = s.reqs

theorem failedStore_pushStore {s u : State} (hu : Issues s u) {a : W64} (bs : List Byte) (h : 2 ^ 56 ≤ a.toNat) :
    FailedStore s (u.pushStore false a bs) (.glob a bs) a := by
  rw [pushStore_beyond u bs h]
  exact ⟨hu.verdict, saccess_pushS hu _ _, hu.reqs⟩

theorem storeReg_misaligned (s : State) (lm : Bool) (b : BitVec 5) {a : W64} {sz : BitVec 2} (h : a.toNat % 2 ^ sz.toNat ≠ 0) :
    s.storeReg lm b a sz = s.trapWith 0x02 0 a := if_pos h

theorem storeReg_enters {s : State} {lm : Bool} (b : BitVec 5) {a : W64} {sz : BitVec 2} (h : a.toNat % 2 ^ sz.toNat = 0)
    (hw : s.storeWait lm [a] = none) :
    s.storeReg lm b a sz = s.pushStore lm a ((wordLE (s.rg b)).take (2 ^ sz.toNat)) := by
  rw [State.storeReg, szBytes, if_neg (not_not_intro h), hw]

/-! ## Stores from an sq entry -/

/-- Whether `n` bytes at an address are aligned to 8 and lie in one aligned 256-byte block (R212). -/
def FitsBlock (n : Nat) (a : W64) : Prop := a.toNat % 8 = 0 ∧ a.toNat / 256 = (a.toNat + n - 1) / 256

section SqEntry

variable {s : State} {q : BitVec 3} {n : Nat} {a : W64}

theorem sqEntry_empty (h : (s.me.getSq q).entries = []) : s.sqEntry q n a = .error (.inl .queueEmpty) := by
  rw [State.sqEntry, h]

variable {x : QEntry} {rest : List QEntry} (hq : (s.me.getSq q).entries = x :: rest)

include hq

theorem sqEntry_size (hn : x.data.length ≠ n) : s.sqEntry q n a = .error (.inr 0x07) := by
  simp only [State.sqEntry, hq, if_pos hn]

theorem sqEntry_misaligned (hn : x.data.length = n) (h : a.toNat % 8 ≠ 0 ∨ a.toNat / 256 ≠ (a.toNat + n - 1) / 256) :
    s.sqEntry q n a = .error (.inr 0x02) := by
  simp only [State.sqEntry, hq, if_neg (not_not_intro hn)]
  exact if_pos (by simpa [oneBlock] using h)

theorem sqEntry_fits (hn : x.data.length = n) (h : FitsBlock n a) : s.sqEntry q n a = .ok x := by
  simp only [State.sqEntry, hq, if_neg (not_not_intro hn)]
  exact if_neg (by simpa [oneBlock, FitsBlock] using h)

theorem entries_popSq : ((s.popSq q x).me.getSq q).entries = rest := by
  have hme : (s.popSq q x).me = (s.me.updSq q Queue.popHead).note (.sq q x) := State.me_updMe _ _
  rw [hme]
  change ((s.me.updSq q Queue.popHead).getSq q).entries = rest
  rw [Ctx.getSq_updSq_same, Queue.popHead, hq]
  rfl

end SqEntry

theorem getSq_pushS (u : State) (q : BitVec 3) (kind : SKind) (status : AccStatus) :
    (u.pushS kind status).me.getSq q = u.me.getSq q := by
  rw [State.me_pushS]
  rfl

theorem getSq_pushSent (u : State) (q : BitVec 3) (kind : SKind) (addr : W64) (op : ReqOp) :
    (u.pushSent kind addr op).me.getSq q = u.me.getSq q := by
  rw [me_pushSent, ← getSq_pushS u q kind .sent]
  rfl

/-- A queue form that goes on to `v` does what its refused entry asks for. -/
def MeetsEntry (s : State) (q : BitVec 3) (n : Nat) (a : W64) (v : State) : Prop :=
  ∀ m, s.sqEntry q n a = .error m → v = s.meet a m

theorem storeEntry_meets (s : State) (lm : Bool) (q : BitVec 3) (a : W64) (e : BitVec 5) :
    MeetsEntry s q (8 * (e.toNat + 1)) a (s.storeEntry lm q a e) := by
  intro m hm
  simp only [State.storeEntry, entryBytes, hm]

theorem storeFlag_meets (s : State) (q : BitVec 3) (a : W64) (f e : BitVec 5) (sc : Scope) :
    MeetsEntry s q (8 * (e.toNat + 1)) a (s.storeFlag q a f e sc) := by
  intro m hm
  by_cases hf : f = 0
  · rw [State.storeFlag, if_pos hf]
    exact storeEntry_meets s false q a e m hm
  · simp only [State.storeFlag, if_neg hf, entryBytes, hm]

/-- The queue form of a store raises 0x01 on a queue of depth 0, waits for an entry, and raises 0x07 for one of another size,
and then 0x02 (R19, R117, R212). -/
def QueueRefuses (s : State) (i : Instr) (q : BitVec 3) (n : Nat) (a : W64) : Prop :=
  ((s.me.getSq q).depth = 0 → ∃ t, exec i s = .next t ∧ TrapsAtWord s t 0x01 0 0) ∧
    ((s.me.getSq q).depth ≠ 0 → (s.me.getSq q).entries = [] → ∃ t, exec i s = .next t ∧ t.verdict = .waits .queueEmpty) ∧
    ∀ x rest, (s.me.getSq q).depth ≠ 0 → (s.me.getSq q).entries = x :: rest →
      (x.data.length ≠ n → ∃ t, exec i s = .next t ∧ TrapsAtWord s t 0x07 0 0) ∧
      (x.data.length = n → (a.toNat % 8 ≠ 0 ∨ a.toNat / 256 ≠ (a.toNat + n - 1) / 256) →
        ∃ t, exec i s = .next t ∧ TrapsAtWord s t 0x02 0 a)

theorem queueRefuses_of {s : State} {gd : Guard} {i : Instr} {q : BitVec 3} {n : Nat} {a : W64} {f : State → State}
    (hg : guardOk gd s = true) (hexec : exec i s = s.onSq q gd f) (hf : MeetsEntry s q n a (f s)) : QueueRefuses s i q n a := by
  refine ⟨fun hd => ⟨_, hexec.trans (if_pos hd), trapWith_traps s 0x01 0 0⟩, fun hd hq => ?_, fun x rest hd hq => ?_⟩
  · exact ⟨_, hexec.trans (onSq_eq f hd hg), by rw [hf _ (sqEntry_empty hq)]; rfl⟩
  · refine ⟨fun hn => ⟨_, hexec.trans (onSq_eq f hd hg), ?_⟩, fun hn ha => ⟨_, hexec.trans (onSq_eq f hd hg), ?_⟩⟩
    · rw [hf _ (sqEntry_size hq hn)]
      exact trapWith_traps s 0x07 0 0
    · rw [hf _ (sqEntry_misaligned hq hn ha)]
      exact trapWith_traps s 0x02 0 a

/-! ## What the queue forms enter -/

section QueueForm

variable {s : State} {q : BitVec 3} {e : BitVec 5} {a : W64} {x : QEntry} {rest : List QEntry}
  (hq : (s.me.getSq q).entries = x :: rest) (hn : x.data.length = 8 * (e.toNat + 1)) (hfit : FitsBlock (8 * (e.toNat + 1)) a)

include hq hn hfit

theorem storeEntry_enters {lm : Bool} (hw : s.storeWait lm [a] = none) :
    s.storeEntry lm q a e = (s.popSq q x).pushStore lm a x.data := by
  simp only [State.storeEntry, entryBytes, sqEntry_fits hq hn hfit, hw]

theorem storeFlag_enters {f : BitVec 5} (sc : Scope) (hf : f ≠ 0) (hal : (s.rg f).toNat % 8 = 0)
    (hw : s.storeWait false [a, s.rg f] = none) :
    s.storeFlag q a f e sc = (s.popSq q x).pushStr a x.data (s.rg f) sc := by
  simp only [State.storeFlag, if_neg hf, entryBytes, sqEntry_fits hq hn hfit, if_neg (not_not_intro hal), hw]

theorem storeFlag_misaligned {f : BitVec 5} (sc : Scope) (hf : f ≠ 0) (hal : (s.rg f).toNat % 8 ≠ 0) :
    s.storeFlag q a f e sc = s.trapWith 0x02 0 (s.rg f) := by
  simp only [State.storeFlag, if_neg hf, entryBytes, sqEntry_fits hq hn hfit, if_pos hal]

end QueueForm

theorem storeFlag_zero (s : State) (q : BitVec 3) (a : W64) (e : BitVec 5) (sc : Scope) :
    s.storeFlag q a 0 e sc = s.storeEntry false q a e := if_pos rfl

theorem pushStr_inside {a flag : W64} (u : State) (bs : List Byte) (sc : Scope) (ha : a.toNat < 2 ^ 56)
    (hf : flag.toNat < 2 ^ 56) : u.pushStr a bs flag sc = u.pushSent (.str a bs flag sc) a (.str bs flag) := by
  rw [State.pushStr, if_neg fun hb => Nat.not_le.2 ha ((beyondGlobal_iff a).1 hb),
    if_neg fun hb => Nat.not_le.2 hf ((beyondGlobal_iff flag).1 hb)]
  rfl

/-! ## What each form enters -/

section Forms

variable {s : State} {i : Instr} (hacc : s.me.saccess.length < 32) (hun : s.me.unanswered.length < 64)

include hacc hun

section RegForm

variable {b : BitVec 5} {sz : BitVec 2} {a : W64} (hal : a.toNat % 2 ^ sz.toNat = 0)

include hal

theorem regForm_local (hexec : exec i s = .next (s.storeReg true b a sz)) :
    ∃ t, exec i s = .next t ∧ SentStore s t (.loc a ((wordLE (s.rg b)).take (2 ^ sz.toNat))) none := by
  rw [storeReg_enters b hal (storeWait_one (lm := true) hacc hun fun h => nomatch h)] at hexec
  exact ⟨_, hexec, sentStore_local (Issues.refl s) _⟩

variable (hexec : exec i s = .next (s.storeReg false b a sz))

include hexec

theorem regForm_global (hin : a.toNat < 2 ^ 56) (hroom : s.me.admits a) :
    let datum := (wordLE (s.rg b)).take (2 ^ sz.toNat)
    ∃ t, exec i s = .next t ∧ SentStore s t (.glob a datum) (some (a, .store datum)) := by
  rw [storeReg_enters b hal (storeWait_one hacc hun fun _ => hroom), pushStore_inside s _ hin] at hexec
  exact ⟨_, hexec, sentStore_global (Issues.refl s) ..⟩

theorem regForm_beyond (hout : 2 ^ 56 ≤ a.toNat) :
    ∃ t, exec i s = .next t ∧ FailedStore s t (.glob a ((wordLE (s.rg b)).take (2 ^ sz.toNat))) a := by
  rw [storeReg_enters b hal (storeWait_one hacc hun fun _ => admits_of_beyond _ hout)] at hexec
  exact ⟨_, hexec, failedStore_pushStore (Issues.refl s) _ hout⟩

end RegForm

section EntryForm

variable {q : BitVec 3} {e : BitVec 5} {a : W64} {x : QEntry} {rest : List QEntry}
  (hq : (s.me.getSq q).entries = x :: rest) (hn : x.data.length = 8 * (e.toNat + 1)) (hfit : FitsBlock (8 * (e.toNat + 1)) a)

include hq hn hfit

theorem entryForm_local (hexec : exec i s = .next (s.storeEntry true q a e)) :
    ∃ t, exec i s = .next t ∧ SentStore s t (.loc a x.data) none ∧ (t.me.getSq q).entries = rest := by
  rw [storeEntry_enters hq hn hfit (storeWait_one (lm := true) hacc hun fun h => nomatch h)] at hexec
  exact ⟨_, hexec, sentStore_local (issues_popSq s q x) _, (congrArg Queue.entries (getSq_pushS ..)).trans (entries_popSq hq)⟩

variable (hexec : exec i s = .next (s.storeEntry false q a e))

include hexec

theorem entryForm_global (hin : a.toNat < 2 ^ 56) (hroom : s.me.admits a) :
    ∃ t, exec i s = .next t ∧ SentStore s t (.glob a x.data) (some (a, .store x.data)) ∧ (t.me.getSq q).entries = rest := by
  rw [storeEntry_enters hq hn hfit (storeWait_one hacc hun fun _ => hroom), pushStore_inside _ _ hin] at hexec
  exact ⟨_, hexec, sentStore_global (issues_popSq s q x) .., (congrArg Queue.entries (getSq_pushSent ..)).trans (entries_popSq hq)⟩

theorem entryForm_beyond (hout : 2 ^ 56 ≤ a.toNat) : ∃ t, exec i s = .next t ∧ FailedStore s t (.glob a x.data) a := by
  rw [storeEntry_enters hq hn hfit (storeWait_one hacc hun fun _ => admits_of_beyond _ hout)] at hexec
  exact ⟨_, hexec, failedStore_pushStore (issues_popSq s q x) _ hout⟩

end EntryForm

section FlagForm

variable {q : BitVec 3} {f e : BitVec 5} {a : W64} {sc : Scope} {x : QEntry} {rest : List QEntry}
  (hexec : exec i s = .next (s.storeFlag q a f e sc)) (hq : (s.me.getSq q).entries = x :: rest)
  (hn : x.data.length = 8 * (e.toNat + 1)) (hfit : FitsBlock (8 * (e.toNat + 1)) a) (hf : f ≠ 0)

include hexec hq hn hfit hf

theorem flagForm_sent (hal : (s.rg f).toNat % 8 = 0) (hin : a.toNat < 2 ^ 56) (hroom : s.me.admits a)
    (hfin : (s.rg f).toNat < 2 ^ 56) (hfroom : s.me.admits (s.rg f)) :
    ∃ t, exec i s = .next t ∧ SentStore s t (.str a x.data (s.rg f) sc) (some (a, .str x.data (s.rg f))) ∧
      (t.me.getSq q).entries = rest := by
  have hw : s.storeWait false [a, s.rg f] = none := storeWait_none hacc hun le_rfl fun _ => by simp [hroom, hfroom]
  rw [storeFlag_enters hq hn hfit sc hf hal hw, pushStr_inside _ _ _ hin hfin] at hexec
  exact ⟨_, hexec, sentStore_global (issues_popSq s q x) .., (congrArg Queue.entries (getSq_pushSent ..)).trans (entries_popSq hq)⟩

omit hacc hun in
theorem flagForm_misaligned (hal : (s.rg f).toNat % 8 ≠ 0) : ∃ t, exec i s = .next t ∧ TrapsAtWord s t 0x02 0 (s.rg f) := by
  rw [storeFlag_misaligned hq hn hfit sc hf hal] at hexec
  exact ⟨_, hexec, trapWith_traps s 0x02 0 (s.rg f)⟩

end FlagForm

end Forms

/-- Two things said of one next state, said one by one. -/
theorem next_both {r : Result} {P Q : State → Prop} (h : ∃ t, r = .next t ∧ P t ∧ Q t) :
    (∃ t, r = .next t ∧ P t) ∧ ∃ t, r = .next t ∧ Q t := by
  obtain ⟨t, ht, hp, hq⟩ := h
  exact ⟨⟨t, ht, hp⟩, t, ht, hq⟩

/-- Settles O21: the register forms by `storeReg`, the queue forms by `storeEntry`, and STR by `storeFlag`. -/
theorem storesEnterTheAccessQueue : Obligations.StoresEnterTheAccessQueue := by
  intro gd b a f e q sz w o sc s hg hacc hun n m datum sent taken home at0 at1 at2
  have hat0 : s.addr a 0 = at0 := s.addr_zero a
  have hroom {y : W64} (hy : home y) : s.me.admits y := admits_of_panel hy.2
  have hst : exec (.st gd b a sz) s = .next (s.storeReg false b at0 sz) :=
    hat0 ▸ guarded_of_ok hg fun s => s.storeReg false b (s.addr a 0) sz
  have hstl : exec (.stl gd b a sz) s = .next (s.storeReg true b at0 sz) :=
    hat0 ▸ guarded_of_ok hg fun s => s.storeReg true b (s.addr a 0) sz
  have hstOff : exec (.stOffset gd (.reg b sz) a w) s = .next (s.storeReg false b at1 sz) :=
    guarded_of_ok hg fun s => s.storeReg false b (s.addr a (wideVal w)) sz
  have hstlOff : exec (.stlOffset gd (.reg b sz) a w) s = .next (s.storeReg true b at1 sz) :=
    guarded_of_ok hg fun s => s.storeReg true b (s.addr a (wideVal w)) sz
  have hstQ (hd : (s.me.getSq q).depth ≠ 0) : exec (.stQ gd q a e) s = .next (s.storeEntry false q at0 e) :=
    hat0 ▸ onSq_eq (fun s => s.storeEntry false q (s.addr a 0) e) hd hg
  refine ⟨fun hal => ⟨fun hh => ?st, ?stl⟩, fun hal => ?misaligned, fun hal => ?misalignedOff,
    ⟨fun hal hout => ?stBeyond, fun hal hout => ?stOffBeyond, fun x rest hd hq hn h8 hblock hout => ?stQBeyond⟩,
    ?refused, fun hal => ⟨fun hh => ?stOff, ?stlOff⟩, fun x rest hd hq hn => ?entries⟩
  case st => exact regForm_global hacc hun hal hst hh.1 (hroom hh)
  case stl => exact regForm_local hacc hun hal hstl
  case stOff => exact regForm_global hacc hun hal hstOff hh.1 (hroom hh)
  case stlOff => exact regForm_local hacc hun hal hstlOff
  case misaligned =>
    have htrap := trapWith_traps s 0x02 0 at0
    simp only [List.forall_mem_cons, List.not_mem_nil, false_imp_iff, implies_true, and_true]
    exact ⟨⟨_, hst, storeReg_misaligned s false b hal ▸ htrap⟩, ⟨_, hstl, storeReg_misaligned s true b hal ▸ htrap⟩⟩
  case misalignedOff =>
    have htrap := trapWith_traps s 0x02 0 at1
    simp only [List.forall_mem_cons, List.not_mem_nil, false_imp_iff, implies_true, and_true]
    exact ⟨⟨_, hstOff, storeReg_misaligned s false b hal ▸ htrap⟩, ⟨_, hstlOff, storeReg_misaligned s true b hal ▸ htrap⟩⟩
  case stBeyond => exact regForm_beyond hacc hun hal hst hout
  case stOffBeyond => exact regForm_beyond hacc hun hal hstOff hout
  case stQBeyond => exact entryForm_beyond hacc hun hq hn ⟨h8, hblock⟩ (hstQ hd) hout
  case refused =>
    simp only [List.forall_mem_cons, List.not_mem_nil, false_imp_iff, implies_true, and_true]
    have hmeets0 (lm : Bool) : MeetsEntry s q m at0 (s.storeEntry lm q (s.addr a 0) e) :=
      hat0 ▸ storeEntry_meets s lm q (s.addr a 0) e
    exact ⟨queueRefuses_of hg rfl (hmeets0 true), queueRefuses_of hg rfl (hmeets0 false),
      queueRefuses_of hg rfl (storeEntry_meets s true q at1 e), queueRefuses_of hg rfl (storeEntry_meets s false q at1 e),
      queueRefuses_of hg rfl (hat0 ▸ storeFlag_meets s q (s.addr a 0) f e .system),
      queueRefuses_of hg rfl (storeFlag_meets s q at2 f e (sc.getD .system))⟩
  case entries =>
    intro fits
    have hstlQ : exec (.stlQ gd q a e) s = .next (s.storeEntry true q at0 e) :=
      hat0 ▸ onSq_eq (fun s => s.storeEntry true q (s.addr a 0) e) hd hg
    have hstlOffQ : exec (.stlOffset gd (.queue q e) a w) s = .next (s.storeEntry true q at1 e) :=
      onSq_eq (fun s => s.storeEntry true q (s.addr a (wideVal w)) e) hd hg
    have hstOffQ : exec (.stOffset gd (.queue q e) a w) s = .next (s.storeEntry false q at1 e) :=
      onSq_eq (fun s => s.storeEntry false q (s.addr a (wideVal w)) e) hd hg
    have hstr (f : BitVec 5) : exec (.str gd q a f e) s = .next (s.storeFlag q at0 f e .system) :=
      hat0 ▸ onSq_eq (fun s => s.storeFlag q (s.addr a 0) f e .system) hd hg
    have hstrOff : exec (.strOffset gd q a f e o sc) s = .next (s.storeFlag q at2 f e (sc.getD .system)) :=
      onSq_eq (fun s => s.storeFlag q (s.addr a (o.signExtend 64)) f e (sc.getD .system)) hd hg
    refine ⟨fun hfit => ?stlQ, fun hfit hh => ?stQ, fun hfit => ?stlOffQ, fun hfit hh => ?stOffQ,
      fun hfit hh hf hal hhf => ?str, fun hfit hh hf hal hhf => ?strOff, fun hf hal => ⟨fun hfit => ?strFlag, fun hfit => ?strOffFlag⟩,
      fun hfit hh => ?strNoFlag⟩
    case stlQ => exact next_both (entryForm_local hacc hun hq hn hfit hstlQ)
    case stQ => exact next_both (entryForm_global hacc hun hq hn hfit (hstQ hd) hh.1 (hroom hh))
    case stlOffQ => exact (next_both (entryForm_local hacc hun hq hn hfit hstlOffQ)).1
    case stOffQ => exact (next_both (entryForm_global hacc hun hq hn hfit hstOffQ hh.1 (hroom hh))).1
    case str =>
      exact next_both (flagForm_sent hacc hun (hstr f) hq hn hfit hf hal hh.1 (hroom hh) hhf.1 (hroom hhf))
    case strOff =>
      exact (next_both (flagForm_sent hacc hun hstrOff hq hn hfit hf hal hh.1 (hroom hh) hhf.1 (hroom hhf))).1
    case strFlag => exact flagForm_misaligned (hstr f) hq hn hfit hf hal
    case strOffFlag => exact flagForm_misaligned hstrOff hq hn hfit hf hal
    case strNoFlag =>
      exact (next_both (entryForm_global hacc hun hq hn hfit ((hstr 0).trans (by rw [storeFlag_zero])) hh.1 (hroom hh))).1

end Sys2Proof.Machine

/-! PROOFS. PUSH appends its record to f0, and POP takes the head entry of a FIFO (O23). -/

namespace Sys2Proof.Machine

/-! ## What the entry that a PUSH takes leaves -/

namespace Issues

variable {s u : State} (h : Issues s u)

include h

theorem flocks : u.flocks = s.flocks := (congrArg State.flocks h.core.1 :)
theorem parts : u.parts = s.parts := (congrArg State.parts h.core.1 :)
theorem dgrps : u.dgrps = s.dgrps := (congrArg State.dgrps h.core.1 :)
theorem flock : u.me.flock = s.me.flock := (congrArg Ctx.flock h.me :)
theorem member : u.me.member = s.me.member := (congrArg Ctx.member h.me :)
theorem logical : u.me.logical = s.me.logical := (congrArg Ctx.logical h.me :)
theorem overs : u.me.overs = s.me.overs := (congrArg Ctx.overs h.me :)
theorem f0 : u.me.f0 = s.me.f0 := (congrArg Ctx.f0 h.me :)

theorem myFlock : u.myFlock = s.myFlock := by rw [State.myFlock, h.flock, flock_congr h.flocks]; rfl

theorem outbound (k : Nat) : u.outbound u.core k = s.outbound s.core k := by
  have hme : u.ctx s.core = u.me := by rw [State.me, h.core_eq]
  have hpart : u.partOf s.core = s.partOf s.core := by
    rw [State.partOf, hme, h.flock, flock_congr h.flocks]; rfl
  rw [State.outbound, h.core_eq, hme, h.logical, State.circuits, hpart, State.part, h.parts]
  rfl

theorem stepOf (r : CmdRecord) : u.stepOf u.core r = s.stepOf s.core r := by
  rw [State.stepOf, h.outbound]; rfl

theorem barInst (fl key : Nat) : u.barInst fl key = s.barInst fl key := by
  rw [State.barInst, flock_congr h.flocks, h.dgrps]; rfl

theorem countBytes_phase (r : CmdRecord) : (u.countBytes r).1 = (s.countBytes r).1 := by
  simp only [State.countBytes, h.flock, h.logical, h.member, h.barInst]
  split
  · rfl
  · split <;> rfl

end Issues

/-! ## What a PUSH counts -/

theorem me_of_offBars {s t : State} (h : t.offBars = s.offBars) : t.me = s.me := by
  have hfocus : t.focus = s.focus := (congrArg State.focus h :)
  rw [State.me, State.core, hfocus, ctx_congr (cores_of_offBars h)]
  rfl

/-- The machine without its contexts, its flocks and its barriers: what a PUSH leaves alone. -/
def State.offPush (s : State) : State := { s.offBars with cores := [] }

theorem offPush_of_offBars {s t : State} (h : t.offBars = s.offBars) : t.offPush = s.offPush :=
  congrArg (fun u : State => { u with cores := [] }) h

theorem restored_of_offPush {s t : State} (h : t.offPush = s.offPush) :
    { t with cores := s.cores, flocks := s.flocks, dgrps := s.dgrps } = s :=
  (congrArg (fun u : State => { u with cores := s.cores, flocks := s.flocks, dgrps := s.dgrps }) h :)

/-- The bytes that a PUSH counts are noted with the barrier object, or as an overflow on the core (R227). -/
theorem countBytes_frame (s : State) (r : CmdRecord) : (s.countBytes r).2.offPush = s.offPush ∧
    ∃ os, (s.countBytes r).2.me = { s.me with overs := os } := by
  simp only [State.countBytes]
  split
  · exact ⟨rfl, _, rfl⟩
  · split
    · exact ⟨rfl, _, State.me_updMe _ _⟩
    · exact ⟨offPush_of_offBars (offBars_updBar ..), s.me.overs, me_of_offBars (offBars_updBar ..)⟩

theorem offPush_flushOvers (s : State) (c : Nat) : (s.flushOvers c).offPush = s.offPush :=
  foldl_keeps State.offPush _ (fun _ _ => offPush_of_offBars (offBars_updBar ..)) _ s

theorem countBytes_uncounted (s : State) {r : CmdRecord} (h : r.be = false) : s.countBytes r = (none, s) := by
  rw [State.countBytes, h]
  rfl

/-! ## What a PUSH appends -/

/-- f0 takes the record of a PUSH. -/
def State.appendF0 (u v : State) (sc : Scope) (r : CmdRecord) (bar : Option (Nat × Nat)) : State :=
  v.updMe fun x => ({ x with f0 := x.f0 ++
    [({ cmd := r, scope := sc, tk := x.tk, bar := bar, circ := u.stepOf u.core r } : F0Entry)] } : Ctx).gaveFifo 0

/-- What a PUSH that is accepted leaves: its bytes are counted and its record appended, and overflows that are due are marked. -/
def State.pushed (u : State) (sc : Scope) (r : CmdRecord) : State :=
  (u.appendF0 (u.countBytes r).2 sc r (u.countBytes r).1).flushOvers u.core

theorem pushRecord_accepts {u : State} {r : CmdRecord} (sc : Scope) (hbar : r.be = true → u.myFlock.barOk r.bar = true)
    (hbound : r.bound = true → (u.outbound u.core r.h).map (·.live) = some true) : u.pushRecord sc r = u.pushed sc r := by
  rw [State.pushRecord, if_neg, if_neg]
  · rfl
  · rintro ⟨hb, hlive⟩
    exact hlive (hbound hb)
  · rintro ⟨hb, hok⟩
    simp [hbar hb] at hok

theorem offPush_pushed (u : State) (sc : Scope) (r : CmdRecord) : (u.pushed sc r).offPush = u.offPush :=
  (offPush_flushOvers ..).trans (countBytes_frame u r).1

/-- The core after a PUSH: its record stands at the tail of f0. -/
theorem me_pushed (u : State) (sc : Scope) (r : CmdRecord) : ∃ ft os, (u.pushed sc r).me = { u.me with
    f0 := u.me.f0 ++ [{ cmd := r, scope := sc, tk := u.me.tk, bar := (u.countBytes r).1, circ := u.stepOf u.core r }]
    fifoTail := ft
    overs := os } := by
  obtain ⟨hframe, os, hcount⟩ := countBytes_frame u r
  have hcore : (u.countBytes r).2.core = u.core := core_of_focus (congrArg State.focus hframe :)
  have happend : (u.appendF0 (u.countBytes r).2 sc r (u.countBytes r).1).ctx u.core = _ :=
    (congrArg _ hcore.symm).trans (State.me_updMe (u.countBytes r).2 _)
  have hflush := ctx_flushOvers (u.appendF0 (u.countBytes r).2 sc r (u.countBytes r).1) u.core
  rw [happend, hcount] at hflush
  have hpushed : (u.pushed sc r).core = u.core := core_of_focus (congrArg State.focus (offPush_pushed u sc r) :)
  exact ⟨_, _, (congrArg (u.pushed sc r).ctx hpushed).trans hflush⟩

/-- A PUSH that counts in no barrier, with no overflow due, changes its core alone. -/
theorem sameButCore_pushed {u : State} {r : CmdRecord} (sc : Scope) (hbe : r.be = false) (hovers : u.me.overs = []) :
    SameButCore u (u.pushed sc r) := by
  have happend : ((u.appendF0 u sc r none).ctx u.core).overs = [] :=
    (congrArg Ctx.overs (State.me_updMe u _)).trans hovers
  rw [State.pushed, countBytes_uncounted u hbe]
  simp only [State.flushOvers, happend, List.filter_nil, List.foldl_nil]
  exact sameButCore_trans (sameButCore_updMe u _) (sameButCore_updMe (u.appendF0 u sc r none) _)

/-! ## PUSH -/

/-- What the statement says of a PUSH of the record `r` by the instruction `i` (R214, R301). -/
def Pushes (s : State) (sc : Scope) (i : Instr) (r : CmdRecord) (more : State → Prop) : Prop :=
  (r.be = true → s.myFlock.barOk r.bar = false → ∃ t, exec i s = .next t ∧ t.verdict = .traps 0x01 0 0) ∧
    ((r.be = true → s.myFlock.barOk r.bar = true) → r.bound = true → (s.outbound s.core r.h).map (·.live) ≠ some true →
      ∃ t, exec i s = .next t ∧ t.verdict = .traps 0x41 0 0) ∧
    ((r.be = true → s.myFlock.barOk r.bar = true) → (r.bound = true → (s.outbound s.core r.h).map (·.live) = some true) →
      ∃ t, exec i s = .next t ∧ t.verdict = s.verdict ∧
        t.me.f0 = s.me.f0 ++
          [({ cmd := r, scope := sc, tk := s.me.tk, bar := (s.countBytes r).1, circ := s.stepOf s.core r } : F0Entry)] ∧
        { t with cores := s.cores, flocks := s.flocks, dgrps := s.dgrps } = s ∧
        (r.be = false → s.me.overs = [] → SameButCore s t) ∧
        (∀ i, t.gNow i = s.gNow i) ∧ (∀ i, t.pNow i = s.pNow i) ∧ more t)

theorem pushes_of {s u : State} {sc : Scope} {i : Instr} {r : CmdRecord} {more : State → Prop} (hu : Issues s u)
    (hexec : exec i s = .next (u.pushRecord sc r))
    (hmore : ∀ t es ft os, t.me = { u.me with f0 := es, fifoTail := ft, overs := os } → more t) : Pushes s sc i r more := by
  refine ⟨fun hbe hbar => ⟨_, hexec, ?_⟩, fun hbar hbound hlive => ⟨_, hexec, ?_⟩, fun hbar hbound => ⟨_, hexec, ?_⟩⟩
  · rw [State.pushRecord, if_pos ⟨hbe, by simp [hu.myFlock, hbar]⟩]
    rfl
  · rw [State.pushRecord, if_neg, if_pos ⟨hbound, by rwa [hu.outbound]⟩]
    · rfl
    · rintro ⟨hb, hok⟩
      simp [hu.myFlock, hbar hb] at hok
  · rw [← hu.myFlock] at hbar
    rw [← hu.outbound] at hbound
    rw [pushRecord_accepts sc hbar hbound]
    obtain ⟨ft, os, hme⟩ := me_pushed u sc r
    have hframe := restored_of_offPush ((offPush_pushed u sc r).trans (congrArg State.offPush hu.core.1 :))
    have hfocus : (u.pushed sc r).focus = s.focus := (congrArg State.focus hframe :)
    have hstream : (u.pushed sc r).me.stream s.stream = s.me.stream s.stream :=
      (congrArg (·.stream s.stream) hme).trans ((stream_of_streams rfl rfl rfl _).trans (hu.sameStream _))
    obtain ⟨hg, hp⟩ := sameRegs_of_stream (stream_of_focus hfocus) hstream
    refine ⟨(congrArg State.verdict hframe :), ?_, hframe, fun hbe hovers => ?_, hg, hp, hmore _ _ _ _ hme⟩
    · rw [hme, hu.f0, hu.tk, hu.countBytes_phase, hu.stepOf]
    · exact sameButCore_trans hu.core (sameButCore_pushed sc hbe (hu.overs.trans hovers))

theorem pushWait_room {s : State} (h : s.me.f0.length < 32) : s.pushWait = none := if_neg (Nat.not_le.2 h)

theorem pushWait_full {s : State} (h : 32 ≤ s.me.f0.length) : s.pushWait = some .queueFull := if_pos h

section Push

variable {gd : Guard} {s : State} (hg : guardOk gd s = true) (sc : Scope)

include hg

theorem exec_pushReg (b : BitVec 5) (h : s.me.f0.length < 32) : exec (.pushReg gd sc b) s =
    .next (s.pushRecord sc (recordOf ((List.range 8).map fun k => s.rg (b + BitVec.ofNat 5 k)))) := by
  change execPushReg gd sc b s = _
  rw [execPushReg, guarded_of_ok hg, pushWait_room h]

theorem exec_pushReg_full (b : BitVec 5) (h : 32 ≤ s.me.f0.length) :
    exec (.pushReg gd sc b) s = .next (s.waitNow .queueFull) := by
  change execPushReg gd sc b s = _
  rw [execPushReg, guarded_of_ok hg, pushWait_full h]

variable {q : BitVec 3} {e : QEntry} {rest : List QEntry} (h : s.me.f0.length < 32) (hd : (s.me.getSq q).depth ≠ 0)
  (hq : (s.me.getSq q).entries = e :: rest)

include h hd hq

theorem exec_pushSq : exec (.pushSq gd sc q) s = .next (
    if e.data.length ≠ 64 then s.trapNow 0x07
    else (s.popSq q e).pushRecord sc (recordOf ((List.range 8).map fun k => wordAt e.data k))) := by
  change execPushSq gd sc q s = _
  rw [execPushSq, onSq_eq _ hd hg, pushWait_room h, hq]

end Push

/-! ## The head entry of a FIFO -/

/-- The FIFOs from which POP takes. -/
def Ctx.fifos (x : Ctx) : List (W64 × W64) × List (W64 × W64) × List (List Byte) := (x.f1, x.f2, x.f3)

theorem fifos_updStream (x : Ctx) (st : StreamId) (f : StreamState → StreamState) : (x.updStream st f).fifos = x.fifos := by
  cases st <;> rfl

theorem fifos_iff (x : Ctx) (a b : List (W64 × W64)) (c : List (List Byte)) :
    x.fifos = (a, b, c) ↔ x.f1 = a ∧ x.f2 = b ∧ x.f3 = c := by
  simp [Ctx.fifos]

/-- The words `ws` stand at the head of FIFO `f`, and leave the other FIFOs as `fifos` says. -/
def FifoHead (x : Ctx) (f : BitVec 4) (ws : List W64) (fifos : List (W64 × W64) × List (W64 × W64) × List (List Byte)) : Prop :=
  ∃ y, x.popFifo f = some (ws, y) ∧ y.fifos = fifos ∧ ∀ st, y.stream st = x.stream st

section FifoHeads

variable {x : Ctx}

theorem fifoHead_f1 {e : W64 × W64} {rest : List (W64 × W64)} (h : x.f1 = e :: rest) :
    FifoHead x 1 [e.1, e.2] (rest, x.f2, x.f3) :=
  ⟨(({ x with f1 := rest } : Ctx).tookFifo 1).note (.f1 e), by simp [Ctx.popFifo, h], rfl, stream_of_streams rfl rfl rfl⟩

theorem fifoHead_f2 {e : W64 × W64} {rest : List (W64 × W64)} (h : x.f2 = e :: rest) :
    FifoHead x 2 [e.1, e.2] (x.f1, rest, x.f3) :=
  ⟨(({ x with f2 := rest } : Ctx).tookFifo 2).note (.f2 e), by simp [Ctx.popFifo, h], rfl, stream_of_streams rfl rfl rfl⟩

theorem fifoHead_f3 {e : List Byte} {rest : List (List Byte)} (h : x.f3 = e :: rest) :
    FifoHead x 3 ((List.range 4).map fun k => wordAt e k) (x.f1, x.f2, rest) :=
  ⟨(({ x with f3 := rest } : Ctx).tookFifo 3).note (.f3 e), by simp [Ctx.popFifo, h], rfl, stream_of_streams rfl rfl rfl⟩

end FifoHeads

/-! ## Writes to consecutive registers -/

/-- The register that is the `k`-th from g[d] on. -/
def regFrom (d : BitVec 5) (k : Nat) : BitVec 5 := d + BitVec.ofNat 5 k

theorem regFrom_inj {d : BitVec 5} {j k : Nat} (hj : j < 32) (hk : k < 32) (h : regFrom d j = regFrom d k) : j = k := by
  have := congrArg BitVec.toNat (add_left_cancel h)
  simpa [Nat.mod_eq_of_lt hj, Nat.mod_eq_of_lt hk] using this

/-- A list of registers, each with its word, written one after another. -/
def StreamState.setGs (y : StreamState) (es : List (BitVec 5 × W64)) : StreamState := es.foldl (fun y e => y.setG e.1 e.2) y

theorem getP_setGs (es : List (BitVec 5 × W64)) (y : StreamState) (i : BitVec 4) : (y.setGs es).getP i = y.getP i := by
  induction es generalizing y with
  | nil => rfl
  | cons e es ih => exact (ih _).trans (StreamState.getP_setG ..)

theorem getG_setGs_of_notMem {es : List (BitVec 5 × W64)} (y : StreamState) {i : BitVec 5} (h : i ∉ es.map (·.1)) :
    (y.setGs es).getG i = y.getG i := by
  induction es generalizing y with
  | nil => rfl
  | cons e es ih =>
    obtain ⟨hne, hrest⟩ : i ≠ e.1 ∧ i ∉ es.map (·.1) := by simpa using h
    exact (ih _ hrest).trans (StreamState.getG_setG_ne _ _ hne)

theorem getG_setGs_of_mem {es : List (BitVec 5 × W64)} (y : StreamState) (hnd : (es.map (·.1)).Nodup) {e : BitVec 5 × W64}
    (h : e ∈ es) : (y.setGs es).getG e.1 = if e.1 = 0 then 0 else e.2 := by
  induction es generalizing y with
  | nil => cases h
  | cons e' es ih =>
    obtain ⟨hnot, hrest⟩ := List.nodup_cons.1 hnd
    rcases List.mem_cons.1 h with rfl | h
    · exact (getG_setGs_of_notMem _ hnot).trans (StreamState.getG_setG_same ..)
    · exact ih _ hrest h

/-- The registers from g[d] on, each with its word. -/
def wordsFrom (d : BitVec 5) (ws : List W64) : List (BitVec 5 × W64) :=
  (List.range ws.length).map fun k => (regFrom d k, ws.getD k 0)

theorem map_fst_wordsFrom (d : BitVec 5) (ws : List W64) :
    (wordsFrom d ws).map (·.1) = (List.range ws.length).map (regFrom d) := by
  rw [wordsFrom, List.map_map]
  rfl

theorem nodup_wordsFrom (d : BitVec 5) {ws : List W64} (h : ws.length ≤ 32) : ((wordsFrom d ws).map (·.1)).Nodup := by
  rw [map_fst_wordsFrom]
  refine List.Nodup.map_on (fun j hj k hk hjk => regFrom_inj ?_ ?_ hjk) List.nodup_range
  · exact (List.mem_range.1 hj).trans_le h
  · exact (List.mem_range.1 hk).trans_le h

theorem mem_wordsFrom (d : BitVec 5) {ws : List W64} {k : Nat} (h : k < ws.length) :
    (regFrom d k, ws.getD k 0) ∈ wordsFrom d ws := List.mem_map.2 ⟨k, List.mem_range.2 h, rfl⟩

theorem wordsFrom_eq_zip (d : BitVec 5) (ws : List W64) :
    wordsFrom d ws = ((List.range ws.length).zip ws).map fun e => (regFrom d e.1, e.2) := by
  refine List.ext_getElem (by simp [wordsFrom]) fun k h1 h2 => ?_
  have hk : k < ws.length := by simpa [wordsFrom] using h1
  simp [wordsFrom, hk]

theorem me_wg (s : State) (d : BitVec 5) (v : W64) : (s.wg d v).me = s.me.updStream s.stream fun y => y.setG d v :=
  State.me_updMe _ _

theorem me_wgs (s : State) (d : BitVec 5) (ws : List W64) :
    (s.wgs d ws).me = s.me.updStream s.stream fun y => y.setGs (wordsFrom d ws) := by
  rw [wordsFrom_eq_zip, State.wgs]
  generalize (List.range ws.length).zip ws = es
  induction es generalizing s with
  | nil => exact (Ctx.updStream_id _ _ _ rfl).symm
  | cons e es ih =>
    have hst : (s.wg (regFrom d e.1) e.2).stream = s.stream := rfl
    refine (ih (s.wg (regFrom d e.1) e.2)).trans ?_
    rw [me_wg, hst, Ctx.updStream_updStream]
    rfl

theorem sameButCore_wgs (s : State) (d : BitVec 5) (ws : List W64) : SameButCore s (s.wgs d ws) := by
  rw [State.wgs]
  generalize (List.range ws.length).zip ws = es
  induction es generalizing s with
  | nil => exact SameButCore.refl s
  | cons e es ih => exact sameButCore_trans (sameButCore_updMe s _) (ih _)

/-! ## POP -/

theorem StreamState.getG_setP (y : StreamState) (d : BitVec 4) (v : Bool) (i : BitVec 5) : (y.setP d v).getG i = y.getG i := by
  unfold StreamState.setP
  split <;> rfl

/-- What a POP leaves: its words in their registers, every other register as it was, and the FIFO without its head. -/
def Popped (s t : State) (d : BitVec 5) (ws : List W64)
    (fifos : List (W64 × W64) × List (W64 × W64) × List (List Byte)) : Prop :=
  (∀ k, k < ws.length → t.gNow (regFrom d k) = if regFrom d k = 0 then 0 else ws.getD k 0) ∧
    (∀ i, (∀ k, k < ws.length → i ≠ regFrom d k) → t.gNow i = s.gNow i) ∧ t.me.fifos = fifos ∧ SameButCore s t

theorem gNow_wp (u : State) (pd : BitVec 4) (v : Bool) (i : BitVec 5) : (u.wp pd v).gNow i = u.gNow i := by
  have hst : (u.wp pd v).stream = u.stream := rfl
  rw [State.gNow, me_wp, hst, Ctx.stream_updStream_same, StreamState.getG_setP]
  rfl

theorem Popped.wp {s u : State} {d : BitVec 5} {ws : List W64}
    {fifos : List (W64 × W64) × List (W64 × W64) × List (List Byte)} (h : Popped s u d ws fifos) (pd : BitVec 4) (v : Bool) :
    Popped s (u.wp pd v) d ws fifos := by
  obtain ⟨hwords, hothers, hfifos, hsame⟩ := h
  refine ⟨fun k hk => (gNow_wp ..).trans (hwords k hk), fun i hi => (gNow_wp ..).trans (hothers i hi), ?_,
    sameButCore_trans hsame (sameButCore_updMe u _)⟩
  rw [me_wp, fifos_updStream, hfifos]

theorem popped_wgs {s : State} {x : Ctx} (d : BitVec 5) {ws : List W64}
    {fifos : List (W64 × W64) × List (W64 × W64) × List (List Byte)} (hlen : ws.length ≤ 32) (hfifos : x.fifos = fifos)
    (hstream : ∀ st, x.stream st = s.me.stream st) :
    Popped s ((s.updMe fun _ => x).wgs d ws) d ws fifos ∧ ∀ i, ((s.updMe fun _ => x).wgs d ws).pNow i = s.pNow i := by
  have hsame : SameButCore s ((s.updMe fun _ => x).wgs d ws) :=
    sameButCore_trans (sameButCore_updMe s _) (sameButCore_wgs _ d ws)
  have hst : ((s.updMe fun _ => x).wgs d ws).stream = s.stream := stream_of_focus (congrArg State.focus hsame.1 :)
  have hme : ((s.updMe fun _ => x).wgs d ws).me = x.updStream s.stream fun y => y.setGs (wordsFrom d ws) := by
    rw [me_wgs, State.me_updMe]
    rfl
  have hnow : ((s.updMe fun _ => x).wgs d ws).me.stream s.stream = (s.me.stream s.stream).setGs (wordsFrom d ws) := by
    rw [hme, Ctx.stream_updStream_same, hstream]
  refine ⟨⟨fun k hk => ?_, fun i hi => ?_, ?_, hsame⟩, fun i => ?_⟩
  · rw [State.gNow, hst, hnow]
    exact getG_setGs_of_mem _ (nodup_wordsFrom d hlen) (mem_wordsFrom d hk)
  · rw [State.gNow, hst, hnow, getG_setGs_of_notMem]
    · rfl
    · rw [map_fst_wordsFrom, List.mem_map]
      rintro ⟨k, hk, rfl⟩
      exact hi k (List.mem_range.1 hk) rfl
  · rw [hme, fifos_updStream, hfifos]
  · rw [State.pNow, hst, hnow, getP_setGs]
    rfl

section Pop

variable {gd : Guard} {s : State} (hg : guardOk gd s = true) {f : BitVec 4} (d : BitVec 5) (pd : BitVec 4)

include hg

theorem pop_empty (h : s.me.popFifo f = none) : (∃ t, exec (.pop gd f d) s = .next t ∧ t.verdict = .waits .queueEmpty) ∧
    ∃ t, exec (.popTry gd f d pd) s = .next t ∧ WroteP s t pd false := by
  refine ⟨⟨s.waitNow .queueEmpty, ?_, rfl⟩, s.wp pd false, ?_, wp_wrote s pd false⟩
  · change execPop gd f d s = _
    rw [execPop, guarded_of_ok hg, h]
  · change execPopTry gd f d pd s = _
    rw [execPopTry, guarded_of_ok hg, h]

theorem exec_pop_some {ws : List W64} {x : Ctx} (h : s.me.popFifo f = some (ws, x)) :
    exec (.pop gd f d) s = .next ((s.updMe fun _ => x).wgs d ws) := by
  change execPop gd f d s = _
  rw [execPop, guarded_of_ok hg, h]

theorem exec_popTry_some {ws : List W64} {x : Ctx} (h : s.me.popFifo f = some (ws, x)) :
    exec (.popTry gd f d pd) s = .next (((s.updMe fun _ => x).wgs d ws).wp pd true) := by
  change execPopTry gd f d pd s = _
  rw [execPopTry, guarded_of_ok hg, h]

theorem pop_takes {ws : List W64} {fifos : List (W64 × W64) × List (W64 × W64) × List (List Byte)}
    (h : FifoHead s.me f ws fifos) (hlen : ws.length ≤ 32) :
    (∃ t, exec (.pop gd f d) s = .next t ∧ t.verdict = s.verdict ∧ Popped s t d ws fifos ∧ ∀ i, t.pNow i = s.pNow i) ∧
      ∃ t, exec (.popTry gd f d pd) s = .next t ∧ t.verdict = s.verdict ∧ Popped s t d ws fifos ∧ t.pNow pd = true ∧
        ∀ i, i ≠ pd → t.pNow i = s.pNow i := by
  obtain ⟨x, hpop, hfifos, hstream⟩ := h
  obtain ⟨hpopped, hp⟩ := popped_wgs d hlen hfifos hstream
  have ⟨_, _, _, hrest, _⟩ := hpopped
  have hverdict : ((s.updMe fun _ => x).wgs d ws).verdict = s.verdict := (congrArg State.verdict hrest :)
  obtain ⟨-, -, -, hpd, hothers⟩ := wp_wrote ((s.updMe fun _ => x).wgs d ws) pd true
  exact ⟨⟨_, exec_pop_some hg d hpop, hverdict, hpopped, hp⟩,
    _, exec_popTry_some hg d pd hpop, hverdict, hpopped.wp pd true, hpd.trans (ite_self _),
    fun i hi => (hothers i hi).trans (hp i)⟩

end Pop

/-- What the statement says of a POP and a POP.try of these words, from what they leave. -/
theorem pop_takes_left {gd : Guard} {s : State} (hg : guardOk gd s = true) {f : BitVec 4} (d : BitVec 5) (pd : BitVec 4)
    {ws : List W64} {left : Ctx → Prop} {fifos : List (W64 × W64) × List (W64 × W64) × List (List Byte)}
    (h : FifoHead s.me f ws fifos) (hleft : ∀ x : Ctx, x.fifos = fifos → left x) (hlen : d.toNat + ws.length ≤ 32) :
    let at_ := fun (k : Nat) => d + BitVec.ofNat 5 k
    let got := fun (t : State) =>
      (∀ k, k < ws.length → t.gNow (at_ k) = if at_ k = 0 then 0 else ws.getD k 0) ∧
        (∀ i, (∀ k, k < ws.length → i ≠ at_ k) → t.gNow i = s.gNow i) ∧ left t.me ∧ SameButCore s t
    (∃ t, exec (.pop gd f d) s = .next t ∧ t.verdict = s.verdict ∧ got t ∧ ∀ i, t.pNow i = s.pNow i) ∧
      ∃ t, exec (.popTry gd f d pd) s = .next t ∧ t.verdict = s.verdict ∧ got t ∧ t.pNow pd = true ∧
        ∀ i, i ≠ pd → t.pNow i = s.pNow i := by
  obtain ⟨⟨t, ht, hv, ⟨hwords, hothers, hfifos, hsame⟩, hp⟩, u, hu, hvu, ⟨hwordsU, hothersU, hfifosU, hsameU⟩, hpu⟩ :=
    pop_takes hg d pd h (by omega)
  exact ⟨⟨t, ht, hv, ⟨hwords, hothers, hleft _ hfifos, hsame⟩, hp⟩,
    u, hu, hvu, ⟨hwordsU, hothersU, hleft _ hfifosU, hsameU⟩, hpu⟩

/-- Settles O23: PUSH by the record that it pushes, of registers and of an sq entry, and POP by the FIFO that it names. -/
theorem fifosPushAndPop : Obligations.FifosPushAndPop := by
  intro gd sc b d q pd s hg pushes regs
  refine ⟨fun hroom => ⟨?pushReg, fun e rest hd hq hlen => ?pushSq, fun e rest hd hq hlen => ?size⟩,
    fun hfull => ⟨_, exec_pushReg_full hg sc b hfull, rfl⟩, ⟨fun e rest hf hlen => ?f1, fun e rest hf hlen => ?f2,
      fun e rest hf hlen => ?f3⟩, fun hf => ?empty1, fun hf => ?empty2, fun hf => ?empty3⟩
  case pushReg =>
    refine pushes_of (Issues.refl s) (exec_pushReg hg sc b hroom) fun t es ft os hme => ?_
    rw [hme]
  case pushSq =>
    refine pushes_of (issues_popSq s q e) ((exec_pushSq hg sc hroom hd hq).trans ?_) fun t es ft os hme => ?_
    · rw [if_neg (not_not_intro hlen)]
    · rw [hme]
      exact entries_popSq hq
  case size =>
    refine ⟨_, (exec_pushSq hg sc hroom hd hq).trans ?_, trapWith_traps s 0x07 0 0⟩
    rw [if_pos hlen]
    rfl
  case f1 => exact pop_takes_left hg d pd (fifoHead_f1 hf) (fun x hx => (fifos_iff ..).1 hx) hlen
  case f2 =>
    have hleft (x : Ctx) (hx : x.fifos = (s.me.f1, rest, s.me.f3)) : x.f2 = rest ∧ x.f1 = s.me.f1 ∧ x.f3 = s.me.f3 := by
      obtain ⟨h1, h2, h3⟩ := (fifos_iff ..).1 hx
      exact ⟨h2, h1, h3⟩
    exact pop_takes_left hg d pd (fifoHead_f2 hf) hleft hlen
  case f3 =>
    have hleft (x : Ctx) (hx : x.fifos = (s.me.f1, s.me.f2, rest)) : x.f3 = rest ∧ x.f1 = s.me.f1 ∧ x.f2 = s.me.f2 := by
      obtain ⟨h1, h2, h3⟩ := (fifos_iff ..).1 hx
      exact ⟨h3, h1, h2⟩
    exact pop_takes_left hg d pd (fifoHead_f3 hf) hleft hlen
  case empty1 => exact pop_empty hg d pd (by simp [Ctx.popFifo, hf])
  case empty2 => exact pop_empty hg d pd (by simp [Ctx.popFifo, hf])
  case empty3 => exact pop_empty hg d pd (by simp [Ctx.popFifo, hf])

end Sys2Proof.Machine

/-! PROOFS. WAITA reserves its record, its request is answered at its home, and a fired monitor wakes (O25). -/

namespace Sys2Proof.Machine

/-! ## A core whose stream waits -/

theorem me_waitNow (s : State) (r : WaitReason) : (s.waitNow r).me =
    { s.me.updStream s.stream fun y => { y with wait := some r } with
      waitSince := if s.me.l.wait.isSome && s.me.c.wait.isSome && s.me.s.wait.isSome then s.me.waitSince else s.now } :=
  State.me_updMe s fun x => { x.updStream s.stream fun y => { y with wait := some r } with
    waitSince := if x.l.wait.isSome && x.c.wait.isSome && x.s.wait.isSome then x.waitSince else s.now }

/-- What of a core no stream holds is the same while one of its streams waits. -/
theorem waitNow_keeps {α : Type} (p : Ctx → α) (hp : ∀ (x : Ctx) (l c v : StreamState) (since : Nat),
    p { x with l := l, c := c, s := v, waitSince := since } = p x) (s : State) (r : WaitReason) : p (s.waitNow r).me = p s.me := by
  rw [me_waitNow]
  cases s.stream
  · exact hp s.me _ s.me.c s.me.s _
  · exact hp s.me s.me.l _ s.me.s _
  · exact hp s.me s.me.l s.me.c _ _

theorem gNow_waitNow (s : State) (r : WaitReason) (i : BitVec 5) : (s.waitNow r).gNow i = s.gNow i :=
  congrArg (·.getG i) (stream_waitNow s r)

theorem ctx_waitNow_ne (s : State) (r : WaitReason) {c : Nat} (h : c ≠ s.core) : (s.waitNow r).ctx c = s.ctx c :=
  State.ctx_updMe_ne s (fun x => { x.updStream s.stream fun y => { y with wait := some r } with
    waitSince := if x.l.wait.isSome && x.c.wait.isSome && x.s.wait.isSome then x.waitSince else s.now }) h

/-! ## WAITA at its issue -/

theorem me_waitaStart (s : State) (nb : Bool) (a e : W64) : (s.waitaStart nb a e).me = { s.me with
    f2res := s.me.f2res + 1, waits := s.me.waits ++ [{ addr := a, exp := e, nb := nb, tk := s.me.tk }] } :=
  State.me_updMe s _

section Waita

variable {s : State} {nb : Bool} {a e : W64}

theorem waitaAt_goesOn {y : WaitReq} (hy : s.me.waits.find? (fun w => !w.nb) = some y) (hdone : y.done = true) :
    s.waitaAt nb a e = s.updMe fun x => { x with waits := x.waits.filter fun w => w.nb } := by
  simp only [State.waitaAt, hy, hdone, if_true]

theorem waitaAt_waits {y : WaitReq} (hy : s.me.waits.find? (fun w => !w.nb) = some y) (hdone : y.done = false) :
    s.waitaAt nb a e = s.waitNow .waita := by
  simp only [State.waitaAt, hy, hdone, Bool.false_eq_true, if_false]

variable (hnb : ∀ w ∈ s.me.waits, w.nb = true)

include hnb

theorem noBlockingWait : s.me.waits.find? (fun w => !w.nb) = none :=
  List.find?_eq_none.2 fun w hw => by simp [hnb w hw]

theorem waitaAt_full (h : 16 ≤ s.me.f2.length + s.me.f2res) : s.waitaAt nb a e = s.waitNow .queueFull := by
  simp only [State.waitaAt, noBlockingWait hnb]
  exact if_pos h

theorem waitaAt_reserves (h : s.me.f2.length + s.me.f2res < 16) :
    s.waitaAt nb a e = if nb then s.waitaStart nb a e else (s.waitaStart nb a e).waitNow .waita := by
  simp only [State.waitaAt, noBlockingWait hnb]
  refine (if_neg (Nat.not_le.2 h)).trans ?_
  cases nb <;> rfl

end Waita

/-- A WAITA has reserved its record, and waits unless it is one that does not block (R218). -/
def Reserves (s t : State) (nb : Bool) (a e : W64) : Prop :=
  t.me.f2res = s.me.f2res + 1 ∧
    t.me.waits = s.me.waits ++ [({ addr := a, exp := e, nb := nb, tk := s.me.tk } : WaitReq)] ∧
    t.verdict = (if nb then s.verdict else .waits .waita) ∧ { t with cores := s.cores, verdict := s.verdict } = s ∧
    (∀ i, t.gNow i = s.gNow i) ∧ ∀ c, c ≠ s.core → t.ctx c = s.ctx c

theorem reserves_waitaAt {s : State} {nb : Bool} {a e : W64} (hnb : ∀ w ∈ s.me.waits, w.nb = true)
    (h : s.me.f2.length + s.me.f2res < 16) : Reserves s (s.waitaAt nb a e) nb a e := by
  have hme := me_waitaStart s nb a e
  have hg (i : BitVec 5) : (s.waitaStart nb a e).gNow i = s.gNow i :=
    congrArg (·.getG i) ((congrArg (·.stream s.stream) hme).trans (stream_of_streams rfl rfl rfl s.stream))
  have hctx (c : Nat) (hc : c ≠ s.core) : (s.waitaStart nb a e).ctx c = s.ctx c := State.ctx_updMe_ne s _ hc
  rw [waitaAt_reserves hnb h]
  cases nb with
  | true => exact ⟨congrArg Ctx.f2res hme, congrArg Ctx.waits hme, rfl, rfl, hg, hctx⟩
  | false =>
    exact ⟨(waitNow_keeps Ctx.f2res (fun _ _ _ _ _ => rfl) _ _).trans (congrArg Ctx.f2res hme),
      (waitNow_keeps Ctx.waits (fun _ _ _ _ _ => rfl) _ _).trans (congrArg Ctx.waits hme), rfl, rfl,
      fun i => (gNow_waitNow ..).trans (hg i), fun c hc => (ctx_waitNow_ne (s.waitaStart false a e) _ hc).trans (hctx c hc)⟩

/-- What the statement says of an instruction that does what WAITA does. -/
theorem waita_asks {s : State} {i : Instr} {nb : Bool} {a e : W64} (hexec : exec i s = .next (s.waitaAt nb a e)) :
    ((∀ w ∈ s.me.waits, w.nb = true) → s.me.f2.length + s.me.f2res < 16 →
      ∃ t, exec i s = .next t ∧ Reserves s t nb a e) ∧
    (∀ y, s.me.waits.find? (fun w => !w.nb) = some y →
      (y.done = true → ∃ t, exec i s = .next t ∧ t.verdict = s.verdict ∧
        OnlyMe s t fun x => { x with waits := x.waits.filter fun w => w.nb }) ∧
      (y.done = false → ∃ t, exec i s = .next t ∧ t.verdict = .waits .waita)) ∧
    ((∀ w ∈ s.me.waits, w.nb = true) → 16 ≤ s.me.f2.length + s.me.f2res →
      ∃ t, exec i s = .next t ∧ t.verdict = .waits .queueFull) := by
  refine ⟨fun hnb h => ⟨_, hexec, reserves_waitaAt hnb h⟩, fun y hy => ⟨fun hdone => ?_, fun hdone => ?_⟩, fun hnb h => ?_⟩
  · rw [waitaAt_goesOn hy hdone] at hexec
    exact ⟨_, hexec, rfl, onlyMe_updMe s _⟩
  · rw [waitaAt_waits hy hdone] at hexec
    exact ⟨_, hexec, rfl⟩
  · rw [waitaAt_full hnb h] at hexec
    exact ⟨_, hexec, rfl⟩

/-! ## The request of a WAITA leaves -/

theorem monitorArm_sends {c : Nat} {w : WaitReq} {s : State}
    (hw : (s.ctx c).waits.find? (fun w => !w.sent && !w.armed && !w.done) = some w) (hun : (s.ctx c).unanswered.length < 64)
    (hacc : ∀ a ∈ (s.ctx c).saccess, w.tk < a.tk) : exec (.monitorArm c) s =
      .next ((s.sendReq c w.tk false w.addr (.arm w.tk)).onCore c fun x =>
        { x with waits := x.waits.map fun y => if y.tk = w.tk then { y with sent := true } else y }) := by
  have hfree : (!(s.ctx c).canSend || (s.ctx c).saccess.any fun a => decide (a.tk ≤ w.tk)) = false := by
    rw [(s.ctx c).canSend_iff.2 hun]
    simpa using hacc
  change execMonitorArm c s = _
  simp only [execMonitorArm, hw, hfree]
  rfl

/-! ## A request at its home -/

section Home

variable {s : State} {ix : Nat} {r : Request} (h : s.Arrives ix r)

include h

/-- A home serves a request that arrives for the first time, and its answer is kept and sent back (R329). -/
theorem exec_homeRequest_done {cause : Cause} {at_ : W64} {bs : List Byte} {locs : List Loc} {v : State}
    (hserve : (s.noteFloor (s.ingress r) r).serve r = .answer (.done cause at_ bs locs) v) :
    exec (.homeRequest ix) s = .next ((v.saveReply (s.ingress r) r cause at_ bs locs).setReq ix
      { r with stage := .answered cause at_ bs locs }) := by
  obtain ⟨hr, hstage, hjoined, hl, hfloor, hsaved⟩ := h
  have hnum : r.numbered = true := by rw [Request.numbered, hl]; rfl
  have hpass : ¬(r.stage ≠ .travelling ∨ s.joined r false = false) := by simp [hstage, hjoined]
  have hnew : ¬(r.numbered = true ∧ mhas (s.tile (s.ingress r)).floors r.source = true ∧
      seqBefore r.num (mget 0 (s.tile (s.ingress r)).floors r.source) = true) := by
    rintro ⟨-, hhas, hbefore⟩
    rw [hfloor hhas] at hbefore
    cases hbefore
  change execHomeRequest ix s = _
  simp only [execHomeRequest, hr, if_neg hpass, if_neg hnew, if_pos hnum, hsaved, hserve]
  rw [State.reply, if_pos hnum]

end Home

theorem tile_updTile_proj {α : Type} (p : TileSt → α) (s : State) (t k : Nat) (f : TileSt → TileSt)
    (hp : p (f (s.tile t)) = p (s.tile t)) : p ((s.updTile t f).tile k) = p (s.tile k) := by
  by_cases hk : k = t
  · subst hk
    rw [State.tile_updTile_same, hp]
  · rw [State.tile_updTile_ne s f hk]

theorem monitors_noteFloor (s : State) (t k : Nat) (r : Request) : ((s.noteFloor t r).tile k).monitors = (s.tile k).monitors :=
  tile_updTile_proj TileSt.monitors s t k _ rfl

theorem monitors_saveReply (s : State) (t k : Nat) (r : Request) (cause : Cause) (at_ : W64) (bs : List Byte) (locs : List Loc) :
    ((s.saveReply t r cause at_ bs locs).tile k).monitors = (s.tile k).monitors :=
  tile_updTile_proj TileSt.monitors s t k _ rfl

section Arm

variable {s : State} {ix tk : Nat} {r : Request} {w : WaitReq} (h : s.Arrives ix r) (hop : r.op = .arm tk)
  (hw : (s.ctx r.core).waits.find? (fun w => w.tk == tk) = some w)

include hop hw

theorem serve_arm : (s.noteFloor (s.ingress r) r).serve r =
    .answer ((s.noteFloor (s.ingress r) r).armAt r.core w).1 ((s.noteFloor (s.ingress r) r).armAt r.core w).2 := by
  have hw' : ((s.noteFloor (s.ingress r) r).ctx r.core).waits.find? (fun w => w.tk == tk) = some w := hw
  simp only [State.serve, hop, hw']

include h

/-- The home answers a wait at once with its record (R219). -/
theorem exec_homeRequest_record {v : W64} {st : Nat} {miss : Bool}
    (hfind : (s.noteFloor (s.ingress r) r).armFind r.core w = .record v st miss) :
    ∃ t, exec (.homeRequest ix) s = .next t ∧ t.mem = s.mem ∧ t.lm = s.lm ∧ t.cores = s.cores ∧
      t.reqs = s.reqs.set ix { r with stage := .answered 0 0 (wordLE v ++ [BitVec.ofNat 8 st, if miss then 1 else 0]) [] } := by
  have hserve := serve_arm hop hw
  rw [State.armAt, hfind] at hserve
  refine ⟨_, exec_homeRequest_done h hserve, rfl, rfl, rfl, ?_⟩
  cases miss <;> rfl

/-- The home arms a monitor and answers with no record (R219). -/
theorem exec_homeRequest_arm {tile pa : Nat} {mem : Bool}
    (hfind : (s.noteFloor (s.ingress r) r).armFind r.core w = .arm tile mem pa) :
    ∃ t m, exec (.homeRequest ix) s = .next t ∧ (t.tile tile).monitors = (s.tile tile).monitors ++ [m] ∧
      m.pa = pa ∧ m.mem = mem ∧ m.exp = w.exp ∧ m.va = w.addr ∧ m.tk = w.tk ∧ m.nb = w.nb ∧ m.fired = none ∧
      t.mem = s.mem ∧ t.lm = s.lm ∧ t.cores = s.cores ∧ t.reqs = s.reqs.set ix { r with stage := .answered 0 0 [] [] } := by
  have hserve := serve_arm hop hw
  rw [State.armAt, hfind] at hserve
  refine ⟨_,
    { flock := (s.ctx r.core).flock.getD 0, member := (s.ctx r.core).member, tk := w.tk, nb := w.nb, va := w.addr, mem := mem,
      pa := pa, exp := w.exp },
    exec_homeRequest_done h hserve, ?_, rfl, rfl, rfl, rfl, rfl, rfl, rfl, rfl, rfl, rfl, rfl⟩
  refine (monitors_saveReply ..).trans ?_
  exact (congrArg TileSt.monitors (State.tile_updTile_same _ tile _)).trans
    (congrArg (· ++ _) (monitors_noteFloor s _ tile r))

end Arm

/-! ## The reply of a wait's home -/

section Reply

variable {s : State} {ix tk : Nat} {r : Request} {w : WaitReq} {at_ : W64} {bs : List Byte} {locs : List Loc}

theorem exec_remoteReply_arm {cause : Cause} (h : s.Returns ix r) (hop : r.op = .arm tk)
    (hstage : r.stage = .answered cause at_ bs locs) : ∃ t, exec (.remoteReply ix) s = .next t ∧
      t.ctx r.core = (((s.ctx r.core).answeredNum r.num).armed tk cause bs).wake := by
  obtain ⟨hr, hjoined, hl, -, -, hnum⟩ := h
  have hopen : ((({ s with reqs := s.reqs.eraseIdx ix } : State).ctx r.core).unanswered.contains r.num) = true :=
    List.contains_iff_mem.2 hnum
  refine ⟨_, ?_, (ctx_onCore_same { s with reqs := s.reqs.eraseIdx ix } r.core
    fun x => (x.answeredNum r.num).armed tk cause bs)⟩
  change execRemoteReply ix s = _
  simp only [execRemoteReply, hr, hstage, hjoined, hl, hop, hopen, if_true, Bool.not_true, Bool.false_eq_true, if_false,
    Ctx.answered]

variable (x : Ctx) (hw : x.waits.find? (fun w => w.tk == tk) = some w)

include hw

theorem Ctx.armed_none : x.armed tk 0 [] =
    { x with waits := x.waits.map fun y => if y.tk = tk then { y with armed := true } else y } := by
  simp only [Ctx.armed, hw]
  rfl

/-- A reply with a record takes the reserved entry of f2. -/
theorem Ctx.armed_record (hbs : bs ≠ []) : (x.armed tk 0 bs).f2res = x.f2res - 1 ∧
    (x.armed tk 0 bs).f2 = x.f2 ++ [(wordAt bs 0, wakeWord w.addr (bs.getD 8 0).toNat)] := by
  simp only [Ctx.armed, hw, if_neg hbs]
  by_cases hmiss : bs.getD 9 0 = 0
  · rw [if_pos hmiss]
    exact ⟨rfl, rfl⟩
  · rw [if_neg hmiss]
    exact ⟨rfl, rfl⟩

end Reply

/-! ## A monitor that fired -/

theorem exec_monitorWake_member {tile ix c : Nat} {m : Monitor} {v : W64} {bad : Bool} {x : Ctx} {s : State}
    (hm : (s.tile tile).monitors[ix]? = some m) (hfired : m.fired = some (v, bad)) (hext : m.ext = false)
    (hpass : s.wakePasses tile m.flock m.member = true)
    (hc : (s.cores.find? fun e => e.2.flock == some m.flock && e.2.member == m.member) = some (c, x)) :
    exec (.monitorWake tile ix) s =
      .next ((s.updTile tile fun x => { x with monitors := x.monitors.eraseIdx ix }).onCore c fun x =>
        x.wakeRecord { addr := m.va, exp := m.exp, nb := m.nb, tk := m.tk } (if bad then 0 else v) (if bad then 3 else 0)) := by
  have hc' : ((s.updTile tile fun x => { x with monitors := x.monitors.eraseIdx ix }).cores.find?
      fun e => e.2.flock == some m.flock && e.2.member == m.member) = some (c, x) := hc
  change execMonitorWake tile ix s = _
  simp only [execMonitorWake, hm, hfired, hext, hpass, Bool.false_eq_true, if_false, Bool.not_true, State.updMember, hc']
  cases bad <;> rfl

theorem monitorWake_records {tile ix c : Nat} {m : Monitor} {v : W64} {bad : Bool} {x : Ctx} {s : State}
    (hm : (s.tile tile).monitors[ix]? = some m) (hfired : m.fired = some (v, bad)) (hext : m.ext = false)
    (hpass : s.wakePasses tile m.flock m.member = true)
    (hc : (s.cores.find? fun e => e.2.flock == some m.flock && e.2.member == m.member) = some (c, x)) :
    ∃ t, exec (.monitorWake tile ix) s = .next t ∧ (t.tile tile).monitors = (s.tile tile).monitors.eraseIdx ix ∧
      (t.ctx c).f2 = (s.ctx c).f2 ++ [if bad then (0, wakeWord m.va 3) else (v, wakeWord m.va 0)] := by
  refine ⟨_, exec_monitorWake_member hm hfired hext hpass hc, ?_, ?_⟩
  · exact congrArg TileSt.monitors (State.tile_updTile_same s tile fun x => { x with monitors := x.monitors.eraseIdx ix })
  · rw [ctx_onCore_same]
    cases bad <;> rfl

/-- Settles O25: each clause is one rule above, the forms of WAITA being `waita_asks` of one step. -/
theorem waitsOnAddresses : Obligations.WaitsOnAddresses := by
  unfold Obligations.WaitsOnAddresses
  refine ⟨fun gd a b w s hg => ?_, fun c w s hw hun hacc => ?_, fun ix tk r w s h hop hw => ?_,
    fun ix tk r w at_ bs locs s h hop hstage hw => ?_, fun tile ix m v bad c x s hm hfired hext hpass hc _ => ?_⟩
  case refine_1 =>
    have haddr : s.addr a 0 = s.rg a := s.addr_zero a
    refine ⟨waita_asks ?_, waita_asks ?_, waita_asks (guarded_of_ok hg fun s => s.waitaAt false (s.addr a (wideVal w)) (s.rg b)),
      waita_asks (guarded_of_ok hg fun s => s.waitaAt true (s.addr a (wideVal w)) (s.rg b))⟩
    · exact (guarded_of_ok hg fun s => s.waitaAt false (s.addr a 0) (s.rg b)).trans (by rw [haddr])
    · exact (guarded_of_ok hg fun s => s.waitaAt true (s.addr a 0) (s.rg b)).trans (by rw [haddr])
  case refine_2 =>
    obtain ⟨r, hreqs, hr⟩ := sendReq_sentBy s c w.tk w.addr (.arm w.tk)
    have hctx := ctx_onCore_same (s.sendReq c w.tk false w.addr (.arm w.tk)) c fun x =>
      { x with waits := x.waits.map fun y => if y.tk = w.tk then { y with sent := true } else y }
    rw [ctx_sendReq_numbered] at hctx
    exact ⟨_, r, monitorArm_sends hw hun hacc, hreqs, hr, congrArg Ctx.waits hctx, congrArg Ctx.seqno hctx,
      congrArg Ctx.unanswered hctx, rfl⟩
  case refine_3 =>
    exact ⟨fun v st miss hfind => exec_homeRequest_record h hop hw hfind,
      fun tile mem pa hfind => exec_homeRequest_arm h hop hw hfind⟩
  case refine_4 =>
    obtain ⟨t, ht, hctx⟩ := exec_remoteReply_arm h hop hstage
    have hw' : ((s.ctx r.core).answeredNum r.num).waits.find? (fun w => w.tk == tk) = some w := hw
    refine ⟨fun hbs => ⟨t, ht, ?_⟩, fun hbs => ⟨t, ht, ?_⟩⟩
    · subst hbs
      rw [Ctx.armed_none _ hw'] at hctx
      rw [hctx]
      exact ⟨rfl, rfl⟩
    · obtain ⟨hres, hf2⟩ := Ctx.armed_record _ hw' hbs
      exact ⟨(congrArg Ctx.f2res hctx).trans hres, (congrArg Ctx.f2 hctx).trans hf2⟩
  case refine_5 => exact monitorWake_records hm hfired hext hpass hc

end Sys2Proof.Machine

/-! PROOFS. Arrivals at a barrier are counted, its waits answer, and its phases complete (O26). -/

namespace Sys2Proof.Machine

/-! ## The object of a barrier -/

theorem barInst_updBar_same (s : State) (fl key : Nat) (h : BarInst → BarInst) :
    (s.updBar fl key h).barInst fl key = h (s.barInst fl key) := by
  by_cases hj : (s.flock fl).joins (key / 1024) = true
  · have hupd : s.updBar fl key h =
        { s with dgrps := mset s.dgrps ((s.flock fl).dgrpKey (key / 1024)) (h (s.barInst fl key)) } := if_pos hj
    rw [hupd]
    exact (if_pos hj).trans (mget_mset_same ..)
  · have hupd : s.updBar fl key h = s.updFlock fl fun f => { f with bars := mset f.bars key (h (s.barInst fl key)) } := if_neg hj
    rw [hupd, State.barInst, State.flock_updFlock_same]
    exact (if_neg hj).trans (mget_mset_same ..)

theorem barInst_congr {s t : State} (hflocks : t.flocks = s.flocks) (hdgrps : t.dgrps = s.dgrps) (fl key : Nat) :
    t.barInst fl key = s.barInst fl key := by
  rw [State.barInst, flock_congr hflocks, hdgrps]
  rfl

/-- The participant that a barrier lists is changed where the barrier is. -/
theorem BarInst.party_updParty (b : BarInst) (m : Nat) (f : Party → Party) (hf : ∀ q, (f q).member = q.member)
    (h : b.party m ∈ b.parties) : (b.updParty m f).party m = f (b.party m) := by
  have hsame : ((fun p : Party => p.member == m) ∘ fun p => if p.member == m then f p else p) = fun p => p.member == m := by
    funext q
    by_cases hq : q.member == m
    · simp only [Function.comp, hq, if_true, hf]
    · simp only [Function.comp, hq, Bool.false_eq_true, if_false]
  simp only [BarInst.party, BarInst.updParty, List.find?_map, hsame]
  cases hfind : b.parties.find? fun p => p.member == m with
  | some q => simp only [Option.map_some, Option.getD_some, List.find?_some hfind, if_true]
  | none =>
    rw [BarInst.party, hfind] at h
    simpa using List.find?_eq_none.1 hfind _ h

theorem BarInst.mem_updParty {b : BarInst} {p : Party} (m : Nat) (f : Party → Party) (hp : p ∈ b.parties)
    (hm : p.member = m) : f p ∈ (b.updParty m f).parties :=
  List.mem_map.2 ⟨p, hp, by simp [hm]⟩

/-! ## A change of a barrier together with the core at work -/

section Both

variable (s : State) (fl key : Nat) (h : BarInst → BarInst) (f : Ctx → Ctx)

theorem me_updBar_updMe : ((s.updBar fl key h).updMe f).me = f s.me :=
  (State.me_updMe _ f).trans (congrArg f (me_of_offBars (offBars_updBar s fl key h)))

theorem verdict_updBar_updMe : ((s.updBar fl key h).updMe f).verdict = s.verdict :=
  (congrArg State.verdict (offBars_updBar s fl key h) :)

theorem mem_updBar : (s.updBar fl key h).mem = s.mem := (congrArg State.mem (offBars_updBar s fl key h) :)
theorem lm_updBar : (s.updBar fl key h).lm = s.lm := (congrArg State.lm (offBars_updBar s fl key h) :)

theorem gNow_updBar_updMe (hl : (f s.me).l = s.me.l) (hc : (f s.me).c = s.me.c) (hs : (f s.me).s = s.me.s) (i : BitVec 5) :
    ((s.updBar fl key h).updMe f).gNow i = s.gNow i := by
  have hfocus : (s.updBar fl key h).focus = s.focus := (congrArg State.focus (offBars_updBar s fl key h) :)
  have hst : ((s.updBar fl key h).updMe f).stream = s.stream := stream_of_focus hfocus
  rw [State.gNow, hst, me_updBar_updMe, stream_of_streams hl hc hs, State.gNow]

end Both

/-! ## Arriving and waiting -/

/-- A bound of 1 has passed for the next word. -/
theorem wg_wrote (s : State) (d : BitVec 5) (v : W64) : WroteG s (s.wg d v) d v := by
  have hone : s.wgB d v 1 = s.wg d v := if_neg fun h => absurd h.2 (Nat.lt_irrefl 1)
  exact hone ▸ wgB_wrote s d v 1

/-- A participant has waited for every arrival it has issued, and its core has noted from which on. -/
def State.hasWaited (s : State) (fl key m lo : Nat) : State :=
  (s.updBar fl key fun i => i.updParty m fun p => { p with w := p.issued }).updMe fun x => x.note (.waited key lo)

theorem verdict_hasWaited (s : State) (fl key m lo : Nat) : (s.hasWaited fl key m lo).verdict = s.verdict :=
  verdict_updBar_updMe s fl key _ fun x => x.note (.waited key lo)

theorem gNow_hasWaited (s : State) (fl key m lo : Nat) (r : BitVec 5) : (s.hasWaited fl key m lo).gNow r = s.gNow r :=
  gNow_updBar_updMe s fl key _ (fun x => x.note (.waited key lo)) rfl rfl rfl r

/-- The barrier counts one more arrival issued by a participant. -/
def BarInst.issues (m : Nat) (b : BarInst) : BarInst := b.updParty m fun p => { p with issued := p.issued + 1 }

section Barrier

variable {gd : Guard} {bar : BarOp} {s : State} {fl : Nat} (hg : guardOk gd s = true) (hfl : s.me.flock = some fl)
  (halloc : s.myFlock.allocated (barNo bar) = true)

include hg halloc in
theorem onBar_eq (f : State → State) : s.onBar bar gd f = .next (f s) := by
  simp only [State.onBar, halloc, Bool.not_true, Bool.false_eq_true, if_false]
  exact guarded_of_ok hg f

include hfl

theorem myFl : s.me.flock.getD 0 = fl := by rw [hfl]; rfl

variable {i : BarInst} {p : Party} (hi : s.barInst fl (s.myBar bar) = i) (hp : i.party s.myParty = p)

include hi hp

theorem arrive_traps (h : p.issued = i.c + 2) : s.arrive bar = s.trapNow 0x15 := by
  simp only [State.arrive, myFl hfl, hi, hp]
  exact if_pos h

theorem arrive_counts (h : p.issued ≠ i.c + 2) :
    s.arrive bar = (s.updBar fl (s.myBar bar) (BarInst.issues s.myParty)).updMe fun x =>
      { x with arrivals := x.arrivals ++ [(s.myBar bar, x.tk)] } := by
  simp only [State.arrive, myFl hfl, hi, hp]
  exact if_neg h

theorem verdict_arrive (h : p.issued ≠ i.c + 2) : (s.arrive bar).verdict = s.verdict := by
  rw [arrive_counts hfl hi hp h]
  exact verdict_updBar_updMe s fl _ _ _

theorem me_arrive (h : p.issued ≠ i.c + 2) :
    (s.arrive bar).me = { s.me with arrivals := s.me.arrivals ++ [(s.myBar bar, s.me.tk)] } := by
  rw [arrive_counts hfl hi hp h]
  exact me_updBar_updMe s fl _ _ _

theorem barInst_arrive (h : p.issued ≠ i.c + 2) : (s.arrive bar).barInst fl (s.myBar bar) = i.issues s.myParty := by
  rw [arrive_counts hfl hi hp h, ← hi]
  exact barInst_updBar_same s fl (s.myBar bar) (BarInst.issues s.myParty)

omit hfl hi in
theorem party_issues (hmem : p ∈ i.parties) : (i.issues s.myParty).party s.myParty = { p with issued := p.issued + 1 } := by
  subst hp
  exact BarInst.party_updParty i s.myParty _ (fun _ => rfl) hmem

theorem barrierWait_noArrival (d : BitVec 5) (h : p.issued = p.w) : s.barrierWait bar d = s.wg d 2 := by
  simp only [State.barrierWait, myFl hfl, hi, hp]
  exact if_pos h

theorem barrierWait_waits (d : BitVec 5) (h : p.issued ≠ p.w) (hc : i.c < p.issued) :
    s.barrierWait bar d = s.waitNow .barrier := by
  simp only [State.barrierWait, myFl hfl, hi, hp]
  exact (if_neg h).trans (if_pos hc)

/-- A core that had waited for every phase of its barrier has arrived for the next, and waits for it. -/
theorem arrived_waits (d : BitVec 5) (hmem : p ∈ i.parties) (hc : p.issued = i.c) (hw : p.w = p.issued) :
    (s.arrive bar).barrierWait bar d = (s.arrive bar).waitNow .barrier := by
  have hne : p.issued ≠ i.c + 2 := by omega
  have hme := me_arrive hfl hi hp hne
  have hbar : (s.arrive bar).myBar bar = s.myBar bar := by rw [State.myBar, hme, State.myBar]
  have hparty : (s.arrive bar).myParty = s.myParty := by rw [State.myParty, hme, State.myParty]
  have hinst : (s.arrive bar).barInst fl ((s.arrive bar).myBar bar) = i.issues s.myParty := by
    rw [hbar]
    exact barInst_arrive hfl hi hp hne
  have hp' : (i.issues s.myParty).party (s.arrive bar).myParty = { p with issued := p.issued + 1 } := by
    rw [hparty]
    exact party_issues hp hmem
  exact barrierWait_waits ((congrArg Ctx.flock hme).trans hfl) hinst hp' d
    (fun heq => Nat.succ_ne_self p.issued (heq.trans hw)) (Nat.lt_succ_of_le (Nat.le_of_eq hc.symm))

theorem barrierWait_answers (d : BitVec 5) (h : p.issued ≠ p.w) (hc : p.issued ≤ i.c) :
    (s.barrierWait bar d).verdict = s.verdict ∧
      (s.barrierWait bar d).gNow d = (if d = 0 then 0 else i.waitResult p.w p.issued) ∧
      ∀ r, r ≠ d → (s.barrierWait bar d).gNow r = s.gNow r := by
  have heq : s.barrierWait bar d = (s.hasWaited fl (s.myBar bar) s.myParty p.w).wg d (i.waitResult p.w p.issued) := by
    simp only [State.barrierWait, myFl hfl, hi, hp]
    exact (if_neg h).trans (if_neg (Nat.not_lt.2 hc))
  obtain ⟨-, hd, hr⟩ := wg_wrote (s.hasWaited fl (s.myBar bar) s.myParty p.w) d (i.waitResult p.w p.issued)
  rw [heq]
  exact ⟨verdict_hasWaited s fl (s.myBar bar) s.myParty p.w, hd, fun r hne => (hr r hne).trans (gNow_hasWaited ..)⟩

end Barrier

/-! ## The flag of a BAR.ARWT that has arrived -/

section Awp

variable (s : State) (b : Bool) (n : Nat)

theorem me_setAwp : (s.setAwp b n).me = if s.me.awp = b ∧ s.me.awpBar = BitVec.ofNat 8 n then s.me
    else { s.me.note (.awp s.me.awp s.me.awpBar) with awp := b, awpBar := BitVec.ofNat 8 n } := State.me_updMe s _

theorem setAwp_sets : (s.setAwp b n).me.awp = b ∧ (s.setAwp b n).me.awpBar = BitVec.ofNat 8 n := by
  rw [me_setAwp]
  split
  case isTrue h => exact h
  case isFalse => exact ⟨rfl, rfl⟩

theorem setAwp_keeps {α : Type} (p : Ctx → α) (hp : ∀ (x : Ctx) log a k, p { x with slog := log, awp := a, awpBar := k } = p x) :
    p (s.setAwp b n).me = p s.me := by
  rw [me_setAwp]
  split
  · rfl
  · exact hp s.me _ _ _

theorem gNow_setAwp (r : BitVec 5) : (s.setAwp b n).gNow r = s.gNow r := by
  have hl := setAwp_keeps s b n Ctx.l fun _ _ _ _ => rfl
  have hc := setAwp_keeps s b n Ctx.c fun _ _ _ _ => rfl
  have hs := setAwp_keeps s b n Ctx.s fun _ _ _ _ => rfl
  have hst : (s.setAwp b n).stream = s.stream := rfl
  rw [State.gNow, hst, stream_of_streams hl hc hs, State.gNow]

end Awp

section Arwt

variable {gd : Guard} {bar : BarOp} {s : State} (d : BitVec 5) (hg : guardOk gd s = true)
  (halloc : s.myFlock.allocated (barNo bar) = true)

include hg halloc

/-- A BAR.ARWT that has arrived before waits, and does not arrive again (R228). -/
theorem barArwt_made (hawp : s.me.awp = true) (hbar : s.me.awpBar.toNat = barNo bar) (hv : s.verdict = .ran)
    (hran : (s.barrierWait bar d).verdict = .ran) :
    exec (.barArwt gd bar d) s = .next ((s.barrierWait bar d).setAwp false 0) := by
  refine (onBar_eq hg halloc _).trans ?_
  have hmade : (s.me.awp && s.me.awpBar.toNat == barNo bar) = true := by simp [hawp, hbar]
  simp only [hmade, if_true, hv, hran]

/-- A BAR.ARWT that has not arrived arrives, and waits for its phase (R228). -/
theorem barArwt_waits (hawp : s.me.awp = false) (hv : (s.arrive bar).verdict = .ran)
    (hwait : (s.arrive bar).barrierWait bar d = (s.arrive bar).waitNow .barrier) :
    exec (.barArwt gd bar d) s = .next (((s.arrive bar).waitNow .barrier).setAwp true (barNo bar)) := by
  refine (onBar_eq hg halloc _).trans ?_
  simp only [hawp, Bool.false_and, Bool.false_eq_true, if_false, hv, hwait, waitNow_verdict]

end Arwt

/-! ## An arrival at the object, and the end of a phase -/

/-- What holds an arrival back: an earlier access, a host-bound write, or a sent byte of its core (R223). -/
def State.HoldsArrival (s : State) (c tk : Nat) : Prop :=
  !(s.ctx c).eventsDone tk ∨ ((s.ctx c).sends.any fun b => decide (b.tk ≤ tk)) ∨
    (s.circuits c).any (fun k => k.send == (s.ctx c).logical && !k.inFlight.isEmpty)

theorem not_holdsArrival {s : State} {c tk : Nat} (hacc : ∀ a ∈ (s.ctx c).saccess, tk < a.tk)
    (hcommit : ∀ w ∈ (s.ctx c).commit, tk < w.tk) (hsends : ∀ b ∈ (s.ctx c).sends, tk < b.tk)
    (hcircuits : ∀ k ∈ s.circuits c, k.send = (s.ctx c).logical → k.inFlight = []) : ¬s.HoldsArrival c tk := by
  have hdone : (s.ctx c).eventsDone tk = true := by simpa [Ctx.eventsDone] using ⟨hacc, hcommit⟩
  have hsent : ((s.ctx c).sends.any fun b => decide (b.tk ≤ tk)) = false := by simpa using hsends
  have hfly : (s.circuits c).any (fun k => k.send == (s.ctx c).logical && !k.inFlight.isEmpty) = false := by simpa using hcircuits
  simp [State.HoldsArrival, hdone, hsent, hfly]

/-- What an arrival of the system scope finds handed on. -/
def State.portsFor (s : State) (key : Nat) : State := if key / 1024 / 32 = 4 then s.drainAll else s

theorem offPorts_portsFor (s : State) (key : Nat) : (s.portsFor key).offPorts = s.offPorts := by
  unfold State.portsFor
  split
  · exact offPorts_drainAll s
  · rfl

theorem barInst_portsFor (s : State) (fl key : Nat) : (s.portsFor key).barInst fl key = s.barInst fl key := by
  have hoff := offPorts_portsFor s key
  exact barInst_congr (s := s) (t := s.portsFor key) (congrArg State.flocks hoff :) (congrArg State.dgrps hoff :) fl key

theorem barrierArrival_counts {c key tk fl : Nat} {rest : List (Nat × Nat)} {s : State} (hfl : (s.ctx c).flock = some fl)
    (harr : (s.ctx c).arrivals = (key, tk) :: rest) (h : ¬s.HoldsArrival c tk) :
    exec (.barrierArrival c) s = .next (((s.portsFor key).updBar fl key fun i =>
      i.updParty (partyId fl (s.ctx c).member) fun p => { p with a := p.a + 1 }).onCore c fun x => { x with arrivals := rest }) := by
  change execBarrierArrival c s = _
  simp only [execBarrierArrival, harr]
  rw [hfl]
  exact congrArg Host.Outcome.next (if_neg h)

theorem phaseDone_of {i : BarInst} (hneed : i.need ≤ i.joined) (hall : ∀ p ∈ i.parties, i.c < p.a ∨ p.gone = true)
    (hone : ∃ p ∈ i.parties, i.c < p.a) (hpend : i.pend.getD 0 0 = 0) : i.phaseDone = true := by
  simp only [BarInst.phaseDone, Bool.and_eq_true, decide_eq_true_eq, List.all_eq_true, Bool.or_eq_true, List.any_eq_true,
    beq_iff_eq]
  exact ⟨⟨⟨hneed, hall⟩, hone⟩, hpend⟩

/-- A phase of a barrier completes now. -/
def State.completes (s : State) (fl key : Nat) : State := s.updBar fl key fun b => { b.complete with doneAt := s.now }

theorem barInst_completes (s : State) (fl key : Nat) :
    ((s.completes fl key).wakeAll.barInst fl key).c = (s.barInst fl key).c + 1 ∧
      ((s.completes fl key).wakeAll.barInst fl key).parties = (s.barInst fl key).parties := by
  have hinst : (s.completes fl key).wakeAll.barInst fl key = { (s.barInst fl key).complete with doneAt := s.now } :=
    barInst_updBar_same s fl key fun b => { b.complete with doneAt := s.now }
  rw [hinst]
  exact ⟨rfl, rfl⟩

theorem barrierPhaseComplete_completes {fl key : Nat} {s : State} (h : (s.barInst fl key).phaseDone = true) :
    exec (.barrierPhaseComplete fl key) s =
      .next (s.completes fl key).wakeAll :=
  congrArg Host.Outcome.next (if_pos h)

/-- Settles O26: the clauses on an instruction go by what `arrive` and `barrierWait` find in the object, those on the
object's own steps by `barrierArrival_counts` and `barrierPhaseComplete_completes`. -/
theorem barriersCountAndComplete : Obligations.BarriersCountAndComplete := by
  unfold Obligations.BarriersCountAndComplete
  refine ⟨fun gd bar d s fl hg hfl halloc => ⟨fun hmem h => ?arrives, fun h => ?ahead, fun h => ?noArrival,
      fun h hc => ?answers, fun h hc => ?waits, fun hawp hbar hv h hc => ?arwtAnswers, fun hawp hv hmem hc hw => ?arwtWaits⟩,
    fun c key tk rest s fl hfl harr hacc hcommit hsends hcircuits => ?counted,
    fun fl key s hneed hall hone hpend => ?complete⟩
  case arrives =>
    refine ⟨s.arrive bar, onBar_eq hg halloc _, verdict_arrive hfl rfl rfl h, ?_, congrArg Ctx.arrivals (me_arrive hfl rfl rfl h), ?_⟩
    · rw [barInst_arrive hfl rfl rfl h, party_issues rfl hmem]
    · rw [arrive_counts hfl rfl rfl h]
      exact ⟨mem_updBar .., lm_updBar ..⟩
  case ahead =>
    refine ⟨s.arrive bar, onBar_eq hg halloc _, ?_⟩
    rw [arrive_traps hfl rfl rfl h]
    exact trapWith_traps s 0x15 0 0
  case noArrival =>
    refine ⟨s.barrierWait bar d, onBar_eq hg halloc _, ?_⟩
    rw [barrierWait_noArrival hfl rfl rfl d h]
    exact wg_wrote s d 2
  case answers => exact ⟨s.barrierWait bar d, onBar_eq hg halloc _, barrierWait_answers hfl rfl rfl d h hc⟩
  case waits =>
    refine ⟨s.barrierWait bar d, onBar_eq hg halloc _, ?_⟩
    rw [barrierWait_waits hfl rfl rfl d h hc]
    rfl
  case arwtAnswers =>
    obtain ⟨hv', hd, -⟩ := barrierWait_answers hfl rfl rfl d h hc
    exact ⟨_, barArwt_made d hg halloc hawp hbar hv (hv'.trans hv), hv'.trans hv, (setAwp_sets _ false 0).1,
      (gNow_setAwp _ false 0 d).trans hd⟩
  case arwtWaits =>
    have hne : ((s.barInst fl (s.myBar bar)).party s.myParty).issued ≠ (s.barInst fl (s.myBar bar)).c + 2 := by omega
    have hwait := arrived_waits hfl rfl rfl d hmem hc hw
    refine ⟨_, barArwt_waits d hg halloc hawp ((verdict_arrive hfl rfl rfl hne).trans hv) hwait, rfl, (setAwp_sets _ true _).1,
      (setAwp_sets _ true _).2, ?_⟩
    calc (((s.arrive bar).waitNow .barrier).setAwp true (barNo bar)).me.arrivals
        = ((s.arrive bar).waitNow .barrier).me.arrivals := setAwp_keeps _ true _ Ctx.arrivals fun _ _ _ _ => rfl
      _ = (s.arrive bar).me.arrivals := waitNow_keeps Ctx.arrivals (fun _ _ _ _ _ => rfl) _ _
      _ = s.me.arrivals ++ [(s.myBar bar, s.me.tk)] := congrArg Ctx.arrivals (me_arrive hfl rfl rfl hne)
  case counted =>
    refine ⟨_, barrierArrival_counts hfl harr (not_holdsArrival hacc hcommit hsends hcircuits),
      congrArg Ctx.arrivals (ctx_onCore_same _ c _), fun p hp hm => ?_⟩
    rw [← barInst_portsFor s fl key] at hp
    have hinst := barInst_updBar_same (s.portsFor key) fl key fun i =>
      i.updParty (partyId fl (s.ctx c).member) fun p => { p with a := p.a + 1 }
    exact hinst ▸ BarInst.mem_updParty (partyId fl (s.ctx c).member) (fun p => { p with a := p.a + 1 }) hp hm
  case complete =>
    obtain ⟨hc, hparties⟩ := barInst_completes s fl key
    exact ⟨_, barrierPhaseComplete_completes (phaseDone_of hneed hall hone hpend), hc, hparties, mem_updBar .., lm_updBar ..⟩

end Sys2Proof.Machine

/-! PROOFS. SEND puts its entry on its circuit; commit buffers and the additions to flags drain (O27). -/

namespace Sys2Proof.Machine

/-! ## What SEND finds -/

/-- Whether the core's SEND has waited for a handle, on a circuit other than the one of this step (R232). -/
def State.SendWaited (s : State) (h : BitVec 6) (step : Option Nat) : Prop :=
  ∃ w, s.me.sendOn = some w ∧ w.1 = h ∧ ∀ k, step = some k → w.2 ≠ k

theorem sendOn_any_handle (s : State) (h : BitVec 6) :
    (s.me.sendOn.any fun w => w.1 == h) = true ↔ s.SendWaited h none := by
  simp [State.SendWaited, Option.any_eq_true]

theorem sendOn_any_step (s : State) (h : BitVec 6) (step : Nat) :
    (s.me.sendOn.any fun w => w.1 == h && w.2 != step) = true ↔ s.SendWaited h (some step) := by
  simp [State.SendWaited, Option.any_eq_true]

section Find

variable {s : State} {q : BitVec 3} {h : BitVec 6} {n : Nat}

theorem sendFind_none (hk : s.outbound s.core h.toNat = none) : (s.SendWaited h none → s.sendFind q h n = .traps 0x46) ∧
    (¬s.SendWaited h none → s.sendFind q h n = .traps 0x41) := by
  simp only [State.sendFind, hk]
  exact ⟨fun hw => congrArg _ (if_pos ((sendOn_any_handle s h).2 hw)),
    fun hw => congrArg _ (if_neg fun hany => hw ((sendOn_any_handle s h).1 hany))⟩

variable {k : Circuit} (hk : s.outbound s.core h.toNat = some k)

include hk

theorem sendFind_tornDown (hw : s.SendWaited h (some k.step)) : s.sendFind q h n = .traps 0x46 := by
  simp only [State.sendFind, hk]
  exact if_pos ((sendOn_any_step s h k.step).2 hw)

variable (hw : ¬s.SendWaited h (some k.step))

include hw

theorem sendFind_dead (hl : k.live = false) : s.sendFind q h n = .traps 0x41 := by
  simp only [State.sendFind, hk, hl]
  exact if_neg fun hany => hw ((sendOn_any_step s h k.step).1 hany)

variable (hl : k.live = true)

include hl

theorem sendFind_empty (hq : (s.me.getSq q).entries = []) : s.sendFind q h n = .short k.step .queueEmpty := by
  simp only [State.sendFind, hk, hl, hq]
  exact if_neg fun hany => hw ((sendOn_any_step s h k.step).1 hany)

variable {x : QEntry} {rest : List QEntry} (hq : (s.me.getSq q).entries = x :: rest)

include hq

theorem sendFind_size (hn : x.data.length ≠ n) : s.sendFind q h n = .traps 0x07 := by
  simp only [State.sendFind, hk, hl, hq, if_pos hn]
  exact if_neg fun hany => hw ((sendOn_any_step s h k.step).1 hany)

/-- The bytes that sends of a core on a handle still keep back count against the receiver's buffer (R232). -/
theorem sendFind_fits (hn : x.data.length = n) :
    let taken := k.rx.length + k.inFlight.length + ((s.me.sends.filter fun b => b.h == h.toNat).map fun b => b.bs.length).sum +
      x.data.length
    (taken ≤ 4096 → s.sendFind q h n = .ready x) ∧ (4096 < taken → s.sendFind q h n = .short k.step .credit) := by
  have hany := fun hany => hw ((sendOn_any_step s h k.step).1 hany)
  subst hn
  simp only [State.sendFind, hk, hl, hq, ne_eq, not_true, if_false, Bool.not_true, Bool.false_eq_true]
  exact ⟨fun hroom => (if_neg hany).trans (if_neg (Nat.not_lt.2 hroom)), fun hfull => (if_neg hany).trans (if_pos hfull)⟩

end Find

/-! ## What SEND and SEND.try do with what they find -/

section Send

variable {gd : Guard} {q : BitVec 3} {h : BitVec 6} {e : BitVec 5} (pd : BitVec 4) {s : State} (hg : guardOk gd s = true)
  (hd : (s.me.getSq q).depth ≠ 0)

theorem send_depthZero (hd : (s.me.getSq q).depth = 0) :
    ∀ i ∈ [Instr.send gd q h e, .sendTry gd q h e pd], ∃ t, exec i s = .next t ∧ TrapsAtWord s t 0x01 0 0 := by
  have hon (f : State → State) : s.onSq q gd f = .next (s.trapNow 0x01) := if_pos hd
  simp only [List.mem_cons, List.not_mem_nil, or_false, forall_eq_or_imp, forall_eq]
  exact ⟨⟨_, hon _, trapWith_traps s 0x01 0 0⟩, ⟨_, hon _, trapWith_traps s 0x01 0 0⟩⟩

include hg hd

theorem send_traps {cause : Cause} (hfind : s.sendFind q h (entryBytes e) = .traps cause) :
    ∀ i ∈ [Instr.send gd q h e, .sendTry gd q h e pd], ∃ t, exec i s = .next t ∧ TrapsAtWord s t cause 0 0 := by
  simp only [List.mem_cons, List.not_mem_nil, or_false, forall_eq_or_imp, forall_eq]
  refine ⟨⟨_, (onSq_eq _ hd hg).trans ?_, trapWith_traps s cause 0 0⟩, ⟨_, (onSq_eq _ hd hg).trans ?_, trapWith_traps s cause 0 0⟩⟩
  · simp only [hfind]; rfl
  · simp only [hfind]; rfl

theorem send_short {step : Nat} {r : WaitReason} (hfind : s.sendFind q h (entryBytes e) = .short step r) :
    (∃ t, exec (.send gd q h e) s = .next t ∧ t.verdict = .waits r) ∧
      ∃ t, exec (.sendTry gd q h e pd) s = .next t ∧ WroteP s t pd false := by
  refine ⟨⟨_, (onSq_eq _ hd hg).trans (by simp only [hfind]; rfl), ?_⟩, ⟨_, (onSq_eq _ hd hg).trans (by simp only [hfind]; rfl), ?_⟩⟩
  · exact waitNow_verdict (s.updMe fun x => { x with sendOn := some (h, step) }) r
  · exact wp_wrote s pd false

theorem send_ready {x : QEntry} (hfind : s.sendFind q h (entryBytes e) = .ready x) :
    exec (.send gd q h e) s = .next (s.sendEntry q h x) ∧
      exec (.sendTry gd q h e pd) s = .next ((s.sendEntry q h x).wp pd true) :=
  ⟨(onSq_eq _ hd hg).trans (by simp only [hfind]), (onSq_eq _ hd hg).trans (by simp only [hfind])⟩

end Send

/-! ## The entry on its way -/

theorem circuits_congr {s t : State} {c : Nat} (hparts : t.parts = s.parts) (hflocks : t.flocks = s.flocks)
    (hfl : (t.ctx c).flock = (s.ctx c).flock) : t.circuits c = s.circuits c := by
  have hpart : t.partOf c = s.partOf c := by rw [State.partOf, hfl, flock_congr hflocks]; rfl
  rw [State.circuits, hpart, State.part, hparts]
  rfl

theorem circuits_putOnCircuit (s : State) (c h : Nat) (bs : List Byte) :
    (s.putOnCircuit c h bs).circuits c = (s.circuits c).map fun k =>
      if k.h == h && k.send == (s.ctx c).logical then { k with inFlight := k.inFlight ++ bs } else k :=
  congrArg (fun p : Partition => p.drover.circuits) (State.part_updPart_same s (s.partOf c) _)

/-- What neither bytes on a circuit nor a core's context changes, sends that leave do not change. -/
theorem flushSends_keeps {α : Type} (p : State → α) (hput : ∀ s c h bs, p (State.putOnCircuit s c h bs) = p s)
    (hctx : ∀ s c f, p (State.updCtx s c f) = p s) (s : State) (c : Nat) : p (s.flushSends c) = p s := by
  unfold State.flushSends
  exact (hctx _ c _).trans (foldl_keeps p (fun s (b : SentBytes) => s.putOnCircuit c b.h b.bs) (fun _ _ => hput ..) _ s)

/-- The entry has left its queue, and its bytes stand with those that the core's sends keep back. -/
def State.keepsBack (s : State) (q : BitVec 3) (h : BitVec 6) (x : QEntry) : State :=
  (s.popSq q x).updMe fun y => { y with sends := y.sends ++ [({ tk := y.tk, h := h.toNat, bs := x.data } : SentBytes)] }

section Entry

variable (s : State) (q : BitVec 3) (h : BitVec 6) (x : QEntry)

theorem sendEntry_eq : s.sendEntry q h x = (s.keepsBack q h x).flushSends s.core := rfl

theorem me_keepsBack : (s.keepsBack q h x).me =
    { (s.popSq q x).me with sends := s.me.sends ++ [({ tk := s.me.tk, h := h.toNat, bs := x.data } : SentBytes)] } := by
  rw [State.keepsBack, State.me_updMe, State.popSq, State.me_updMe]
  rfl

theorem verdict_sendEntry : (s.sendEntry q h x).verdict = s.verdict :=
  flushSends_keeps State.verdict (fun _ _ _ _ => rfl) (fun _ _ _ => rfl) (s.keepsBack q h x) s.core

theorem core_sendEntry : (s.sendEntry q h x).core = s.core :=
  core_of_focus (flushSends_keeps State.focus (fun _ _ _ _ => rfl) (fun _ _ _ => rfl) (s.keepsBack q h x) s.core)

/-- The bytes of a SEND stay with its core as long as an earlier access can still fault (R210). -/
theorem me_sendEntry : (s.sendEntry q h x).me = { (s.popSq q x).me with
    sends := (s.me.sends ++ [({ tk := s.me.tk, h := h.toNat, bs := x.data } : SentBytes)]).filter fun b =>
      s.me.saccess.any fun a => decide (a.tk ≤ b.tk) } := by
  have hme : (s.keepsBack q h x).ctx s.core = _ := me_keepsBack s q h x
  have hacc : (s.popSq q x).me.saccess = s.me.saccess := (issues_popSq s q x).saccess
  rw [State.me, core_sendEntry, sendEntry_eq, ctx_flushSends, hme, ← hacc]

theorem entries_sendEntry {rest : List QEntry} (hq : (s.me.getSq q).entries = x :: rest) :
    ((s.sendEntry q h x).me.getSq q).entries = rest := by
  rw [me_sendEntry]
  exact entries_popSq hq

/-- With no earlier access outstanding the bytes are on their circuit at once. -/
theorem circuits_sendEntry (hacc : s.me.saccess = []) (hsends : s.me.sends = []) :
    (s.sendEntry q h x).circuits s.core = (s.circuits s.core).map fun j =>
      if j.h == h.toNat && j.send == s.me.logical then { j with inFlight := j.inFlight ++ x.data } else j := by
  have hpop := issues_popSq s q x
  have hme : (s.keepsBack q h x).ctx s.core = _ := me_keepsBack s q h x
  have hput : s.sendEntry q h x = ((s.keepsBack q h x).putOnCircuit s.core h.toNat x.data).updCtx s.core fun y =>
      { y with sends := y.sends.filter fun b => y.saccess.any fun a => decide (a.tk ≤ b.tk) } := by
    have hacc' : (s.popSq q x).me.saccess = [] := hpop.saccess.trans hacc
    simp only [sendEntry_eq, State.flushSends, hme, hsends, hacc', List.nil_append, List.any_nil, Bool.not_false,
      List.filter_cons, if_true, List.filter_nil, List.foldl_cons, List.foldl_nil, Bool.not_not]
  have hlogical : ((s.keepsBack q h x).ctx s.core).logical = s.me.logical := by rw [hme]; exact hpop.logical
  have hflock : ((s.keepsBack q h x).ctx s.core).flock = (s.ctx s.core).flock := by rw [hme]; exact hpop.flock
  have hcircuits : (s.keepsBack q h x).circuits s.core = s.circuits s.core := circuits_congr rfl rfl hflock
  rw [hput, ← hlogical, ← hcircuits, ← circuits_putOnCircuit]
  exact circuits_congr rfl rfl (ctx_updCtx_proj Ctx.flock _ _ _ _ fun _ => rfl)

end Entry

/-- A write of a predicate changes no more of its core than a stream. -/
theorem wp_keeps {α : Type} (p : Ctx → α) (hp : ∀ (x : Ctx) (l c v : StreamState), p { x with l := l, c := c, s := v } = p x)
    (s : State) (d : BitVec 4) (b : Bool) : p (s.wp d b).me = p s.me := by
  rw [me_wp]
  cases s.stream
  · exact hp s.me _ s.me.c s.me.s
  · exact hp s.me s.me.l _ s.me.s
  · exact hp s.me s.me.l s.me.c _

theorem circuits_wp (s : State) (d : BitVec 4) (b : Bool) (c : Nat) : (s.wp d b).circuits c = s.circuits c :=
  circuits_congr rfl rfl (ctx_updCtx_proj Ctx.flock s s.core c (fun x => x.updStream s.stream fun y => y.setP d b)
    fun x => by cases s.stream <;> rfl)

/-- SEND and SEND.try take the entry and leave what they send, and SEND.try says that it has sent (R232). -/
theorem sends_both {gd : Guard} {q : BitVec 3} {h : BitVec 6} {e : BitVec 5} (pd : BitVec 4) {s : State} {x : QEntry}
    {rest : List QEntry} (hg : guardOk gd s = true) (hd : (s.me.getSq q).depth ≠ 0)
    (hfind : s.sendFind q h (entryBytes e) = .ready x) (hq : (s.me.getSq q).entries = x :: rest) {sent : State → Prop}
    (hsend : sent (s.sendEntry q h x)) (htry : sent ((s.sendEntry q h x).wp pd true)) :
    (∃ t, exec (.send gd q h e) s = .next t ∧ t.verdict = s.verdict ∧ (t.me.getSq q).entries = rest ∧ sent t) ∧
      (∃ t, exec (.sendTry gd q h e pd) s = .next t ∧ t.verdict = s.verdict ∧ (t.me.getSq q).entries = rest ∧ sent t ∧
        t.pNow pd = true) := by
  obtain ⟨hexec, hexecTry⟩ := send_ready pd hg hd hfind
  have hv := verdict_sendEntry s q h x
  have hrest := entries_sendEntry s q h x hq
  obtain ⟨-, -, -, hp, -⟩ := wp_wrote (s.sendEntry q h x) pd true
  exact ⟨⟨_, hexec, hv, hrest, hsend⟩, ⟨_, hexecTry, hv,
    (wp_keeps (fun y => (y.getSq q).entries) (fun _ _ _ _ => rfl) _ pd true).trans hrest, htry, hp.trans (ite_self true)⟩⟩

theorem mem_sends_sendEntry {s : State} (q : BitVec 3) (h : BitVec 6) (x : QEntry)
    (hheld : ∃ a ∈ s.me.saccess, a.tk ≤ s.me.tk) :
    ({ tk := s.me.tk, h := h.toNat, bs := x.data } : SentBytes) ∈ (s.sendEntry q h x).me.sends := by
  rw [me_sendEntry]
  exact List.mem_filter.2 ⟨List.mem_append_right _ List.mem_cons_self, by simpa using hheld⟩

/-! ## The commit buffer (R234) -/

theorem offPorts_acceptHost (s : State) (port a : Nat) (bs : List Byte) : (s.acceptHost port a bs).offPorts = s.offPorts := by
  unfold State.acceptHost
  split
  · exact offPorts_drainPort ..
  · rfl

/-- An addition at a host's place reaches the host's memory alone. -/
theorem offPorts_addAt_host (s : State) (port a : Nat) (atomics : Bool) (v : W64) :
    (s.addAt (.host port a atomics) v).2.offPorts = s.offPorts := by
  have hdrain := offPorts_drainPort s port (if h : port < 4 then (s.ports[port]).fifo.length else 0)
  dsimp only [State.addAt]
  generalize s.drainPort port (if h : port < 4 then (s.ports[port]).fifo.length else 0) = u at hdrain ⊢
  split
  · exact hdrain
  · split
    · exact hdrain
    · exact hdrain

theorem commit_flagDone (x : Ctx) (r : Except Cause W64) : (x.flagDone r).commit = x.commit := by cases r <;> rfl

theorem commitBufferRelease_leaves {c : Nat} {s : State} {w : HostWrite} {rest : List HostWrite}
    (hcommit : (s.ctx c).commit = w :: rest) (hflag : ∀ f, w.flag = some f → ∃ port a x, f.loc = .host port a x) :
    ∃ t, exec (.commitBufferRelease c) s = .next t ∧ (t.ctx c).commit = rest ∧ t.mem = s.mem ∧ t.lm = s.lm := by
  cases hf : w.flag with
  | none =>
    have hoff := offPorts_acceptHost s w.port w.addr w.bs
    refine ⟨(s.acceptHost w.port w.addr w.bs).onCore c fun x => { x with commit := rest }, ?_,
      congrArg Ctx.commit (ctx_onCore_same ..), (mem_of_offPorts hoff :), (lm_of_offPorts hoff :)⟩
    change execCommitBufferRelease c s = _
    simp only [execCommitBufferRelease, hcommit, hf]
  | some f =>
    obtain ⟨port, a, x, hloc⟩ := hflag f hf
    have hoff := (offPorts_addAt_host (s.visibleAt f.sc) port a x 1).trans (offPorts_visibleAt s f.sc)
    rw [← hloc] at hoff
    refine ⟨((s.visibleAt f.sc).addAt f.loc 1).2.onCore c fun x =>
        ({ x with commit := rest } : Ctx).flagDone ((s.visibleAt f.sc).addAt f.loc 1).1, ?_, ?_, (mem_of_offPorts hoff :),
      (lm_of_offPorts hoff :)⟩
    · change execCommitBufferRelease c s = _
      simp only [execCommitBufferRelease, hcommit, hf]
    · exact (congrArg Ctx.commit (ctx_onCore_same ..)).trans (commit_flagDone ..)

/-! ## The addition to an STR's flag (R213) -/

theorem strFlagAdd_sends {c : Nat} {s : State} {f : FlagAdd} (hf : (s.ctx c).flagAdds.find? (fun f => !f.sent) = some f)
    (hcommit : ∀ w ∈ (s.ctx c).commit, f.tk < w.tk) (hun : (s.ctx c).unanswered.length < 64)
    (harm : s.armBefore c f.tk f.loc 8 = false) :
    ∃ t r, exec (.strFlagAdd c) s = .next t ∧ t.reqs = s.reqs ++ [r] ∧ r.sentBy s c f.addr (.strAdd f.tk) ∧
      (t.ctx c).flagAdds = (s.ctx c).flagAdds.map (fun g => if g.tk = f.tk then { g with sent := true } else g) ∧
      t.mem = s.mem ∧ t.lm = s.lm := by
  have hoff := offPorts_visibleAt s f.sc
  have hvis := ctx_of_offPorts hoff c
  obtain ⟨r, hreqs, hcore, haddr, hop, hnum, hrest⟩ := sendReq_sentBy (s.visibleAt f.sc) c f.tk f.addr (.strAdd f.tk)
  have hfree : ¬((((s.ctx c).commit.any fun w => decide (w.tk ≤ f.tk)) = true) ∨ (!(s.ctx c).canSend) = true ∨
      s.armBefore c f.tk f.loc 8 = true) := by
    simpa [harm, (s.ctx c).canSend_iff.2 hun] using hcommit
  refine ⟨((s.visibleAt f.sc).sendReq c f.tk false f.addr (.strAdd f.tk)).onCore c fun x =>
      { x with flagAdds := x.flagAdds.map fun g => if g.tk = f.tk then { g with sent := true } else g }, r, ?_,
    hreqs.trans (congrArg (· ++ [r]) (reqs_of_offPorts hoff)), ⟨hcore, haddr, hop, hnum.trans (by rw [hvis]), hrest⟩, ?_,
    (mem_of_offPorts hoff :), (lm_of_offPorts hoff :)⟩
  · change execStrFlagAdd c s = _
    simp only [execStrFlagAdd, hf]
    exact congrArg Host.Outcome.next (if_neg hfree)
  · rw [ctx_onCore_same, ctx_sendReq_numbered, hvis]
    rfl

theorem leNat_natLE (n v : Nat) : leNat (natLE n v) = v % 256 ^ n := by
  induction n generalizing v with
  | zero => simp [natLE, leNat, Nat.mod_one]
  | succ n ih =>
    rw [natLE, leNat, ih, BitVec.toNat_ofNat]
    exact Nat.mod_mul.symm.trans (congrArg (v % ·) (pow_succ' 256 n).symm)

theorem leWord_wordLE (w : W64) : leWord (wordLE w) = w := by
  rw [leWord, wordLE, leNat_natLE]
  exact (congrArg (BitVec.ofNat 64) (Nat.mod_eq_of_lt w.isLt)).trans (BitVec.ofNat_toNat _ w |>.trans (BitVec.setWidth_eq w))

theorem panelKey_noteFloor (s : State) (t tile off : Nat) (r : Request) :
    (s.noteFloor t r).panelKey tile off = s.panelKey tile off :=
  panelKey_updTile s t tile off _ fun _ => rfl

theorem reqs_writeLoc_panel (s : State) (tile off : Nat) (bs : List Byte) :
    (s.writeLoc (.panel tile off) bs).reqs = s.reqs := by
  simp only [State.writeLoc]
  split <;> rfl

/-- A flag in tile storage that is not poisoned gets its addition, and its old value is the answer (R213). -/
theorem addAt_panel {s : State} {tile off : Nat} (v : W64) (h : s.poisonedLoc (.panel tile off) 8 = false) :
    s.addAt (.panel tile off) v = (.ok (leWord (s.readLoc (.panel tile off) 8)),
      s.writeLoc (.panel tile off) (wordLE (leWord (s.readLoc (.panel tile off) 8) + v))) := by
  simp only [State.addAt, h, Bool.false_eq_true, if_false]

section Flag

variable {s : State} {ix tk tile off : Nat} {r : Request} {f : FlagAdd}

/-- A home as it adds to a flag: the request's floor is noted, and what the flag's scope demands is visible. -/
def State.atFlag (s : State) (r : Request) (f : FlagAdd) : State := (s.noteFloor (s.ingress r) r).visibleAt f.sc

theorem panelKey_atFlag : (s.atFlag r f).panelKey tile off = s.panelKey tile off :=
  (congrArg (fun u : State => u.panelKey tile off) (offPorts_visibleAt (s.noteFloor (s.ingress r) r) f.sc) :).trans
    (panelKey_noteFloor ..)

theorem mem_atFlag : (s.atFlag r f).mem = s.mem :=
  (mem_of_offPorts (offPorts_visibleAt (s.noteFloor (s.ingress r) r) f.sc) :)
theorem lm_atFlag : (s.atFlag r f).lm = s.lm :=
  (lm_of_offPorts (offPorts_visibleAt (s.noteFloor (s.ingress r) r) f.sc) :)
theorem reqs_atFlag : (s.atFlag r f).reqs = s.reqs :=
  (reqs_of_offPorts (offPorts_visibleAt (s.noteFloor (s.ingress r) r) f.sc) :)
theorem poison_atFlag : (s.atFlag r f).poison = s.poison :=
  (congrArg State.poison (offPorts_visibleAt (s.noteFloor (s.ingress r) r) f.sc) :)

theorem readLoc_atFlag : (s.atFlag r f).readLoc (.panel tile off) 8 = s.readLoc (.panel tile off) 8 := by
  simp only [State.readLoc, mem_atFlag, panelKey_atFlag]

theorem poisonedLoc_atFlag : (s.atFlag r f).poisonedLoc (.panel tile off) 8 = s.poisonedLoc (.panel tile off) 8 := by
  rw [poisonedLoc_panel, poisonedLoc_panel, poison_atFlag, panelKey_atFlag]

variable (hop : r.op = .strAdd tk) (hf : (s.ctx r.core).flagAdds.find? (fun f => f.tk == tk) = some f)
  (hplace : (s.noteFloor (s.ingress r) r).flagPlace r.core f = some (.panel tile off))
  (hpoison : s.poisonedLoc (.panel tile off) 8 = false)

include hop hf hplace hpoison

theorem serve_strAdd : (s.noteFloor (s.ingress r) r).serve r =
    .answer (.done 0 0 (wordLE (leWord (s.readLoc (.panel tile off) 8))) [])
      ((s.atFlag r f).writeLoc (.panel tile off) (wordLE (leWord (s.readLoc (.panel tile off) 8) + 1))) := by
  have hf' : ((s.noteFloor (s.ingress r) r).ctx r.core).flagAdds.find? (fun f => f.tk == tk) = some f := hf
  have hadd := addAt_panel 1 ((poisonedLoc_atFlag (r := r) (f := f)).trans hpoison)
  rw [readLoc_atFlag] at hadd
  have hserve : (s.noteFloor (s.ingress r) r).serve r = (s.noteFloor (s.ingress r) r).serveFlag r tk := by
    simp only [State.serve, hop]
  unfold State.atFlag at hadd ⊢
  simp only [hserve, State.serveFlag, hf', hplace, hadd]

theorem exec_homeRequest_strAdd (h : s.Arrives ix r) : ∃ t, exec (.homeRequest ix) s = .next t ∧ t.lm = s.lm ∧
    t.reqs = s.reqs.set ix { r with stage := .answered 0 0 (wordLE (leWord (s.readLoc (.panel tile off) 8))) [] } ∧
    leWord (Memory.readN t.mem (s.panelKey tile off) 8) = leWord (s.readLoc (.panel tile off) 8) + 1 ∧
    ∀ a, (a < s.panelKey tile off ∨ s.panelKey tile off + 8 ≤ a) → Memory.read t.mem a = Memory.read s.mem a := by
  generalize hnew : wordLE (leWord (s.readLoc (.panel tile off) 8) + 1) = new
  have hlen : new.length = 8 := hnew ▸ length_natLE 8 _
  have hserve := serve_strAdd hop hf hplace hpoison
  rw [hnew] at hserve
  have hwrote := writeLoc_wrote (s.atFlag r f) (loc := .panel tile off) new trivial
  have hmem : ((s.atFlag r f).writeLoc (.panel tile off) new).mem = Memory.writeN s.mem (s.panelKey tile off) new := by
    refine hwrote.bytes.trans ?_
    rw [State.keyAt, panelKey_atFlag, State.bytesAt, mem_atFlag]
  have hreqs := (reqs_writeLoc_panel (s.atFlag r f) tile off new).trans reqs_atFlag
  refine ⟨_, exec_homeRequest_done h hserve, hwrote.elsewhere.1.trans lm_atFlag, ?_, ?_, fun a ha => ?_⟩
  · exact congrArg (fun rs : List Request => rs.set ix
      { r with stage := .answered 0 0 (wordLE (leWord (s.readLoc (.panel tile off) 8))) [] }) hreqs
  · refine (congrArg (fun m => leWord (Memory.readN m (s.panelKey tile off) 8)) hmem).trans ?_
    have hread := Memory.readN_writeN s.mem (s.panelKey tile off) new
    rw [hlen] at hread
    rw [hread, ← hnew, leWord_wordLE]
  · refine (congrArg (Memory.read · a) hmem).trans (Memory.read_writeN_outside _ _ _ _ ?_)
    rw [hlen]
    exact ha

end Flag

/-- Settles O27: SEND by what `sendFind` finds, and each step that drains a buffer by its own rule above. -/
theorem sendsAndDrains : Obligations.SendsAndDrains := by
  unfold Obligations.SendsAndDrains
  refine ⟨fun gd q h e pd s k x rest hg hd hk hl hsame hq hn => ?sends, fun gd q h e pd s hg => ?refused,
    fun c s w rest hcommit hflag => commitBufferRelease_leaves hcommit hflag,
    fun c s f hf hcommit hun harm => strFlagAdd_sends hf hcommit hun harm,
    fun ix tk tile off r f s h hop hf hplace hpoison => exec_homeRequest_strAdd hop hf hplace hpoison h⟩
  case sends =>
    have hw : ¬s.SendWaited h (some k.step) := fun ⟨w, hon, hh, hne⟩ => hne _ rfl (hsame w hon hh)
    obtain ⟨hready, hcredit⟩ := sendFind_fits hk hw hl hq hn
    refine ⟨fun hroom => ⟨fun hacc hsends => ?_, fun hheld => ?_⟩, fun hfull => send_short pd hg hd (hcredit hfull)⟩
    · have hcircuits := circuits_sendEntry s q h x hacc hsends
      exact sends_both pd hg hd (hready hroom) hq hcircuits ((circuits_wp ..).trans hcircuits)
    · have hmem := mem_sends_sendEntry q h x hheld
      exact sends_both pd hg hd (hready hroom) hq hmem
        ((wp_keeps Ctx.sends (fun _ _ _ _ => rfl) (s.sendEntry q h x) pd true).symm ▸ hmem)
  case refused =>
    refine ⟨send_depthZero pd, fun hd => ⟨fun hk hw => ?_, fun hk hw => ?_, fun k hk => ⟨fun hw => ?_, fun hw => ⟨fun hl => ?_,
      fun hl => ⟨fun x rest hq hn => ?_, fun hq => ?_⟩⟩⟩⟩⟩
    · exact send_traps pd hg hd ((sendFind_none hk).2 hw)
    · exact send_traps pd hg hd ((sendFind_none hk).1 hw)
    · exact send_traps pd hg hd (sendFind_tornDown hk hw)
    · exact send_traps pd hg hd (sendFind_dead hk hw hl)
    · exact send_traps pd hg hd (sendFind_size hk hw hl hq hn)
    · exact send_short pd hg hd (sendFind_empty hk hw hl hq)

end Sys2Proof.Machine

/-! PROOFS. The matrix instructions stage their bank, grant swaps and take results (O36). -/

namespace Sys2Proof.Machine

/-! ## What a matrix instruction waits for (R270, R280) -/

section Conditions

variable {s : State} {gd : Guard} {f : State → State}

theorem onMx_absent (h : s.myFlock.mxe = 0) : s.onMx gd f = .next (s.trapNow 0x01) := if_pos h

theorem onMx_present (h : s.myFlock.mxe ≠ 0) (hg : guardOk gd s = true) : s.onMx gd f = .next (f s) :=
  (if_neg h).trans (guarded_of_ok hg f)

theorem onStaging_free (h : s.me.mx.pending = none) : s.onStaging f = f s := by
  rw [State.onStaging, h]
  rfl

theorem onStaging_full (h : s.me.mx.pending ≠ none) : s.onStaging f = s.waitNow .queueFull :=
  if_pos (Option.isSome_iff_ne_none.2 h)

/-- MXWAIT and MXSWAP have a form that is refused with the same cause before the engine is looked for. -/
theorem refused_or_absent (h : s.myFlock.mxe = 0) (c : Prop) [Decidable c] :
    (if c then .next (s.trapNow 0x01) else s.onMx gd f) = .next (s.trapNow 0x01) := by
  rw [onMx_absent h, ite_self]

end Conditions

theorem traps_of {s : State} {i : Instr} {cause : Cause} (h : exec i s = .next (s.trapNow cause)) :
    ∃ t, exec i s = .next t ∧ TrapsAtWord s t cause 0 0 := ⟨_, h, trapWith_traps s cause 0 0⟩

/-! ## The staging bank (R270) -/

theorem Matrix.stagingBank_setStaging (m : Matrix) (b : Bank) : (m.setStaging b).stagingBank = b := by
  unfold Matrix.setStaging Matrix.stagingBank
  cases m.staging <;> rfl

/-- The core at work with its staging bank changed. -/
def State.stage (s : State) (f : Bank → Bank) : State :=
  s.updMe fun x => x.updMx fun m => m.setStaging (f m.stagingBank)

theorem me_stage (s : State) (f : Bank → Bank) :
    (s.stage f).me = { s.me with mx := s.me.mx.setStaging (f s.me.mx.stagingBank) } := State.me_updMe s _

/-- An instruction that writes the staging bank changes it alone, and waits while a nest is pending. -/
theorem stages_of {s : State} {i : Instr} {ok : Prop} {f : Bank → Bank} {r : State → State}
    (hexec : exec i s = .next (s.onStaging r)) (hr : ok → r s = s.stage f) :
    (s.me.mx.pending = none → ok → ∃ t, exec i s = .next t ∧ t.verdict = s.verdict ∧ SameButCore s t ∧
      { t.me with mx := s.me.mx } = s.me ∧ t.me.mx.stagingBank = f s.me.mx.stagingBank ∧
      t.me.mx = s.me.mx.setStaging (f s.me.mx.stagingBank)) ∧
    (s.me.mx.pending ≠ none → ∃ t, exec i s = .next t ∧ t.verdict = .waits .queueFull) := by
  refine ⟨fun hfree hok => ⟨s.stage f, ?_, rfl, sameButCore_updMe s _, ?_, ?_, ?_⟩, fun hfull => ⟨_, hexec, ?_⟩⟩
  · rw [hexec, onStaging_free hfree, hr hok]
  · rw [me_stage]
  · rw [me_stage, Matrix.stagingBank_setStaging]
  · rw [me_stage]
  · rw [onStaging_full hfull, waitNow_verdict]

/-- The base word of MXBIND to a view, as a sum (R268, R282). -/
theorem viewBase_eq (kind : BitVec 2) (n : BitVec 3) : fieldWord [(63, 1), (62, kind.toNat), (59, n.toNat)] =
    BitVec.ofNat 64 (2 ^ 63 + kind.toNat * 2 ^ 62 + n.toNat * 2 ^ 59) := by
  rw [fieldWord, List.foldl_cons, List.foldl_cons, List.foldl_cons, List.foldl_nil, Nat.zero_add, Nat.one_mul]

/-- The view register that MXBIND names, as the word found it at issue. -/
theorem boundView_eq (s : State) (kind : BitVec 2) (n : BitVec 3) :
    (if kind = 0 then s.rd.viewT[n.toFin] else s.rd.viewA[n.toFin]) =
      if kind = 0 then s.rd.viewT.toList.getD n.toNat 0 else s.rd.viewA.toList.getD n.toNat 0 := by
  rw [getElem_toFin_eight _ n 0, getElem_toFin_eight _ n 0]

/-! ## Results in two registers (R285) -/

theorem mx_updStream (x : Ctx) (st : StreamId) (f : StreamState → StreamState) : (x.updStream st f).mx = x.mx := by
  cases st <;> rfl

theorem mx_wg (s : State) (d : BitVec 5) (v : W64) : (s.wg d v).me.mx = s.me.mx := by rw [me_wg, mx_updStream]

theorem gNow_updMx (s : State) (f : Matrix → Matrix) (i : BitVec 5) : (s.updMe fun x => x.updMx f).gNow i = s.gNow i := by
  rw [State.gNow, State.me_updMe]
  exact congrArg (·.getG i) (stream_of_streams rfl rfl rfl _)

/-- A pair of registers with their new values, all others as they were. -/
def GivesPair (s t : State) (d : BitVec 5) (v w : W64) : Prop :=
  t.gNow d = (if d = 0 then 0 else v) ∧ t.gNow (d + 1) = w ∧ (∀ i, i ≠ d → i ≠ d + 1 → t.gNow i = s.gNow i) ∧
    SameButCore s t ∧ t.verdict = s.verdict

theorem givesPair_wg (s : State) {d : BitVec 5} (hd : d ≠ 31) (v w : W64) :
    GivesPair s ((s.wg d v).wg (d + 1) w) d v w := by
  have hzero : d + 1 ≠ 0 := by bv_omega
  have hne : d ≠ d + 1 := by bv_omega
  obtain ⟨⟨hsame, -⟩, hgives, hothers⟩ := wg_wrote s d v
  obtain ⟨⟨hsame', -⟩, hgives', hothers'⟩ := wg_wrote (s.wg d v) (d + 1) w
  refine ⟨(hothers' d hne).trans hgives, hgives'.trans (if_neg hzero), fun i hi hi' => ?_, sameButCore_trans hsame hsame', rfl⟩
  exact (hothers' i hi').trans (hothers i hi)

/-- The matrix engine of the core at work may change before the pair is written. -/
theorem GivesPair.of_updMx {s t : State} {d : BitVec 5} {v w : W64} {f : Matrix → Matrix}
    (h : GivesPair (s.updMe fun x => x.updMx f) t d v w) : GivesPair s t d v w := by
  obtain ⟨hlow, hhigh, hothers, hsame, hverdict⟩ := h
  exact ⟨hlow, hhigh, fun i hi hi' => (hothers i hi hi').trans (gNow_updMx s f i),
    sameButCore_trans (sameButCore_updMe s _) hsame, hverdict⟩

/-! ## The instructions under their guard (R281 to R283, R285, R287) -/

section Present

variable {s : State} {gd : Guard} (hmx : s.myFlock.mxe ≠ 0) (hg : guardOk gd s = true)

include hmx hg

theorem exec_mxsetHdr (a : BitVec 5) : exec (.mxsetHdr gd a) s = .next (s.onStaging fun s => s.stage fun x =>
    { x with hdr := (chunks 8 (s.vRead a)).map (BitVec.ofNat 64), gen := false, gl := 0, gx := false }) :=
  onMx_present hmx hg

theorem exec_mxsetLvl (a : BitVec 5) : exec (.mxsetLvl gd a) s = .next (s.onStaging fun s => s.stage fun x =>
    { x with lvl := (chunks 4 (s.vRead a)).map (BitVec.ofNat 32) }) :=
  onMx_present hmx hg

theorem exec_mxbindG (role : BitVec 4) (b : BitVec 5) : exec (.mxbindG gd role b) s = .next (s.onStaging fun s =>
    if 2 ^ 23 ≤ (s.rg b).toNat then s.trapNow 0x63
    else s.stage fun x => { x with hdr := x.hdr.set (6 + role.toNat) (s.rg b) }) :=
  onMx_present hmx hg

theorem exec_mxbindView (role : BitVec 4) (kind : BitVec 2) (n : BitVec 3) :
    exec (.mxbindView gd role kind n) s = .next (s.onStaging fun s =>
      if fld (if kind = 0 then s.rd.viewT.toList.getD n.toNat 0 else s.rd.viewA.toList.getD n.toNat 0) 16 12 = 0 then
        s.trapNow 0x04
      else s.stage fun x => { x with
        hdr := x.hdr.set (6 + role.toNat) (BitVec.ofNat 64 (2 ^ 63 + kind.toNat * 2 ^ 62 + n.toNat * 2 ^ 59)) }) := by
  simp only [← boundView_eq, ← viewBase_eq]
  exact onMx_present hmx hg

theorem exec_mxgrp (en : Bool) (gl : BitVec 3) (gx : Bool) : exec (.mxgrp gd en gl gx) s =
    .next (s.onStaging fun s => s.stage fun x => { x with gen := en, gl := gl, gx := gx }) :=
  onMx_present hmx hg

theorem exec_mxswap {k : BitVec 10} (hk : k ≠ 0) : exec (.mxswap gd k) s = .next (
    if 65535 < s.me.mx.grants + k.toNat then s.trapNow 0x63
    else s.updMe fun x => x.updMx fun m => { m with grants := m.grants + k.toNat }) :=
  (if_neg hk).trans (onMx_present hmx hg)

/-- Taking the oldest result. -/
def Matrix.takeResult (rest : List NestResult) (m : Matrix) : Matrix := { m with results := rest, outst := m.outst - 1 }

theorem mxwait_none {d : BitVec 5} (hd : d ≠ 31) (h : s.me.mx.outst = 0) :
    exec (.mxwait gd d) s = .next ((s.wg d 2).wg (d + 1) 0) := by
  refine ((if_neg hd).trans (onMx_present hmx hg)).trans ?_
  rw [if_pos h]

theorem mxwait_takes {d : BitVec 5} (hd : d ≠ 31) (h : s.me.mx.outst ≠ 0) {r : NestResult} {rest : List NestResult}
    (hr : s.me.mx.results = r :: rest) : exec (.mxwait gd d) s =
      .next (((s.updMe fun x => x.updMx (Matrix.takeResult rest)).wg d r.r0).wg (d + 1) r.r1) := by
  refine ((if_neg hd).trans (onMx_present hmx hg)).trans ?_
  simp only [if_neg h, hr]
  rfl

theorem mxwait_waits {d : BitVec 5} (hd : d ≠ 31) (h : s.me.mx.outst ≠ 0) (hr : s.me.mx.results = []) :
    exec (.mxwait gd d) s = .next (s.waitNow .mxwait) := by
  refine ((if_neg hd).trans (onMx_present hmx hg)).trans ?_
  simp only [if_neg h, hr]

end Present

/-- Settles O36: the staging instructions by the one change they make, MXSWAP and MXWAIT by what the engine holds. -/
theorem matrixStagingAndWaits : Obligations.MatrixStagingAndWaits := by
  intro gd a b d role kind n gl en gx k s
  refine ⟨fun h => ?absent, fun hmx hg => ?present⟩
  case absent =>
    simp only [List.forall_mem_cons, List.not_mem_nil, false_implies, implies_true, and_true]
    have absent {i : Instr} {f : State → State} (hi : exec i s = s.onMx gd f) := traps_of (hi.trans (onMx_absent h))
    exact ⟨absent rfl, absent rfl, absent rfl, absent rfl, absent rfl, absent rfl, traps_of (refused_or_absent h _),
      absent rfl, absent rfl, traps_of (refused_or_absent h _)⟩
  case present =>
    refine ⟨?hdr, ?lvl, ?bindG, fun hfree hbase => ?badBase, ?bindView, fun hfree hext => ?badView, ?grp,
      fun hk hroom => ?grants, fun hk hover => ?tooMany, fun hd hnone => ?none, fun r rest hd hout hr => ?takes,
      fun hd hout hr => ?waits⟩
    case hdr => exact stages_of (exec_mxsetHdr hmx hg a) fun _ => rfl
    case lvl => exact stages_of (exec_mxsetLvl hmx hg a) fun _ => rfl
    case bindG => exact stages_of (exec_mxbindG hmx hg role b) fun hbase => if_neg (Nat.not_le.2 hbase)
    case badBase =>
      exact traps_of ((exec_mxbindG hmx hg role b).trans (congrArg _ ((onStaging_free hfree).trans (if_pos hbase))))
    case bindView => exact stages_of (exec_mxbindView hmx hg role kind n) fun hext => if_neg hext
    case badView =>
      exact traps_of ((exec_mxbindView hmx hg role kind n).trans (congrArg _ ((onStaging_free hfree).trans (if_pos hext))))
    case grp => exact stages_of (exec_mxgrp hmx hg en gl gx) fun _ => rfl
    case grants => exact ⟨_, (exec_mxswap hmx hg hk).trans (congrArg _ (if_neg (Nat.not_lt.2 hroom))), rfl, onlyMe_updMe s _⟩
    case tooMany => exact traps_of ((exec_mxswap hmx hg hk).trans (congrArg _ (if_pos hover)))
    case none => exact ⟨_, mxwait_none hmx hg hd hnone, givesPair_wg s hd 2 0⟩
    case takes =>
      refine ⟨_, mxwait_takes hmx hg hd hout hr, (givesPair_wg _ hd r.r0 r.r1).of_updMx, ?_, ?_⟩ <;>
        rw [mx_wg, mx_wg, State.me_updMe] <;> rfl
    case waits => exact ⟨_, mxwait_waits hmx hg hd hout hr, waitNow_verdict s _⟩

end Sys2Proof.Machine

/-! PROOFS. A nest is handed over, starts, passes, drains and leaves its result (O37). -/

namespace Sys2Proof.Machine

/-! ## The pending nest starts (R270) -/

section SetStaging

variable (m : Matrix) (b : Bank)

@[simp] theorem Matrix.running_setStaging : (m.setStaging b).running = m.running := by unfold Matrix.setStaging; split <;> rfl
@[simp] theorem Matrix.pending_setStaging : (m.setStaging b).pending = m.pending := by unfold Matrix.setStaging; split <;> rfl
@[simp] theorem Matrix.outst_setStaging : (m.setStaging b).outst = m.outst := by unfold Matrix.setStaging; split <;> rfl
@[simp] theorem Matrix.ngo_setStaging : (m.setStaging b).ngo = m.ngo := by unfold Matrix.setStaging; split <;> rfl

end SetStaging

/-- A pending nest becomes the running one where none runs. -/
theorem Matrix.startPending_idle {m : Matrix} {n : Nest} (hr : m.running = none) (hp : m.pending = some n) :
    m.startPending.running.map (·.num) = some n.num ∧ m.startPending.pending = none := by
  simp [Matrix.startPending, hr, hp]

theorem Matrix.startPending_busy {m : Matrix} (hr : m.running ≠ none) : m.startPending = m := by
  obtain ⟨n, hn⟩ := Option.ne_none_iff_exists'.1 hr
  simp only [Matrix.startPending, hn]

/-- A start changes neither count. -/
theorem Matrix.startPending_counts (m : Matrix) : m.startPending.outst = m.outst ∧ m.startPending.ngo = m.ngo := by
  unfold Matrix.startPending
  split <;> simp

/-! ## The hand-over (R284, R286) -/

/-- The nest that the staging bank becomes, with the views as the word found them. Log 75, DESIGN CHOICE, for its number. -/
def State.handed (s : State) (commit : Option Bool) : Nest :=
  let m := s.me.mx
  { num := m.ngo, bank := m.stagingBank, tviews := s.rd.viewT.toList, aviews := s.rd.viewA.toList, commit := commit
    slot := s.me.slot, tk := s.me.tk
    shape := if commit.isSome then m.tileShape else (m.stagingBank.rows, m.stagingBank.nt) }

/-- The matrix engine with a nest handed to it, before any start. -/
def Matrix.take (m : Matrix) (n : Nest) : Matrix := { m with pending := some n, ngo := m.ngo + 1, outst := m.outst + 1 }

theorem me_handNest (s : State) (commit : Option Bool) :
    (s.handNest commit).me = { s.me with mx := (s.me.mx.take (s.handed commit)).startPending } := State.me_updMe s _

section OnHand

variable {s : State} {i : Instr} {check : Bank → Option Cause} {commit : Option Bool}
  (hexec : exec i s = .next (s.onHand check commit)) (hfree : s.me.mx.pending = none) (hroom : s.me.mx.outst < 8)

include hexec hfree hroom

/-- A staging bank that the checks pass is handed over: the counts are up by one, and the nest runs, or is pending behind the
one that runs. -/
theorem hands_of (h : check s.me.mx.stagingBank = none) :
    ∃ t ne, exec i s = .next t ∧ t.verdict = s.verdict ∧ SameButCore s t ∧ { t.me with mx := s.me.mx } = s.me ∧
      t.me.mx.outst = s.me.mx.outst + 1 ∧ t.me.mx.ngo = s.me.mx.ngo + 1 ∧ ne.bank = s.me.mx.stagingBank ∧
      ne.commit = commit ∧ ne.num = s.me.mx.ngo ∧
      (if s.me.mx.running = none then t.me.mx.running.map (·.num) = some ne.num ∧ t.me.mx.pending = none
        else t.me.mx.pending = some ne ∧ t.me.mx.running = s.me.mx.running) := by
  obtain ⟨houtst, hngo⟩ := (s.me.mx.take (s.handed commit)).startPending_counts
  refine ⟨s.handNest commit, s.handed commit, ?_, rfl, sameButCore_updMe s _, ?_, ?_, ?_, rfl, rfl, rfl, ?_⟩
  · rw [hexec, State.onHand, onStaging_free hfree, if_neg (Nat.not_le.2 hroom), h]
  · rw [me_handNest]
  · rw [me_handNest, houtst]; rfl
  · rw [me_handNest, hngo]; rfl
  · rw [me_handNest]
    split
    case isTrue hidle => exact Matrix.startPending_idle hidle rfl
    case isFalse hbusy =>
      rw [Matrix.startPending_busy (m := s.me.mx.take _) hbusy]
      exact ⟨rfl, rfl⟩

theorem refusesBank_of {cause : Cause} (h : check s.me.mx.stagingBank = some cause) :
    ∃ t, exec i s = .next t ∧ TrapsAtWord s t cause 0 0 := by
  refine traps_of (hexec.trans ?_)
  rw [State.onHand, onStaging_free hfree, if_neg (Nat.not_le.2 hroom), h]

end OnHand

section Present

variable {s : State} {gd : Guard} (hmx : s.myFlock.mxe ≠ 0) (hg : guardOk gd s = true)

include hmx hg

theorem exec_mxgo : exec (.mxgo gd) s =
    .next (s.onHand (fun b => b.check s.myFlock s.rd.viewT.toList s.rd.viewA.toList) none) := onMx_present hmx hg

theorem exec_mxcommit : exec (.mxcommit gd) s =
    .next (s.onHand (fun b => b.checkCommit s.rd.viewT.toList s.rd.viewA.toList) (some false)) := onMx_present hmx hg

theorem exec_mxcommitClr : exec (.mxcommitClr gd) s =
    .next (s.onHand (fun b => b.checkCommit s.rd.viewT.toList s.rd.viewA.toList) (some true)) := onMx_present hmx hg

end Present

/-! ## The engine's core -/

/-- An event at the matrix engine of a core changes its matrix engine as it says. -/
@[simp] theorem mx_onCore (s : State) (c : Nat) (f : Matrix → Matrix) :
    ((s.onCore c fun x => x.updMx f).ctx c).mx = f (s.ctx c).mx := congrArg Ctx.mx (ctx_onCore_same s c _)

/-- The error phase leaves the nest ended, with its error, and no landing tile (R289). -/
theorem nestFail_ends (s : State) (c : Nat) (ne : Nest) (e : NestErr) (keep : Bool) :
    ((s.nestFail c ne e keep).ctx c).mx.running =
      some { ne with stage := .ended, cause := e.cause, sub := e.sub, row := e.row, role := e.role } ∧
    ((s.nestFail c ne e keep).ctx c).mx.land = none := by
  simp [State.nestFail]

section Steps

variable {c : Nat} {s u : State} {ne : Nest} {tile : Tile} {e : NestErr}

/-! ## The start and the swap (R266, R270, R290) -/

theorem nestStart_starts (hcut : (s.ctx c).mxCut = false) (hr : (s.ctx c).mx.running = none)
    (hp : (s.ctx c).mx.pending = some ne) :
    exec (.nestStart c) s = .next (s.onCore c fun x => x.updMx Matrix.startPending) := by
  change execNestStart c s = _
  simp [execNestStart, hcut, hr, hp]

/-- A swap makes the weights that it has read active, and takes a grant where SWM is 1. -/
theorem weightSwap_swaps {w : Weights} (hcut : (s.ctx c).mxCut = false) (h : s.nestAt c .swap = some ne)
    (hclear : (s.ctx c).nestClear ne = true) (hgrant : ne.bank.swm = true → (s.ctx c).mx.grants ≠ 0)
    (hw : s.readWeights c ne (s.ctx c).mx.shadow = .ok w) (hstart : s.passStart c ne = .ok tile) :
    exec (.weightSwap c) s = .next ((s.onCore c fun x => x.updMx fun m =>
      { m with grants := if ne.bank.swm then m.grants - 1 else m.grants, shadow := {}, running := some { ne with stage := .pass } }
      ).onCore c fun x => x.updMx fun m => { m with active := w }) := by
  have hgo : ¬((s.ctx c).mxCut || !(s.ctx c).nestClear ne || (ne.bank.swm && (s.ctx c).mx.grants == 0)) = true := by
    simpa [hcut, hclear] using hgrant
  change execWeightSwap c s = _
  simp only [execWeightSwap, h, if_neg hgo, hw, hstart]

/-! ## A pass (R274) -/

/-- What a pass that gives a tile leaves: the tile landed or held, and the nest at its next stage. -/
def Nest.landed (ne : Nest) (t : Tile) (m : Matrix) : Matrix :=
  let held := if ne.startsRun ∧ ne.bank.cinit ≠ 2 then none else m.held
  if !ne.endsRun then { m with land := some t, held := held, running := some ne.advance }
  else if ne.bank.hold then { m with land := none, held := some t, running := some ne.advance }
  else { m with land := some t, held := held, running := some { ne with stage := .drain } }

theorem nestPass_lands (h : s.nestAt c .pass = some ne) (hpass : s.runPass c ne = .ok tile) :
    exec (.nestPass c) s = .next (s.onCore c fun x => x.updMx (ne.landed tile)) := by
  change execNestPass c s = _
  simp only [execNestPass, h, hpass]
  rfl

theorem nestPass_fails (h : s.nestAt c .pass = some ne) (hpass : s.runPass c ne = .error e) :
    exec (.nestPass c) s = .next (s.nestFail c ne e (e.cause = 0x63)) := by
  change execNestPass c s = _
  simp only [execNestPass, h, hpass]

theorem landed_midRun (m : Matrix) (hend : ne.endsRun = false) :
    (ne.landed tile m).land = some tile ∧ (ne.landed tile m).running = some ne.advance := by
  simp [Nest.landed, hend]

theorem landed_holds (m : Matrix) (hend : ne.endsRun = true) (hhold : ne.bank.hold = true) :
    (ne.landed tile m).held = some tile ∧ (ne.landed tile m).running = some ne.advance := by
  simp [Nest.landed, hend, hhold]

theorem landed_toDrain (m : Matrix) (hend : ne.endsRun = true) (hhold : ne.bank.hold = false) :
    (ne.landed tile m).land = some tile ∧ (ne.landed tile m).running = some { ne with stage := .drain } := by
  simp [Nest.landed, hend, hhold]

/-! ## A drain (R277, R286) -/

section Drain

variable (h : s.nestAt c .drain = some ne)

include h

theorem nestDrain_drains (hrun : ne.commit = none) (hland : (s.ctx c).mx.land = some tile)
    (hdrain : s.drainTile c ne tile = (u, none)) : exec (.nestDrain c) s =
      .next (u.onCore c fun x => x.updMx fun m => { m with land := none, held := none, running := some ne.advance }) := by
  change execNestDrain c s = _
  simp only [execNestDrain, h, hrun, hland, Option.getD_some, hdrain]

theorem nestDrain_fails (hrun : ne.commit = none) (hland : (s.ctx c).mx.land = some tile)
    (hdrain : s.drainTile c ne tile = (u, some e)) : exec (.nestDrain c) s = .next (u.nestFail c ne e false) := by
  change execNestDrain c s = _
  simp only [execNestDrain, h, hrun, hland, Option.getD_some, hdrain]

theorem nestDrain_discards (hclr : ne.commit = some true) (hclear : (s.ctx c).nestClear ne = true)
    (hheld : (s.ctx c).mx.held = some tile) : exec (.nestDrain c) s =
      .next (s.onCore c fun x => x.updMx fun m => { m with held := none, running := some { ne with stage := .ended } }) := by
  change execNestDrain c s = _
  simp only [execNestDrain, h, hclr, hclear, hheld, Bool.not_true, Bool.false_eq_true, if_false, if_true]

theorem nestDrain_commits (hcommit : ne.commit = some false) (hclear : (s.ctx c).nestClear ne = true)
    (hheld : (s.ctx c).mx.held = some tile) (haccf : tile.accf = ne.bank.accf)
    (hdrain : s.drainTile c ne tile = (u, none)) : exec (.nestDrain c) s =
      .next (u.onCore c fun x => x.updMx fun m => { m with held := none, running := some { ne with stage := .ended } }) := by
  change execNestDrain c s = _
  simp only [execNestDrain, h, hcommit, hclear, hheld, haccf, hdrain, Bool.not_true, Bool.false_eq_true, if_false, ne_eq,
    not_true_eq_false]

end Drain

/-! ## The result (R288) -/

theorem nestComplete_leaves (h : s.nestAt c .ended = some ne) : exec (.nestComplete c) s = .next (s.onCore c fun x =>
    x.updMx fun m => { m with running := none, shadow := {}, results := m.results ++ [ne.result] }) := by
  change execNestComplete c s = _
  simp only [execNestComplete, h]

end Steps

/-- Settles O37: the hand-over by the checks of its bank, and each step of the engine by its own rule above. -/
theorem nestsRunToTheirResult : Obligations.NestsRunToTheirResult := by
  refine ⟨fun gd s hmx hg hfree hroom => ?handOver, fun c s ne => ?engine⟩
  case handOver =>
    have hgo := exec_mxgo hmx hg
    have hcommit := exec_mxcommit hmx hg
    have hclr := exec_mxcommitClr hmx hg
    exact ⟨hands_of hgo hfree hroom, fun _ => refusesBank_of hgo hfree hroom,
      fun h => ⟨hands_of hcommit hfree hroom h, hands_of hclr hfree hroom h⟩,
      fun _ h => ⟨refusesBank_of hcommit hfree hroom h, refusesBank_of hclr hfree hroom h⟩⟩
  case engine =>
    refine ⟨fun hcut hr hp => ?start, fun w tile hcut hat hclear hgrant hw hstart => ?swap,
      fun hat => ⟨fun e he => ?passFails, fun tile ht => ?pass⟩,
      fun tile hat => ⟨fun hrun hland => ⟨fun u hu => ?drains, fun u e hu => ?drainFails⟩,
        fun hclr hclear hheld => ?discards, fun u hcommit hclear hheld haccf hu => ?commits⟩, fun hat => ?complete⟩
    case start =>
      obtain ⟨hruns, hnone⟩ := Matrix.startPending_idle hr hp
      refine ⟨_, nestStart_starts hcut hr hp, ?_, ?_, rfl⟩
      · exact (congrArg Matrix.pending (mx_onCore ..)).trans hnone
      · exact (congrArg (·.running.map (·.num)) (mx_onCore ..)).trans hruns
    case swap =>
      refine ⟨_, weightSwap_swaps hcut hat hclear hgrant hw hstart, ?_, ?_, ?_, rfl⟩ <;> simp only [mx_onCore]
      cases ne.bank.swm <;> rfl
    case passFails => exact ⟨_, nestPass_fails hat he, nestFail_ends s c ne e _⟩
    case pass =>
      refine ⟨_, nestPass_lands hat ht, rfl, ?_⟩
      simp only [mx_onCore]
      exact ⟨landed_midRun _, landed_holds _, landed_toDrain _⟩
    case drains =>
      refine ⟨_, nestDrain_drains hat hrun hland hu, ?_, ?_, rfl, rfl⟩ <;> simp only [mx_onCore]
    case drainFails => exact ⟨_, nestDrain_fails hat hrun hland hu, nestFail_ends u c ne e false⟩
    case discards =>
      refine ⟨_, nestDrain_discards hat hclr hclear hheld, ?_, ?_, rfl, rfl⟩ <;> simp only [mx_onCore]
    case commits =>
      refine ⟨_, nestDrain_commits hat hcommit hclear hheld haccf hu, ?_, ?_, rfl, rfl⟩ <;> simp only [mx_onCore]
    case complete =>
      refine ⟨_, nestComplete_leaves hat, ?_, ?_, rfl⟩ <;> simp only [mx_onCore]

end Sys2Proof.Machine

/-! PROOFS. Started commands, and how a command starts (O38). -/

namespace Sys2Proof.Machine

/-! ## The started commands of a core -/

theorem tk_of_startedAt {x : Ctx} {tk : Nat} {u : Started} (h : x.startedAt tk = some u) : u.tk = tk :=
  beq_iff_eq.1 (List.find?_some (p := fun u : Started => u.tk == tk) h)

/-- A change of the started commands that keeps their stamps changes the one with a stamp. -/
theorem find?_started_map (g : Started → Started) (hg : ∀ u, (g u).tk = u.tk) (us : List Started) (tk : Nat) :
    (us.map g).find? (fun u => u.tk == tk) = (us.find? fun u => u.tk == tk).map g := by
  rw [List.find?_map]
  simp only [Function.comp_def, hg]

theorem startedAt_updStarted {s : State} {c tk : Nat} {u : Started} (f : Started → Started) (hf : ∀ u, (f u).tk = u.tk)
    (h : (s.ctx c).startedAt tk = some u) : ((s.updStarted c tk f).ctx c).startedAt tk = some (f u) := by
  have hmap := find?_started_map (fun u => if u.tk = tk then f u else u) (fun u => by split <;> simp [hf]) (s.ctx c).started tk
  rw [State.updStarted, ctx_onCore_same]
  refine hmap.trans ?_
  rw [show (s.ctx c).started.find? _ = some u from h, Option.map_some, if_pos (tk_of_startedAt h)]

theorem ctx_onCore_ne (s : State) {c d : Nat} (f : Ctx → Ctx) (h : d ≠ c) : (s.onCore c f).ctx d = s.ctx d :=
  State.ctx_updCtx_ne s _ h

/-! ## Starting -/

/-- The commands of a record: all of them start in the same way (R300). -/
theorem exec_starts {r : CmdRecord} {i : Instr} (s : State) (hi : i ∈ ([.copy r, .copy2 r, .copy3 r, .put r, .putf r, .get r,
    .accw r, .fill r, .mcast r, .prefAdapt r, .signal r, .aowAdd r, .aowMin r, .aowMax r, .aowAnd r, .aowOr r, .aowXor r,
    .aowSwap r, .cas r, .flagadd r, .reservedCommand r] : List Instr)) : exec i s = .next (s.startCommand r) := by
  fin_cases hi <;> rfl

section Checks

/- What the start checks of a record read: the panel, its partitions and flocks, and where the core stands (R302). -/
variable {s t : State} {c : Nat} (hglob : t.glob = s.glob) (hparts : t.parts = s.parts) (hflocks : t.flocks = s.flocks)
  (hlogical : (t.ctx c).logical = (s.ctx c).logical) (hflock : (t.ctx c).flock = (s.ctx c).flock)

include hglob hlogical in
theorem fieldTile_congr (lcl : Bool) (a : W64) : t.fieldTile c lcl a = s.fieldTile c lcl a := by
  unfold State.fieldTile
  rw [hglob, hlogical]

include hparts hflocks hlogical hflock in
theorem ownCircuit_congr (h : Nat) (step : Option Nat) : t.ownCircuit c h step = s.ownCircuit c h step := by
  simp only [State.ownCircuit, State.outbound, State.circuits, State.partOf, State.part, State.flock, hparts, hflocks,
    hlogical, hflock]

include hglob hparts hflocks hlogical hflock in
theorem startCheck_congr (e : F0Entry) (r : CmdRecord) : t.startCheck c e r = s.startCheck c e r := by
  have hcircuit : t.circuitCheck c e r = s.circuitCheck c e r := by
    simp only [State.circuitCheck, ownCircuit_congr hparts hflocks hlogical hflock, fieldTile_congr hglob hlogical, hlogical]
  simp only [State.startCheck, hcircuit]

end Checks

/-- The writes that a command's scope, or its ORD bit, demands have been handed on (R72, R214, R308). -/
def State.startView (s : State) (e : F0Entry) (r : CmdRecord) : State := if r.ord then s.drainAll else s.visibleAt e.scope

theorem offPorts_startView (s : State) (e : F0Entry) (r : CmdRecord) : (s.startView e r).offPorts = s.offPorts := by
  unfold State.startView
  split
  · exact offPorts_drainAll s
  · exact offPorts_visibleAt s _

/-- A command as it starts from an entry of f0. -/
def F0Entry.fresh (e : F0Entry) (r : CmdRecord) (now : Nat) : Started :=
  { tk := e.tk, cmd := r, scope := e.scope, bar := e.bar, startedAt := now, circ := e.circ, recAt := e.recAt, queue := e.queue }

/-- A core that has reserved the entry of f1 that a record needs (R300, R306). -/
def Ctx.reserve (x : Ctx) (r : CmdRecord) : Ctx := { x with f1res := if r.records then x.f1res + 1 else x.f1res }

/-- The machine with the entry of f1 reserved and one more started command. -/
def State.addStarted (v : State) (c : Nat) (r : CmdRecord) (u : Started) : State :=
  (v.updCtx c fun x => x.reserve r).updCtx c fun x => { x with started := x.started ++ [u] }

/-- The start checks find what they would have found before the writes were handed on and the entry reserved. -/
theorem startCheck_startView (s : State) (c : Nat) (e d : F0Entry) (r : CmdRecord) :
    ((s.startView e r).updCtx c fun x => x.reserve r).startCheck c d r = s.startCheck c d r := by
  have hoff := offPorts_startView s e r
  have hctx {α : Type} (p : Ctx → α) (hp : ∀ x : Ctx, p (x.reserve r) = p x) :
      p (((s.startView e r).updCtx c fun x => x.reserve r).ctx c) = p (s.ctx c) :=
    (ctx_updCtx_proj p _ c c _ hp).trans (congrArg p (ctx_of_offPorts hoff c))
  have hglob : (s.startView e r).glob = s.glob := (congrArg State.glob hoff :)
  have hparts : (s.startView e r).parts = s.parts := (congrArg State.parts hoff :)
  have hflocks : (s.startView e r).flocks = s.flocks := (congrArg State.flocks hoff :)
  exact startCheck_congr (t := (s.startView e r).updCtx c fun x => x.reserve r) hglob hparts hflocks
    (hctx Ctx.logical fun _ => rfl) (hctx Ctx.flock fun _ => rfl) d r

theorem startCommand_eq {s : State} {c : Nat} {e : F0Entry} (r : CmdRecord) (h : s.focus = .engine c e) :
    s.startCommand r =
      let v := s.startView e r
      let u := e.fresh r s.now
      let k := s.startCheck c { e with cmd := r } r
      if k ≠ 0 then v.addStarted c r { u with stage := .ended, status := k }
      else if u.stays then v.addStarted c r u
      else (v.addStarted c r u).sendReq c e.tk false (if r.dl then r.w2 else r.w1) (.command e.tk) := by
  have hcore : s.core = c := by rw [State.core, h]
  have hentry : s.entryAtWork r = { e with cmd := r } := by rw [State.entryAtWork, h]
  have hnow : (s.startView e r).now = s.now := (congrArg State.now (offPorts_startView s e r) :)
  dsimp only
  rw [← startCheck_startView s c e { e with cmd := r } r, ← hnow]
  simp only [State.startCommand, hcore, hentry]
  rfl

theorem ctx_addStarted (v : State) (c : Nat) (r : CmdRecord) (u : Started) : (v.addStarted c r u).ctx c =
    { v.ctx c with
      f1res := if r.records then (v.ctx c).f1res + 1 else (v.ctx c).f1res, started := (v.ctx c).started ++ [u] } := by
  rw [State.addStarted, State.ctx_updCtx_same, State.ctx_updCtx_same]
  rfl

theorem ctx_addStarted_ne (v : State) {c d : Nat} (r : CmdRecord) (u : Started) (h : d ≠ c) :
    (v.addStarted c r u).ctx d = v.ctx d :=
  (State.ctx_updCtx_ne _ _ h).trans (State.ctx_updCtx_ne v _ h)

/-- But for its cores, and for what the ports hold and have handed on, the machine is as it was. -/
def SameButHanded (s t : State) : Prop :=
  { t with cores := s.cores, ports := s.ports, hostMem := s.hostMem, hostPoison := s.hostPoison } = s

theorem sameButHanded_addStarted {s v : State} (hoff : v.offPorts = s.offPorts) (c : Nat) (r : CmdRecord) (u : Started) :
    SameButHanded s (v.addStarted c r u) :=
  (congrArg (fun w : State =>
    { w with cores := s.cores, ports := s.ports, hostMem := s.hostMem, hostPoison := s.hostPoison }) hoff :)

theorem startCheck_reserved (s : State) (c : Nat) (e : F0Entry) {r : CmdRecord} (h : opcKnown r.opc = false) :
    s.startCheck c e r = 0x2F := by
  simp [State.startCheck, h]

/-- A command without a home stays in its core (R44). -/
theorem stays_fresh_iff (e : F0Entry) (r : CmdRecord) (now : Nat) :
    (e.fresh r now).stays = true ↔ r.localOnly = true ∧ r.hv = false := by
  simp [Started.stays, F0Entry.fresh]

/-- Settles O38: a command that starts is added to the started ones, with the status of its checks, and leaves for its homes
where it has any. -/
theorem commandsStart : Obligations.CommandsStart := by
  intro c e r i s hfocus hi status fresh stays res
  have hexec := (exec_starts s hi).trans (congrArg Host.Outcome.next (startCommand_eq r hfocus))
  have hoff := offPorts_startView s e r
  have hctx := ctx_of_offPorts hoff
  refine ⟨startCheck_reserved s c _, fun hk => ?refused, fun hk hs => ?stays, fun hk hs => ?sent⟩
  case refused =>
    refine ⟨_, hexec.trans (congrArg Host.Outcome.next (if_pos hk)), fun d hd => ?_, ?_, sameButHanded_addStarted hoff ..⟩
    · rw [ctx_addStarted_ne _ _ _ hd, hctx]
    · rw [ctx_addStarted, hctx]; rfl
  case stays =>
    refine ⟨_, hexec.trans (congrArg Host.Outcome.next ((if_neg (not_not.2 hk)).trans (if_pos ((stays_fresh_iff ..).2 hs)))),
      fun d hd => ?_, ?_, sameButHanded_addStarted hoff ..⟩
    · rw [ctx_addStarted_ne _ _ _ hd, hctx]
    · rw [ctx_addStarted, hctx]; rfl
  case sent =>
    obtain ⟨q, hreqs, hcore, haddr, hop, hnum, hrest⟩ := sendReq_sentBy ((s.startView e r).addStarted c r fresh) c e.tk
      (if r.dl then r.w2 else r.w1) (.command e.tk)
    refine ⟨_, q, hexec.trans (congrArg Host.Outcome.next ((if_neg (not_not.2 hk)).trans (if_neg fun h =>
      hs ((stays_fresh_iff ..).1 h)))), fun d hd => ?_, ?_, hreqs.trans (congrArg (· ++ [q]) (reqs_of_offPorts hoff :)),
      ⟨hcore, haddr, hop, hnum.trans ?_, hrest⟩, ?_⟩
    · rw [ctx_sendReq_ne _ _ _ _ _ hd, ctx_addStarted_ne _ _ _ hd, hctx]
    · rw [ctx_sendReq_numbered, ctx_addStarted, hctx]; rfl
    · rw [ctx_addStarted, hctx]
    · exact (congrArg (fun w : State => { w with
        cores := s.cores, reqs := s.reqs, ports := s.ports, hostMem := s.hostMem, hostPoison := s.hostPoison }) hoff :)

end Sys2Proof.Machine

/-! PROOFS. A request at its home and at its source (O41): dropped below its FLOOR, answered once, sent again, or given up. -/

namespace Sys2Proof.Machine

/-! ## At the home (R328, R329) -/

theorem bytes_triple {s t : State} (h : t.bytes = s.bytes) : t.mem = s.mem ∧ t.lm = s.lm ∧ t.hostMem = s.hostMem :=
  ((bytes_eq_iff s t).1 h).2

/-- A load that fails has read nothing, whatever pieces were read ahead. -/
theorem patch_nil (got : Pieces) (lm : Bool) (a : Nat) : patch got lm a [] = [] := rfl

/-- What the home of a load answers, as the stage of its request. -/
def State.loadStage (s : State) (r : Request) (n : Nat) : ReqStage :=
  match s.homeRead (s.asker r.core) .load r.addr.toNat n with
  | .ok bs => .answered 0 0 (patch r.got false r.addr.toNat bs) []
  | .error k =>
    if k = retryCode then .refused (s.now + 64 * (s.tile (s.ingress r)).migDly.toNat) else .answered k r.addr [] []

/-- What a request keeps in the caches changes no delay of a tile (R367). -/
theorem migDly_noteTlb (s : State) (tile : Option Nat) (e : Option TlbEntry) (k : Nat) :
    ((s.noteTlb tile e).tile k).migDly = (s.tile k).migDly := by
  unfold State.noteTlb
  split
  · exact tile_updTile_proj TileSt.migDly s _ k _ rfl
  · rfl

theorem migDly_cacheAccess (s : State) (c a n k : Nat) : ((s.cacheAccess c a n).tile k).migDly = (s.tile k).migDly := by
  unfold State.cacheAccess
  dsimp only
  split
  · exact migDly_noteTlb s _ _ k
  · rfl

theorem reqs_noteTlb (s : State) (tile : Option Nat) (e : Option TlbEntry) : (s.noteTlb tile e).reqs = s.reqs := by
  unfold State.noteTlb
  split <;> rfl

theorem reqs_cacheAccess (s : State) (c a n : Nat) : (s.cacheAccess c a n).reqs = s.reqs := by
  unfold State.cacheAccess
  dsimp only
  split
  · exact reqs_noteTlb s _ _
  · rfl

section Home

variable {s : State} {ix : Nat} {r : Request} (hr : s.reqs[ix]? = some r) (hstage : r.stage = .travelling)
  (hjoined : s.joined r false = true)

include hr hstage hjoined

theorem exec_homeRequest_load {n : Nat} (hop : r.op = .load n) (hl : r.lstream = true) (hturn : s.loadTurn r = true) :
    exec (.homeRequest ix) s = .next ((s.cacheAccess r.core r.addr.toNat n).reply ix (s.ingress r) r
      ((s.homeLoad (s.asker r.core) r.addr n).patched r)) := by
  have hpass : ¬(r.stage ≠ .travelling ∨ s.joined r false = false) := by simp [hstage, hjoined]
  have hserve : s.serve r = .answer ((s.homeLoad (s.asker r.core) r.addr n).patched r)
      (s.cacheAccess r.core r.addr.toNat n) := by
    simp only [State.serve, hop, hturn, if_true]
  change execHomeRequest ix s = _
  simp only [execHomeRequest, hr, if_neg hpass, Request.numbered, hl, Bool.not_true, Bool.false_eq_true, false_and, if_false,
    hserve]

/-- A load of the L stream is answered with its bytes or its cause, or refused until the delay of its home's tile has passed. -/
theorem homeRequest_load {n : Nat} (hop : r.op = .load n) (hl : r.lstream = true) (hturn : s.loadTurn r = true) :
    ∃ t, exec (.homeRequest ix) s = .next t ∧ (t.mem = s.mem ∧ t.lm = s.lm ∧ t.hostMem = s.hostMem) ∧
      t.reqs = s.reqs.set ix { r with stage := s.loadStage r n } := by
  have hrefuser (u : State) : u.refuser (s.ingress r) r = s.ingress r := by simp [State.refuser, State.askedBy, hop]
  have hnum : ¬r.numbered = true := by simp [Request.numbered, hl]
  refine ⟨_, exec_homeRequest_load hr hstage hjoined hop hl hturn, bytes_triple (by simp), ?_⟩
  have hset (q : Request) : ((s.cacheAccess r.core r.addr.toNat n).setReq ix q).reqs = s.reqs.set ix q := by
    rw [State.setReq, reqs_cacheAccess]
  have hnow : (s.cacheAccess r.core r.addr.toNat n).now = s.now := ((bytes_eq_iff s _).1 (bytes_cacheAccess ..)).1
  unfold State.homeLoad State.loadStage
  cases s.homeRead (s.asker r.core) .load r.addr.toNat n with
  | ok bs => simp only [Answer.patched, State.reply, if_neg hnum, hset]
  | error k =>
    by_cases hk : k = retryCode
    · simp only [if_pos hk, Answer.patched, State.reply, hset, hrefuser, migDly_cacheAccess, hnow]
    · simp only [if_neg hk, Answer.fail, Answer.patched, patch_nil, State.reply, if_neg hnum, hset]

variable (hl : r.lstream = false)

include hl

theorem homeRequest_below (hhas : mhas (s.tile (s.ingress r)).floors r.source = true)
    (hbefore : seqBefore r.num (mget 0 (s.tile (s.ingress r)).floors r.source) = true) :
    exec (.homeRequest ix) s = .next { s with reqs := s.reqs.eraseIdx ix } := by
  have hpass : ¬(r.stage ≠ .travelling ∨ s.joined r false = false) := by simp [hstage, hjoined]
  change execHomeRequest ix s = _
  simp only [execHomeRequest, hr, if_neg hpass, Request.numbered, hl, Bool.not_false, hhas, hbefore, and_self, if_true]

theorem homeRequest_saved {y : SavedReply} (hfloor : mhas (s.tile (s.ingress r)).floors r.source = true →
      seqBefore r.num (mget 0 (s.tile (s.ingress r)).floors r.source) = false)
    (hy : (s.noteFloor (s.ingress r) r).savedReply (s.ingress r) r = some y) :
    exec (.homeRequest ix) s = .next ((s.noteFloor (s.ingress r) r).setReq ix { r with stage := y.again }) := by
  have hpass : ¬(r.stage ≠ .travelling ∨ s.joined r false = false) := by simp [hstage, hjoined]
  have hnew : ¬(mhas (s.tile (s.ingress r)).floors r.source = true ∧
      seqBefore r.num (mget 0 (s.tile (s.ingress r)).floors r.source) = true) := by
    rintro ⟨hhas, hbefore⟩
    exact Bool.false_ne_true ((hfloor hhas).symm.trans hbefore)
  change execHomeRequest ix s = _
  simp only [execHomeRequest, hr, if_neg hpass, Request.numbered, hl, Bool.not_false, true_and, if_neg hnew, if_true, hy]

end Home

/-! ## The final answer at the source (R328, R330) -/

theorem unanswered_flagDone (x : Ctx) (a : Except Cause W64) : (x.flagDone a).unanswered = x.unanswered := by
  cases a <;> rfl

theorem unanswered_armed (x : Ctx) (tk : Nat) (cause : Cause) (bs : List Byte) :
    (x.armed tk cause bs).unanswered = x.unanswered := by
  unfold Ctx.armed
  split
  · rfl
  · split
    · rfl
    · split
      · rfl
      · dsimp only
        split <;> rfl

/-- What the answer makes of the access or command that asked leaves the open numbers of its core alone. -/
theorem unanswered_answered (x : Ctx) (r : Request) (cause : Cause) (at_ : W64) (bs : List Byte) (locs : List Loc) :
    (x.answered r cause at_ bs locs).unanswered = x.unanswered := by
  unfold Ctx.answered
  cases r.op with
  | strAdd tk => exact unanswered_flagDone ..
  | arm tk => exact unanswered_armed ..
  | _ => rfl

/-- A started command whose request has its final answer goes on with the answer's status. -/
theorem startedAt_answered {x : Ctx} {r : Request} {tk : Nat} {u : Started} (hop : r.op = .command tk)
    (hu : x.startedAt tk = some u) (hrun : u.stage = .running) (cause : Cause) (at_ : W64) (bs : List Byte)
    (locs : List Loc) : (x.answered r cause at_ bs locs).startedAt tk =
      some { u with stage := nextStage u.cmd cause, status := cause } := by
  have hmap := find?_started_map (fun t => if t.tk = tk ∧ t.stage = .running then
    { t with stage := nextStage t.cmd cause, status := cause } else t) (fun t => by split <;> rfl) x.started tk
  simp only [Ctx.answered, hop]
  refine hmap.trans ?_
  rw [show x.started.find? _ = some u from hu, Option.map_some, if_pos ⟨tk_of_startedAt hu, hrun⟩]

/-- What the final answer to a number leaves: no byte, the number closed, and the command that asked going on. -/
structure Closed (s t : State) (r : Request) (cause : Cause) : Prop where
  bytes : t.bytes = s.bytes
  number : (t.ctx r.core).unanswered = (s.ctx r.core).unanswered.filter fun n => n != r.num
  command : ∀ tk, r.op = .command tk → ∀ u, (s.ctx r.core).startedAt tk = some u → u.stage = .running →
    (t.ctx r.core).startedAt tk = some { u with stage := nextStage u.cmd cause, status := cause }

theorem closed_onCore (s : State) (r : Request) (cause : Cause) (at_ : W64) (bs : List Byte) (locs : List Loc) :
    Closed s (s.onCore r.core fun x => (x.answeredNum r.num).answered r cause at_ bs locs) r cause := by
  refine ⟨bytes_onCore .., ?_, fun tk hop u hu hrun => ?_⟩
  · rw [ctx_onCore_same]
    exact unanswered_answered ..
  · rw [ctx_onCore_same]
    exact startedAt_answered (x := (s.ctx r.core).answeredNum r.num) hop hu hrun cause at_ bs locs

/-- A core's own request: neither one of another panel nor the addition of a SETTLE. -/
def Request.own (r : Request) : Prop := (∀ op, r.op ≠ .foreign op) ∧ ∀ fl step word, r.op ≠ .drvSettle fl step word

theorem remoteReply_own {s : State} {ix : Nat} {r : Request} {cause : Cause} {at_ : W64} {bs : List Byte} {locs : List Loc}
    (hr : s.reqs[ix]? = some r) (hstage : r.stage = .answered cause at_ bs locs) (hjoined : s.joined r true = true)
    (hl : r.lstream = false) (hown : r.own) :
    exec (.remoteReply ix) s = .next (
      let v := { s with reqs := s.reqs.eraseIdx ix }
      if (s.ctx r.core).unanswered.contains r.num then
        v.onCore r.core fun x => (x.answeredNum r.num).answered r cause at_ bs locs
      else v) := by
  obtain ⟨hforeign, hsettle⟩ := hown
  change execRemoteReply ix s = _
  simp only [execRemoteReply, hr, hstage, hjoined, Bool.not_true, Bool.false_eq_true, if_false]
  cases hop : r.op with
  | foreign op => exact absurd hop (hforeign op)
  | drvSettle fl step word => exact absurd hop (hsettle fl step word)
  | _ => simp only [hl, Bool.false_eq_true, if_false]; rfl

/-! ## Sent again, or given up (R330) -/

theorem resend_below {s : State} {r : Request} (ix : Nat) (h : r.sends < 8) : s.resend ix r =
    { s with reqs := s.reqs.set ix { r with sends := r.sends + 1, sentAt := s.now, stage := .travelling } } :=
  if_pos h

theorem ctx_giveUpFlag_unanswered (s : State) (r : Request) (c : Nat) :
    ((s.giveUpFlag r).ctx c).unanswered = (s.ctx c).unanswered := by
  unfold State.giveUpFlag
  split
  · exact ctx_updCtx_proj Ctx.unanswered s _ c _ fun _ => rfl
  · rfl

theorem giveUpFlag_command {s : State} {r : Request} {tk : Nat} (h : r.op = .command tk) : s.giveUpFlag r = s := by
  simp only [State.giveUpFlag, h]

theorem reqs_giveUpFlag (s : State) (r : Request) : (s.giveUpFlag r).reqs = s.reqs := by
  unfold State.giveUpFlag
  split <;> rfl

theorem resend_eighth {s : State} {ix : Nat} {r : Request} (h : 8 ≤ r.sends) (hl : r.lstream = false) (hown : r.own) :
    s.resend ix r = (State.giveUpFlag { s with reqs := s.reqs.eraseIdx ix } r).onCore r.core fun x =>
      (x.answeredNum r.num).answered r 0x47 r.addr [] [] := by
  obtain ⟨-, hsettle⟩ := hown
  refine (if_neg (Nat.not_lt.2 h)).trans ?_
  cases hop : r.op with
  | drvSettle fl step word => exact absurd hop (hsettle fl step word)
  | _ => simp only [hl, Bool.false_eq_true, if_false]

/-- After eight sends a request is given up: its number is closed, and its command has 0x47. -/
theorem closed_resend {s : State} {ix : Nat} {r : Request} (h : 8 ≤ r.sends) (hl : r.lstream = false) (hown : r.own) :
    Closed s (s.resend ix r) r 0x47 ∧ (s.resend ix r).reqs = s.reqs.eraseIdx ix := by
  rw [resend_eighth h hl hown]
  obtain ⟨hbytes, hnumber, hcommand⟩ :=
    closed_onCore (State.giveUpFlag { s with reqs := s.reqs.eraseIdx ix } r) r 0x47 r.addr [] []
  refine ⟨⟨hbytes.trans (bytes_giveUpFlag ..), ?_, fun tk hop u hu => ?_⟩, reqs_giveUpFlag ..⟩
  · rw [hnumber, ctx_giveUpFlag_unanswered]; rfl
  · rw [giveUpFlag_command hop] at hcommand ⊢
    exact hcommand tk hop u hu

theorem exec_retryAfterResend {s : State} {ix u : Nat} {r : Request} (hr : s.reqs[ix]? = some r) (hstage : r.stage = .refused u)
    (hu : u ≤ s.now) : exec (.retryAfterResend ix) s = .next (s.resend ix r) := by
  change execRetryAfterResend ix s = _
  simp only [execRetryAfterResend, hr, hstage, if_pos hu]

theorem exec_requestTimeoutResend {s : State} {ix : Nat} {r : Request} (hr : s.reqs[ix]? = some r)
    (hforeign : ∀ op, r.op ≠ .foreign op) (hstage : ∀ u, r.stage ≠ .refused u) (hdue : r.sentAt + 20000 ≤ s.now) :
    exec (.requestTimeoutResend ix) s = .next (s.resend ix r) := by
  have hdue' : r.sentAt + replyTimeout ≤ s.now := hdue
  change execRequestTimeoutResend ix s = _
  simp only [execRequestTimeoutResend, hr]
  refine congrArg Host.Outcome.next (if_pos ⟨?_, ?_, hdue'⟩)
  · cases hop : r.op with
    | foreign op => exact absurd hop (hforeign op)
    | _ => trivial
  · cases hst : r.stage with
    | refused u => exact absurd hst (hstage u)
    | _ => trivial

/-- Settles O41: what a home makes of a request, and what its source makes of the reply or of none. -/
theorem requestsAreAnsweredOnce : Obligations.RequestsAreAnsweredOnce := by
  intro ix s r hr tile keeps own answered
  refine ⟨fun n hstage hjoined hop hl hturn => homeRequest_load hr hstage hjoined hop hl hturn,
    fun hstage hjoined hl hhas hbefore => ⟨_, homeRequest_below hr hstage hjoined hl hhas hbefore, rfl⟩,
    fun y hstage hjoined hl hfloor hy =>
      ⟨_, homeRequest_saved hr hstage hjoined hl hfloor hy, ⟨rfl, rfl, rfl⟩, rfl, rfl, rfl, rfl⟩,
    fun k at_ bs locs hstage hjoined hl hown => ?reply, fun u hstage hu => ⟨fun h => ?_, fun h hown hl => ?_⟩,
    fun hforeign hl hstage hdue => ⟨fun h => ?_, fun h hown => ?_⟩⟩
  case reply =>
    have hexec := remoteReply_own hr hstage hjoined hl hown
    by_cases hopen : r.num ∈ (s.ctx r.core).unanswered
    · rw [if_pos (List.contains_iff_mem.2 hopen)] at hexec
      obtain ⟨hbytes, hnumber, hcommand⟩ := closed_onCore { s with reqs := s.reqs.eraseIdx ix } r k at_ bs locs
      exact ⟨_, hexec, bytes_triple hbytes, rfl, fun h => absurd hopen h, fun _ => ⟨hnumber, hcommand⟩⟩
    · rw [if_neg (fun h => hopen (List.contains_iff_mem.1 h))] at hexec
      exact ⟨_, hexec, ⟨rfl, rfl, rfl⟩, rfl, fun _ => rfl, fun h => absurd h hopen⟩
  · exact ⟨_, exec_retryAfterResend hr hstage hu, resend_below ix h⟩
  · obtain ⟨⟨hbytes, hnumber, hcommand⟩, hreqs⟩ := closed_resend (s := s) (ix := ix) h hl hown
    refine ⟨_, exec_retryAfterResend hr hstage hu, bytes_triple hbytes, hreqs, hnumber, fun tk hop u hu hrun => ?_⟩
    rw [hcommand tk hop u hu hrun, nextStage, if_neg (by simp)]
  · exact ⟨_, exec_requestTimeoutResend hr hforeign hstage hdue, resend_below ix h⟩
  · obtain ⟨⟨hbytes, hnumber, hcommand⟩, hreqs⟩ := closed_resend (s := s) (ix := ix) h hl hown
    refine ⟨_, exec_requestTimeoutResend hr hforeign hstage hdue, bytes_triple hbytes, hreqs, hnumber, fun tk hop u hu hrun => ?_⟩
    rw [hcommand tk hop u hu hrun, nextStage, if_neg (by simp)]

end Sys2Proof.Machine

/-! PROOFS. Transfers within a local memory (O39): what they read, what they write, and that they write nothing else. -/

namespace Sys2Proof.Machine

/-! ## The pieces of one row (R74, R311) -/

/-- Cutting a row into pieces loses none of its bytes. -/
theorem flatten_cutPieces (l : List (W64 × ByteSrc)) : (cutPieces l).flatten = l := by
  induction l with
  | nil => rfl
  | cons b t ih =>
    rw [cutPieces]
    generalize cutPieces t = ps at ih ⊢
    subst ih
    match ps with
    | [] | [] :: _ => rfl
    | (e :: p) :: ps =>
      dsimp only
      split <;> rfl

/-- The bytes of a command of one row, each with its destination and source. -/
def rowOf (r : CmdRecord) : List (W64 × ByteSrc) :=
  (List.range r.len).map fun k => (r.w1 + BitVec.ofNat 64 k, r.source r.w1 r.w2 k)

theorem pieces_of_one_row {r : CmdRecord} (h2 : r.opc ≠ 2) (h3 : r.opc ≠ 3) : r.pieces = cutPieces (rowOf r) := by
  simp [CmdRecord.pieces, CmdRecord.rows, rowOf, CmdRecord.n1, CmdRecord.n2, h2, h3]

/-! ## The walk within a local memory -/

/-- The bytes of local memory that the flock of a core has declared. -/
def State.lmLimit (s : State) (c : Nat) : Nat := (s.flock ((s.ctx c).flock.getD 0)).lmb

theorem lmKey_add (c a k : Nat) : lmKey c (a + k) = lmKey c a + k := (Nat.add_assoc ..).symm

/-- A byte of a transfer whose places lie in the core's declared local memory. -/
def State.Within (s : State) (c : Nat) (sl : Bool) (e : W64 × ByteSrc) : Prop :=
  e.1.toNat < s.lmLimit c ∧ ∀ a, e.2 = .mem a → sl = true ∧ a.toNat < s.lmLimit c

/-- What such a transfer writes for a byte. -/
def State.lmByte (s : State) (c : Nat) (e : W64 × ByteSrc) : EngByte :=
  match e.2 with
  | .val v => { loc := .lm c e.1.toNat, val := v, bad := false }
  | .mem a =>
    { loc := .lm c e.1.toNat, val := Memory.read s.lm (lmKey c a.toNat), bad := s.poisonedLoc (.lm c a.toNat) 1 }

/-- The place from which it reads a byte, if it reads it. -/
def lmReads (c : Nat) (e : W64 × ByteSrc) : List Loc :=
  match e.2 with
  | .val _ => []
  | .mem a => [.lm c a.toNat]

theorem loc_lmByte (s : State) (c : Nat) (e : W64 × ByteSrc) : (s.lmByte c e).loc = .lm c e.1.toNat := by
  unfold State.lmByte
  split <;> rfl

theorem engLoc_lm {s : State} {c : Nat} {a : W64} (acc : Acc) (h : a.toNat < s.lmLimit c) :
    s.engLoc c true acc a = .ok (.lm c a.toNat) := by
  have hok : s.lmOk c a.toNat 1 = true := decide_eq_true h
  simp [State.engLoc, hok]

theorem engRead_lm {s : State} {c : Nat} {a : W64} (h : a.toNat < s.lmLimit c) : s.engRead c true (.mem a) =
    .ok (Memory.read s.lm (lmKey c a.toNat), s.poisonedLoc (.lm c a.toNat) 1, some (.lm c a.toNat)) := by
  have hbyte : (s.readLoc (.lm c a.toNat) 1).headD 0 = Memory.read s.lm (lmKey c a.toNat) := by
    simp [State.readLoc, Memory.readN]
  simp only [State.engRead, engLoc_lm .engRead h, hbyte]

theorem enginePiece_within {s : State} {c : Nat} {sl : Bool} (p : List (W64 × ByteSrc)) (h : ∀ e ∈ p, s.Within c sl e) :
    s.enginePiece c sl true p = .ok (p.map (s.lmByte c), p.flatMap (lmReads c)) := by
  induction p with
  | nil => rfl
  | cons e p ih =>
    obtain ⟨d, b⟩ := e
    obtain ⟨hd, hsrc⟩ := h (d, b) List.mem_cons_self
    have hloc := engLoc_lm .engWrite hd
    have hrest := ih fun e he => h e (List.mem_cons_of_mem _ he)
    cases b with
    | val v => simp only [State.enginePiece, State.engRead, hloc, hrest]; rfl
    | mem a =>
      obtain ⟨rfl, ha⟩ := hsrc a rfl
      simp only [State.enginePiece, engRead_lm ha, hloc, hrest]
      rfl

theorem walk_within {s : State} {c : Nat} {sl : Bool} (ps : List (List (W64 × ByteSrc)))
    (h : ∀ e ∈ ps.flatten, s.Within c sl e) : s.walk c sl true ps =
      { bytes := ps.flatten.map (s.lmByte c), reads := ps.flatten.flatMap (lmReads c), pieces := ps.length } := by
  induction ps with
  | nil => rfl
  | cons p ps ih =>
    have hp := enginePiece_within p fun e he => h e (by simp [he])
    have hrest := ih fun e he => h e (by simp only [List.flatten_cons, List.mem_append]; exact .inr he)
    simp only [State.walk, hp, hrest, List.flatten_cons, List.map_append, List.flatMap_append, List.length_cons]

/-- A walk over every piece is a walk over the pieces. -/
theorem walkOver_all (s : State) (c : Nat) (r : CmdRecord) :
    s.walkOver c r (List.range r.pieces.length) = s.walk c r.sl r.dl r.pieces := by
  unfold State.walkOver
  refine congrArg _ (List.ext_getElem (by simp) fun i h1 h2 => ?_)
  simp [h2]

/-! ## Writing a run of local memory -/

/-- Bytes at consecutive places of a local memory are one run. -/
theorem joinRuns_consecutive (c : Nat) (bs : List EngByte) : ∀ a, (∀ i (h : i < bs.length), bs[i].loc = .lm c (a + i)) → bs ≠ [] →
    joinRuns bs = [(.lm c a, bs.map fun b => (b.val, b.bad))] := by
  induction bs with
  | nil => exact fun _ _ h => absurd rfl h
  | cons b bs ih =>
    intro a h _
    have hb : b.loc = .lm c a := h 0 (by simp)
    rw [joinRuns]
    by_cases hbs : bs = []
    · simp [hbs, joinRuns, hb]
    · have hrest := ih (a + 1) (fun i hi => by
        have := h (i + 1) (by simpa using hi)
        rwa [Nat.add_right_comm, Nat.add_assoc]) hbs
      simp [hrest, hb, Loc.shift]

theorem cores_poisonRun (loc : Loc) (xs : List (Nat × Byte × Bool)) (s : State) :
    (xs.foldl (fun s e => if e.2.2 then s.poisonLoc (loc.shift e.1) 1 else s) s).cores = s.cores :=
  foldl_keeps State.cores _ (fun s e => by split <;> simp [cores_poisonLoc]) xs s

theorem bytes_poisonRun (loc : Loc) (xs : List (Nat × Byte × Bool)) (s : State) :
    (xs.foldl (fun s e => if e.2.2 then s.poisonLoc (loc.shift e.1) 1 else s) s).bytes = s.bytes :=
  foldl_keeps State.bytes _ (fun s e => by simp) xs s

/-- Engine bytes at consecutive places of a local memory are written there, and nothing else is (R79, R80). -/
theorem writeBytes_lm (s : State) (c a : Nat) (bs : List EngByte)
    (h : ∀ i (hi : i < bs.length), bs[i].loc = .lm c (a + i)) :
    (s.writeBytes bs).lm = Memory.writeN s.lm (lmKey c a) (bs.map (·.val)) ∧ (s.writeBytes bs).mem = s.mem ∧
      (s.writeBytes bs).cores = s.cores := by
  by_cases hbs : bs = []
  · subst hbs
    exact ⟨rfl, rfl, rfl⟩
  · have hwrote := writeLoc_wrote s (loc := .lm c a) (bs.map (·.val)) trivial
    have hrun : s.writeBytes bs = _ := congrArg (fun runs => runs.foldl State.writeRun s) (joinRuns_consecutive c bs a h hbs)
    simp only [List.foldl_cons, List.foldl_nil, State.writeRun, List.map_map, Function.comp_def] at hrun
    obtain ⟨-, hmem, hlm, -⟩ := (bytes_eq_iff _ _).1 (bytes_poisonRun (.lm c a)
      ((List.range (bs.map fun b => (b.val, b.bad)).length).zip (bs.map fun b => (b.val, b.bad)))
      (s.writeLoc (.lm c a) (bs.map (·.val))))
    rw [hrun]
    exact ⟨hlm.trans hwrote.bytes, hmem.trans hwrote.elsewhere.1, (cores_poisonRun ..).trans hwrote.cores⟩

/-- Bytes none of which is read by the same command keep their values (R311). -/
theorem unspecified_of_disjoint (s : State) (reads : List Loc) (bs : List EngByte) (h : ∀ b ∈ bs, b.loc ∉ reads) :
    s.unspecified reads bs = bs := by
  have hsnd : ((List.range bs.length).zip bs).map Prod.snd = bs := List.map_snd_zip (by simp)
  refine Eq.trans (List.map_congr_left fun e he => ?_) hsnd
  exact if_neg fun hc => h e.2 (List.of_mem_zip he).2 (List.contains_iff_mem.1 hc)

/-! ## The transfer -/

/-- A started command of one row, within the local memory, none of whose destination bytes it reads. -/
structure MovesWithin (s : State) (c : Nat) (u : Started) : Prop where
  opc : u.cmd.opc = 1 ∨ u.cmd.opc = 8
  hv : u.cmd.hv = false
  dl : u.cmd.dl = true
  value : u.value = 0
  todo : u.todo = none
  bad : u.bad = []
  dst : ∀ k, k < u.cmd.len → (u.cmd.w1 + BitVec.ofNat 64 k).toNat = u.cmd.w1.toNat + k
  within : ∀ k, k < u.cmd.len → s.Within c u.cmd.sl (u.cmd.w1 + BitVec.ofNat 64 k, u.cmd.source u.cmd.w1 u.cmd.w2 k)
  apart : ∀ j k a, j < u.cmd.len → k < u.cmd.len → u.cmd.source u.cmd.w1 u.cmd.w2 k = .mem a → a.toNat ≠ u.cmd.w1.toNat + j

/-- What such a command writes at byte `k`. -/
def State.movedByte (s : State) (c : Nat) (r : CmdRecord) (k : Nat) : EngByte :=
  s.lmByte c (r.w1 + BitVec.ofNat 64 k, r.source r.w1 r.w2 k)

theorem map_rowOf (s : State) (c : Nat) (r : CmdRecord) :
    (rowOf r).map (s.lmByte c) = (List.range r.len).map (s.movedByte c r) := List.map_map

section Transfer

variable {s : State} {c tk : Nat} {u : Started} (h : MovesWithin s c u)

include h

theorem walkOver_of_movesWithin : s.walkOver c u.cmd (List.range u.cmd.pieceCount) =
    { bytes := (List.range u.cmd.len).map (s.movedByte c u.cmd), reads := (rowOf u.cmd).flatMap (lmReads c)
      pieces := u.cmd.pieces.length } := by
  have hpieces : u.cmd.pieces = cutPieces (rowOf u.cmd) := by
    rcases h.opc with ho | ho <;> exact pieces_of_one_row (by simp [ho]) (by simp [ho])
  have hcount : u.cmd.pieceCount = u.cmd.pieces.length := by rcases h.opc with ho | ho <;> simp [CmdRecord.pieceCount, ho]
  rw [hcount, walkOver_all, h.dl, hpieces, walk_within, flatten_cutPieces, map_rowOf]
  intro e he
  rw [flatten_cutPieces] at he
  obtain ⟨k, hk, rfl⟩ := List.mem_map.1 he
  exact h.within k (List.mem_range.1 hk)

/-- The places of what it writes follow each other from the destination address. -/
theorem loc_movedByte {k : Nat} (hk : k < u.cmd.len) : (s.movedByte c u.cmd k).loc = .lm c (u.cmd.w1.toNat + k) :=
  (loc_lmByte ..).trans (congrArg (Loc.lm c) (h.dst k hk))

theorem movedBytes_not_read :
    ∀ b ∈ (List.range u.cmd.len).map (s.movedByte c u.cmd), b.loc ∉ (rowOf u.cmd).flatMap (lmReads c) := by
  intro b hb hread
  obtain ⟨j, hj, rfl⟩ := List.mem_map.1 hb
  obtain ⟨e, he, hloc⟩ := List.mem_flatMap.1 hread
  obtain ⟨k, hk, rfl⟩ := List.mem_map.1 he
  rw [loc_movedByte h (List.mem_range.1 hj), lmReads] at hloc
  cases hsrc : u.cmd.source u.cmd.w1 u.cmd.w2 k with
  | val v => simp [hsrc] at hloc
  | mem a =>
    simp only [hsrc, List.mem_singleton, Loc.lm.injEq, true_and] at hloc
    exact h.apart j k a (List.mem_range.1 hj) (List.mem_range.1 hk) hsrc hloc.symm

theorem doTransfer_within : ∃ cnt, s.doTransfer c u = .done (s.writeBytes ((List.range u.cmd.len).map (s.movedByte c u.cmd))) 0
    (BitVec.ofNat 64 u.cmd.len) cnt 0 := by
  have hleft : u.left = List.range u.cmd.pieceCount := by rw [Started.left, h.todo]; rfl
  refine ⟨badSectors u.spoilt ((List.range u.cmd.len).map (s.movedByte c u.cmd)), ?_⟩
  simp only [State.doTransfer, hleft, walkOver_of_movesWithin h, State.flitBad, h.bad, if_true, State.readsOfAll, h.todo,
    Option.isNone_none, Bool.true_or, Bool.false_eq_true, if_false, unspecified_of_disjoint s _ _ (movedBytes_not_read h),
    h.value, List.length_map, List.length_range]
  exact congrArg (Performed.done _ 0 · _ 0) (BitVec.zero_add _)

theorem perform_within : s.perform c u = s.doTransfer c u := by
  rcases h.opc with ho | ho <;> simp [State.perform, State.flagFirst, isAtomic, ho, h.hv]

/-- A transfer within the local memory moves its bytes: the destination holds them, and nothing else has changed (R304, R311). -/
theorem localTransfer_moves (hu : (s.ctx c).startedAt tk = some u) (hrun : u.stage = .running) (hstays : u.stays = true)
    {v : Nat → Byte} (hv : ∀ k, k < u.cmd.len → (s.movedByte c u.cmd k).val = v k) :
    ∃ t w, t = s.localTransfer c tk ∧ (t.ctx c).startedAt tk = some w ∧ w.status = 0 ∧ w.stage = .ended ∧
      w.value = BitVec.ofNat 64 u.cmd.len ∧
      (∀ k, k < u.cmd.len → Memory.read t.lm (lmKey c (u.cmd.w1.toNat + k)) = v k) ∧
      (∀ a, (a < lmKey c u.cmd.w1.toNat ∨ lmKey c u.cmd.w1.toNat + u.cmd.len ≤ a) → Memory.read t.lm a = Memory.read s.lm a) ∧
      t.mem = s.mem := by
  obtain ⟨cnt, hdone⟩ := doTransfer_within h
  obtain ⟨hlm, hmem, hcores⟩ := writeBytes_lm s c u.cmd.w1.toNat ((List.range u.cmd.len).map (s.movedByte c u.cmd))
    fun i hi => by simpa using loc_movedByte h (by simpa using hi)
  generalize s.writeBytes _ = y at hdone hlm hmem hcores
  have hlocal : s.localTransfer c tk = y.updStarted c tk fun w =>
      { w with stage := .ended, status := 0, value := BitVec.ofNat 64 u.cmd.len, cnt := cnt, flags := w.flags ||| 0 } := by
    simp only [State.localTransfer, hu, hstays, hrun, perform_within h, hdone]
    rfl
  have hstarted : ((s.localTransfer c tk).ctx c).startedAt tk = some
      { u with stage := .ended, status := 0, value := BitVec.ofNat 64 u.cmd.len, cnt := cnt, flags := u.flags ||| 0 } := by
    rw [hlocal]
    exact startedAt_updStarted _ (fun _ => rfl) (by rw [ctx_congr hcores, hu])
  have hlm' : (s.localTransfer c tk).lm =
      Memory.writeN s.lm (lmKey c u.cmd.w1.toNat) ((List.range u.cmd.len).map fun k => (s.movedByte c u.cmd k).val) := by
    rw [hlocal]
    exact hlm.trans (by rw [List.map_map]; rfl)
  refine ⟨_, _, rfl, hstarted, rfl, rfl, rfl, fun k hk => ?_, fun a ha => ?_, ?_⟩
  · have hread := Memory.read_writeN_inside s.lm (lmKey c u.cmd.w1.toNat)
      ((List.range u.cmd.len).map fun k => (s.movedByte c u.cmd k).val) k (by simpa using hk)
    rw [hlm', lmKey_add]
    simpa [hv k hk] using hread
  · rw [hlm']
    exact Memory.read_writeN_outside _ _ _ _ (by simpa using ha)
  · rw [hlocal]
    exact hmem

end Transfer

/-! ## COPY and FILL -/

/-- Local memories are far smaller than the address space, so that addresses within one do not wrap (R44). -/
theorem lmLimit_lt (s : State) (c : Nat) : s.lmLimit c < 2 ^ 24 := by
  have h : fld ((s.flock ((s.ctx c).flock.getD 0)).word 11) 36 16 < 2 ^ 16 := Nat.mod_lt _ (by decide)
  unfold State.lmLimit Flock.lmb
  omega

theorem toNat_add_within {s : State} {c k n : Nat} {w : W64} (h : w.toNat + n ≤ s.lmLimit c) (hk : k < n) :
    (w + BitVec.ofNat 64 k).toNat = w.toNat + k := by
  have hlimit := lmLimit_lt s c
  rw [BitVec.toNat_add, BitVec.toNat_ofNat, Nat.add_mod_mod, Nat.mod_eq_of_lt (by omega)]

section Forms

variable {s : State} {c : Nat} {u : Started} (hv : u.cmd.hv = false) (hdl : u.cmd.dl = true) (hvalue : u.value = 0)
  (htodo : u.todo = none) (hbad : u.bad = []) (hdst : u.cmd.w1.toNat + u.cmd.len ≤ s.lmLimit c)

include hv hdl hvalue htodo hbad hdst

theorem copy_movesWithin (hopc : u.cmd.opc = 1) (hsl : u.cmd.sl = true) (hinl : u.cmd.inl = false)
    (hsrc : u.cmd.w2.toNat + u.cmd.len ≤ s.lmLimit c)
    (hapart : u.cmd.w1.toNat + u.cmd.len ≤ u.cmd.w2.toNat ∨ u.cmd.w2.toNat + u.cmd.len ≤ u.cmd.w1.toNat) :
    MovesWithin s c u ∧
      ∀ k, k < u.cmd.len → (s.movedByte c u.cmd k).val = Memory.read s.lm (lmKey c (u.cmd.w2.toNat + k)) := by
  have hsource (k : Nat) : u.cmd.source u.cmd.w1 u.cmd.w2 k = .mem (u.cmd.w2 + BitVec.ofNat 64 k) := by
    simp [CmdRecord.source, hopc, hinl]
  refine ⟨⟨.inl hopc, hv, hdl, hvalue, htodo, hbad, fun k hk => toNat_add_within hdst hk, fun k hk => ⟨?_, fun a ha => ⟨hsl, ?_⟩⟩,
    fun j k a hj hk ha => ?_⟩, fun k hk => ?_⟩
  · rw [toNat_add_within hdst hk]
    omega
  · obtain rfl := ByteSrc.mem.inj ((hsource k).symm.trans ha)
    rw [toNat_add_within hsrc hk]
    omega
  · obtain rfl := ByteSrc.mem.inj ((hsource k).symm.trans ha)
    rw [toNat_add_within hsrc hk]
    omega
  · simp only [State.movedByte, State.lmByte, hsource, toNat_add_within hsrc hk]

theorem fill_movesWithin (hopc : u.cmd.opc = 8) :
    MovesWithin s c u ∧
      ∀ k, k < u.cmd.len → (s.movedByte c u.cmd k).val = (wordLE u.cmd.w4).getD ((u.cmd.w1.toNat + k) % 8) 0 := by
  have hsource (k : Nat) : u.cmd.source u.cmd.w1 u.cmd.w2 k = .val ((wordLE u.cmd.w4).getD ((u.cmd.w1.toNat + k) % 8) 0) := by
    simp [CmdRecord.source, hopc]
  refine ⟨⟨.inr hopc, hv, hdl, hvalue, htodo, hbad, fun k hk => toNat_add_within hdst hk, fun k hk => ⟨?_, fun a ha => ?_⟩,
    fun j k a hj hk ha => ?_⟩, fun k hk => ?_⟩
  · rw [toNat_add_within hdst hk]
    omega
  · cases (hsource k).symm.trans ha
  · cases (hsource k).symm.trans ha
  · simp only [State.movedByte, State.lmByte, hsource]

end Forms

/-- Settles O39: both commands are one row whose places lie within the local memory, and no byte of it is both read and
written. -/
theorem localTransfersMoveTheirBytes : Obligations.LocalTransfersMoveTheirBytes := by
  intro c tk u s hu hrun hvalue htodo hbad hv hdl r limit hdst moves
  refine ⟨fun hopc hsl hinl hsrc hapart => ?copy, fun hopc => ?fill⟩
  case copy =>
    obtain ⟨hmoves, hbyte⟩ := copy_movesWithin hv hdl hvalue htodo hbad hdst hopc hsl hinl hsrc hapart
    exact localTransfer_moves hmoves hu hrun (by simp [Started.stays, CmdRecord.localOnly, r, hdl, hsl, hopc, hv]) hbyte
  case fill =>
    obtain ⟨hmoves, hbyte⟩ := fill_movesWithin hv hdl hvalue htodo hbad hdst hopc
    exact localTransfer_moves hmoves hu hrun (by simp [Started.stays, CmdRecord.localOnly, r, hdl, hopc, hv]) hbyte

end Sys2Proof.Machine

/-! PROOFS. Commands complete and settle, and what their homes write (O40). -/

namespace Sys2Proof.Machine

/-! ## The record of a command that has ended (R304, R305) -/

theorem cores_touch (s : State) (who : Asker) (acc : Acc) (a n : Nat) : (s.touch who acc a n).cores = s.cores := by
  unfold State.touch State.noteTlb
  split
  · split <;> rfl
  · rfl

theorem cores_hint (s : State) (c : Nat) (r : CmdRecord) : (s.hint c r).cores = s.cores := by
  unfold State.hint
  split
  · rfl
  · refine foldl_keeps State.cores _ (fun s i => ?_) _ s
    dsimp only
    split
    · rfl
    · exact cores_touch ..

/-- The machine as a command completes: its host-bound writes have been handed on, its prefetch hint has been taken
(R308, R315). -/
def State.completing (s : State) (c : Nat) (u : Started) : State :=
  let v := if !u.cmd.dl ∧ panelOf u.cmd.w1.toNat = 0xFF then s.drainAll else s
  if u.status = 0 then v.hint c u.cmd else v

/-- The flags of its record. -/
def Started.recordFlags (u : Started) (now : Nat) : BitVec 8 := if u.late now then u.flags ||| 1 else u.flags

theorem completing_keeps (s : State) (c : Nat) (u : Started) : (s.completing c u).cores = s.cores ∧
    (s.completing c u).mem = s.mem ∧ (s.completing c u).lm = s.lm := by
  have hoff : (if !u.cmd.dl ∧ panelOf u.cmd.w1.toNat = 0xFF then s.drainAll else s).offPorts = s.offPorts := by
    split
    · exact offPorts_drainAll s
    · rfl
  unfold State.completing
  generalize (if !u.cmd.dl ∧ panelOf u.cmd.w1.toNat = 0xFF then s.drainAll else s) = v at hoff ⊢
  have hv : v.cores = s.cores ∧ v.mem = s.mem ∧ v.lm = s.lm :=
    ⟨(cores_of_offPorts hoff :), (mem_of_offPorts hoff :), (lm_of_offPorts hoff :)⟩
  dsimp only
  split
  · obtain ⟨-, hmem, hlm, -⟩ := (bytes_eq_iff v _).1 (bytes_hint v c u.cmd)
    rwa [cores_hint, hmem, hlm]
  · exact hv

theorem now_drained (s : State) (p : Prop) [Decidable p] : (if p then s.drainAll else s).now = s.now := by
  split
  · exact (congrArg State.now (offPorts_drainAll s) :)
  · rfl

theorem exec_commandComplete {s : State} {c tk : Nat} {u : Started} (hu : (s.ctx c).startedAt tk = some u)
    (hended : u.stage = .ended) : exec (.commandComplete c tk) s = .next (
      if frontCore ≤ c then (s.completing c u).frontComplete c u (u.recordFlags s.now)
      else ((s.completing c u).leaveBarrier (((s.completing c u).ctx c).flock.getD 0) u).onCore c fun x =>
        ({ x with started := x.started.filter fun w => w.tk != tk } : Ctx).recordDone u (u.recordFlags s.now)) := by
  change execCommandComplete c tk s = _
  simp only [execCommandComplete, hu, hended, ne_eq, not_true, if_false, now_drained]
  rfl

section Record

variable (x : Ctx) (u : Started) (flags : BitVec 8)

theorem recordDone_started : (x.recordDone u flags).started = x.started := by
  unfold Ctx.recordDone
  dsimp only
  split_ifs <;> rfl

theorem recordDone_streams :
    (x.recordDone u flags).l = x.l ∧ (x.recordDone u flags).c = x.c ∧ (x.recordDone u flags).s = x.s := by
  unfold Ctx.recordDone
  dsimp only
  split_ifs <;> exact ⟨rfl, rfl, rfl⟩

theorem recordDone_records (h : u.cmd.records = true) :
    (x.recordDone u flags).f1 = x.f1 ++ [(u.value, completionWord u.cmd u.cnt flags u.status)] ∧
      (x.recordDone u flags).f1res = x.f1res - 1 := by
  unfold Ctx.recordDone
  simp only [h, if_true]
  split_ifs <;> exact ⟨rfl, rfl⟩

theorem recordDone_silent (h : u.cmd.records = false) : (x.recordDone u flags).f1 = x.f1 ∧
    (x.recordDone u flags).fcause = if u.status ≠ 0 ∧ x.fcause = 0 then u.status else x.fcause := by
  unfold Ctx.recordDone
  simp only [h, Bool.false_eq_true, if_false]
  by_cases hs : u.status = 0
  · simp only [hs, if_true, ne_eq, not_true, false_and, if_false]
    split_ifs <;> exact ⟨rfl, rfl⟩
  · simp only [ne_eq, hs, not_false_iff, true_and]
    split_ifs <;> simp_all [Ctx.ncFail]

end Record

/-- A command of a core leaves the started ones, and its record, or its failure, is kept (R304, R305, R308). -/
theorem commandComplete_core {s : State} {c tk : Nat} {u : Started} (hu : (s.ctx c).startedAt tk = some u)
    (hended : u.stage = .ended) (hc : c < frontCore) : ∃ t, exec (.commandComplete c tk) s = .next t ∧
      t.mem = s.mem ∧ t.lm = s.lm ∧ (∀ d, d ≠ c → t.ctx d = s.ctx d) ∧ t.ctx c =
        (({ s.ctx c with started := (s.ctx c).started.filter fun w => w.tk != tk } : Ctx).recordDone u
          (u.recordFlags s.now)).wake := by
  obtain ⟨hcores, hmem, hlm⟩ := completing_keeps s c u
  generalize hfl : ((s.completing c u).ctx c).flock.getD 0 = fl
  have hbar : ((s.completing c u).leaveBarrier fl u).cores = s.cores := by
    unfold State.leaveBarrier
    split
    · exact hcores
    · exact (cores_updBar ..).trans hcores
  obtain ⟨-, hbarmem, hbarlm, -⟩ := (bytes_eq_iff _ _).1 (bytes_leaveBarrier (s.completing c u) fl u)
  have hexec := exec_commandComplete hu hended
  rw [if_neg (Nat.not_le.2 hc), hfl] at hexec
  refine ⟨_, hexec, hbarmem.trans hmem, hbarlm.trans hlm, fun d hd => ?_, ?_⟩
  · rw [ctx_onCore_ne _ _ hd, ctx_congr hbar]
  · rw [ctx_onCore_same, ctx_congr hbar]

/-- A COPY packet's command leaves the started ones of the front end, unless the write of its record is to be tried again
(R390, log 32). -/
theorem commandComplete_front {s : State} {c tk : Nat} {u : Started} (hu : (s.ctx c).startedAt tk = some u)
    (hended : u.stage = .ended) (hc : frontCore ≤ c) :
    let v := s.completing c u
    let w := v.feWrite (v.partOf c) u.recAt (wordLE u.value ++ wordLE (completionWord u.cmd u.cnt (u.recordFlags s.now) u.status))
    (u.recAt = 0 ∨ w.2 ≠ .again) → ∃ t, exec (.commandComplete c tk) s = .next t ∧
      (t.ctx c).started = (s.ctx c).started.filter (fun w => w.tk != tk) ∧
      t.mem = (if u.recAt = 0 then v else w.1).mem ∧ t.hostMem = (if u.recAt = 0 then v else w.1).hostMem := by
  intro v w hw
  have hexec := exec_commandComplete hu hended
  rw [if_pos hc] at hexec
  have hfront : v.frontComplete c u (u.recordFlags s.now) = (if u.recAt = 0 then v else w.1).onCore c fun x =>
      { x with started := x.started.filter fun y => y.tk != u.tk
               f1res := if u.cmd.records then x.f1res - 1 else x.f1res } := by
    unfold State.frontComplete
    by_cases h0 : u.recAt = 0
    · simp only [if_pos h0]
    · simp only [if_neg h0]
      have hne := hw.resolve_left h0
      split
      · next hagain => exact absurd (congrArg Prod.snd hagain) hne
      · next hdone => rw [show w.1 = _ from congrArg Prod.fst hdone]
  have hcores : (if u.recAt = 0 then v else w.1).cores = s.cores := by
    have hv := (completing_keeps s c u).1
    split
    · exact hv
    · exact ((crew_eq_iff v _).1 (crew_feWrite ..)).2.1.trans hv
  refine ⟨_, hexec.trans (congrArg Host.Outcome.next hfront), ?_, rfl, rfl⟩
  rw [ctx_onCore_same, ctx_congr hcores, tk_of_startedAt hu]
  rfl

/-! ## Requests of started commands (R312, R325, R328) -/

/-- A started command goes on to a stage and sends a numbered request to the home of an address. -/
theorem updStarted_sends {s v : State} {c tk : Nat} {u : Started} (hoff : v.offPorts = s.offPorts)
    (hu : (s.ctx c).startedAt tk = some u) (stage : CmdStage) (addr : W64) (op : ReqOp) :
    let t := (v.updStarted c tk fun w => { w with stage := stage }).sendReq c tk false addr op
    ∃ q, (t.ctx c).startedAt tk = some { u with stage := stage } ∧ t.reqs = s.reqs ++ [q] ∧ q.sentBy s c addr op ∧
      t.mem = s.mem ∧ t.lm = s.lm := by
  obtain ⟨q, hreqs, hcore, haddr, hop, hnum, hrest⟩ :=
    sendReq_sentBy (v.updStarted c tk fun w => { w with stage := stage }) c tk addr op
  have hctx := ctx_of_offPorts hoff c
  have hu' : (v.ctx c).startedAt tk = some u := by rw [hctx]; exact hu
  refine ⟨q, ?_, hreqs.trans (congrArg (· ++ [q]) (reqs_of_offPorts hoff :)), ⟨hcore, haddr, hop, hnum.trans ?_, hrest⟩,
    (mem_of_offPorts hoff :), (lm_of_offPorts hoff :)⟩
  · rw [ctx_sendReq_numbered]
    exact startedAt_updStarted _ (fun _ => rfl) hu'
  · rw [State.updStarted, ctx_onCore_same]
    exact (congrArg Ctx.seqno hctx :)

theorem putfFlagAdd_sends {s : State} {c tk : Nat} {u : Started} (hu : (s.ctx c).startedAt tk = some u)
    (hflag : u.stage = .flag) (hbusy : (s.ctx c).handleBusy u = false) (hun : (s.ctx c).unanswered.length < 64) :
    exec (.putfFlagAdd c tk) s = .next (((s.visibleAt ((scopeOf u.cmd.fscope).getD .quad)).updStarted c tk fun w =>
      { w with stage := .flagSent }).sendReq c tk false u.cmd.flag (.putfAdd tk)) := by
  have hgo : ¬(u.stage ≠ .flag ∨ (s.ctx c).handleBusy u = true ∨ (!(s.ctx c).canSend) = true) := by
    simp [hflag, hbusy, (s.ctx c).canSend_iff.2 hun]
  change execPutfFlagAdd c tk s = _
  simp only [execPutfFlagAdd, hu, if_neg hgo]

theorem penumbraSettle_sends {s : State} {c tk : Nat} {u : Started} (gone : List Nat) (hu : (s.ctx c).startedAt tk = some u)
    (hpen : u.stage = .penumbra) (hun : (s.ctx c).unanswered.length < 64)
    (hdue : u.startedAt + u.cmd.win ≤ s.now ∨ s.ownCircuit c u.cmd.h u.circ = none) :
    exec (.penumbraSettle c tk gone) s = .next ((s.updStarted c tk fun w => { w with stage := .settling }).sendReq c tk false
      u.cmd.w1 (.settle tk (s.lostBlocks c u gone))) := by
  have hsettle : s.settleDueFor c u = true := by
    rw [State.settleDueFor, hpen]
    simpa using hdue
  have hgo : ¬((!s.settleDueFor c u) = true ∨ (!(s.ctx c).canSend) = true) := by
    simp [hsettle, (s.ctx c).canSend_iff.2 hun]
  change execPenumbraSettle c tk gone s = _
  simp only [execPenumbraSettle, hu, if_neg hgo]

section Lost

variable {s : State} {c : Nat} {u : Started} (gone : List Nat)

/-- On a live circuit the blocks lost are those named and those in flits that have not arrived (R325, R339). -/
theorem lostBlocks_live {k : Circuit} (hk : s.ownCircuit c u.cmd.h u.circ = some k) (hmap : s.circuitMap k ≠ [])
    (hbusy : (s.ctx c).handleBusy u = false) :
    s.lostBlocks c u gone = gone ++ (u.blocks.map (·.ix)).filter (s.inFlit c u) := by
  simp [State.lostBlocks, hk, hmap, hbusy]

/-- Where nothing more can be delivered, every block that has not been is lost (R309, R325, R327). -/
theorem lostBlocks_all (h : s.ownCircuit c u.cmd.h u.circ = none ∨
      (∃ k, s.ownCircuit c u.cmd.h u.circ = some k ∧ s.circuitMap k = []) ∨ (s.ctx c).handleBusy u = true) :
    s.lostBlocks c u gone = u.blocks.map (·.ix) := by
  rcases h with h | ⟨k, h, hmap⟩ | h
  · simp [State.lostBlocks, h]
  · simp [State.lostBlocks, h, hmap]
  · simp [State.lostBlocks, h]

end Lost

/-! ## What the home of one element writes (R316, R319 to R321) -/

/-- A home as it comes to a request: the storage, where it lies, and the requests are as they were. -/
structure AtHome (s z : State) : Prop where
  mem : z.mem = s.mem
  lm : z.lm = s.lm
  reqs : z.reqs = s.reqs
  keys : ∀ tile off, z.panelKey tile off = s.panelKey tile off

theorem atHome_noteFloor (s : State) (t : Nat) (r : Request) : AtHome s (s.noteFloor t r) :=
  ⟨rfl, rfl, rfl, fun tile off => panelKey_noteFloor s t tile off r⟩

theorem AtHome.dropNear {s z : State} (h : AtHome s z) (c : Nat) (lines : List Nat) : AtHome s (z.dropNear c lines) :=
  ⟨h.mem, h.lm, h.reqs, h.keys⟩

theorem AtHome.of_offPorts {s z y : State} (h : AtHome s z) (hoff : y.offPorts = z.offPorts) : AtHome s y :=
  ⟨(mem_of_offPorts hoff).trans h.mem, (lm_of_offPorts hoff).trans h.lm, (reqs_of_offPorts hoff).trans h.reqs,
    fun tile off => (congrArg (fun x : State => x.panelKey tile off) hoff).trans (h.keys tile off)⟩

/-- An element of tile storage has its new value, where it has one, and no other byte has changed. -/
structure Replaced (s t : State) (k n : Nat) (new : Option Nat) : Prop where
  lm : t.lm = s.lm
  reqs : t.reqs = s.reqs
  element : Memory.readN t.mem k n = match new with
    | some e => natLE n e
    | none => Memory.readN s.mem k n
  frame : ∀ a, (a < k ∨ k + n ≤ a) → Memory.read t.mem a = Memory.read s.mem a

theorem rmwAt_panel {s z : State} (h : AtHome s z) {tile off n : Nat} (f : Nat → Option Nat)
    (hpoison : z.poisonedLoc (.panel tile off) n = false) :
    let k := s.panelKey tile off
    let old := leNat (Memory.readN s.mem k n)
    ∃ w, z.rmwAt (.panel tile off) n f = (.ok old, w) ∧ Replaced s w k n (f old) := by
  intro k old
  have hread : z.readLoc (.panel tile off) n = Memory.readN s.mem k n := by rw [State.readLoc, h.mem, h.keys]
  refine ⟨match f old with
    | some v => z.writeLoc (.panel tile off) (natLE n v)
    | none => z, ?_, ?_⟩
  · simp only [State.rmwAt, hpoison, hread, Bool.false_eq_true, if_false]
    rfl
  cases f old with
  | none => exact ⟨h.lm, h.reqs, by rw [h.mem], fun a _ => by rw [h.mem]⟩
  | some v =>
    have hwrote := writeLoc_wrote z (loc := .panel tile off) (natLE n v) trivial
    have hmem : (z.writeLoc (.panel tile off) (natLE n v)).mem = Memory.writeN s.mem k (natLE n v) := by
      refine hwrote.bytes.trans ?_
      rw [State.keyAt, h.keys, State.bytesAt, h.mem]
    refine ⟨hwrote.elsewhere.1.trans h.lm, (reqs_writeLoc_panel ..).trans h.reqs, ?_, fun a ha => ?_⟩
    · have hreadN := Memory.readN_writeN s.mem k (natLE n v)
      rw [length_natLE] at hreadN
      rw [hmem, hreadN]
    · rw [hmem]
      exact Memory.read_writeN_outside _ _ _ _ (by rwa [length_natLE])

/-- What the home of a command on one element finds: the lines it writes have left the near cache, and what its release demands
is visible (R308, R316). -/
def State.elementHome (s : State) (r : Request) (u : Started) : State :=
  let v := (s.noteFloor (s.ingress r) r).dropNear r.core u.cmd.linesWritten
  if u.cmd.opc = 0x0B then v.visibleAt ((scopeOf u.cmd.fscope).getD .quad) else v

theorem atHome_elementHome (s : State) (r : Request) (u : Started) : AtHome s (s.elementHome r u) := by
  have h := (atHome_noteFloor s (s.ingress r) r).dropNear r.core u.cmd.linesWritten
  unfold State.elementHome
  dsimp only
  split
  · exact h.of_offPorts (offPorts_visibleAt ..)
  · exact h

/-- A command on one element has no transfer to make (R316, R319 to R321). -/
theorem perform_element {s : State} {c : Nat} {u : Started} (hhv : u.cmd.hv = false)
    (hopc : isAtomic u.cmd.opc = true ∨ u.cmd.opc = 0x0B) : s.perform c u = s.doAtomic c u.cmd := by
  obtain ⟨h5, h7, h9⟩ : u.cmd.opc ≠ 5 ∧ u.cmd.opc ≠ 7 ∧ u.cmd.opc ≠ 9 := by
    simp only [isAtomic, Bool.and_eq_true, decide_eq_true_eq] at hopc
    omega
  simp [State.perform, State.flagFirst, hhv, h5, h7, h9, hopc.symm]

/-! ## The settlement of a penumbra transfer (R325) -/

/-- The cores and the requests in flight, which the writes of a home leave alone. -/
def State.desk (s : State) : AMap Ctx × List Request := (s.cores, s.reqs)

theorem desk_writeLoc (s : State) (loc : Loc) (bs : List Byte) : (s.writeLoc loc bs).desk = s.desk := by
  cases loc with
  | panel t o =>
    simp only [State.writeLoc]
    split <;> rfl
  | lm c o => rfl
  | host port a atomics =>
    have hoff := offPorts_acceptHost s port a bs
    exact Prod.ext (cores_of_offPorts hoff :) (reqs_of_offPorts hoff :)
  | foreign p => rfl

theorem desk_writeLeft (s : State) (loc : Loc) (bs : List Byte) (todo : Option (List Nat)) :
    (s.writeLeft loc bs todo false).desk = s.desk := by
  cases todo with
  | none => exact desk_writeLoc s loc bs
  | some is =>
    have hclear (u : State) : (u.clearLoc loc bs.length).desk = u.desk := by cases loc <;> rfl
    exact (hclear _).trans (foldl_keeps State.desk _ (fun s i => desk_writeLoc ..) is s)

theorem desk_of_writeBlock {s t : State} {c : Nat} {d : W64} {bs : List Byte} {todo : Option (List Nat)}
    (h : s.writeBlock c d bs todo = .ok t) : t.desk = s.desk := by
  unfold State.writeBlock at h
  split at h
  · cases h
    exact desk_writeLeft ..
  · cases h

theorem desk_of_putBlocks {c : Nat} {isLost : PenBlock → Bool} (bs : List PenBlock) : ∀ {s t : State},
    s.putBlocks c isLost bs = .ok t → t.desk = s.desk := by
  induction bs with
  | nil =>
    intro s t h
    cases h
    rfl
  | cons b bs ih =>
    intro s t h
    rw [State.putBlocks] at h
    split at h
    · cases h
    · next u hu =>
      refine (ih h).trans ?_
      split at hu <;> exact desk_of_writeBlock hu

theorem desk_of_putMask {s t : State} {c i : Nat} {r : CmdRecord} {valid : Bool} (h : s.putMask c r i valid = .ok t) :
    t.desk = s.desk := by
  unfold State.putMask at h
  dsimp only at h
  split at h
  · cases h
    exact desk_writeLoc ..
  · cases h
  · cases h
  · split at h
    · cases h
      rfl
    · cases h

theorem desk_of_putMasks {s : State} {c : Nat} {r : CmdRecord} {lost : List Nat} (n : Nat) : ∀ {t : State},
    s.putMasks c r lost n = .ok t → t.desk = s.desk := by
  induction n with
  | zero =>
    intro t h
    cases h
    rfl
  | succ n ih =>
    intro t h
    rw [State.putMasks] at h
    split at h
    · cases h
    · next u hu => exact (desk_of_putMask h).trans (ih hu)

theorem desk_of_putTrailer {s t : State} {c lost : Nat} {r : CmdRecord} (h : s.putTrailer c r lost = .ok t) :
    t.desk = s.desk := by
  unfold State.putTrailer at h
  dsimp only at h
  split at h
  · cases h
    rfl
  · split at h
    · cases h
      exact (desk_writeLoc ..).trans (desk_writeLoc ..)
    · cases h
    · cases h
    · cases h
      rfl

/-- The blocks of a transfer that its settlement counts as lost. -/
def Started.lostIn (u : Started) (gone : List Nat) : List Nat :=
  (u.blocks.filter fun b => b.bad || gone.contains b.ix).map (·.ix)

/-- A penumbra transfer that has settled: no block is left to deliver. -/
def Started.settled (u : Started) (lost : List Nat) : Started := { u with blocks := [], lost := lost }

/-- A settlement that is made keeps the blocks lost with its command, and answers with the bytes of the others, however far
its writes got. -/
theorem settleAt_done {s w : State} {c : Nat} {u : Started} {gone : List Nat} {k : Cause} {x : W64} {cnt : Nat}
    {flags : BitVec 8} (h : s.settleAt c u gone = .done w k x cnt flags) :
    x = BitVec.ofNat 64 (64 * (u.nblocks - (u.lostIn gone).length)) ∧ cnt = min 65535 (u.lostIn gone).length ∧
      flags = (if u.lostIn gone = [] then 0 else 2) ∧
      ∃ (v : State) (ls : List Nat), w = v.updStarted c u.tk (fun y => y.settled (u.lostIn gone)) ∧
        (v.desk = s.desk ∨ v.desk = (s.dropNear c ls).desk) := by
  unfold State.settleAt at h
  dsimp only at h
  split at h
  · cases h
  · cases h
    exact ⟨rfl, rfl, rfl, s, [], rfl, .inl rfl⟩
  · next s1 h1 =>
    have h1 := desk_of_putBlocks _ h1
    split at h
    · cases h
    · cases h
      exact ⟨rfl, rfl, rfl, s1, _, rfl, .inr h1⟩
    · next s2 h2 =>
      have h2 := (desk_of_putMasks _ h2).trans h1
      split at h
      · cases h
      · cases h
        exact ⟨rfl, rfl, rfl, s2, _, rfl, .inr h2⟩
      · next s3 h3 =>
        have h3 : s3.desk = s2.desk := by
          split at h3
          · exact desk_of_putTrailer h3
          · cases h3
            rfl
        cases h
        exact ⟨rfl, rfl, rfl, s3, _, rfl, .inr (h3.trans h2)⟩

/-! ## Commands at their homes (R304, R329) -/

/-- A started command whose home has performed it, with what the home found. -/
def Started.performed (u : Started) (k : Cause) (x : W64) (cnt : Nat) (flags : BitVec 8) : Started :=
  { u with status := k, value := x, cnt := cnt, flags := u.flags ||| flags }

section Home

variable {s : State} {ix tk : Nat} {r : Request} {u : Started} (h : s.Arrives ix r)
  (hu : (s.ctx r.core).startedAt tk = some u)

include h in
/-- What a home has made of a command's accesses is its answer, and is kept with the command (R304, R329). -/
theorem exec_homeRequest_performed {w : State} {k : Cause} {x : W64} {cnt : Nat} {flags : BitVec 8}
    (hserve : (s.noteFloor (s.ingress r) r).serve r = (s.noteFloor (s.ingress r) r).servePerformed r tk (.done w k x cnt flags)) :
    ∃ t, exec (.homeRequest ix) s = .next t ∧ t.mem = w.mem ∧ t.lm = w.lm ∧
      t.reqs = w.reqs.set ix { r with stage := .answered k 0 (wordLE x) [] } ∧
      t.cores = (w.updStarted r.core tk fun u => u.performed k x cnt flags).cores :=
  ⟨_, exec_homeRequest_done h hserve, rfl, rfl, rfl, rfl⟩

include hu

theorem serve_putfAdd (hop : r.op = .putfAdd tk) : (s.noteFloor (s.ingress r) r).serve r =
    (s.noteFloor (s.ingress r) r).servePerformed r tk ((s.noteFloor (s.ingress r) r).putfAddAt r.core u) := by
  have hu' : ((s.noteFloor (s.ingress r) r).ctx r.core).startedAt tk = some u := hu
  simp only [State.serve, hop, hu']

theorem serve_settle {gone : List Nat} (hop : r.op = .settle tk gone) : (s.noteFloor (s.ingress r) r).serve r =
    (s.noteFloor (s.ingress r) r).servePerformed r tk ((s.noteFloor (s.ingress r) r).settleAt r.core u gone) := by
  have hu' : ((s.noteFloor (s.ingress r) r).ctx r.core).startedAt tk = some u := hu
  simp only [State.serve, hop, hu']

/-- A command that is bound to no handle, and is of the reliable class, is performed at once (R309). -/
theorem serve_command (hop : r.op = .command tk) (hhv : u.cmd.hv = false) (hcls : u.cmd.cls = false) :
    (s.noteFloor (s.ingress r) r).serve r = (s.noteFloor (s.ingress r) r).servePerformed r tk
      (((s.noteFloor (s.ingress r) r).dropNear r.core u.cmd.linesWritten).perform r.core u) := by
  have hu' : ((s.noteFloor (s.ingress r) r).ctx r.core).startedAt tk = some u := hu
  simp [State.serve, hop, hu', State.serveCommand, hcls, Ctx.handleBusy, hhv, State.circuitDark, tk_of_startedAt hu]

include h

/-- The home of a PUTF's flag adds 1 to it (R312). -/
theorem homeRequest_putfAdd {tile off : Nat} (hop : r.op = .putfAdd tk)
    (hflag : (s.noteFloor (s.ingress r) r).homeFlag ((s.noteFloor (s.ingress r) r).asker r.core) u.cmd.flag =
      .done 0 0 [] [.panel tile off])
    (hpoison : (s.noteFloor (s.ingress r) r).poisonedLoc (.panel tile off) 8 = false) :
    ∃ t, exec (.homeRequest ix) s = .next t ∧
      t.reqs = s.reqs.set ix { r with stage := .answered 0 0 (wordLE u.value) [] } ∧
      leWord (Memory.readN t.mem (s.panelKey tile off) 8) = leWord (Memory.readN s.mem (s.panelKey tile off) 8) + 1 ∧
      (∀ a, (a < s.panelKey tile off ∨ s.panelKey tile off + 8 ≤ a) → Memory.read t.mem a = Memory.read s.mem a) ∧
      t.lm = s.lm := by
  obtain ⟨w, hrmw, hlm, hreqs, helement, hframe⟩ :=
    rmwAt_panel ((atHome_noteFloor s (s.ingress r) r).dropNear r.core [u.cmd.flag.toNat / 256])
      (fun old => some ((old + 1) % 2 ^ 64)) hpoison
  have hflag' : (s.noteFloor (s.ingress r) r).homeFlag ((s.noteFloor (s.ingress r) r).asker r.core) u.cmd.flag =
      .done 0#8 0 [] [.panel tile off] := hflag
  have hput : (s.noteFloor (s.ingress r) r).putfAddAt r.core u = .done w 0 u.value u.cnt 0 := by
    simp only [State.putfAddAt, hflag', hrmw]
  obtain ⟨t, hexec, htmem, htlm, htreqs, -⟩ := exec_homeRequest_performed h ((serve_putfAdd hu hop).trans (by rw [hput]))
  refine ⟨t, hexec, htreqs.trans (by rw [hreqs]), ?_, fun a ha => ?_, htlm.trans hlm⟩
  · rw [htmem, helement, leWord, leNat_natLE, leWord]
    apply BitVec.eq_of_toNat_eq
    simp [BitVec.toNat_add]
  · rw [htmem, hframe a ha]

/-- SIGNAL and the commands on one element replace it, and answer with the old one (R316, R319 to R321). -/
theorem homeRequest_element {tile off : Nat} {tlb : Option TlbEntry} (hop : r.op = .command tk) (hhv : u.cmd.hv = false)
    (hcls : u.cmd.cls = false) (hopc : isAtomic u.cmd.opc = true ∨ u.cmd.opc = 0x0B)
    (hcheck : (s.elementHome r u).homeCheck ((s.elementHome r u).asker r.core) .atomic u.cmd.w1.toNat u.cmd.elemBytes =
      .ok (.panel tile off) tlb)
    (hpoison : (s.elementHome r u).poisonedLoc (.panel tile off) u.cmd.elemBytes = false) :
    let k := s.panelKey tile off
    let old := leNat (Memory.readN s.mem k u.cmd.elemBytes)
    ∃ t, exec (.homeRequest ix) s = .next t ∧
      t.reqs = s.reqs.set ix { r with stage := .answered 0 0 (wordLE (BitVec.ofNat 64 old)) [] } ∧
      Memory.readN t.mem k u.cmd.elemBytes = (match u.cmd.newElem old with
        | some e => natLE u.cmd.elemBytes e
        | none => Memory.readN s.mem k u.cmd.elemBytes) ∧
      (∀ a, (a < k ∨ k + u.cmd.elemBytes ≤ a) → Memory.read t.mem a = Memory.read s.mem a) ∧ t.lm = s.lm := by
  intro k old
  obtain ⟨w, hrmw, hlm, hreqs, helement, hframe⟩ := rmwAt_panel (atHome_elementHome s r u) u.cmd.newElem hpoison
  have hatomic : ((s.noteFloor (s.ingress r) r).dropNear r.core u.cmd.linesWritten).doAtomic r.core u.cmd =
      .done w 0 (BitVec.ofNat 64 old) 0 (if u.cmd.opc = 0x17 ∧ old = u.cmd.w4.toNat then 4 else 0) := by
    unfold State.elementHome at hcheck hrmw
    simp only [State.doAtomic, hcheck, hrmw]
    rfl
  have hperform : ((s.noteFloor (s.ingress r) r).dropNear r.core u.cmd.linesWritten).perform r.core u = _ :=
    Eq.trans (perform_element hhv hopc) hatomic
  obtain ⟨t, hexec, htmem, htlm, htreqs, -⟩ :=
    exec_homeRequest_performed h ((serve_command hu hop hhv hcls).trans (by rw [hperform]))
  exact ⟨t, hexec, htreqs.trans (by rw [hreqs]), by rw [htmem, helement], fun a ha => by rw [htmem, hframe a ha], htlm.trans hlm⟩

/-- The home of a settlement counts the blocks lost and answers with the bytes of the others (R304, R325). -/
theorem homeRequest_settle {gone : List Nat} (hop : r.op = .settle tk gone) {w : State} {k : Cause} {x : W64} {cnt : Nat}
    {flags : BitVec 8} (hdone : (s.noteFloor (s.ingress r) r).settleAt r.core u gone = .done w k x cnt flags) :
    let value := BitVec.ofNat 64 (64 * (u.nblocks - (u.lostIn gone).length))
    ∃ t, exec (.homeRequest ix) s = .next t ∧
      t.reqs = s.reqs.set ix { r with stage := .answered k 0 (wordLE value) [] } ∧
      (t.ctx r.core).startedAt tk = some ((u.settled (u.lostIn gone)).performed k value (min 65535 (u.lostIn gone).length)
        (if u.lostIn gone = [] then 0 else 2)) := by
  intro value
  obtain ⟨rfl, rfl, rfl, v, ls, rfl, hdesk⟩ := settleAt_done hdone
  obtain ⟨t, hexec, -, -, htreqs, htcores⟩ := exec_homeRequest_performed h ((serve_settle hu hop).trans (by rw [hdone]))
  have hreqs : v.reqs = s.reqs := by rcases hdesk with hd | hd <;> exact (congrArg Prod.snd hd :)
  have hv : (v.ctx r.core).startedAt tk = some u := by
    rcases hdesk with hd | hd
    · rw [ctx_congr (congrArg Prod.fst hd :)]
      exact hu
    · rw [ctx_congr (congrArg Prod.fst hd :), State.dropNear, State.ctx_updCtx_same]
      exact hu
  refine ⟨t, hexec, htreqs.trans (congrArg (fun rs : List Request => rs.set ix _) hreqs), ?_⟩
  have hsettled := startedAt_updStarted (fun y => y.settled (u.lostIn gone)) (fun _ => rfl) hv
  rw [← tk_of_startedAt hu] at hsettled htcores ⊢
  rw [ctx_congr htcores]
  exact startedAt_updStarted _ (by intro _; rfl) hsettled

end Home

/-- Settles O40: the record of each command that has ended, the requests that started commands send, and what their homes write
and answer. -/
theorem commandsComplete : Obligations.CommandsComplete := by
  refine ⟨fun c tk s u hu hended hc => ?core, fun c tk s u hu hended hc hw => commandComplete_front hu hended hc hw,
    fun c tk s u hu hflag hbusy hun => ?flag, fun ix tk tile off s r u h hop hu hflag hpoison =>
      homeRequest_putfAdd h hu hop hflag hpoison, fun ix tk tile off tlb s r u h hop hu hhv hcls hopc hcheck hpoison =>
      homeRequest_element h hu hop hhv hcls hopc hcheck hpoison, fun c tk gone s u hu hpen hun hdue => ?penumbra,
    fun ix tk gone s r u h hop hu w k x cnt flags hdone => homeRequest_settle h hu hop hdone⟩
  case core =>
    obtain ⟨t, hexec, hmem, hlm, hother, hctx⟩ := commandComplete_core hu hended hc
    obtain ⟨hl, hcs, hs⟩ := recordDone_streams
      ({ s.ctx c with started := (s.ctx c).started.filter fun w => w.tk != tk } : Ctx) u (u.recordFlags s.now)
    refine ⟨t, hexec, ?_, fun hrec => ?_, fun hrec => ?_, ?_, ?_, ?_, hmem, hlm, hother⟩
    · rw [hctx]
      exact recordDone_started ..
    · rw [hctx]
      exact recordDone_records _ u (u.recordFlags s.now) hrec
    · rw [hctx]
      exact recordDone_silent _ u (u.recordFlags s.now) hrec
    · rw [hctx]
      exact (congrArg StreamState.g hl :)
    · rw [hctx]
      exact (congrArg StreamState.g hcs :)
    · rw [hctx]
      exact (congrArg StreamState.g hs :)
  case flag =>
    obtain ⟨q, hsent⟩ := updStarted_sends (offPorts_visibleAt s ((scopeOf u.cmd.fscope).getD .quad)) hu .flagSent u.cmd.flag
      (.putfAdd tk)
    exact ⟨_, q, putfFlagAdd_sends hu hflag hbusy hun, hsent⟩
  case penumbra =>
    obtain ⟨q, hstarted, hreqs, hsent, hmem, hlm⟩ :=
      updStarted_sends rfl hu .settling u.cmd.w1 (.settle tk (s.lostBlocks c u gone))
    exact ⟨_, q, s.lostBlocks c u gone, penumbraSettle_sends gone hu hpen hun hdue, hstarted, hreqs, hsent, hmem, hlm,
      fun k hk hmap hbusy => lostBlocks_live gone hk hmap hbusy, fun hnone => lostBlocks_all gone hnone⟩

end Sys2Proof.Machine
